-- ==== Sys2Proof/Word.lean ====
section
/-! DEFINITION. The widths of the machine's words (R1, R6, R74) and the plain lane mask. -/

namespace Sys2Proof

/-- A byte of memory. -/
abbrev Byte := BitVec 8

/-- A 16-bit value: an element of a packed pair, a norm (L16), a direction component. -/
abbrev Half := BitVec 16

/-- A 32-bit value: an instruction word, a scalar register, one lane of a vector register. -/
abbrev Word := BitVec 32

/-- A 64-bit value: a pointer, a register pair, a queue entry, a tick of the time base (R3). -/
abbrev DWord := BitVec 64

/-- One bit per lane of a team of at most 1,024 lanes (R77, R251). -/
abbrev Mask := BitVec 1024

/-- The pair whose low half is `lo` and whose high half is `hi` (R264: the even register is low). -/
def Word.pair (lo hi : Word) : DWord := hi ++ lo

/-- Bits 31:0 of a 64-bit value. -/
def DWord.lo (x : DWord) : Word := x.setWidth 32

/-- Bits 63:32 of a 64-bit value. -/
def DWord.hi (x : DWord) : Word := (x >>> 32).setWidth 32

/-- Bit `l` of a lane mask: lane `l` (R72). -/
def Mask.lane (m : Mask) (l : Nat) : Bool := m.getLsbD l

/-- The mask of the single lane `l`; empty at and above 1,024. -/
def Mask.one (l : Nat) : Mask := 1#1024 <<< l

/-- The mask of lanes 0 to `n - 1`. -/
def Mask.upTo (n : Nat) : Mask := ~~~(BitVec.allOnes 1024 <<< n)

/-- `m` with lane `l` set to `b`. -/
def Mask.put (m : Mask) (l : Nat) (b : Bool) : Mask :=
  if b then m ||| Mask.one l else m &&& ~~~ Mask.one l

/-- The mask of the lanes of the list. -/
def Mask.ofList : List Nat → Mask
  | [] => 0
  | l :: ls => Mask.ofList ls ||| Mask.one l

/-- The lanes of a mask among lanes 0 to `n - 1`, ascending. -/
def Mask.lanes (m : Mask) (n : Nat) : List Nat := (List.range n).filter m.lane

end Sys2Proof
end

