-- ==== Sys2Proof/Machine/Bits.lean ====
section
/-! DEFINITION. Bytes and words in little-endian order (R6), bit fields, sign extension, and the CRCs the spec
names (R15, R172, R175). -/

namespace Sys2Proof.Machine

open Sys2Proof

/-- The `n` bytes of a number, least significant first (R6). -/
def bytesOf (n x : Nat) : List Byte := (List.range n).map fun i => BitVec.ofNat 8 (x >>> (8 * i))

/-- The number of a list of bytes, least significant first (R6). -/
def natOf : List Byte → Nat
  | [] => 0
  | b :: bs => b.toNat + 256 * natOf bs

/-- Bits `lo + n - 1` to `lo` of a number. -/
def field (x lo n : Nat) : Nat := (x >>> lo) % 2 ^ n

/-- A bit of a number. -/
def bit (x i : Nat) : Bool := x.testBit i

/-- The `n` low bits of a number read as a signed integer. -/
def signed (n x : Nat) : Int :=
  let y := x % 2 ^ n
  if y < 2 ^ (n - 1) then (y : Int) else (y : Int) - 2 ^ n

/-- An integer modulo 2^n, as a natural number. -/
def wrap (n : Nat) (x : Int) : Nat := (x % (2 ^ n : Int)).toNat

/-- An integer clamped to a range. -/
def clamp (lo hi x : Int) : Int := if x < lo then lo else if hi < x then hi else x

/-- `n` bytes from offset `o` of a list, as a number; missing bytes read 0. -/
def le (bs : List Byte) (o n : Nat) : Nat := natOf ((bs.drop o).take n)

/-- Take `f` of the chunks of `k` elements of a list, at most `fuel` of them. -/
def chunks {α : Type} (k : Nat) : Nat → List α → List (List α)
  | 0, _ => []
  | _, [] => []
  | fuel + 1, l => l.take k :: chunks k fuel (l.drop k)

/-- One bit of a CRC whose register shifts left: polynomial `poly`, width `w`. -/
def crcLeft (w poly : Nat) : Nat → Nat → Nat
  | 0, r => r
  | n + 1, r =>
    let r' := (r <<< 1) % 2 ^ w
    crcLeft w poly n (if r.testBit (w - 1) then r' ^^^ poly else r')

/-- CRC-64 with the ECMA-182 polynomial, most significant bit first, start value 0, no final inversion (R15,
R172; DEDUCED, log 10). -/
def crc64 (bs : List Byte) : Nat :=
  bs.foldl (fun r b => crcLeft 64 0x42F0E1EBA9EA3693 8 (r ^^^ (b.toNat <<< 56))) 0

/-- One bit of a CRC whose register shifts right. -/
def crcRight (poly : Nat) : Nat → Nat → Nat
  | 0, r => r
  | n + 1, r => crcRight poly n (if r.testBit 0 then (r >>> 1) ^^^ poly else r >>> 1)

/-- CRC-32C (Castagnoli), reflected, start and final value all ones (R175; DEDUCED, log 10). -/
def crc32c (bs : List Byte) : Word :=
  BitVec.ofNat 32 (bs.foldl (fun r b => crcRight 0x82F63B78 8 (r ^^^ b.toNat)) 0xFFFFFFFF ^^^ 0xFFFFFFFF)

end Sys2Proof.Machine
end

