-- ==== Sys2Proof/Config.lean ====
section
/-! DEFINITION. What one F7 fixes, and the values the spec leaves open: constants with no body, about which
nothing can be proved (log 3, log 5). -/

namespace Sys2Proof.Config

open Sys2Proof

/-- A byte the spec leaves unspecified, one per use (R373; log 5). -/
opaque freeByte : Nat → Byte

/-- A 64-bit value the spec leaves unspecified, one per use (R373; log 5). -/
opaque freeDWord : Nat → DWord

/-- A choice the spec leaves open, one per use (log 5). -/
opaque freeBool : Nat → Bool

/-- SHAKE256 with 64 bytes of output (R22, R23, R25; log 3). -/
opaque shake256 : List Byte → List Byte

/-- The Ed448 signature with the identity key of the secure element (R24, R25; log 3). -/
opaque ed448Sign : List Byte → List Byte

/-- The bytes of first-stage image `n` (R23; log 3). -/
opaque firstStage : Nat → List Byte

/-- The bytes of the service firmware, the resident service and the configuration image (R23, R24; log 3). -/
opaque laterStage : Fin 3 → List Byte

/-- The clock in Hz of a die that runs on a margin table, by the grains it holds (R9, R22, R67; log 3). -/
opaque clockHz : List Byte → Nat → Nat

/-- The rates per direction in Mb/s of an Ultra Ethernet port and a fabric port (R14, R15), and of a CXL port at 64 and at
32 GT/s over 16 lanes (R11, R12). -/
def uecRate : Nat := 800000
def fabricRate : Nat := 1280000
def cxlRate (slow : Bool) : Nat := if slow then 512000 else 1024000

/-- Flits of a fabric port's replay buffer (R16). -/
def replayFlits : Nat := 512

/-- The node number of this F7's configuration image is `State.mod.node` (R17); the pool of grains beyond the floors
of the dies (R20). -/
def poolGrains : Nat := 92000

/-- The floor of a die (R20). -/
def floorGrains (die : Nat) : Nat := if die < 12 then 4000 else 10000

/-- The most grains a compute die ever holds (R20); the spec caps no hub die (log 7). -/
def capGrains (die : Nat) : Option Nat := if die < 12 then some 24000 else none

/-- Cores of the device (R71). -/
def cores : Nat := 384

/-- Lines of 128 bytes in the L1 data cache of a cluster, the instruction cache of a cluster and that of a core (R71). -/
def l1Lines : Nat := 1024
def clusterCodeLines : Nat := 512
def coreCodeLines : Nat := 4096

/-- Ticks of an assay period and of the scan (R171). -/
def assayPeriod : Nat := 3400000
def assayScan : Nat := 680000

/-- Packets a processor holds between fetch and DONE, and between DONE and CONFIRMED (R52). -/
def packetsInFlight : Nat := 64
def packetsUnconfirmed : Nat := 1024

end Sys2Proof.Config
end

