-- ==== Sys2Proof/Machine/Causes.lean ====
section
/-! DEFINITION. Trap classes and causes (R101, R156). -/

namespace Sys2Proof.Machine

/-- The trap classes of R156. -/
inductive TrapClass where
  | translation | format | alignment | illegalClause | illegalInstruction | illegalOperand | allotment
  | staleLatch | promiseMissed | shuffleRange | breakpoint | watchpoint | step | touchstone | software
  deriving DecidableEq, Repr

/-- The causes of R101 and R156. A breakpoint or watchpoint cause names its register; a software cause
carries the immediate of TRAP. -/
inductive Cause where
  | noncanonical | regionInvalid | regionBounds | regionDenied | notMapped | leafInvalid | migrating
  | privileged | noRead | noWrite | noExecute | noAtomic | planeRange | planeOwner | phaseAccess
  | remoteDenied | remoteUnreachable
  | formatOp | scaleStrip | partialBlock
  | align
  | signature | countZero | eclass | clauseRsv | fetchTarget
  | opcode | subop | type | rsvBits | specialReg | context
  | general | oddPair | roSpecial | partValue | queueBinding | queueStarved | windowInvalid | bindFull
  | kvDescriptor | latchNorm | cupelPair | trstValue
  | allotBounds
  | stale
  | promise
  | shflIndex
  | breakpoint (n : Fin 4)
  | watchpoint (n : Fin 4)
  | step
  | mismatch
  | software (n : BitVec 7)
  deriving DecidableEq, Repr

/-- The causes that halt a team and do not enter the handler (R156, R167). -/
inductive HaltCause where
  | uncorrectable | doubleTrap | halted
  deriving DecidableEq, Repr

/-- The cause code of a halt (R156). -/
def HaltCause.code : HaltCause → Byte
  | .uncorrectable => 0x78 | .doubleTrap => 0x79 | .halted => 0x7A

/-- The class number of R156. -/
def TrapClass.code : TrapClass → Byte
  | .translation => 0x01 | .format => 0x02 | .alignment => 0x03 | .illegalClause => 0x04
  | .illegalInstruction => 0x05 | .illegalOperand => 0x06 | .allotment => 0x07 | .staleLatch => 0x08
  | .promiseMissed => 0x09 | .shuffleRange => 0x0A | .breakpoint => 0x0B | .watchpoint => 0x0C
  | .step => 0x0D | .touchstone => 0x0E | .software => 0x0F

/-- The 8-bit cause code of R101 and R156. -/
def Cause.code : Cause → Byte
  | .noncanonical => 0x01 | .regionInvalid => 0x02 | .regionBounds => 0x03 | .regionDenied => 0x04
  | .notMapped => 0x05 | .leafInvalid => 0x06 | .migrating => 0x07 | .privileged => 0x08
  | .noRead => 0x09 | .noWrite => 0x0A | .noExecute => 0x0B | .noAtomic => 0x0C
  | .planeRange => 0x0D | .planeOwner => 0x0E | .phaseAccess => 0x0F | .remoteDenied => 0x10
  | .remoteUnreachable => 0x11
  | .formatOp => 0x18 | .scaleStrip => 0x19 | .partialBlock => 0x1A
  | .align => 0x20
  | .signature => 0x28 | .countZero => 0x29 | .eclass => 0x2A | .clauseRsv => 0x2B | .fetchTarget => 0x2C
  | .opcode => 0x30 | .subop => 0x31 | .type => 0x32 | .rsvBits => 0x33 | .specialReg => 0x34
  | .context => 0x35
  | .general => 0x40 | .oddPair => 0x41 | .roSpecial => 0x42 | .partValue => 0x43 | .queueBinding => 0x44
  | .queueStarved => 0x45 | .windowInvalid => 0x46 | .bindFull => 0x47 | .kvDescriptor => 0x48
  | .latchNorm => 0x49 | .cupelPair => 0x4A | .trstValue => 0x4B
  | .allotBounds => 0x50
  | .stale => 0x51
  | .promise => 0x58
  | .shflIndex => 0x59
  | .breakpoint n => 0x60 + BitVec.ofNat 8 n.val
  | .watchpoint n => 0x64 + BitVec.ofNat 8 n.val
  | .step => 0x68
  | .mismatch => 0x70
  | .software n => 0x80 + n.setWidth 8

/-- The class a cause belongs to (R156). -/
def Cause.cls : Cause → TrapClass
  | .noncanonical | .regionInvalid | .regionBounds | .regionDenied | .notMapped | .leafInvalid | .migrating
  | .privileged | .noRead | .noWrite | .noExecute | .noAtomic | .planeRange | .planeOwner | .phaseAccess
  | .remoteDenied | .remoteUnreachable => .translation
  | .formatOp | .scaleStrip | .partialBlock => .format
  | .align => .alignment
  | .signature | .countZero | .eclass | .clauseRsv | .fetchTarget => .illegalClause
  | .opcode | .subop | .type | .rsvBits | .specialReg | .context => .illegalInstruction
  | .general | .oddPair | .roSpecial | .partValue | .queueBinding | .queueStarved | .windowInvalid
  | .bindFull | .kvDescriptor | .latchNorm | .cupelPair | .trstValue => .illegalOperand
  | .allotBounds => .allotment
  | .stale => .staleLatch
  | .promise => .promiseMissed
  | .shflIndex => .shuffleRange
  | .breakpoint _ => .breakpoint
  | .watchpoint _ => .watchpoint
  | .step => .step
  | .mismatch => .touchstone
  | .software _ => .software

end Sys2Proof.Machine
end

