-- ==== Sys2Proof/Machine/Store.lean ====
section
/-! DEFINITION. Sparse data by key: a list of key and value pairs in one canonical form (keys strictly rising),
and, over it, a store whose unlisted keys read as one default and which lists no entry equal to that default. -/

namespace Sys2Proof.Machine

/-- Key and value pairs, keys strictly rising. -/
abbrev Tbl (α : Type) := List (Nat × α)

/-- The value listed under `k`. -/
def Tbl.get? {α : Type} : Tbl α → Nat → Option α
  | [], _ => none
  | (k', v) :: t, k => if k = k' then some v else Tbl.get? t k

/-- List `v` under `k`, in its place. -/
def Tbl.put {α : Type} : Tbl α → Nat → α → Tbl α
  | [], k, v => [(k, v)]
  | (k', v') :: t, k, v =>
    if k < k' then (k, v) :: (k', v') :: t
    else if k = k' then (k, v) :: t
    else (k', v') :: Tbl.put t k v

/-- List nothing under `k`. -/
def Tbl.del {α : Type} : Tbl α → Nat → Tbl α
  | [], _ => []
  | (k', v') :: t, k => if k = k' then Tbl.del t k else (k', v') :: Tbl.del t k

/-- Change the value listed under `k`, if there is one. -/
def Tbl.upd {α : Type} (t : Tbl α) (k : Nat) (f : α → α) : Tbl α :=
  match t.get? k with
  | none => t
  | some v => t.put k (f v)

/-- The keys, ascending. -/
def Tbl.keys {α : Type} (t : Tbl α) : List Nat := t.map (·.1)

/-- A key above every listed one. -/
def Tbl.fresh {α : Type} : Tbl α → Nat
  | [] => 0
  | (k, _) :: t => max (k + 1) (Tbl.fresh t)

/-- Keys strictly rise, all above `lo` when `lo` is given. -/
def Tbl.rising {α : Type} : Option Nat → Tbl α → Bool
  | _, [] => true
  | none, (k, _) :: t => Tbl.rising (some k) t
  | some lo, (k, _) :: t => decide (lo < k) && Tbl.rising (some k) t

/-- What a key reads as in a store with default `d`. -/
def Tbl.read {α : Type} (d : α) (t : Tbl α) (k : Nat) : α := (t.get? k).getD d

/-- Store `v` under `k`; storing the default removes the entry. -/
def Tbl.write {α : Type} [DecidableEq α] (d : α) (t : Tbl α) (k : Nat) (v : α) : Tbl α :=
  if v = d then t.del k else t.put k v

/-- The canonical form of a store with default `d`. -/
def Tbl.wf {α : Type} [DecidableEq α] (d : α) (t : Tbl α) : Bool :=
  Tbl.rising none t && t.all fun kv => decide (kv.2 ≠ d)

/-- Write a run of values at consecutive keys from `k`. -/
def Tbl.writeRun {α : Type} [DecidableEq α] (d : α) (t : Tbl α) : Nat → List α → Tbl α
  | _, [] => t
  | k, v :: vs => Tbl.writeRun d (t.write d k v) (k + 1) vs

/-- The values at `n` consecutive keys from `k`. -/
def Tbl.readRun {α : Type} (d : α) (t : Tbl α) (k n : Nat) : List α :=
  (List.range n).map fun i => t.read d (k + i)

end Sys2Proof.Machine
end

