-- ==== Sys2Proof/Syntax.lean ====
section
/-! DEFINITION. The instructions of the F7 (R226 to R229) and the events of the part: one constructor of
`Instr` for every row of spec/opcode_table.json. An instruction carries the fields of its format (R226), its
optional literal word and its optional modifier word (R227). An event carries what its row leaves to the
outside or to chance: which core, which queue, what bytes arrive. -/

namespace Sys2Proof

/-- The modifier word (R227). -/
structure Mod where
  pmk : BitVec 3
  pe : Bool
  pn : Bool
  td : BitVec 5
  ts : BitVec 5
  rmode : BitVec 3
  sat : Bool
  scope : BitVec 3
  fx : BitVec 3
  c : BitVec 7
  deriving DecidableEq, Repr

/-- Format RRR (R226). The L bit is `lit.isSome` and the M bit is `m.isSome`. -/
structure RRR where
  d : BitVec 7
  a : BitVec 7
  b : BitVec 7
  w : Bool
  lit : Option Word
  m : Option Mod
  deriving DecidableEq, Repr

/-- Format RRS (R226). -/
structure RRS where
  d : BitVec 7
  a : BitVec 7
  s : BitVec 7
  w : Bool
  lit : Option Word
  m : Option Mod
  deriving DecidableEq, Repr

/-- Format RI (R226). -/
structure RI where
  d : BitVec 7
  imm : BitVec 14
  w : Bool
  lit : Option Word
  m : Option Mod
  deriving DecidableEq, Repr

/-- Format MW (R226). -/
structure MW where
  d : BitVec 7
  a : BitVec 7
  win : BitVec 3
  imm : BitVec 4
  w : Bool
  lit : Option Word
  m : Option Mod
  deriving DecidableEq, Repr

/-- Format Z (R226): bits 23:2 are rsv. -/
structure FZ where
  rsv : BitVec 22
  lit : Option Word
  m : Option Mod
  deriving DecidableEq, Repr

/-- Format BO (R226): bit 2 is rsv. -/
structure BO where
  off : BitVec 21
  rsv : Bool
  lit : Option Word
  m : Option Mod
  deriving DecidableEq, Repr

/-- Format BC (R226): bit 2 is rsv. BRM reads `a` and `c3` together as JOFF (R240). -/
structure BC where
  a : BitVec 7
  c3 : BitVec 3
  off : BitVec 11
  rsv : Bool
  lit : Option Word
  m : Option Mod
  deriving DecidableEq, Repr

/-- Who issues clauses on behalf of a team slot: the team (the leading copy of a touchstone pair included),
its chaser (R87), or the trailing copy of a touchstone pair (R174). -/
inductive PartyKind where
  | team | chaser | trail
  deriving DecidableEq, Repr

/-- An issuing party: the crew's key in `State.crews`, the team within the crew, and the kind. -/
structure Party where
  crew : Nat
  team : Nat
  kind : PartyKind
  deriving DecidableEq, Repr

/-- What waits on a migrating leaf (R108) or on a remote owner (R109). -/
inductive Waiter where
  /-- an access of the instruction that holds the party's issue slot -/
  | access (p : Party)
  /-- a window fill -/
  | fill (p : Party) (win : Nat)
  /-- the running operation of a core's copy engine -/
  | copyEngine (core : Nat)
  /-- the running operation of a core's Cupel engine -/
  | cupel (core : Nat)
  /-- a SIGNAL, WAIT or COPY packet -/
  | packet (queue index : Nat)
  /-- the oldest inbound RDMA operation that waits (R14, R108) -/
  | inbound
  /-- the oldest write of the packet processors that waits (R40, R108) -/
  | posted
  deriving DecidableEq, Repr

/-- Why a margin table is planned again (R22, R26). -/
inductive ReplanReason where
  | daily | temperature | leakage | bringUp
  deriving DecidableEq, Repr

/-- A re-plan: its reason, and the junction temperature in °C and the leakage that the service reads (R22). -/
structure Replan where
  reason : ReplanReason
  temp : Nat := 0
  leak : Nat := 0
  deriving DecidableEq, Repr

/-- The device kinds a CXL port can meet (R12, R26). -/
inductive CxlKind where
  | type3Single | type3Multi | persistent | unsupported
  deriving DecidableEq, Repr

/-- A device that a CXL port meets: its kind, and whether the port trains to 32 GT/s with it (R12). -/
structure CxlDevice where
  kind : CxlKind
  slow : Bool := false
  deriving DecidableEq, Repr

/-- The delivery modes of the UEC transport (R14); the third is refused. -/
inductive UecMode where
  | reliableUnordered | reliableOrdered | unreliable
  deriving DecidableEq, Repr

/-- How an inbound Ultra Ethernet operation comes: its delivery mode, and whether it is one of the transport's atomics,
which are refused (R14). -/
structure UecForm where
  mode : UecMode := .reliableOrdered
  atomic : Bool := false
  deriving DecidableEq, Repr

/-- Whether the F7 takes operations of a form (R14). -/
def UecForm.taken (f : UecForm) : Bool := f.mode != .unreliable && !f.atomic

/-- The handle under which an RDMA operation or a notify write comes, and its form (R14, R34, R39). -/
structure RdmaKey where
  handle : Word
  form : UecForm := {}
  deriving DecidableEq, Repr
structure NotifyKey where
  handle : DWord
  form : UecForm := {}
  deriving DecidableEq, Repr

/-- A request to the resident service (R31): the client, how its send is delivered, the header's fields and the body. -/
structure Request where
  client : Nat
  form : UecForm := {}
  reqid : DWord
  ctx : BitVec 16
  length : BitVec 16
  status : BitVec 16
  body : List Byte
  deriving DecidableEq, Repr

/-- An atomic that another node asks of an ALU here (R95, R96): an operation of R228 on 32 or 64 bits, an FP32 or packed
BF16 addition, or a compare-and-swap of 32, 64 or 128 bits. -/
inductive RemoteAtomic where
  | int (wide signed : Bool) (op : BitVec 3)
  | fadd
  | bfadd
  | cas (size : Fin 3) (cmp : BitVec 128)
  deriving DecidableEq, Repr

/-- A remote access that another node performs, or that this node performs for another (R109). -/
inductive RemoteOp where
  /-- another F7's load of `len` bytes at this node's physical address -/
  | read (addr len : Nat)
  /-- another F7's store -/
  | write (addr : Nat) (data : List Byte)
  /-- another F7's atomic -/
  | atomic (addr : Nat) (op : RemoteAtomic) (operand : BitVec 128)
  deriving DecidableEq, Repr

/-- A unit of a reducing copy that another F7's engine sends to a destination here (R337). -/
structure ReduceUnit where
  node : Nat
  core : Nat
  transfer : Nat
  unit : Nat
  dest : Nat
  elem : BitVec 5
  op : BitVec 3
  rootq : Bool
  key : Word
  firstElem : Nat
  data : List Byte
  deriving DecidableEq, Repr

/-- Where an arriving reducing-copy unit comes from: the running XRED of a core of this F7, another F7, or the owner of a
ROOTQ's DST, which delivers the rounded sums of one unit over it (R337). -/
inductive UnitSource where
  | own (core : Nat)
  | remote (u : ReduceUnit)
  | owner (acc : Nat) (data : List Byte)
  deriving DecidableEq, Repr

/-- The sources of a snapshot trigger (R170). -/
inductive SnapSource where
  /-- SNAP executed in a context -/
  | snap (ctx : Nat)
  /-- a trap in a context -/
  | trap (ctx : Nat)
  /-- a debug request of a session -/
  | debug (session : Nat)
  /-- the board controller's pin -/
  | pin
  deriving DecidableEq, Repr

/-- What an uncorrectable error strikes (R167). -/
inductive ErrorTarget where
  /-- the aligned 8-byte memory word that holds a physical address -/
  | word (addr : Nat)
  /-- a line of a cluster's L1, by its address divided by 128 -/
  | line (cluster line : Nat)
  /-- a lane of a vector register of a team -/
  | vreg (p : Party) (reg lane : Nat)
  /-- a scalar register of a team or chaser -/
  | sreg (p : Party) (reg : Nat)
  /-- a mask register, a norm register, a window register, or the register of a queue of a team -/
  | mask (p : Party) (reg : Nat)
  | norm (p : Party) (reg : Nat)
  | window (p : Party) (index : Nat)
  | queue (p : Party) (index : Nat)
  deriving DecidableEq, Repr

/-- The rows of spec/opcode_table.json, one constructor each. -/
inductive Instr where
  /-- BRA (R239), opcode 0x00, format BO -/
  | bra (f : BO)
  /-- BRC (R239), opcode 0x01, format BC -/
  | brc (f : BC)
  /-- BRM (R240), opcode 0x02, format BC -/
  | brm (f : BC)
  /-- JOIN (R241), opcode 0x03, format Z -/
  | join (f : FZ)
  /-- CALL (R243), opcode 0x04, format BO -/
  | call (f : BO)
  /-- RET (R243), opcode 0x05, format Z -/
  | ret (f : FZ)
  /-- JMPI (R243), opcode 0x06, format RRR -/
  | jmpi (f : RRR)
  /-- LOOP (R244), opcode 0x07, format BC -/
  | loop (f : BC)
  /-- EXIT (R245), opcode 0x08, format Z -/
  | exit (f : FZ)
  /-- YIELD (R246), opcode 0x09, format Z -/
  | yield (f : FZ)
  /-- SLEEP (R247), opcode 0x0A, format RI -/
  | sleep (f : RI)
  /-- WAIT (R248), opcode 0x0B, format RRS -/
  | wait (f : RRS)
  /-- NOP (R246), opcode 0x0C, format Z -/
  | nop (f : FZ)
  /-- PART (R249), opcode 0x0D, format RI -/
  | part (f : RI)
  /-- MSET (R252), opcode 0x0E, format RRS -/
  | mset (f : RRS)
  /-- MAND (R253), opcode 0x0F, format RRR -/
  | mand (f : RRR)
  /-- MOR (R253), opcode 0x10, format RRR -/
  | mor (f : RRR)
  /-- MXOR (R253), opcode 0x11, format RRR -/
  | mxor (f : RRR)
  /-- MNOT (R253), opcode 0x12, format RRR -/
  | mnot (f : RRR)
  /-- MMOV (R253), opcode 0x13, format RRR -/
  | mmov (f : RRR)
  /-- MPOP (R254), opcode 0x14, format RRR -/
  | mpop (f : RRR)
  /-- MFIND (R254), opcode 0x15, format RRR -/
  | mfind (f : RRR)
  /-- MANY (R254), opcode 0x16, format RRR -/
  | many (f : RRR)
  /-- MALL (R254), opcode 0x17, format RRR -/
  | mall (f : RRR)
  /-- MEXEC (R255), opcode 0x18, format RRR -/
  | mexec (f : RRR)
  /-- SETIX (R249), opcode 0x19, format RI -/
  | setix (f : RI)
  /-- SRD (R250), opcode 0x1A, format RRS -/
  | srd (f : RRS)
  /-- SWR (R250), opcode 0x1B, format RRS -/
  | swr (f : RRS)
  /-- SMOV (R257), opcode 0x20, format RRR -/
  | smov (f : RRR)
  /-- SMOVI (R260), opcode 0x21, format RI -/
  | smovi (f : RI)
  /-- SADD (R257), opcode 0x22, format RRR -/
  | sadd (f : RRR)
  /-- SSUB (R257), opcode 0x23, format RRR -/
  | ssub (f : RRR)
  /-- SMUL (R257), opcode 0x24, format RRR -/
  | smul (f : RRR)
  /-- SMULH (R257), opcode 0x25, format RRR -/
  | smulh (f : RRR)
  /-- SMAD (R257), opcode 0x26, format RRR -/
  | smad (f : RRR)
  /-- SDIV (R258), opcode 0x27, format RRR -/
  | sdiv (f : RRR)
  /-- SREM (R258), opcode 0x28, format RRR -/
  | srem (f : RRR)
  /-- SAND (R257), opcode 0x29, format RRR -/
  | sand (f : RRR)
  /-- SOR (R257), opcode 0x2A, format RRR -/
  | sor (f : RRR)
  /-- SXOR (R257), opcode 0x2B, format RRR -/
  | sxor (f : RRR)
  /-- SSHL (R259), opcode 0x2C, format RRR -/
  | sshl (f : RRR)
  /-- SSHR (R259), opcode 0x2D, format RRR -/
  | sshr (f : RRR)
  /-- SSAR (R259), opcode 0x2E, format RRR -/
  | ssar (f : RRR)
  /-- SMIN (R257), opcode 0x2F, format RRR -/
  | smin (f : RRR)
  /-- SMAX (R257), opcode 0x30, format RRR -/
  | smax (f : RRR)
  /-- SCMP (R257), opcode 0x31, format RRR -/
  | scmp (f : RRR)
  /-- SSEL (R257), opcode 0x32, format RRR -/
  | ssel (f : RRR)
  /-- SCLZ (R257), opcode 0x33, format RRR -/
  | sclz (f : RRR)
  /-- SPOPC (R257), opcode 0x34, format RRR -/
  | spopc (f : RRR)
  /-- SBFE (R259), opcode 0x35, format RRR -/
  | sbfe (f : RRR)
  /-- SBFI (R259), opcode 0x36, format RRR -/
  | sbfi (f : RRR)
  /-- SADD64 (R261), opcode 0x37, format RRR -/
  | sadd64 (f : RRR)
  /-- QPUSH (R262), opcode 0x38, format RRS -/
  | qpush (f : RRS)
  /-- QPOP (R262), opcode 0x39, format RRS -/
  | qpop (f : RRS)
  /-- VADD (R265), opcode 0x40, format RRR -/
  | vadd (f : RRR)
  /-- VSUB (R265), opcode 0x41, format RRR -/
  | vsub (f : RRR)
  /-- VMUL (R265), opcode 0x42, format RRR -/
  | vmul (f : RRR)
  /-- VMULH (R265), opcode 0x43, format RRR -/
  | vmulh (f : RRR)
  /-- VMAD (R265), opcode 0x44, format RRR -/
  | vmad (f : RRR)
  /-- VAND (R265), opcode 0x45, format RRR -/
  | vand (f : RRR)
  /-- VOR (R265), opcode 0x46, format RRR -/
  | vor (f : RRR)
  /-- VXOR (R265), opcode 0x47, format RRR -/
  | vxor (f : RRR)
  /-- VNOT (R265), opcode 0x48, format RRR -/
  | vnot (f : RRR)
  /-- VSHL (R265), opcode 0x49, format RRR -/
  | vshl (f : RRR)
  /-- VSHR (R265), opcode 0x4A, format RRR -/
  | vshr (f : RRR)
  /-- VSAR (R265), opcode 0x4B, format RRR -/
  | vsar (f : RRR)
  /-- VMIN (R265), opcode 0x4C, format RRR -/
  | vmin (f : RRR)
  /-- VMAX (R265), opcode 0x4D, format RRR -/
  | vmax (f : RRR)
  /-- VABS (R265), opcode 0x4E, format RRR -/
  | vabs (f : RRR)
  /-- VCMP (R266), opcode 0x4F, format RRR -/
  | vcmp (f : RRR)
  /-- VSEL (R265), opcode 0x50, format RRR -/
  | vsel (f : RRR)
  /-- VCLZ (R265), opcode 0x51, format RRR -/
  | vclz (f : RRR)
  /-- VPOPC (R265), opcode 0x52, format RRR -/
  | vpopc (f : RRR)
  /-- VBFE (R265), opcode 0x53, format RRR -/
  | vbfe (f : RRR)
  /-- VBFI (R265), opcode 0x54, format RRR -/
  | vbfi (f : RRR)
  /-- VPERM (R267), opcode 0x55, format RRR -/
  | vperm (f : RRR)
  /-- VDOT4 (R268), opcode 0x56, format RRR -/
  | vdot4 (f : RRR)
  /-- FADD (R269), opcode 0x60, format RRR -/
  | fadd (f : RRR)
  /-- FSUB (R269), opcode 0x61, format RRR -/
  | fsub (f : RRR)
  /-- FMUL (R269), opcode 0x62, format RRR -/
  | fmul (f : RRR)
  /-- FMA (R269), opcode 0x63, format RRR -/
  | fma (f : RRR)
  /-- FNMA (R269), opcode 0x64, format RRR -/
  | fnma (f : RRR)
  /-- FMIN (R270), opcode 0x65, format RRR -/
  | fmin (f : RRR)
  /-- FMAX (R270), opcode 0x66, format RRR -/
  | fmax (f : RRR)
  /-- FNEG (R269), opcode 0x67, format RRR -/
  | fneg (f : RRR)
  /-- FABS (R269), opcode 0x68, format RRR -/
  | fabs (f : RRR)
  /-- FCMP (R270), opcode 0x69, format RRR -/
  | fcmp (f : RRR)
  /-- FCLASS (R270), opcode 0x6A, format RRR -/
  | fclass (f : RRR)
  /-- FSCALE (R269), opcode 0x6B, format RRR -/
  | fscale (f : RRR)
  /-- FRCP (R271), opcode 0x6C, format RRR -/
  | frcp (f : RRR)
  /-- FRSQ (R271), opcode 0x6D, format RRR -/
  | frsq (f : RRR)
  /-- FSQRT (R271), opcode 0x6E, format RRR -/
  | fsqrt (f : RRR)
  /-- FEXP2 (R271), opcode 0x6F, format RRR -/
  | fexp2 (f : RRR)
  /-- FLOG2 (R271), opcode 0x70, format RRR -/
  | flog2 (f : RRR)
  /-- FSIN (R271), opcode 0x71, format RRR -/
  | fsin (f : RRR)
  /-- FCOS (R271), opcode 0x72, format RRR -/
  | fcos (f : RRR)
  /-- FTANH (R271), opcode 0x73, format RRR -/
  | ftanh (f : RRR)
  /-- CVT (R272), opcode 0x80, format RRR -/
  | cvt (f : RRR)
  /-- CVTN (R273), opcode 0x81, format RRR -/
  | cvtn (f : RRR)
  /-- CVTW (R273), opcode 0x82, format RRR -/
  | cvtw (f : RRR)
  /-- QNT (R274), opcode 0x83, format RRR -/
  | qnt (f : RRR)
  /-- DQNT (R275), opcode 0x84, format RRR -/
  | dqnt (f : RRR)
  /-- SHFL (R277), opcode 0x90, format RRR -/
  | shfl (f : RRR)
  /-- SHFLU (R277), opcode 0x91, format RRR -/
  | shflu (f : RRR)
  /-- SHFLD (R277), opcode 0x92, format RRR -/
  | shfld (f : RRR)
  /-- SHFLX (R277), opcode 0x93, format RRR -/
  | shflx (f : RRR)
  /-- VOTE (R278), opcode 0x94, format RRS -/
  | vote (f : RRS)
  /-- BALLOT (R278), opcode 0x95, format RRS -/
  | ballot (f : RRS)
  /-- VRED (R279), opcode 0x96, format RRR -/
  | vred (f : RRR)
  /-- VSCAN (R279), opcode 0x97, format RRR -/
  | vscan (f : RRR)
  /-- TRED (R279), opcode 0x98, format RRR -/
  | tred (f : RRR)
  /-- BCAST (R280), opcode 0x99, format RRR -/
  | bcast (f : RRR)
  /-- COMPACT (R281), opcode 0x9A, format RRR -/
  | compact (f : RRR)
  /-- VRAND (R282), opcode 0x9B, format RRR -/
  | vrand (f : RRR)
  /-- DCVT (R286), opcode 0xA0, format RRR -/
  | dcvt (f : RRR)
  /-- DEXP (R287), opcode 0xA1, format RRR -/
  | dexp (f : RRR)
  /-- DDOT (R288), opcode 0xA2, format RRR -/
  | ddot (f : RRR)
  /-- DDOTF (R288), opcode 0xA3, format RRR -/
  | ddotf (f : RRR)
  /-- DSCAL (R289), opcode 0xA4, format RRR -/
  | dscal (f : RRR)
  /-- DADD (R290), opcode 0xA5, format RRR -/
  | dadd (f : RRR)
  /-- DSUB (R290), opcode 0xA6, format RRR -/
  | dsub (f : RRR)
  /-- DMIX (R290), opcode 0xA7, format RRR -/
  | dmix (f : RRR)
  /-- DNEG (R286), opcode 0xA8, format RRR -/
  | dneg (f : RRR)
  /-- DMOV (R286), opcode 0xA9, format RRR -/
  | dmov (f : RRR)
  /-- DNRD (R291), opcode 0xAA, format RRR -/
  | dnrd (f : RRR)
  /-- DNWR (R291), opcode 0xAB, format RRR -/
  | dnwr (f : RRR)
  /-- DZERO (R286), opcode 0xAC, format RRR -/
  | dzero (f : RRR)
  /-- DSPAN (R284), opcode 0xAD, format RI -/
  | dspan (f : RI)
  /-- DLD (R292), opcode 0xAE, format MW -/
  | dld (f : MW)
  /-- DST (R292), opcode 0xAF, format MW -/
  | dst (f : MW)
  /-- WLALLOC (R293), opcode 0xB0, format RRS -/
  | wlalloc (f : RRS)
  /-- WLFREE (R293), opcode 0xB1, format RRS -/
  | wlfree (f : RRS)
  /-- WLCLR (R293), opcode 0xB2, format RRS -/
  | wlclr (f : RRS)
  /-- WLINS (R296), opcode 0xB3, format RRR -/
  | wlins (f : RRR)
  /-- VTOPK (R297), opcode 0xB4, format RRR -/
  | vtopk (f : RRR)
  /-- WLMERGE (R299), opcode 0xB5, format RRR -/
  | wlmerge (f : RRR)
  /-- WLRD (R298), opcode 0xB6, format RRR -/
  | wlrd (f : RRR)
  /-- WLST (R299), opcode 0xB7, format RRR -/
  | wlst (f : RRR)
  /-- WLLD (R299), opcode 0xB8, format RRR -/
  | wlld (f : RRR)
  /-- SSECT (R300), opcode 0xB9, format RRR -/
  | ssect (f : RRR)
  /-- PKSI (R301), opcode 0xBA, format RRR -/
  | pksi (f : RRR)
  /-- UNPKSI (R301), opcode 0xBB, format RRR -/
  | unpksi (f : RRR)
  /-- GWNORM (R302), opcode 0xBC, format RRR -/
  | gwnorm (f : RRR)
  /-- SMXACC (R303), opcode 0xBD, format RRR -/
  | smxacc (f : RRR)
  /-- SMXFIN (R304), opcode 0xBE, format RRR -/
  | smxfin (f : RRR)
  /-- LD (R308), opcode 0xC0, format MW -/
  | ld (f : MW)
  /-- ST (R308), opcode 0xC1, format MW -/
  | st (f : MW)
  /-- LDG (R308), opcode 0xC2, format RRR -/
  | ldg (f : RRR)
  /-- STG (R308), opcode 0xC3, format RRR -/
  | stg (f : RRR)
  /-- LDP (R321), opcode 0xC4, format RRR -/
  | ldp (f : RRR)
  /-- STP (R308), opcode 0xC6, format RRR -/
  | stp (f : RRR)
  /-- KVLD (R313), opcode 0xC7, format RRR -/
  | kvld (f : RRR)
  /-- WMAP (R314), opcode 0xC8, format RRR -/
  | wmap (f : RRR)
  /-- WINV (R314), opcode 0xC9, format RRS -/
  | winv (f : RRS)
  /-- PREF (R315), opcode 0xCA, format MW -/
  | pref (f : MW)
  /-- CWB (R316), opcode 0xCB, format RRR -/
  | cwb (f : RRR)
  /-- CINV (R316), opcode 0xCC, format RRR -/
  | cinv (f : RRR)
  /-- IPREF (R234), opcode 0xCD, format RRR -/
  | ipref (f : RRR)
  /-- IPIN (R234), opcode 0xCE, format RRR -/
  | ipin (f : RRR)
  /-- IUNPIN (R234), opcode 0xCF, format RRR -/
  | iunpin (f : RRR)
  /-- ATOM (R317), opcode 0xD0, format MW -/
  | atom (f : MW)
  /-- CAS (R318), opcode 0xD1, format MW -/
  | cas (f : MW)
  /-- CAS128 (R318), opcode 0xD2, format MW -/
  | cas128 (f : MW)
  /-- ACQ (R322), opcode 0xD3, format RRR -/
  | acq (f : RRR)
  /-- REL (R322), opcode 0xD4, format RRR -/
  | rel (f : RRR)
  /-- BIND (R323), opcode 0xD5, format RRR -/
  | bind (f : RRR)
  /-- UNBIND (R323), opcode 0xD6, format RRS -/
  | unbind (f : RRS)
  /-- FENCE (R324), opcode 0xD7, format Z -/
  | fence (f : FZ)
  /-- FENCE_PT (R128), opcode 0xD8, format Z -/
  | fencePt (f : FZ)
  /-- SHOOT (R325), opcode 0xD9, format RRR -/
  | shoot (f : RRR)
  /-- BAR (R327), opcode 0xDA, format RRS -/
  | bar (f : RRS)
  /-- BARA (R327), opcode 0xDB, format RRS -/
  | bara (f : RRS)
  /-- BARW (R327), opcode 0xDC, format RRS -/
  | barw (f : RRS)
  /-- GBAR (R328), opcode 0xDD, format Z -/
  | gbar (f : FZ)
  /-- QCFG (R332), opcode 0xE0, format RRS -/
  | qcfg (f : RRS)
  /-- QSTAT (R333), opcode 0xE1, format RRS -/
  | qstat (f : RRS)
  /-- XCOPY (R335), opcode 0xE2, format RRR -/
  | xcopy (f : RRR)
  /-- XRED (R336), opcode 0xE3, format RRR -/
  | xred (f : RRR)
  /-- WBLOAD (R339), opcode 0xE4, format RRR -/
  | wbload (f : RRR)
  /-- MLOOP (R340), opcode 0xE5, format RRR -/
  | mloop (f : RRR)
  /-- CTOPK (R341), opcode 0xE6, format RRR -/
  | ctopk (f : RRR)
  /-- CBIN (R340), opcode 0xE7, format RRR -/
  | cbin (f : RRR)
  /-- CEPI (R342), opcode 0xE8, format RRR -/
  | cepi (f : RRR)
  /-- CSTAT (R343), opcode 0xE9, format RRS -/
  | cstat (f : RRS)
  /-- SPAWN (R344), opcode 0xEA, format RRR -/
  | spawn (f : RRR)
  /-- NODEFL (R345), opcode 0xEB, format RRR -/
  | nodefl (f : RRR)
  /-- REPACK (R346), opcode 0xEC, format Z -/
  | repack (f : FZ)
  /-- CHGO (R347), opcode 0xED, format RRR -/
  | chgo (f : RRR)
  /-- CHSTOP (R347), opcode 0xEE, format Z -/
  | chstop (f : FZ)
  /-- PHASE (R348), opcode 0xEF, format RRS -/
  | phase (f : RRS)
  /-- TRAP (R350), opcode 0xF0, format RRS -/
  | trap (f : RRS)
  /-- TRET (R159), opcode 0xF1, format Z -/
  | tret (f : FZ)
  /-- TRLD (R352), opcode 0xF2, format RRR -/
  | trld (f : RRR)
  /-- TRST (R352), opcode 0xF3, format RRR -/
  | trst (f : RRR)
  /-- BPSET (R353), opcode 0xF4, format RRR -/
  | bpset (f : RRR)
  /-- WPSET (R353), opcode 0xF5, format RRR -/
  | wpset (f : RRR)
  /-- STEP (R353), opcode 0xF6, format RRS -/
  | step (f : RRS)
  /-- SNAP (R350), opcode 0xF7, format Z -/
  | snap (f : FZ)
  /-- FINJ (R354), opcode 0xF8, format RRR -/
  | finj (f : RRR)
  /-- TSBEGIN (R355), opcode 0xF9, format Z -/
  | tsbegin (f : FZ)
  /-- TSEND (R355), opcode 0xFA, format Z -/
  | tsend (f : FZ)
  /-- TBRD (R356), opcode 0xFB, format RRR -/
  | tbrd (f : RRR)
  /-- HALT (R350), opcode 0xFC, format Z -/
  | halt (f : FZ)
  /-- POWER_GOOD (R10): an event of the part -/
  | powerGood
  /-- DIE_TRAINED (R27): an event of the part -/
  | dieTrained (die : Nat)
  /-- FULL_SERVICE_DEADLINE (R27): an event of the part -/
  | fullServiceDeadline
  /-- POWER_ON (R29): an event of the part -/
  | powerOn
  /-- POWER_OFF (R29): an event of the part -/
  | powerOff
  /-- SENSORS (R29): an event of the part -/
  | sensors (temps : List (BitVec 16)) (rails : List (BitVec 32)) (power : Word)
  /-- STATUS (R29): an event of the part -/
  | status
  /-- SELECT_SLOT (R29): an event of the part -/
  | selectSlot (slotB : Bool)
  /-- HOLD (R29): an event of the part -/
  | hold
  /-- SNAP_PIN (R29): an event of the part -/
  | snapPin
  /-- BOARD_COMMAND_UNKNOWN (R30): an event of the part -/
  | boardCommandUnknown (code : Byte)
  /-- TOKEN_TURN (R20): an event of the part -/
  | tokenTurn (used request : Nat)
  /-- TOKEN_LOSS (R21): an event of the part -/
  | tokenLoss (die : Nat)
  /-- TOKEN_REBUILD (R21): an event of the part -/
  | tokenRebuild
  /-- FILL_RATE_STEP (R67): an event of the part -/
  | fillRateStep (cluster : Nat)
  /-- THROTTLE_LIMIT (R67): an event of the part -/
  | throttleLimit (cluster slot : Nat)
  /-- ENERGY_SAMPLE (R68): an event of the part -/
  | energySample
  /-- ENERGY_DIVIDE (R68): an event of the part -/
  | energyDivide (cluster measured : Nat)
  /-- REPLAN (R22): an event of the part -/
  | replan (die : Nat) (reason : Replan) (table : List Byte) (found : Bool)
  /-- FLIT_RECEIVE (R16): an event of the part -/
  | flitReceive (port : Nat) (flit : List Byte)
  /-- REPLAY_REQUEST (R16): an event of the part -/
  | replayRequest (port : Nat) (seq : BitVec 12)
  /-- RETRAIN_COMPLETE (R16): an event of the part -/
  | retrainComplete (port : Nat) (ok : Bool)
  /-- DOMAIN_JOIN (R17): an event of the part -/
  | domainJoin (reduces duplicate : Bool)
  /-- CXL_DEVICE_DISCOVERED (R12): an event of the part -/
  | cxlDeviceDiscovered (port : Nat) (kind : CxlDevice) (capacity : Nat)
  /-- INBOUND_RDMA_WRITE (R14): an event of the part -/
  | inboundRdmaWrite (handle : RdmaKey) (offset : Nat) (data : List Byte)
  /-- INBOUND_RDMA_READ (R14): an event of the part -/
  | inboundRdmaRead (handle : RdmaKey) (offset length : Nat)
  /-- NOTIFY_WRITE (R39): an event of the part -/
  | notifyWrite (handle : NotifyKey) (addr : DWord) (data : List Byte)
  /-- OPEN_CONTEXT (R34): an event of the part -/
  | openContext (r : Request)
  /-- CLOSE_CONTEXT (R36): an event of the part -/
  | closeContext (r : Request)
  /-- CLOSE_GRACE_EXPIRY (R36): an event of the part -/
  | closeGraceExpiry (ctx : Nat)
  /-- SET_REGION (R35): an event of the part -/
  | setRegion (r : Request)
  /-- MAP (R34): an event of the part -/
  | map (r : Request)
  /-- UNMAP (R34): an event of the part -/
  | unmap (r : Request)
  /-- EXPOSE (R34): an event of the part -/
  | expose (r : Request)
  /-- CREATE_QUEUE (R38): an event of the part -/
  | createQueue (r : Request)
  /-- DESTROY_QUEUE (R41): an event of the part -/
  | destroyQueue (r : Request)
  /-- RESUME_QUEUE (R41): an event of the part -/
  | resumeQueue (r : Request)
  /-- ATTACH_DEBUG (R164): an event of the part -/
  | attachDebug (r : Request)
  /-- DEBUG_STOP (R164): an event of the part -/
  | debugStop (r : Request)
  /-- DEBUG_RELEASE (R164): an event of the part -/
  | debugRelease (r : Request)
  /-- DEBUG_STEP (R164): an event of the part -/
  | debugStep (r : Request)
  /-- DEBUG_READ (R164): an event of the part -/
  | debugRead (r : Request)
  /-- DEBUG_WRITE (R164): an event of the part -/
  | debugWrite (r : Request)
  /-- ARM_SNAP (R170): an event of the part -/
  | armSnap (r : Request)
  /-- READ_SNAP (R170): an event of the part -/
  | readSnap (r : Request)
  /-- DETACH_DEBUG (R164): an event of the part -/
  | detachDebug (r : Request)
  /-- READ_HALLMARK (R25): an event of the part -/
  | readHallmark (r : Request)
  /-- REQUEST_INGOT (R172): an event of the part -/
  | requestIngot (r : Request) (rate : Nat)
  /-- INGOT_SEAL (R172): an event of the part -/
  | ingotSeal (scope : Nat)
  /-- REGISTER_NOTIFY (R34): an event of the part -/
  | registerNotify (r : Request)
  /-- SERVICE_REQUEST_UNKNOWN (R32): an event of the part -/
  | serviceRequestUnknown (code : BitVec 16) (r : Request)
  /-- PACKET_FETCH (R42): an event of the part -/
  | packetFetch (queue : Nat)
  /-- SLOT_REREAD (R42): an event of the part -/
  | slotReread (queue : Nat)
  /-- PACKET_ACQUIRE (R52): an event of the part -/
  | packetAcquire (queue index : Nat)
  /-- LAUNCH_SETTLE (R47): an event of the part -/
  | launchSettle (queue index : Nat)
  /-- NOP_PACKET (R48): an event of the part -/
  | nopPacket (queue index : Nat)
  /-- SIGNAL_SET (R48): an event of the part -/
  | signalSet (queue index : Nat)
  /-- SIGNAL_ADD (R48): an event of the part -/
  | signalAdd (queue index : Nat)
  /-- SIGNAL_SUB (R48): an event of the part -/
  | signalSub (queue index : Nat)
  /-- WAIT_PACKET (R48): an event of the part -/
  | waitPacket (queue index : Nat)
  /-- WAIT_PACKET_MET (R48): an event of the part -/
  | waitPacketMet (queue index : Nat)
  /-- WAIT_TIMEOUT (R41): an event of the part -/
  | waitTimeout (queue index : Nat)
  /-- COPY_PACKET (R48): an event of the part -/
  | copyPacket (queue index : Nat)
  /-- COPY_PACKET_DONE (R48): an event of the part -/
  | copyPacketDone (queue index : Nat)
  /-- NODE_DEFINE (R59): an event of the part -/
  | nodeDefine (queue index : Nat)
  /-- NODE_ARM (R59): an event of the part -/
  | nodeArm (queue index : Nat)
  /-- NODE_DISARM (R61): an event of the part -/
  | nodeDisarm (queue index : Nat)
  /-- NODE_DISARM_DRAINED (R48): an event of the part -/
  | nodeDisarmDrained (queue index : Nat)
  /-- FLUSH_TIMER (R61): an event of the part -/
  | flushTimer (node : Nat)
  /-- LAUNCH_DRAINED (R56): an event of the part -/
  | launchDrained (launch : Nat)
  /-- PACKET_CONFIRMED (R50): an event of the part -/
  | packetConfirmed (queue index : Nat)
  /-- CREW_PLACE (R56): an event of the part -/
  | crewPlace (launch core : Nat)
  /-- CREW_LOADED (R56): an event of the part -/
  | crewLoaded (crew : Nat)
  /-- MIGRATION_TRIGGER (R69): an event of the part -/
  | migrationTrigger (core crew : Nat)
  /-- IMAGE_SEALED (R56): an event of the part -/
  | imageSealed (crew : Nat)
  /-- CREW_RESTORE (R69): an event of the part -/
  | crewRestore (crew core : Nat)
  /-- OUTSTANDING_ACK (R57): an event of the part -/
  | outstandingAck (core launch : Nat) (signal : Bool)
  /-- BARRIER_TREE_RELEASE (R64): an event of the part -/
  | barrierTreeRelease (channel : Nat)
  /-- EXCHANGE_COPY_START (R65): an event of the part -/
  | exchangeCopyStart (core : Nat)
  /-- PHASE_EPOCH (R348): an event of the part -/
  | phaseEpoch (channel : Nat)
  /-- CLAUSE_ISSUE (R66): an event of the part -/
  | clauseIssue (cluster : Nat) (chaser : Option Nat)
  /-- PROMISE_MISSED (R166): an event of the part -/
  | promiseMissed (p : Party) (quad : Nat)
  /-- LOAD_COMPLETE (R222): an event of the part -/
  | loadComplete (p : Party)
  /-- STORE_PERFORMED (R222): an event of the part -/
  | storePerformed (p : Party)
  /-- WINDOW_FILL_COMPLETE (R106): an event of the part -/
  | windowFillComplete (p : Party) (win : Nat)
  /-- MIGRATING_TIMEOUT (R108): an event of the part -/
  | migratingTimeout (w : Waiter)
  /-- REMOTE_ACCESS (R109): an event of the part -/
  | remoteAccess (a : RemoteOp)
  /-- REMOTE_UNREACHABLE (R109): an event of the part -/
  | remoteUnreachable (w : Waiter)
  /-- SHOOT_COMPLETE (R129): an event of the part -/
  | shootComplete (p : Party)
  /-- WAIT_CONDITION_MET (R248): an event of the part -/
  | waitConditionMet (p : Party)
  /-- SLEEP_EXPIRY (R247): an event of the part -/
  | sleepExpiry (p : Party)
  /-- QUEUE_UNBLOCK (R89): an event of the part -/
  | queueUnblock (p : Party)
  /-- QUEUE_STARVED_TIMEOUT (R223): an event of the part -/
  | queueStarvedTimeout (p : Party)
  /-- CUPEL_OPERATION_START (R135): an event of the part -/
  | cupelOperationStart (core : Nat)
  /-- CUPEL_COMPLETE (R152): an event of the part -/
  | cupelComplete (core : Nat)
  /-- COPY_OPERATION_START (R329): an event of the part -/
  | copyOperationStart (core : Nat)
  /-- COPY_COMPLETE (R330): an event of the part -/
  | copyComplete (core : Nat)
  /-- REDUCE_UNIT_ARRIVAL (R337): an event of the part -/
  | reduceUnitArrival (u : UnitSource)
  /-- TOUCHSTONE_EPOCH_END (R175): an event of the part -/
  | touchstoneEpochEnd (p : Party)
  /-- ASSAY_START (R171): an event of the part -/
  | assayStart (die : Nat)
  /-- ASSAY_RESULT (R171): an event of the part -/
  | assayResult (die : Nat) (pass : Bool)
  /-- SNAP_TRIGGER (R170): an event of the part -/
  | snapTrigger (source : SnapSource)
  /-- SNAPSHOT_TIMEOUT (R170): an event of the part -/
  | snapshotTimeout
  /-- MIGRATING_LEAF_CLEARED (R108): an event of the part -/
  | migratingLeafCleared (w : Waiter)
  /-- UNCORRECTABLE_ERROR (R167): an event of the part -/
  | uncorrectableError (t : ErrorTarget)
  /-- TRAILING_COPY_PLACE (R355): an event of the part -/
  | trailingCopyPlace (p : Party) (core : Nat)
  deriving DecidableEq, Repr

end Sys2Proof
end

