-- ==== Sys2Proof/Machine/State.lean ====
section
/-! DEFINITION. The state of one F7 (INVENTORY.md, State): every piece the spec gives the machine, as plain data;
its value right after reset; and the reasons a step can stop. -/

namespace Sys2Proof.Machine

open Sys2Proof

/-- Why the machine stops with a fault. -/
inductive Fault where
  /-- raised by an instruction executed while no party has a clause in progress, so that no team issues it; `step`
  never does that. Safe: the model stops where the F7 has no such case (log 6). -/
  | noIssuer
  deriving DecidableEq, Repr

/-- Why an instruction or event has no meaning in a state. -/
inductive Refusal where
  /-- raised by exec's arms for an instruction the model gives no meaning. Safe. -/
  | notModelled (mnemonic : String)
  deriving DecidableEq, Repr

/-! ### Teams -/

/-- A bypass latch (R225): no value, a scalar result, or a vector result (lanes not listed hold 0). -/
inductive Latch where
  | none
  | scalar (v : Word)
  | vector (vals : Tbl Word)
  deriving DecidableEq, Repr

/-- A path of the path table or the overflow area (R80, R84, R242). -/
structure Path where
  pc : DWord
  mask : Mask
  age : BitVec 16 := 0
  folded : Bool := false
  creation : Word := 0
  join : Option Nat := none
  handler : Bool := false
  /-- the path reached its program counter by falling through (R221) -/
  seq : Bool := false
  deriving DecidableEq, Repr

/-- A join record (R80). -/
structure JoinRec where
  id : Nat
  j : DWord
  pending : Nat
  mask : Mask
  outer : Option Nat
  folded : Bool := false
  deriving DecidableEq, Repr

/-- The STATE field of a window (R105). -/
inductive WinState where
  | invalid | pending | valid
  deriving DecidableEq, Repr

/-- A translation window (R105). -/
structure Window where
  gen : Byte := 0
  node : BitVec 11 := 0
  tier : BitVec 2 := 0
  frame : BitVec 36 := 0
  rid : Byte := 0
  vbase : Word := 0
  limit : BitVec 13 := 0
  p : Bool := false
  at' : Bool := false
  x : Bool := false
  w : Bool := false
  rd : Bool := false
  fmt : BitVec 6 := 0
  geom : BitVec 4 := 0
  pm : Bool := false
  state : WinState := .invalid
  /-- the window derives from a 256 MiB leaf (R129; not in its image) -/
  large : Bool := false
  /-- since when the fill waits on a migrating leaf or, with `remote`, on a remote owner (R106, R108, R109) -/
  since : Option DWord := none
  remote : Bool := false
  deriving DecidableEq, Repr

/-- A queue register (R88, R332): its role and its entries, oldest first. -/
structure Queue where
  role : BitVec 3
  entries : List DWord := []
  deriving DecidableEq, Repr

/-- A binding (R118); LEN 0 marks an empty entry. -/
structure Binding where
  obj : DWord := 0
  base : DWord := 0
  len : BitVec 40 := 0
  deriving DecidableEq, Repr

/-- A breakpoint or watchpoint register: its 64 bits and its lane mask (R162). -/
structure DebugReg where
  val : DWord := 0
  mask : Mask := 0
  deriving DecidableEq, Repr

/-- Where TRET resumes (R159): the path, POS and RETRY, and the latches restored. -/
structure Resume where
  path : Word
  pos : Nat
  retry : Bool
  latches : List Latch := []
  /-- left by a stop in a blocked push or pop, which is to be repeated (R91) -/
  stopped : Bool := false
  deriving DecidableEq, Repr

/-- A trap about to be taken (R156 to R158): its cause, trap mask, position, origin and RETRY, its detail, and the
per-lane causes, addresses and GEN fields where lanes differ. -/
structure Trap where
  cause : Cause
  mask : Mask := 0
  pos : Nat := 0
  tpc : DWord := 0
  origin : Nat := 0
  retry : Bool := true
  info : Word := 0
  causes : Tbl Cause := []
  addr : Tbl DWord := []
  gen : Tbl Byte := []
  deriving DecidableEq, Repr

/-- A register write that a load will make (R222, R312). -/
inductive RegWrite where
  | lane (reg lane : Nat) (v : Word)
  | scalar (reg : Nat) (v : Word)
  | norm (reg strand : Nat) (v : Half)
  deriving DecidableEq, Repr

/-- A 64-bit winner-list entry, value low and index high, and a row (R149, R150, R293). -/
structure WRow where
  entries : Tbl DWord := []
  stat : Word := 0
  refused : Option Word := none
  deriving DecidableEq, Repr

/-- A counted load whose results are not written yet: its register writes, or the winner list of a WLLD. -/
structure PendingLoad where
  writes : List RegWrite
  list : Option (Nat × Tbl WRow) := none
  deriving DecidableEq, Repr

/-- One byte written at its home: the bits of `bits` take those of `val` (a whole byte, or the element of a
sub-byte format, R311); with `digit`, that ternary digit of the byte (R179) takes the code `val` - 1. -/
structure HomeByte where
  addr : Nat
  bits : Byte
  val : Byte
  digit : Option Nat := none
  deriving DecidableEq, Repr

/-- A counted store that is not performed yet: the bytes it left dirty in the issuing cluster's L1, and the number of what
the copies of a replicated page have still to take of it (R124). -/
structure PendingStore where
  cached : List Nat := []
  serial : Option Nat := none
  deriving DecidableEq, Repr

/-- What one die's copy of replicated pages has still to take of a store (R124): the store's number, the die, and the bytes
at their addresses in copy 0. -/
structure Replica where
  serial : Nat
  die : Nat
  bytes : List HomeByte
  deriving DecidableEq, Repr

/-- Why a team, or a chaser, is not ready (R66, R248, R325 to R328, R344, R348, R355). -/
inductive Wait where
  /-- SLEEP until a tick -/
  | sleep (deadline : DWord)
  /-- WAIT on the word at a pointer: condition, global address and comparand; and the instruction, to be issued again: the
  creation number of its path, its clause's header, its position and its words -/
  | word (cond : Nat) (addr : Nat) (cmp : DWord) (path : Word) (hdr : DWord) (pos : Nat) (words : List Word)
  /-- a crew barrier (BAR or BARW), and the register that receives the status -/
  | bar (k : Nat) (sd : Option Nat)
  /-- GBAR, and the register of the status -/
  | gbar (sd : Nat)
  /-- PHASE before the tree's release, and the register of the phase number -/
  | phase (sd : Option Nat)
  /-- PHASE after the release: until the epoch tick, with the value to be written -/
  | epoch (tick : DWord) (sd : Option Nat) (v : Word)
  /-- a SHOOT in progress: context, first page (VA bits 47:16), count and scope -/
  | shoot (ctx : Nat) (page count : Nat) (scope : Nat)
  /-- SPAWN waiting for room in a node's queue, whose backlog holds its records (R60, R344) -/
  | spawn (node : Nat)
  /-- TSBEGIN before the trailing copy is placed -/
  | tsPlace
  /-- an instruction fetch that waits on a migrating leaf (R108): since a tick, and the trap at the timeout -/
  | fetch (since : DWord) (onTimeout : Trap)
  /-- an instruction fetch that waits on a remote owner (R109) -/
  | fetchRemote (since : DWord) (onTimeout : Trap)
  /-- stopped by a debug session (R164) -/
  | debug
  deriving DecidableEq, Repr

/-- Why an instruction of a clause holds the issue slot (R222, R223, R108, R109, R176). -/
inductive Hold where
  /-- a queue push or pop that cannot move -/
  | queue
  /-- an access in the walker on a migrating leaf, with the trap it takes at the timeout -/
  | migrating (onTimeout : Trap)
  /-- an access to an owner that does not answer, with the trap it takes at the timeout -/
  | remote (onTimeout : Trap)
  /-- an engine's command queue is full, a wait counter or launch-tracking count is at its limit, or a status or
  list is still awaited -/
  | engine
  /-- a touchstone meeting point (R176) -/
  | meet
  deriving DecidableEq, Repr

/-- A clause in progress (R218, R232): its header's address, the creation number of the issuing path, its words,
the position of the next instruction, the program counter after it when control is transferred, the waits that
begin at its end, and what holds the slot, since which tick; `meet` marks a meeting point reached (0) or released (1) with its
operands, or a trailing copy past the leading one (2). -/
structure Clause where
  hdr : DWord
  path : Word
  words : List Word
  pos : Nat
  target : Option DWord := none
  waits : List Wait := []
  yields : Bool := false
  halts : Bool := false
  stops : Bool := false
  skip : Bool := false
  hold : Option (Hold × DWord) := none
  meet : Option (Nat × List Word) := none
  /-- the passes that a lane-distributed queue instruction has moved (R89), and the entries that a pop has taken -/
  moved : Nat := 0
  taken : List DWord := []
  /-- a WAIT alone, issued again (R248): whether its path had fallen through to where it goes on -/
  again : Option Bool := none
  deriving DecidableEq, Repr

/-- The trap frame (R158, R160, R161), with the state TRET restores (R159). -/
structure Frame where
  tstat : Word := 0
  tpc : DWord := 0
  tinfo : Word := 0
  tpath : Word := 0
  mask : Mask := 0
  addr : Tbl DWord := []
  cause : Tbl Byte := []
  gen : Tbl Byte := []
  latches : List Latch := []
  exec : Mask := 0
  part : Nat := 32
  xv : Byte := 0
  xs : BitVec 6 := 0
  /-- the WAITs that are issued again after TRET (R248) -/
  again : List Clause := []
  deriving DecidableEq, Repr

/-- What a team and a chaser both have: scalar registers, latches, loads and stores in flight, waits, and the
clause in progress. -/
structure Thread where
  s : Tbl Word := []
  latches : List Latch := []
  loads : List PendingLoad := []
  stores : List PendingStore := []
  waits : List Wait := []
  issue : Option Clause := none
  /-- the clauses that a trap or a stop interrupted, the last one first: what their instructions asked for at the end begins
  when they are resumed (R91, R159) -/
  later : List Clause := []
  /-- the WAITs that a trap or a stop interrupted, to be issued again (R248) -/
  again : List Clause := []
  deriving DecidableEq, Repr

/-- The run state of a chaser (R87, R165). -/
inductive ChaserRun where
  | stopped | running | faulted
  deriving DecidableEq, Repr

/-- A chaser (R74, R87), with the fault it has delivered. -/
structure Chaser where
  th : Thread := {}
  pc : DWord := 0
  run : ChaserRun := .stopped
  fault : Option Trap := none
  resumePos : Nat := 0
  /-- the chaser reached its PC by falling through (R221) -/
  seq : Bool := false
  yielded : Bool := false
  deriving DecidableEq, Repr

/-- An engine operation of a team in issue order (R222, R329): its number, which engine, the result quad, the
current promise, and whether its status is written. -/
structure EngRec where
  op : Nat
  copy : Bool
  quad : Nat
  promise : DWord
  missed : Bool := false
  done : Bool := false
  /-- stopped with its crew (R91): it has left the count (R222) -/
  stopped : Bool := false
  deriving DecidableEq, Repr

/-- The ROLE field of tsstate (R174). -/
inductive TsRole where
  | off | leading | trailing
  deriving DecidableEq, Repr

/-- A team (R71 to R91, R105, R118, R160 to R163, R174). -/
structure Team where
  th : Thread := {}
  v : Tbl Word := []
  n : Tbl Half := []
  xv : Byte := 0
  xs : BitVec 6 := 0
  part : Nat := 32
  span : Nat := 1
  m : Tbl Mask := []
  paths : List Path := []
  joins : List JoinRec := []
  nextCreation : Word := 1
  nextJoin : Nat := 0
  launched : Mask := 0
  exited : Mask := 0
  win : Tbl Window := []
  queues : List Queue := []
  own : List Binding := []
  engines : List EngRec := []
  copyStatus : List DWord := []
  timehi : Word := 0
  /-- where TRET resumes: the path, the position, and the saved latches (R159) -/
  resumeAt : Option Resume := none
  handler : Bool := false
  frame : Frame := {}
  bp : Tbl DebugReg := []
  wp : Tbl DebugReg := []
  stepctl : Word := 0
  stepDue : Bool := false
  stopReq : Bool := false
  /-- the debug session that stopped the team (R164) -/
  session : Option Nat := none
  pending : List Trap := []
  withheld : Option DWord := none
  throttlePass : Bool := false
  halted : Bool := false
  /-- the cause for which the team was halted (R156); none when its context or session closed -/
  haltCause : Option HaltCause := none
  retired : Bool := false
  collN : Nat := 0
  phase : Nat := 0
  yielded : Bool := false
  role : TsRole := .off
  tsRetry : Nat := 0
  chaser : Chaser := {}
  cluster : Nat := 0
  slot : Nat := 0
  deriving DecidableEq, Repr

/-- One entry of the compare buffer (R175): a pass of a store of the leading copy, its accesses (global address and
data), the CRC-32C of the leading copy and, once the trailing copy reached it, that of the trailing copy. -/
structure BufEntry where
  lanes : List Nat
  accesses : List (DWord × List Byte)
  home : List HomeByte
  crc : Word
  trail : Option Word := none
  /-- whether it is the first pass of its instruction -/
  first : Bool := true
  deriving DecidableEq, Repr

/-- A touchstone pair (R174 to R176): the trailing copy and its core, the checkpoint of both copies, the compare
buffer, and how many instructions each copy has retired. -/
structure Pair where
  trail : Team
  core : Nat
  leadCp : Team
  trailCp : Team
  buf : List BufEntry := []
  leadDone : Nat := 0
  trailDone : Nat := 0
  /-- asynchronous traps, and QUEUE_STARVED, that the leading copy took since the checkpoint, by its retired count, and how
  many of them the trailing copy has taken (R371) -/
  traps : List (Nat × Trap) := []
  trapsTaken : Nat := 0
  /-- entries the leading copy popped, and how many it pushed, since the checkpoint, by queue -/
  popped : Tbl (List DWord) := []
  pushed : Tbl Nat := []
  /-- the trailing copy's winner lists (R294), and the crew's at the checkpoint -/
  wls : Tbl (Tbl WRow) := []
  wlsCp : Tbl (Tbl WRow) := []
  /-- the debug session's STEP (`true`) or DETACH (`false`) of the leading copy, by its retired count, which the trailing copy
  takes at the same one (R164, R371) -/
  arms : List (Nat × Bool) := []
  /-- the leading copy reached one of the limits of R175 and stalls until the epoch ends -/
  stalled : Bool := false
  deriving DecidableEq, Repr

/-! ### Crews -/

/-- A crew barrier record (R74, R165, R168). -/
structure Bar where
  count : Nat := 0
  phase : Bool := false
  bitmap : BitVec 16 := 0
  abandoned : Bool := false
  deriving DecidableEq, Repr

/-- The states of R56. -/
inductive CrewState where
  | claimed | loading | resident | stopping | saved | retired
  deriving DecidableEq, Repr

/-- How a crew arrived on the barrier tree (R64, R348). -/
inductive TreeKind where
  | gbar | phase
  deriving DecidableEq, Repr

/-- An XCOPY slice (R334). -/
structure Slice where
  team : Nat
  src : DWord
  dst : DWord
  len : Nat
  off : Nat
  dp : Bool
  sp : Bool
  mask : Nat
  quad : Nat
  opId : Nat
  promise : DWord
  cluster : Nat
  /-- the slice of a team that retired or halted before it issued one (R335) -/
  empty : Bool := false
  deriving DecidableEq, Repr

/-- A page that an engine holds translated (R132): whether of the destination, its pointer, and its place. -/
structure HeldPage where
  dst : Bool
  page : DWord
  addr : Nat
  tier : Nat
  fmt : Nat
  geom : Nat
  pm : Bool
  node : Nat
  /-- whether its leaf is one of 256 MiB (R325) -/
  large : Bool := false
  deriving DecidableEq, Repr

/-- A copy-engine operation (R329 to R337): XCOPY with its slices, or XRED. -/
structure CopyOp where
  crew : Nat
  ctx : Nat
  launch : Nat
  slices : List Slice
  mask : Nat
  coll : Option Nat := none
  reduce : Option (BitVec 3 × BitVec 5 × Bool × Word) := none
  transfer : Nat := 0
  started : Bool := false
  startAt : Option DWord := none
  unit : Nat := 0
  resume : Option (Nat × DWord) := none
  /-- since when it is blocked, or waits on a migrating leaf or, with `remote`, on a remote owner -/
  since : Option DWord := none
  remote : Bool := false
  promise : DWord := 0
  contributed : Bool := false
  /-- whether the engine started it in an exchange phase of its launch (R65) -/
  exchange : Bool := false
  /-- the pages that the engine works on between two units, or while it waits (R132) -/
  held : List HeldPage := []
  /-- its context was closed: it completes with CANCELLED (R335) -/
  cancelled : Bool := false
  /-- the access on which it waits: whether the destination's, the GEN of the leaf, and the address (R108, R109) -/
  stuck : Bool × Byte × DWord := (false, 0, 0)
  deriving DecidableEq, Repr

/-- The kinds of Cupel operation (R135). -/
inductive CupelKind where
  | wbload | dense | topk (wl : Nat) | bin (and : Bool) | epiMem | epiReg (td reg : Nat)
  deriving DecidableEq, Repr

/-- A Cupel operation (R135, R338 to R342): its block of scalars as read at issue, and what it has read since it
started. -/
structure CupelOp where
  crew : Nat
  team : Nat
  ctx : Nat
  launch : Nat
  kind : CupelKind
  block : List Word
  /-- the core whose launch-tracking entry counts it (R57, R70) -/
  home : Nat
  sat : Bool := false
  quad : Nat
  opId : Nat
  /-- its team was halted, or its context closed: it completes with CANCELLED (R155) -/
  cancelled : Bool := false
  /-- the weight buffer of the core where its crew was stopped, for a loop that its image carries (R154) -/
  weight : Option (Tbl Byte) := none
  /-- the ticks that R151 allows it -/
  ticks : Nat := 0
  promise : DWord
  held : Bool := false
  started : Bool := false
  /-- since when it is held, hungers for rows, or waits on a migrating leaf or, with `remote`, on a remote owner -/
  since : Option DWord := none
  remote : Bool := false
  /-- the A rows read (R137): their bytes, row by row; popped ones in whole 64-bit entries -/
  rows : List Byte := []
  /-- what it has still to read of scratch that its crew has given up -/
  kept : Option (List Byte) := none
  /-- it has popped an entry that holds an uncorrectable error (R155) -/
  bad : Bool := false
  /-- the pages that the engine works on while the operation waits (R132) -/
  pages : List HeldPage := []
  step : Nat := 0
  next : Nat := 0
  dross : Nat := 0
  deriving DecidableEq, Repr

/-- A crew (R53 to R57, R72 to R74). -/
structure Crew where
  ctx : Nat
  launch : Nat
  lin : Nat
  x : Nat := 0
  y : Nat := 0
  z : Nat := 0
  core : Nat := 0
  state : CrewState := .claimed
  teams : Tbl Team := []
  bars : Tbl Bar := []
  granules : List Nat := []
  wls : Tbl (Tbl WRow) := []
  tree : List (Nat × TreeKind) := []
  treeArrived : Option TreeKind := none
  scratch : Tbl Byte := []
  stoppedAt : DWord := 0
  image : Bool := false
  cupel : List CupelOp := []
  copies : List CopyOp := []
  /-- in an image: the team that owns the tile, whether its cells are INT32, and the cells (R154, R169) -/
  tile : Option (Nat × Bool × Tbl Word) := none
  deriving DecidableEq, Repr

/-- Where a launch comes from: a packet, or a graph node. -/
inductive LaunchSource where
  | packet (queue index : Nat)
  | node (node : Nat)
  deriving DecidableEq, Repr

/-- A launch (R46, R52 to R58, R61). -/
structure Launch where
  source : LaunchSource
  ctx : Nat
  prio : Nat
  te : Bool
  co : Bool
  af : Bool
  entry : DWord
  args : DWord
  chaser : DWord
  gx : Nat
  gy : Nat
  gz : Nat
  stage : Nat
  teams : Nat
  strands : Nat
  vregs : Nat
  sregs : Nat
  scratch : Nat
  wlists : Nat
  binds : List Binding := []
  total : Nat
  next : Nat := 0
  started : DWord := 0
  proc : Nat := 0
  cores : List Nat := []
  halt : Option (DWord × Nat × Nat) := none
  channel : Option Nat := none
  tileBase : DWord := 0
  tileCount : Nat := 0
  /-- the tick at which its first crew was placed (R50) -/
  placed : Option DWord := none
  /-- a core it used failed assay (R171) -/
  tainted : Bool := false
  closed : Bool := false
  deriving DecidableEq, Repr

/-! ### Service objects -/

/-- A context (R32 to R36, R51, R68, R98, R158, R173). -/
structure Context where
  handler : DWord := 0
  root : Nat := 0
  regions : Tbl (BitVec 128) := []
  notify : Option (List Byte) := none
  energy : DWord := 0
  closing : Option DWord := none
  closeReq : Option Request := none
  sealedGen : Nat := 0
  kept : List (Nat × Nat × List Byte) := []
  frames : List Nat := []
  deriving DecidableEq, Repr

/-- The STATE of a queue (R40). -/
inductive QState where
  | active | stopped | destroyed
  deriving DecidableEq, Repr

/-- A user queue (R37 to R41). -/
structure UQueue where
  ctx : Nat
  ring : DWord
  status : DWord
  n : Nat
  cap : Nat
  proc : Nat
  handle : Nat
  addr : Nat
  wi : DWord := 0
  ri : DWord := 0
  state : QState := .active
  cause : BitVec 16 := 0
  err : BitVec 16 := 0
  held : Bool := false
  reread : Option DWord := none
  /-- since when the read of slot RI waits on a migrating leaf or, with `remote`, on a remote owner (R108, R109) -/
  since : Option DWord := none
  remote : Bool := false
  deriving DecidableEq, Repr

/-- The states of R52. -/
inductive PState where
  | fetched | acquire | settle | running | confirming
  deriving DecidableEq, Repr

/-- A packet between fetch and CONFIRMED (R42 to R52). -/
structure Packet where
  queue : Nat
  index : Nat
  ctx : Nat
  bytes : List Byte
  state : PState := .fetched
  status : Word := 0
  detail : DWord := 0
  launch : Option Nat := none
  grid : Option (Nat × Nat × Nat) := none
  binds : List Binding := []
  deadline : Option DWord := none
  /-- since when an access of it waits on a migrating leaf or, with `remote`, on a remote owner -/
  since : Option DWord := none
  remote : Bool := false
  /-- the address of that access -/
  stuck : DWord := 0
  unit : Nat := 0
  /-- the pages that the hub's copy engine works on while a COPY waits (R132) -/
  held : List HeldPage := []
  cores : List (Nat × DWord) := []
  deriving DecidableEq, Repr

/-- The records of a SPAWN that waits for room (R60, R344): its team, and the core and the launch whose tracking entry counts
them (R57, R70). -/
structure SpawnRecords where
  crew : Nat
  team : Nat
  core : Nat
  launch : Nat
  records : List (List Byte)
  deriving DecidableEq, Repr

/-- A graph node (R59 to R62). Records are numbered from 0 on; `head` is the first one no launch has taken, `tail` the
number of the next; `launches` holds its launches with the first record of each. -/
structure Node where
  ctx : Nat
  key : DWord
  te : Bool := false
  armed : Bool := false
  recSize : Nat
  strands : Nat
  stage : Nat
  timer : Nat
  base : DWord
  capacity : Nat
  head : Nat := 0
  tail : Nat := 0
  deadline : Option DWord := none
  template : List Byte
  prio : Nat := 0
  status : Word := 0
  detail : DWord := 0
  launches : List (Nat × Nat) := []
  /-- what waits for room in the queue, in order of arrival -/
  backlog : List SpawnRecords := []
  deriving DecidableEq, Repr

/-- A channel of the barrier tree (R64, R168, R348). -/
structure Channel where
  launch : Nat
  arrived : List (Nat × TreeKind) := []
  abandoned : Bool := false
  phase : Nat := 0
  epoch : DWord := 0
  deriving DecidableEq, Repr

/-- A debug session (R164, R170). -/
structure Session where
  ctx : Nat
  mask : BitVec 4 := 0
  deriving DecidableEq, Repr

/-- A virtual range opened to RDMA (R34). -/
structure Exposure where
  ctx : Nat
  base : DWord
  len : Nat
  read : Bool
  write : Bool
  deriving DecidableEq, Repr

/-- What a snapshot shows of a queue and a cluster slot, a core and a port (R170). -/
structure SnapSlot where
  cluster : Nat
  slot : Nat
  ctx : Nat
  pc : DWord
  paths : Nat
  waits : Nat
  deriving DecidableEq, Repr

/-- The frozen snapshot (R170). -/
structure Snapshot where
  owner : Nat
  tick : DWord
  slots : List SnapSlot
  clusters : List (Nat × Nat × Int)
  cupel : List (Nat × Nat × Nat × Nat × Nat × Nat)
  copy : List (Nat × Nat × Nat × Nat × DWord)
  queues : List (Nat × Nat × DWord × DWord × Nat × Nat)
  /-- a crew, its context, its state, and whether it is in migration -/
  crews : List (Nat × Nat × Nat × Bool)
  ports : List (Nat × Nat × Nat × Nat)
  /-- the first of the free values that stand for the memory channels' queue depths and error counts -/
  channels : Nat
  deriving DecidableEq, Repr

/-- An ingot (R172): the scope's context (0 for the device), its generation, the tick of step 1, where it lies in the
pool, its chunks, the queues' RI, the pages written with their bytes, the crews' images, the contexts it covers and that
are still open, what the processors, the binner and the barrier tree hold of the scope, and the cores of the scope. -/
structure Ingot where
  ctx : Nat
  gen : Nat
  tick : DWord
  pool : Nat
  chunks : Nat
  queues : List (Nat × Nat × DWord)
  pages : List (Nat × Tbl Byte)
  crews : Tbl Crew
  pairs : Tbl Pair
  launches : Tbl Launch
  packets : Tbl Packet
  nodes : Tbl Node
  channels : Tbl Channel
  cores : List Nat
  contexts : List Nat
  /-- whether every chunk has been flushed to the pool (R12, R172) -/
  flushed : Bool := false
  sealed : Bool := false
  deriving DecidableEq, Repr

/-! ### Cores, clusters, dies -/

/-- A launch-tracking entry (R57); `spawned` counts the SPAWN records among its stores that are appended and not yet
acknowledged. -/
structure Track where
  stores : Nat := 0
  signals : Nat := 0
  spawned : Nat := 0
  deriving DecidableEq, Repr

/-- A TLB entry (R104, R127): the context, the page (VA bits 47:16), its leaf image, whether the leaf maps 256 MiB,
and the physical address of the leaf. -/
structure TlbEntry where
  ctx : Nat
  page : Nat
  large : Bool
  leaf : BitVec 128
  leafAt : Nat
  dirty : Bool
  deriving DecidableEq, Repr

/-- A page through which a core has fetched code (R233): the context, the page, whether its leaf maps 256 MiB, and where the
page lies for the core. -/
structure CodePage where
  ctx : Nat
  page : Nat
  large : Bool
  addr : Nat
  deriving DecidableEq, Repr

/-- An L1 line (R94): 128 bytes and the dirty mask. -/
structure Line where
  data : BitVec 1024
  dirty : BitVec 128 := 0
  deriving DecidableEq, Repr

/-- A core (R71, R53, R57, R135, R329, R171). -/
structure Core where
  retired : Bool := false
  lastPass : DWord := 0
  launches : List (Nat × DWord) := []
  track : Tbl Track := []
  cupel : List CupelOp := []
  cupelPromise : DWord := 0
  weight : Tbl Byte := []
  tile : Tbl Word := []
  /-- whether the tile's cells are INT32 -/
  tileInt : Bool := false
  tileOwner : Option (Nat × Nat) := none
  copies : List CopyOp := []
  copyPromise : DWord := 0
  transfers : Nat := 0
  tlb : List TlbEntry := []
  icache : Tbl (BitVec 1024) := []
  code : List CodePage := []
  pins : Tbl (List Nat) := []
  /-- since when the hot-spot sensor has read above 100 °C (R69) -/
  hot : Option DWord := none
  deriving DecidableEq, Repr

/-- A cluster (R66 to R68, R71, R94, R231). -/
structure Cluster where
  pointer : Nat := 0
  /-- the slot whose chaser the scalar access pipeline looks at first (R71) -/
  chaserNext : Nat := 0
  slots : Tbl Party := []
  holder : Option Party := none
  /-- the allowance A, at tick `fillTick` -/
  allowance : Int := 0
  fillTick : DWord := 0
  /-- the fill rate before and after the die's last change of holding, and the tick of that change -/
  fill : Int := 0
  target : Int := 0
  changed : DWord := 0
  samples : Tbl Nat := []
  /-- the samples of windows of 170,000 ticks whose energy is still to be divided, oldest first -/
  due : List (Tbl Nat) := []
  l1 : Tbl Line := []
  icache : Tbl (BitVec 1024) := []
  deriving DecidableEq, Repr

/-- A die (R8, R9, R20 to R22, R27, R69, R171). -/
structure Die where
  trained : Bool := false
  failed : Bool := false
  retired : Bool := false
  grains : Nat
  tokenSeen : DWord := 0
  dropped : Bool := false
  /-- the tick of the die's last re-plan, and the leakage it read then (R22) -/
  planTick : DWord := 0
  planLeak : Nat := 0
  newTable : Option (List Byte) := none
  table : List Byte := []
  assayNext : Nat := 0
  /-- the pass in progress: the core, the tick at which it began, and since when its scan runs or waits -/
  assay : Option (Nat × DWord × DWord) := none
  assayTick : DWord := 0
  migrating : Option Nat := none
  deriving DecidableEq, Repr

/-- The grain token (R20, R21): the die it reaches next, the pool grains it carries, and the tick at which its last round
from die 0 began. -/
structure Token where
  die : Nat := 0
  count : Nat := 92000
  round : Option DWord := none
  deriving DecidableEq, Repr

/-! ### The module -/

/-- The checks of a boot image (R23). -/
inductive BootCheck where
  | digest | signature | version
  deriving DecidableEq, Repr

/-- A first-stage image slot of the flash (R23), as the boot ROM finds it. -/
structure FlashSlot where
  digestOk : Bool
  signatureOk : Bool
  version : Nat
  /-- which image the slot holds: its bytes are outside the spec (log 3) -/
  image : Nat := 0
  deriving DecidableEq, Repr

/-- The service the module offers (R24, R25, R27). -/
inductive Service where
  | off | recovery | reduced | full | degraded
  deriving DecidableEq, Repr

/-- What the board controller answers (R29, R30). -/
inductive BoardReply where
  | done
  | nack
  | sensors (temps : List (BitVec 16)) (rails : List (BitVec 32)) (power : Word)
  | status (state : Nat) (bootFail : List (Nat × BootCheck)) (duplicate : Bool)
  deriving DecidableEq, Repr

/-- A plan-history entry of the hallmark (R26). -/
structure PlanEntry where
  tick : DWord
  die : Nat
  reason : Nat
  core : Nat
  digest : List Byte
  deriving DecidableEq, Repr

/-- The state of a port in the link inventory (R26). -/
inductive LinkState where
  | up | down | retrained | takenDown | isolated | refused
  deriving DecidableEq, Repr

/-- A CXL port (R12, R26, R92): its state, the device kind of R26, and the bytes attached. -/
structure CxlPort where
  state : LinkState := .down
  kind : Nat := 0
  capacity : Nat := 0
  /-- the trained rate per direction, in Mb/s -/
  rate : Nat := 0
  deriving DecidableEq, Repr

/-- A fabric port (R15, R16). -/
structure FabricPort where
  state : LinkState := .down
  txSeq : BitVec 12 := 0
  rxNext : BitVec 12 := 0
  ack : BitVec 12 := 0
  credit : BitVec 16 := 0
  skipping : Bool := false
  retraining : Bool := false
  replay : List (BitVec 12 × List Byte) := []
  /-- payloads, with their virtual channel, that wait for room in the replay buffer -/
  backlog : List (Nat × List Byte) := []
  replays : Nat := 0
  lastReplay : Option (BitVec 12) := none
  received : List (List Byte) := []
  sent : List (List Byte) := []
  deriving DecidableEq, Repr

/-- The service limits of the configuration image (R24): what the service opens of contexts, queues and debug sessions,
never more than R33 lets an F7 hold. -/
structure Limits where
  contexts : Nat := 255
  queues : Nat := 4096
  sessions : Nat := 16
  deriving DecidableEq, Repr

/-- The board, flash, secure element and boot record (R23, R24, R29). -/
structure Module where
  powered : Bool := false
  held : Bool := false
  /-- module power-good has been reached -/
  good : Bool := false
  firstB : Bool := false
  slotA : FlashSlot
  slotB : FlashSlot
  rollback : Nat := 0
  configOk : Bool := true
  node : BitVec 11 := 0
  operator : Nat := 0
  /-- the link inventory of the configuration image: the neighbour's node number of each fabric port -/
  links : Tbl (BitVec 11) := []
  limits : Limits := {}
  /-- the slot that booted, and what the stages measured: first stage, service firmware, resident service and
  configuration image -/
  bootedB : Option Bool := none
  measures : List (List Byte) := []
  hubUp : BitVec 4 := 0
  bootFail : List (Nat × BootCheck) := []
  service : Service := .off
  replies : List BoardReply := []
  plan : List PlanEntry := []
  joined : Bool := false
  duplicate : Bool := false
  reduces : Bool := false
  lossLog : List Nat := []
  deriving DecidableEq, Repr

/-- An answer or notification that leaves the F7 (R14, R31, R51). -/
inductive Sent where
  | response (client : Nat) (header body : List Byte)
  | notification (endpoint body : List Byte)
  | rdmaDone
  | rdmaData (data : List Byte)
  | rdmaError
  /-- a send, a read, a write or an atomic of a form that R14 refuses -/
  | rdmaRefused
  | remoteData (data : List Byte)
  | remoteDone
  | remoteDenied
  | remotePoison
  | remoteReplay
  deriving DecidableEq, Repr

/-- An inbound RDMA operation that waits on a migrating leaf, or with `remote` on a remote owner (R14, R35, R108, R109): a
write of its bytes, or a read of so many. -/
structure InboundOp where
  handle : Word
  offset : Nat
  write : Option (List Byte)
  len : Nat
  since : DWord
  remote : Bool
  deriving DecidableEq, Repr

/-- A write of the packet processors to a context's memory that waits in the same way (R40, R49, R108, R109). -/
structure PostedWrite where
  ctx : Nat
  at' : DWord
  bytes : List Byte
  since : DWord
  remote : Bool
  /-- it has met the leaf or the owner itself, and does not only wait behind an earlier write -/
  tried : Bool := false
  deriving DecidableEq, Repr

/-- What is poisoned by an uncorrectable error (R167). -/
inductive Poison where
  | word (addr : Nat)
  | line (cluster line : Nat)
  | vreg (p : Party) (reg lane : Nat)
  | sreg (p : Party) (reg : Nat)
  | mask (p : Party) (reg : Nat)
  | norm (p : Party) (reg : Nat)
  | window (p : Party) (index : Nat)
  | queue (p : Party) (index : Nat)
  deriving DecidableEq, Repr

/-- A translated address: the global address, the leaf's attributes, and what the walker fills (R104). -/
structure Phys where
  addr : Nat
  tier : Nat
  fmt : Nat
  geom : Nat
  pm : Bool
  node : Nat
  gen : Byte
  large : Bool := false
  fill : Option TlbEntry := none
  leafAt : Nat := 0
  leaf : BitVec 128 := 0
  setAc : Bool := false
  setD : Bool := false
  deriving DecidableEq, Repr

/-- A root accumulator of ROOTQ reductions (R337). -/
structure RedAcc where
  sums : Tbl Int := []
  specials : Tbl Nat := []
  count : Nat := 0
  /-- the operations of this F7 that wait for the delivery, and how many contributions came from other F7s -/
  waiting : List Nat := []
  remotes : Nat := 0
  /-- the bytes of a destination whose owner is another node: its delivery ends the wait -/
  places : List Phys := []
  deriving DecidableEq, Repr

/-- The inputs and agent acts to come (log 4). -/
inductive Agenda where
  /-- a row of the table: an event of the part -/
  | row (i : Instr)
  /-- that many ticks pass -/
  | elapse (ticks : Nat)
  /-- an L1 line leaves a cluster -/
  | evictLine (cluster line : Nat)
  /-- a TLB entry of a core leaves -/
  | evictTlb (core index : Nat)
  /-- an instruction-cache line of a cluster (`true`) or core leaves -/
  | evictCode (cluster : Bool) (index line : Nat)
  /-- the next step continues another party's clause -/
  | turn (p : Option Party)
  /-- another cluster issues next when no clause is in progress -/
  | focus (cluster : Nat)
  /-- the hot-spot sensor of a core reads a temperature in °C (R69) -/
  | sensor (core temp : Nat)
  /-- a die still sees what `len` bytes from an address hold now (R123), or sees them all as they are again -/
  | lag (die addr len : Nat)
  | catchUp (die : Nat)
  /-- a die's copy of replicated pages takes a store (R124) -/
  | spread (serial die : Nat)
  /-- Global Persistent Flush: what the scope's ingot wrote is on the persistent devices (R12, R172) -/
  | flush (scope : Nat)
  /-- the transaction layer hands a fabric port a payload on a virtual channel (R16) -/
  | transact (port vc : Nat) (payload : List Byte)
  /-- the nodes that answer, and the ranges (node, base, length) that their services have opened to the domain (R109) -/
  | peers (reachable : List Nat) (opened : List (Nat × Nat × Nat))
  deriving DecidableEq, Repr

/-- The state of one F7. -/
structure State where
  now : DWord
  mod : Module
  dies : Tbl Die
  token : Token
  cxl : Tbl CxlPort
  uec : Tbl LinkState
  ports : Tbl FabricPort
  contexts : Tbl Context
  queues : Tbl UQueue
  packets : Tbl Packet
  launches : Tbl Launch
  crews : Tbl Crew
  pairs : Tbl Pair
  nodes : Tbl Node
  channels : Tbl Channel
  sessions : Tbl Session
  exposures : Tbl Exposure
  ingots : List Ingot
  snapshot : Option Snapshot
  owners : Tbl Nat
  nextFrame : Tbl Nat
  freeFrames : List Nat
  cores : Tbl Core
  clusters : Tbl Cluster
  reds : Tbl RedAcc
  redSeen : List (Nat × Nat × Nat)
  inbounds : List InboundOp
  posted : List PostedWrite
  reachable : List Nat
  opened : List (Nat × Nat × Nat)
  mem : List Host.Cell
  /-- what a die still sees of bytes whose newer values have not reached it (R123) -/
  views : Tbl (Tbl Byte)
  /-- the widest scope at which each sync object has been released, by its address (R2, R121) -/
  released : Tbl Nat
  replicas : List Replica
  poison : List Poison
  sent : List Sent
  agenda : List Agenda
  turn : Option Party
  focus : Nat
  freeCount : Nat
  nextOp : Nat
  nextHandle : Nat
  deriving DecidableEq, Repr

/-- The die record at power-good: compute dies hold a floor of 4,000 grains and hub dies of 10,000 (R20). -/
def Die.reset (d : Nat) : Die := { grains := if d < 12 then 4000 else 10000 }

/-- The machine right after reset: in standby, before POWER_ON; every table empty; memory listing nothing. The
values the spec does not state are those of log 2 and log 3. -/
def State.reset : State where
  now := 0
  mod := { slotA := { digestOk := true, signatureOk := true, version := 0 },
           slotB := { digestOk := true, signatureOk := true, version := 0, image := 1 } }
  dies := [(0, Die.reset 0), (1, Die.reset 1), (2, Die.reset 2), (3, Die.reset 3), (4, Die.reset 4),
    (5, Die.reset 5), (6, Die.reset 6), (7, Die.reset 7), (8, Die.reset 8), (9, Die.reset 9),
    (10, Die.reset 10), (11, Die.reset 11), (12, Die.reset 12), (13, Die.reset 13), (14, Die.reset 14),
    (15, Die.reset 15)]
  token := {}
  cxl := []
  uec := []
  ports := []
  contexts := []
  queues := []
  packets := []
  launches := []
  crews := []
  pairs := []
  nodes := []
  channels := []
  sessions := []
  exposures := []
  ingots := []
  snapshot := none
  owners := []
  nextFrame := []
  freeFrames := []
  cores := []
  clusters := []
  reds := []
  redSeen := []
  inbounds := []
  posted := []
  reachable := []
  opened := []
  mem := []
  views := []
  released := []
  replicas := []
  poison := []
  sent := []
  agenda := []
  turn := none
  focus := 0
  freeCount := 0
  nextOp := 0
  nextHandle := 1

end Sys2Proof.Machine
end

