-- ==== Sys2Proof/Machine/Access.lean ====
section
/-! DEFINITION. Reading and replacing the parts of the state: cores, clusters, crews, teams, the threads of teams
and chasers, registers, norms and latches. Every read and write of a register goes through these. -/

namespace Sys2Proof.Machine

open Sys2Proof

/-! ### Cores, clusters, dies -/

def State.core (s : State) (c : Nat) : Core := s.cores.read {} c
def State.setCore (s : State) (c : Nat) (k : Core) : State := { s with cores := s.cores.write {} c k }
def State.updCore (s : State) (c : Nat) (f : Core → Core) : State := s.setCore c (f (s.core c))

def State.cluster (s : State) (c : Nat) : Cluster := s.clusters.read {} c
def State.setCluster (s : State) (c : Nat) (k : Cluster) : State := { s with clusters := s.clusters.write {} c k }
def State.updCluster (s : State) (c : Nat) (f : Cluster → Cluster) : State := s.setCluster c (f (s.cluster c))

def State.die (s : State) (d : Nat) : Die := s.dies.read (Die.reset d) d
def State.setDie (s : State) (d : Nat) (k : Die) : State := { s with dies := s.dies.put d k }
def State.updDie (s : State) (d : Nat) (f : Die → Die) : State := s.setDie d (f (s.die d))

def State.updCrew (s : State) (k : Nat) (f : Crew → Crew) : State := { s with crews := s.crews.upd k f }
def State.updLaunch (s : State) (k : Nat) (f : Launch → Launch) : State := { s with launches := s.launches.upd k f }
def State.updContext (s : State) (k : Nat) (f : Context → Context) : State :=
  { s with contexts := s.contexts.upd k f }

/-- The die a core lies on, and the core a cluster lies in (R71). -/
def dieOfCore (c : Nat) : Nat := c / 32
def coreOfCluster (k : Nat) : Nat := k / 4

/-- The key of a team's touchstone pair. -/
def pairKey (crew team : Nat) : Nat := crew * 16 + team

/-! ### Teams and threads -/

/-- The team of a party: the trailing copy for a trailing party, else the crew's team. -/
def State.team? (s : State) (p : Party) : Option Team :=
  match p.kind with
  | .trail => (s.pairs.get? (pairKey p.crew p.team)).map (·.trail)
  | _ => (s.crews.get? p.crew).bind fun c => c.teams.get? p.team

/-- Replace the team of a party. -/
def State.setTeam (s : State) (p : Party) (t : Team) : State :=
  match p.kind with
  | .trail => { s with pairs := s.pairs.upd (pairKey p.crew p.team) fun q => { q with trail := t } }
  | _ => s.updCrew p.crew fun c => { c with teams := c.teams.upd p.team fun _ => t }

/-- Change the team of a party. -/
def State.updTeam (s : State) (p : Party) (f : Team → Team) : State :=
  match s.team? p with
  | none => s
  | some t => s.setTeam p (f t)

/-- The thread that issues for a party of the given kind in its team. -/
def Team.thread (t : Team) : PartyKind → Thread
  | .chaser => t.chaser.th
  | _ => t.th

/-- Replace the thread of a kind. -/
def Team.setThread (t : Team) : PartyKind → Thread → Team
  | .chaser, th => { t with chaser := { t.chaser with th := th } }
  | _, th => { t with th := th }

/-- Change the trailing copy and both checkpoints of a pair. -/
def Pair.each (q : Pair) (f : Team → Team) : Pair :=
  { q with trail := f q.trail, leadCp := f q.leadCp, trailCp := f q.trailCp }

/-- Change the team of a party and, when it leads a touchstone pair, the trailing copy and both checkpoints, which a
later rollback restores (R176). -/
def State.updCopies (s : State) (p : Party) (f : Team → Team) : State :=
  { s.updTeam p f with pairs := s.pairs.upd (pairKey p.crew p.team) fun q => q.each f }

def State.updThread (s : State) (p : Party) (f : Thread → Thread) : State :=
  s.updTeam p fun t => t.setThread p.kind (f (t.thread p.kind))

/-- Change the clause in progress of a party. -/
def State.updClause (s : State) (p : Party) (f : Clause → Clause) : State :=
  s.updThread p fun th => { th with issue := th.issue.map f }

/-- The launch a crew belongs to; the model's placeholder is never met by a placed crew. -/
def State.launchOf? (s : State) (crew : Nat) : Option Launch :=
  (s.crews.get? crew).bind fun c => s.launches.get? c.launch

/-! ### Registers of a team -/

/-- The key of lane `l` of vector register `r`. -/
def vkey (r l : Nat) : Nat := r * 1024 + l

/-- Lane `l` of vector register `r` (R74: 0 when nothing was written). -/
def Team.readV (t : Team) (r l : Nat) : Word := t.v.read 0 (vkey r l)

/-- Scalar register `r` of a thread. -/
def Thread.readS (th : Thread) (r : Nat) : Word := th.s.read 0 r

/-- Write scalar register `r` of a thread. -/
def Thread.writeS (th : Thread) (r : Nat) (v : Word) : Thread := { th with s := th.s.write 0 r v }

/-- Mask register `k`, over the lanes of `lanes` (R251). -/
def Team.readM (t : Team) (k : Nat) : Mask := t.m.read 0 k

/-- Write mask register `k`; bits of lanes at and above `n` stay 0 (R251). -/
def Team.writeM (t : Team) (n k : Nat) (v : Mask) : Team := { t with m := t.m.write 0 k (v &&& Mask.upTo n) }

/-- The key of the norm-file entry of register `r` and strand `g`. -/
def nkey (r strand : Nat) : Nat := r * 32 + strand

/-- The norm of register `r` in a strand (R71, R74: ZERO when nothing was written). -/
def Team.readN (t : Team) (r strand : Nat) : Half := t.n.read 0x8000 (nkey r strand)

/-- Write the norm of register `r` in a list of strands. -/
def Team.writeN (t : Team) (r : Nat) (strands : List Nat) (v : Half) : Team :=
  { t with n := strands.foldl (fun n g => n.write 0x8000 (nkey r g) v) t.n }

/-- The strands of span group `g` (R283), of the 32 that a team can have. -/
def Team.groupStrands (t : Team) (g : Nat) : List Nat := ((List.range t.span).map (t.span * g + ·)).filter (· < 32)

/-- The span group of a lane. -/
def Team.groupOf (t : Team) (l : Nat) : Nat := l / 32 / t.span

/-- Write lanes of vector register `r` (no norm is marked: for results written as a direction). -/
def Team.setLanes (t : Team) (r : Nat) (vals : List (Nat × Word)) : Team :=
  { t with v := vals.foldl (fun v lv => v.write 0 (vkey r lv.1) lv.2) t.v }

/-- Write lanes of vector register `r` as a v register: norms of the span groups of the written lanes become NAN
for r up to 31 (R75). -/
def Team.writeLanes (t : Team) (r : Nat) (vals : List (Nat × Word)) : Team :=
  let t' := t.setLanes r vals
  if r ≤ 31 then
    vals.foldl (fun u lv => if u.readN r (lv.1 / 32) = 0x8001 then u
      else u.writeN r (t.groupStrands (t.groupOf lv.1)) 0x8001) t'
  else t'

/-- Apply one register write of a load (R222). -/
def Team.applyWrite (t : Team) (k : PartyKind) : RegWrite → Team
  | .lane r l v => t.writeLanes r [(l, v)]
  | .scalar r v => t.setThread k ((t.thread k).writeS r v)
  | .norm r g v => t.writeN r [g] v

/-- A window register (R105). -/
def Team.window (t : Team) (k : Nat) : Window := t.win.read {} k
def Team.setWindow (t : Team) (k : Nat) (w : Window) : Team := { t with win := t.win.write {} k w }

/-- The default roles of the queue registers (R88, R332). -/
def defaultRole (q : Nat) : BitVec 3 :=
  if q ≤ 3 then 1 else if q ≤ 5 then 2 else if q = 6 then 3 else if q = 7 then 4 else if q = 8 then 5
  else if q = 9 then 6 else 0

/-- Queue register `q`. -/
def Team.queue (t : Team) (q : Nat) : Queue := t.queues.getD q { role := defaultRole q }

/-- Replace queue register `q`. -/
def Team.setQueue (t : Team) (q : Nat) (x : Queue) : Team :=
  { t with queues := (List.range 16).map fun k => if k = q then x else t.queue k }

/-- The queue that holds a role, if any (R332). -/
def Team.queueOfRole (t : Team) (r : BitVec 3) : Option Nat :=
  (List.range 16).find? fun q => (t.queue q).role == r

/-- Latch `k` of a thread (R225). -/
def Thread.latch (th : Thread) (k : Nat) : Latch := th.latches.getD k .none

/-- Write the latch of position `pos` (R225). -/
def Thread.setLatch (th : Thread) (pos : Nat) (l : Latch) : Thread :=
  { th with latches := (List.range 4).map fun k => if k = (pos + 3) % 4 then l else th.latch k }

/-- A breakpoint or watchpoint register. -/
def Team.bpReg (t : Team) (k : Nat) : DebugReg := t.bp.read {} k
def Team.wpReg (t : Team) (k : Nat) : DebugReg := t.wp.read {} k

/-- An empty own binding, and the 16 own entries (R118). -/
def Team.ownBinding (t : Team) (k : Nat) : Binding := t.own.getD k {}
def Team.setOwn (t : Team) (k : Nat) (b : Binding) : Team :=
  { t with own := (List.range 16).map fun i => if i = k then b else t.ownBinding i }

/-- A barrier record of a crew (R74). -/
def Crew.bar (c : Crew) (k : Nat) : Bar := c.bars.read {} k
def Crew.setBar (c : Crew) (k : Nat) (b : Bar) : Crew := { c with bars := c.bars.write {} k b }

/-! ### Free values -/

/-- Take the next free value's number (log 5). -/
def State.takeFree (s : State) : Nat × State := (s.freeCount, { s with freeCount := s.freeCount + 1 })

/-- Take `n` numbers of free values. -/
def State.takeFreeN (s : State) (n : Nat) : Nat × State := (s.freeCount, { s with freeCount := s.freeCount + n })

/-- Append what leaves the F7. -/
def State.send (s : State) (x : Sent) : State := { s with sent := s.sent ++ [x] }

/-- This F7's node number (R17). -/
def State.node (s : State) : Nat := s.mod.node.toNat

/-! ### Fabric ports (R15 to R17, R24) -/

def State.port (s : State) (k : Nat) : FabricPort := (s.ports.get? k).getD {}

/-- Whether a port carries load-store traffic. -/
def FabricPort.live (p : FabricPort) : Bool := (p.state == .up || p.state == .retrained) && !p.retraining

/-- The neighbour's node number of a port, from the configuration image's link inventory. -/
def State.neighbour (s : State) (k : Nat) : BitVec 11 := s.mod.links.read 0 k

/-- Whether any fabric port carries load-store traffic: with none, no other node is reached. -/
def State.domainUp (s : State) : Bool := (List.range 64).any fun k => (s.port k).live

end Sys2Proof.Machine
end

