-- ==== Sys2Proof/Machine/Float.lean ====
section
/-! DEFINITION. Floating-point formats and their arithmetic (R180 to R182, R190 to R192, R196, R199): values are
exact until one rounding. -/

namespace Sys2Proof.Machine

open Sys2Proof

/-- A floating-point value: a NaN, an infinity, or m × 2^e with a sign (a zero has m = 0). -/
inductive FVal where
  | nan
  | inf (neg : Bool)
  | fin (neg : Bool) (m : Nat) (e : Int)
  deriving DecidableEq, Repr

/-- A rounding mode (R190); SR carries its random word (R192). -/
inductive Round where
  | rn | rz | ru | rd
  | sr (w : Word)
  deriving DecidableEq, Repr

/-- The mode of an RMODE field (R227); SR takes the word given. -/
def Round.ofCode (c : Nat) (w : Word := 0) : Round :=
  match c with | 0 => .rn | 1 => .rz | 2 => .ru | 3 => .rd | _ => .sr w

/-- A floating format (R180): exponent and fraction widths, bias, the fields of the largest finite value, whether it
has an infinity, and its canonical NaN. -/
structure FFmt where
  eb : Nat
  fb : Nat
  bias : Nat
  topE : Nat
  topF : Nat
  hasInf : Bool
  cnan : Option Nat
  deriving DecidableEq, Repr

def f64 : FFmt := ⟨11, 52, 1023, 2046, 2 ^ 52 - 1, true, some 0x7FF8000000000000⟩
def f32 : FFmt := ⟨8, 23, 127, 254, 2 ^ 23 - 1, true, some 0x7FC00000⟩
def f16 : FFmt := ⟨5, 10, 15, 30, 1023, true, some 0x7E00⟩
def bf16 : FFmt := ⟨8, 7, 127, 254, 127, true, some 0x7FC0⟩
def e4m3 : FFmt := ⟨4, 3, 7, 15, 6, false, some 0x7F⟩
def e5m2 : FFmt := ⟨5, 2, 15, 30, 3, true, some 0x7E⟩
def e2m1 : FFmt := ⟨2, 1, 1, 3, 1, false, none⟩

/-- The bits of a format. -/
def FFmt.width (f : FFmt) : Nat := 1 + f.eb + f.fb

/-- The value of an encoding (R180). -/
def FFmt.decode (f : FFmt) (bits : Nat) : FVal :=
  let s := bits.testBit (f.eb + f.fb)
  let ef := field bits f.fb f.eb
  let fr := field bits 0 f.fb
  if f.hasInf ∧ ef = 2 ^ f.eb - 1 then (if fr = 0 then .inf s else .nan)
  else if f.cnan.isSome ∧ !f.hasInf ∧ ef = f.topE ∧ f.topF < fr then .nan
  else if ef = 0 then .fin s fr (1 - (f.bias : Int) - f.fb)
  else .fin s (fr + 2 ^ f.fb) ((ef : Int) - f.bias - f.fb)

/-- The sign bit in its place. -/
def FFmt.sign (f : FFmt) (s : Bool) : Nat := if s then 2 ^ (f.eb + f.fb) else 0

/-- The canonical NaN (R181); +0 in E2M1, which has none (R191). -/
def FFmt.nanBits (f : FFmt) : Nat := f.cnan.getD 0

/-- The largest finite value of a sign. -/
def FFmt.big (f : FFmt) (s : Bool) : Nat := f.sign s + f.topE * 2 ^ f.fb + f.topF

/-- The infinity of a sign. -/
def FFmt.infBits (f : FFmt) (s : Bool) : Nat := f.sign s + (2 ^ f.eb - 1) * 2 ^ f.fb

/-- Round the magnitude m / 2^sh to an integer (R190, R192). -/
def roundShift (r : Round) (neg : Bool) (m sh : Nat) : Nat :=
  let n := m >>> sh
  let rem := m - n <<< sh
  if rem = 0 then n
  else
    let up := match r with
      | .rn => decide (2 ^ sh < 2 * rem) || (2 * rem == 2 ^ sh && n % 2 == 1)
      | .rz => false
      | .ru => !neg
      | .rd => neg
      | .sr w => decide (w.toNat < (rem <<< 32) >>> sh)
    if up then n + 1 else n

/-- Round the magnitude m × 2^e to a multiple of 2^q; the multiple. -/
def roundTo (r : Round) (neg : Bool) (m : Nat) (e q : Int) : Nat :=
  if q ≤ e then m <<< (e - q).toNat else roundShift r neg m (q - e).toNat

/-- What an overflow gives (R191). -/
def FFmt.overflow (f : FFmt) (r : Round) (sat neg : Bool) : Nat :=
  let up := match r with
    | .rn | .sr _ => true
    | .rz => false
    | .ru => !neg
    | .rd => neg
  if sat || f.cnan.isNone || !up then f.big neg
  else if f.hasInf then f.infBits neg
  else f.nanBits

/-- Encode a value, rounded once, with overflow and saturation of R191. -/
def FFmt.encode (f : FFmt) (r : Round) (sat : Bool) : FVal → Nat
  | .nan => f.nanBits
  | .inf s =>
    if sat || f.cnan.isNone then f.big s else if f.hasInf then f.infBits s else f.nanBits
  | .fin s m e =>
    if m = 0 then f.sign s
    else
      let top := (Nat.log2 m : Int) + e
      if (f.bias : Int) + 1 < top then f.overflow r sat s
      else
        let emin : Int := 1 - f.bias
        let q0 := max top emin - f.fb
        let n0 := roundTo r s m e q0
        let carry := decide (2 ^ (f.fb + 1) ≤ n0)
        let n := if carry then n0 / 2 else n0
        let q := if carry then q0 + 1 else q0
        let qTop : Int := (f.topE : Int) - f.bias - f.fb
        if qTop < q ∨ (q = qTop ∧ 2 ^ f.fb + f.topF < n) then f.overflow r sat s
        else if n < 2 ^ f.fb then f.sign s + n
        else f.sign s + (q + f.fb + f.bias).toNat * 2 ^ f.fb + (n - 2 ^ f.fb)

/-! ### Exact arithmetic -/

def FVal.neg : FVal → FVal
  | .nan => .nan
  | .inf s => .inf !s
  | .fin s m e => .fin (!s) m e

/-- The signed numerator of a finite value over 2^e. -/
def numAt (s : Bool) (m : Nat) (e q : Int) : Int :=
  let n : Int := ((m <<< (e - q).toNat : Nat) : Int)
  if s then -n else n

/-- The exact sum; a zero takes its sign from R181. -/
def FVal.add (r : Round) : FVal → FVal → FVal
  | .nan, _ | _, .nan => .nan
  | .inf a, .inf b => if a == b then .inf a else .nan
  | .inf a, .fin .. => .inf a
  | .fin .., .inf b => .inf b
  | .fin s m e, .fin s' m' e' =>
    let q := min e e'
    let v := numAt s m e q + numAt s' m' e' q
    if v = 0 then .fin (if s == s' then s else r == .rd) 0 0
    else .fin (decide (v < 0)) v.natAbs q

/-- The exact product. -/
def FVal.mul : FVal → FVal → FVal
  | .nan, _ | _, .nan => .nan
  | .inf a, .inf b => .inf (a != b)
  | .inf a, .fin b m _ => if m = 0 then .nan else .inf (a != b)
  | .fin a m _, .inf b => if m = 0 then .nan else .inf (a != b)
  | .fin a m e, .fin b m' e' => .fin (a != b) (m * m') (e + e')

/-- Compare two values that are not NaN; −0 equals +0. -/
def FVal.cmp : FVal → FVal → Option Ordering
  | .nan, _ | _, .nan => none
  | .inf a, .inf b => some (compare b.toNat a.toNat)
  | .inf a, .fin .. => some (if a then .lt else .gt)
  | .fin .., .inf b => some (if b then .gt else .lt)
  | .fin s m e, .fin s' m' e' =>
    let q := min e e'
    some (compare (numAt s m e q) (numAt s' m' e' q))

def FVal.isNeg : FVal → Bool
  | .nan => false
  | .inf s => s
  | .fin s _ _ => s

def FVal.isNan : FVal → Bool
  | .nan => true
  | _ => false

/-- Whether a value is a zero. -/
def FVal.isZero : FVal → Bool
  | .fin _ m _ => m == 0
  | _ => false

/-- The order of minima and maxima (R199): −0 below +0. -/
def FVal.below (a b : FVal) : Bool :=
  match a.cmp b with
  | some .lt => true
  | some .eq => a.isNeg && !b.isNeg
  | _ => false

/-- A minimum or maximum of encodings (R199, R270): it ignores a NaN unless both are. -/
def FFmt.minmax (f : FFmt) (mx : Bool) (a b : Nat) : Nat :=
  let x := f.decode a
  let y := f.decode b
  if x.isNan then (if y.isNan then f.nanBits else b)
  else if y.isNan then a
  else if mx then (if x.below y then b else a)
  else (if y.below x then b else a)

/-- FADD, FSUB, FMUL, FMA and FNMA (R196, R269): exact, then rounded once. -/
def FFmt.addBits (f : FFmt) (r : Round) (sat : Bool) (a b : Nat) : Nat :=
  f.encode r sat ((f.decode a).add r (f.decode b))
def FFmt.subBits (f : FFmt) (r : Round) (sat : Bool) (a b : Nat) : Nat :=
  f.encode r sat ((f.decode a).add r (f.decode b).neg)
def FFmt.mulBits (f : FFmt) (r : Round) (sat : Bool) (a b : Nat) : Nat :=
  f.encode r sat ((f.decode a).mul (f.decode b))
def FFmt.fmaBits (f : FFmt) (r : Round) (sat sub : Bool) (a b c : Nat) : Nat :=
  let z := f.decode c
  f.encode r sat (((f.decode a).mul (f.decode b)).add r (if sub then z.neg else z))

/-- FSCALE (R269): an exponent change beyond every format's range is cut to one that is beyond it too. -/
def FFmt.scaleBits (f : FFmt) (r : Round) (sat : Bool) (a : Nat) (n : Int) : Nat :=
  match f.decode a with
  | .nan => f.nanBits
  | .inf s => f.encode r sat (.inf s)
  | .fin s m e => if m = 0 then a else f.encode r sat (.fin s m (e + clamp (-6000) 6000 n))

/-- The class bit of FCLASS (R270). -/
def FFmt.classBits (f : FFmt) (a : Nat) : Nat :=
  let k (s : Bool) (i : Nat) : Nat := 2 ^ (if s then i else 7 - i)
  match f.decode a with
  | .nan => 2 ^ 8
  | .inf s => k s 0
  | .fin s m _ => if m = 0 then k s 3 else if field a f.fb f.eb = 0 then k s 2 else k s 1

/-- The conditions of FCMP (R270). -/
def FFmt.cond (f : FFmt) (fx : Nat) (a b : Nat) : Bool :=
  match (f.decode a).cmp (f.decode b) with
  | none => fx == 1 || fx == 7
  | some o => match fx with
    | 0 => o == .eq
    | 1 => o != .eq
    | 2 => o == .lt
    | 3 => o != .gt
    | 4 => o == .gt
    | 5 => o != .lt
    | 6 => true
    | _ => false

/-! ### Philox4x32-10 (R193) -/

/-- The rounds, with their counter and key. -/
def philoxRounds : Nat → Word → Word → Word → Word → Word → Word → Word × Word × Word × Word
  | 0, c0, c1, c2, c3, _, _ => (c0, c1, c2, c3)
  | n + 1, c0, c1, c2, c3, k0, k1 =>
    let p0 : DWord := 0xD2511F53 * c0.setWidth 64
    let p1 : DWord := 0xCD9E8D57 * c2.setWidth 64
    philoxRounds n (p1.hi ^^^ c1 ^^^ k0) p1.lo (p0.hi ^^^ c3 ^^^ k1) p0.lo (k0 + 0x9E3779B9) (k1 + 0xBB67AE85)

/-- Word `i` of Philox4x32-10. -/
def philox (k0 k1 c0 c1 c2 c3 : Word) (i : Nat) : Word :=
  let r := philoxRounds 10 c0 c1 c2 c3 k0 k1
  match i with | 0 => r.1 | 1 => r.2.1 | 2 => r.2.2.1 | _ => r.2.2.2

/-- The exact sum of values. -/
def sumVals (vs : List FVal) : FVal := vs.foldl (FVal.add .rn) (.fin false 0 0)

end Sys2Proof.Machine
end

