-- ==== Sys2Proof/Machine/Special.lean ====
section
/-! DEFINITION. The special functions (R271) and base-two powers and logarithms (R186, R189, R195). A value that is
irrational is found to about 2^-740 and carries a set bit below every rounding position, so that it rounds as the
exact value does (log 12). -/

namespace Sys2Proof.Machine

open Sys2Proof

/-- The integer square root of a number below 2^(2k), from its bits. -/
def isqrtBits : Nat → Nat → Nat → Nat
  | 0, _, r => r
  | k + 1, n, r =>
    let r' := r + 2 ^ k
    isqrtBits k n (if r' * r' ≤ n then r' else r)

/-- The integer square root. -/
def isqrt (n : Nat) : Nat := isqrtBits (Nat.log2 n / 2 + 1) n 0

/-- A ratio as a value: its leading bits and one sticky bit. -/
def ratio (neg : Bool) (num den : Nat) : FVal :=
  let k := 420 + Nat.log2 den
  let q := (num <<< k) / den
  .fin neg (2 * q + if (num <<< k) % den = 0 then 0 else 1) (-(k : Int) - 1)

/-- An irrational magnitude n / 2^k. -/
def sticky (neg : Bool) (n k : Nat) : FVal := .fin neg (2 * n + 1) (-(k : Int) - 1)

/-- The fraction bits of the fixed-point computations. -/
def fxP : Nat := 768

/-- Σ over odd j from `j` of ±x^j / j with x = 1 / k: `term` is 2^b / k^j. -/
def oddSeries (k2 : Nat) (alt : Bool) : Nat → Nat → Nat → Bool → Int → Int
  | 0, _, _, _, acc => acc
  | n + 1, term, j, minus, acc =>
    let t : Int := ((term / j : Nat) : Int)
    oddSeries k2 alt n (term / k2) (j + 2) (alt && !minus) (if minus then acc - t else acc + t)

/-- π × 2^b, by Machin's formula. -/
def piFx (b : Nat) : Int :=
  let g := b + 32
  let at5 := oddSeries 25 true (g / 4) ((1 <<< g) / 5) 1 false 0
  let at239 := oddSeries (239 * 239) true (g / 15 + 2) ((1 <<< g) / 239) 1 false 0
  (16 * at5 - 4 * at239) >>> 32

/-- ln 2 × 2^fxP. -/
def ln2Fx : Int :=
  let g := fxP + 32
  (2 * oddSeries 9 false (g / 3 + 2) ((1 <<< g) / 3) 1 false 0) >>> 32

/-- A fixed-point product. -/
def fxMul (a b : Int) : Int := (a * b) >>> fxP

/-- Σ y^j / j! from term `j`, with factor ±y or ±y² per step: the Taylor series of exp (step 1), sin and cos (step 2
with alternating sign). -/
def taylor (y2 : Int) (step : Nat) (alt : Bool) : Nat → Int → Nat → Int → Int
  | 0, _, _, acc => acc
  | n + 1, term, j, acc =>
    let d : Int := if step = 1 then ((j + 1 : Nat) : Int) else (((j + 1) * (j + 2) : Nat) : Int)
    let t := fxMul term y2 / d
    let t' := if alt then -t else t
    taylor y2 step alt n t' (j + step) (acc + t')

/-- exp y × 2^fxP for a fixed-point y in 0 to 0.7. -/
def expFx (y : Int) : Int :=
  let one : Int := 1 <<< fxP
  taylor y 1 false 180 one 0 one

/-- 2^(num / den) for an exponent that is not an integer. -/
def exp2Ratio (num : Int) (den : Nat) : FVal :=
  let i := num / den
  let f := ((num - i * den) <<< fxP) / den
  let m := (expFx (fxMul f ln2Fx)).toNat
  .fin false (2 * m + 1) (i - fxP - 1)

/-- 2^x for x = ±m × 2^e (R271): exact for integers. -/
def exp2Val (neg : Bool) (m : Nat) (e : Int) : FVal :=
  if 11 < (Nat.log2 m : Int) + e then .fin false 1 (if neg then -3000 else 3000)
  else if 0 ≤ e then
    let k : Int := ((m <<< e.toNat : Nat) : Int)
    .fin false 1 (if neg then -k else k)
  else
    let den := 2 ^ (-e).toNat
    let num : Int := if neg then -(m : Int) else m
    if m % den = 0 then .fin false 1 (num / den) else exp2Ratio num den

/-- log2 of m × 2^e, m positive (R271): exact for powers of two. -/
def log2Val (m : Nat) (e : Int) : FVal :=
  let k := Nat.log2 m
  if m = 2 ^ k then
    let n := (k : Int) + e
    .fin (decide (n < 0)) n.natAbs 0
  else
    let one : Int := 1 <<< fxP
    let z : Int := (((m <<< fxP) >>> k : Nat) : Int)
    let t := ((z - one) <<< fxP) / (z + one)
    let t2 := fxMul t t
    let sum := (List.range 250).foldl (fun (a : Int × Int) j =>
      (a.1 + a.2 / ((2 * j + 1 : Nat) : Int), fxMul a.2 t2)) (0, t)
    let ln := 2 * sum.1
    let d := (ln <<< fxP) / ln2Fx + (((k : Int) + e) <<< fxP)
    sticky (decide (d < 0)) d.natAbs fxP

/-- sin and cos of a fixed-point r of magnitude at most 0.8. -/
def sinFx (r : Int) : Int := taylor (fxMul r r) 2 true 90 r 1 r
def cosFx (r : Int) : Int :=
  let one : Int := 1 <<< fxP
  taylor (fxMul r r) 2 true 90 one 0 one

/-- sin or cos of ±m × 2^e in radians (R271). -/
def sinVal (cosine neg : Bool) (m : Nat) (e : Int) : FVal :=
  let b := fxP + 256
  let x : Int := if 0 ≤ e + b then ((m <<< (e + b).toNat : Nat) : Int) else ((m >>> (-(e + b)).toNat : Nat) : Int)
  let half := piFx b / 2
  let k := (2 * x + half) / (2 * half)
  let r := (x - k * half) >>> 256
  let quad := ((k + if cosine then 1 else 0) % 4).toNat
  let v := match quad with
    | 0 => sinFx r | 1 => cosFx r | 2 => -(sinFx r) | _ => -(cosFx r)
  let v' := if neg && !cosine then -v else v
  sticky (decide (v' < 0)) v'.natAbs fxP

/-- tanh of ±m × 2^e (R271); from 32 upward it lies between 1 − 2^-91 and 1. -/
def tanhVal (neg : Bool) (m : Nat) (e : Int) : FVal :=
  if 5 ≤ (Nat.log2 m : Int) + e then .fin neg (2 ^ 400 - 1) (-400)
  else
    let x2 : Int := ((m <<< (e + fxP + 1).toNat : Nat) : Int)
    let i := x2 / ln2Fx
    let f := x2 - i * ln2Fx
    let ex := (expFx f) <<< i.toNat
    let one : Int := 1 <<< fxP
    let d := ((ex - one) <<< fxP) / (ex + one)
    sticky neg d.natAbs fxP

/-- The functions of R271. -/
inductive SpecialFn where
  | rcp | rsq | sqrt | exp2 | log2 | sin | cos | tanh
  deriving DecidableEq, Repr

/-- The value of a special function at a value (R271). -/
def SpecialFn.value (g : SpecialFn) : FVal → FVal
  | .nan => .nan
  | .inf s => match g with
    | .rcp => .fin s 0 0
    | .rsq => if s then .nan else .fin false 0 0
    | .sqrt | .log2 => if s then .nan else .inf false
    | .exp2 => if s then .fin false 0 0 else .inf false
    | .sin | .cos => .nan
    | .tanh => .fin s 1 0
  | .fin s m e =>
    if m = 0 then match g with
      | .rcp | .rsq => .inf s
      | .sqrt | .sin | .tanh => .fin s 0 0
      | .exp2 | .cos => .fin false 1 0
      | .log2 => .inf true
    else
      let m' := if e % 2 = 0 then m else 2 * m
      let e' := if e % 2 = 0 then e else e - 1
      match g with
      | .rcp => match ratio s 1 m with
        | .fin s n k => .fin s n (k - e)
        | v => v
      | .sqrt =>
        if s then .nan
        else
          let n := m' <<< 240
          let y := isqrt n
          .fin false (2 * y + if y * y = n then 0 else 1) (e' / 2 - 121)
      | .rsq =>
        if s then .nan
        else
          let k := 200 + Nat.log2 m'
          let y := isqrt ((1 <<< (2 * k)) / m')
          .fin false (2 * y + if y * y * m' = 1 <<< (2 * k) then 0 else 1) (-(k : Int) - 1 - e' / 2)
      | .exp2 => exp2Val s m e
      | .log2 => if s then .nan else log2Val m e
      | .sin => sinVal false s m e
      | .cos => sinVal true s m e
      | .tanh => tanhVal s m e

/-- A special function on an encoding. -/
def FFmt.special (f : FFmt) (g : SpecialFn) (r : Round) (sat : Bool) (a : Nat) : Nat :=
  f.encode r sat (g.value (f.decode a))

/-! ### L16 (R186, R195) -/

/-- The L16 codes ZERO, NAN and INF (R186). -/
def l16Zero : Half := 0x8000
def l16Nan : Half := 0x8001
def l16Inf : Half := 0x7FFF

/-- The code of an integer 256 × log2 of a magnitude, with the limits of R189. -/
def l16Of (n : Int) : Half :=
  if n ≤ -32767 then l16Zero else if 32767 ≤ n then l16Inf else BitVec.ofInt 16 n

/-- RNE(256 × log2 (m × 2^e)) for a positive m: no tie can occur. -/
def log2x256 (m : Nat) (e : Int) : Int := (((Nat.log2 (m ^ 512) + 1) / 2 : Nat) : Int) + 256 * e

/-- FP32 (or any value) to L16 (R195). -/
def FVal.toL16 : FVal → Half
  | .nan => l16Nan
  | .inf _ => l16Inf
  | .fin _ m e => if m = 0 then l16Zero else l16Of (log2x256 m e)

/-- The value a code stands for (R186, R195). -/
def l16Val (l : Half) : FVal :=
  if l = l16Zero then .fin false 0 0
  else if l = l16Nan then .nan
  else if l = l16Inf then .inf false
  else
    let n := l.toInt
    if n % 256 = 0 then .fin false 1 (n / 256) else exp2Ratio n 256

end Sys2Proof.Machine
end

