-- ==== Sys2Proof/Machine/Convert.lean ====
section
/-! DEFINITION. Element types and conversions (R178, R179, R183 to R185, R195, R228), and the element formats of pages
(R102, R103). -/

namespace Sys2Proof.Machine

open Sys2Proof

/-- The integer types by code: signedness and width (R228); 0 and .B32 act as 32 unsigned bits. -/
def intType (t : Nat) : Option (Bool × Nat) :=
  match t with
  | 1 => some (true, 8) | 2 => some (false, 8) | 3 => some (true, 16) | 4 => some (false, 16)
  | 5 => some (true, 32) | 6 => some (false, 32) | 7 => some (true, 64) | 8 => some (false, 64)
  | _ => none

/-- The floating types by code (R228). -/
def floatType (t : Nat) : Option FFmt :=
  match t with
  | 9 => some f64 | 10 => some f32 | 11 => some f16 | 12 => some bf16
  | 15 => some e4m3 | 16 => some e5m2 | 17 => some e2m1
  | _ => none

/-- The format of the lane values of a floating operation: .F32 by default, the halves of a packed type (R269). -/
def laneFormat (td : Nat) : FFmt :=
  match td with | 9 => f64 | 13 => f16 | 14 => bf16 | _ => f32

/-- The bits of an element type. -/
def typeWidth (t : Nat) : Nat :=
  match intType t with
  | some (_, w) => w
  | none => match floatType t with | some f => f.width | none => 32

/-- The range of an integer type. -/
def intRange (sg : Bool) (w : Nat) : Int × Int :=
  if sg then (-(2 ^ (w - 1) : Int), 2 ^ (w - 1) - 1) else (0, 2 ^ w - 1)

/-- An integer value in an integer type: its low bits, or clamped (R178, R195). -/
def intoInt (sg : Bool) (w : Nat) (sat : Bool) (v : Int) : Nat :=
  let (lo, hi) := intRange sg w
  wrap w (if sat then clamp lo hi v else v)

/-- A value rounded to an integer; the magnitude and sign. -/
def FVal.round (r : Round) : FVal → Option Int
  | .fin s m e =>
    let n : Int := ((roundTo r s m e 0 : Nat) : Int)
    some (if s then -n else n)
  | _ => none

/-- A floating value to an integer type (R195): always clamped; a NaN gives 0. -/
def FVal.toInt (r : Round) (sg : Bool) (w : Nat) (x : FVal) : Nat :=
  let (lo, hi) := intRange sg w
  match x with
  | .nan => 0
  | .inf s => wrap w (if s then lo else hi)
  | .fin s m e =>
    let v : Int := if 80 < (Nat.log2 m : Int) + e ∧ m ≠ 0 then (if s then lo else hi) else ((FVal.fin s m e).round r).getD 0
    wrap w (clamp lo hi v)

/-- An integer as a value. -/
def ofInt (v : Int) : FVal := .fin (decide (v < 0)) v.natAbs 0

/-- Convert an element between two types (R195, R272); equal types copy the bits. -/
def convert (ts td : Nat) (r : Round) (sat : Bool) (bits : Nat) : Nat :=
  let x := bits % 2 ^ typeWidth ts
  if ts = td then x
  else match intType ts, intType td with
  | some (sg, w), some (sg', w') =>
    intoInt sg' w' sat (if sg then signed w x else (x : Int))
  | some (sg, w), none => match floatType td with
    | some f => f.encode r sat (ofInt (if sg then signed w x else (x : Int)))
    | none => x
  | none, some (sg', w') => match floatType ts with
    | some f => (f.decode x).toInt r sg' w'
    | none => x
  | none, none => match floatType ts, floatType td with
    | some f, some g => g.encode r sat (f.decode x)
    | _, _ => x

/-- A converted element as CVT writes it: an integer result extended by its signedness (R272). -/
def extendResult (td : Nat) (bits : Nat) : Nat :=
  match intType td with
  | some (true, w) => if w < 32 then wrap 32 (signed w bits) else bits
  | _ => bits

/-- A value rounded to FP32 by RNE. -/
def fp32Bits (x : FVal) : Word := BitVec.ofNat 32 (f32.encode .rn false x)

/-! ### Block and group scales (R183 to R185) -/

/-- The value of an element with an E8M0 scale, as FP32 (R183). -/
def e8m0Decode (scale : Nat) (x : FVal) : Word :=
  if scale = 0xFF then 0x7FC00000
  else match x with
  | .fin s m e => fp32Bits (.fin s m (e + scale - 127))
  | v => fp32Bits v

/-- An INT4 element with a BF16 group scale, as FP32 (R185). -/
def groupDecode (scale : Nat) (q : Int) : Word := fp32Bits ((bf16.decode scale).mul (ofInt q))

/-- emax of R184. -/
def emaxOf (f : FFmt) : Int := if f.eb = 4 then 8 else if f.eb = 5 then 15 else 2

/-- The largest magnitude of a list of finite values, as m × 2^e over one exponent. -/
def maxMag : List FVal → FVal
  | [] => .fin false 0 0
  | x :: xs =>
    let y := maxMag xs
    match x with
    | .fin _ m e => if y.below (.fin false m e) then .fin false m e else y
    | _ => y

/-- Whether a value is neither a NaN nor an infinity. -/
def FVal.finite : FVal → Bool
  | .fin .. => true
  | _ => false

/-- Encode a block (R184): the scale and the element codes. -/
def encodeBlock (f : FFmt) (xs : List FVal) : Nat × List Nat :=
  if !xs.all FVal.finite then (0xFF, xs.map fun _ => 0)
  else
    let e : Int := match maxMag xs with
      | .fin _ m e => if m = 0 then -127 else clamp (-127) 127 ((Nat.log2 m : Int) + e - emaxOf f)
      | _ => -127
    ((e + 127).toNat, xs.map fun x => match x with
      | .fin s m k => f.encode .rn true (.fin s m (k - e))
      | _ => 0)

/-- Encode a group of INT4 elements with a BF16 scale (R185). -/
def encodeGroup (xs : List FVal) : Nat × List Int :=
  if !xs.all FVal.finite then (0x7FC0, xs.map fun _ => 0)
  else
    let s := match maxMag xs with
      | .fin _ m e => if m = 0 then 0 else
        bf16.encode .rn false (match ratio false m 7 with | .fin n a k => .fin n a (k + e) | v => v)
      | _ => 0
    (s, match bf16.decode s with
      | .fin _ sm se => if sm = 0 then xs.map fun _ => 0
        else xs.map fun x => match x with
          | .fin n m e =>
            let v := match ratio n m sm with | .fin n a k => FVal.fin n a (k + e - se) | v => v
            clamp (-8) 7 ((v.round .rn).getD 0)
          | _ => 0
      | _ => xs.map fun _ => 0)

/-! ### Page formats (R102, R103) -/

/-- The bits of an element of a page format; 0 for RAW, PTAB, KVMAP and the ternary five-per-byte form. -/
def fmtBits (fmt : Nat) : Nat :=
  match fmt with
  | 0x03 | 0x04 => 4 | 0x05 | 0x06 => 8 | 0x07 | 0x08 => 16 | 0x09 | 0x0A => 32 | 0x0B | 0x0C => 64
  | 0x0D => 2 | 0x0F => 1 | 0x10 => 64 | 0x11 => 32 | 0x12 | 0x13 => 16 | 0x14 | 0x15 => 8 | 0x16 => 4
  | 0x17 | 0x18 => 8 | 0x19 => 4 | 0x1A => 4
  | _ => 0

/-- Formats whose elements are smaller than a byte (R311). -/
def subByte (fmt : Nat) : Bool := fmt == 0x0E || (fmtBits fmt != 0 && fmtBits fmt < 8)

/-- Block-scaled formats (R103). -/
def blockScaled (fmt : Nat) : Bool := 0x17 ≤ fmt && fmt ≤ 0x1A

/-- Formats that act on bytes: RAW, PTAB and KVMAP. -/
def rawLike (fmt : Nat) : Bool := fmt ≤ 2

/-- Formats whose value is 64 bits wide. -/
def fmtWide (fmt : Nat) : Bool := fmt == 0x0B || fmt == 0x0C || fmt == 0x10

/-- The block size of a geometry (R103). -/
def geomSize (geom : Nat) : Nat := match geom with | 1 => 16 | 2 => 32 | 3 => 64 | 4 => 128 | _ => 1

/-- Data bytes of a block, bytes of a scale, and blocks in each 4 KiB (R103). -/
def blockBytes (fmt geom : Nat) : Nat := geomSize geom * fmtBits fmt / 8
def scaleBytes (fmt : Nat) : Nat := if fmt = 0x1A then 2 else 1
def blocksPer (fmt geom : Nat) : Nat := 4096 / (blockBytes fmt geom + scaleBytes fmt)

/-- The floating format of a page format. -/
def pageFloat (fmt : Nat) : Option FFmt :=
  match fmt with
  | 0x10 => some f64 | 0x11 => some f32 | 0x12 => some f16 | 0x13 => some bf16
  | 0x14 | 0x17 => some e4m3 | 0x15 | 0x18 => some e5m2 | 0x16 | 0x19 => some e2m1
  | _ => none

/-- The signedness and width of an integer page format. -/
def pageInt (fmt : Nat) : Option (Bool × Nat) :=
  if 0x03 ≤ fmt ∧ fmt ≤ 0x0C then some (fmt % 2 == 1, fmtBits fmt) else none

/-- The ternary digit of a two-bit code (R179). -/
def tern2 (c : Nat) : Int := match c with | 1 => 1 | 3 => -1 | _ => 0
def tern2Code (v : Int) : Nat := if v = 1 then 1 else if v = -1 then 3 else 0

/-- Digit `i` of a ternary byte (R179). -/
def tern5 (b i : Nat) : Int := if 243 ≤ b then 0 else ((b / 3 ^ i % 3 : Nat) : Int) - 1

/-- A ternary byte with digit `i` replaced. -/
def tern5Put (b i : Nat) (v : Int) : Nat :=
  let d (k : Nat) : Nat := ((if k = i then v else tern5 b k) + 1).toNat
  d 0 + 3 * d 1 + 9 * d 2 + 27 * d 3 + 81 * d 4

/-- The value that a load delivers from an element's bits on a page without block scales (R102). -/
def elemDecode (fmt bits : Nat) : Nat :=
  match pageInt fmt with
  | some (sg, w) => if w = 64 then bits else if sg then wrap 32 (signed w bits) else bits
  | none => match fmt with
    | 0x0D => wrap 32 (tern2 bits)
    | 0x0F => bits
    | 0x10 => bits
    | 0x11 => bits
    | _ => match pageFloat fmt with
      | some f => f32.encode .rn false (f.decode bits)
      | none => bits

/-- The element bits that a store writes for a register value on a page without block scales (R311). -/
def elemEncode (fmt : Nat) (sat : Bool) (v : Nat) : Nat :=
  match pageInt fmt with
  | some (sg, w) =>
    if w = 64 then v else intoInt sg w sat (if sg then signed 32 v else (v : Int))
  | none => match fmt with
    | 0x0D => tern2Code (clamp (-1) 1 (signed 32 v))
    | 0x0F => if v = 0 then 0 else 1
    | 0x10 => v
    | 0x11 => v
    | _ => match pageFloat fmt with
      | some f => f.encode .rn sat (f32.decode v)
      | none => v

end Sys2Proof.Machine
end

