-- ==== Sys2Proof/Machine/Memory.lean ====
section
/-! DEFINITION. Memory at its home (R92, R94): the physical map, bytes, poisoned words, the L1 lines of a cluster,
and the stores of a team that are not performed yet. A global address is a physical address of this F7, or, for
node k, (k + 1) * 2^52 plus a physical address there. -/

namespace Sys2Proof.Machine

open Sys2Proof

/-! ### The physical map (R92) -/

/-- The span of one node's physical addresses. -/
def nodeSpan : Nat := 2 ^ 52

/-- The global address of physical address `pa` on node `k`, seen from node `own`. -/
def globalAddr (own k pa : Nat) : Nat := if k = own then pa else (k + 1) * nodeSpan + pa

/-- The hub die that carries the LPDDR6 channel of an address: 32 channels, interleaved every 4 KiB, 8 of each hub die (R8,
R92). -/
def channelHub (pa : Nat) : Nat := 12 + pa / 4096 % 32 / 8

/-- The tier of a physical address of this F7; none in a hole. Capacities are decimal (R5, R11); what the channels of a hub
die that was left out would hold is not attached (R8, R27, R92). -/
def State.tierOf (s : State) (pa : Nat) : Option Nat :=
  if pa ≤ 0xBFFFFFFF then (if pa % 0x800000 < 0x600000 then some 0 else none)
  else if 0x10000000000 ≤ pa ∧ pa ≤ 0x1BFFFFFFFFF then
    (if (pa - 0x10000000000) % 0x1000000000 < 64 * 10 ^ 9 then some 1 else none)
  else if 0x20000000000 ≤ pa ∧ pa ≤ 0x3FFFFFFFFFF then
    (if pa - 0x20000000000 < 2048 * 10 ^ 9 ∧ !(s.die (channelHub pa)).failed then some 2 else none)
  else if 0x1000000000000 ≤ pa ∧ pa ≤ 0x4FFFFFFFFFFFF then
    let j := pa / 0x1000000000000 - 1
    (if pa % 0x1000000000000 < (s.cxl.read {} j).capacity then some 3 else none)
  else none

/-! ### Bytes at their home -/

/-- What an address that is not listed reads as (log 1). -/
def memDefault : Byte := 0

/-- One byte of memory at its home. -/
def State.readByte (s : State) (a : Nat) : Byte := Tbl.read memDefault s.mem a

/-- Write one byte at its home. -/
def State.writeByte (s : State) (a : Nat) (b : Byte) : State := { s with mem := Tbl.write memDefault s.mem a b }

/-- The canonical form of memory. -/
def State.memWf (s : State) : Bool := Tbl.wf memDefault s.mem

/-- `n` bytes from `a`. -/
def State.readBytes (s : State) (a n : Nat) : List Byte := (List.range n).map fun i => s.readByte (a + i)

/-- A little-endian number of `n` bytes at `a` (R6). -/
def State.readNat (s : State) (a n : Nat) : Nat := natOf (s.readBytes a n)

/-- Write consecutive bytes from `a`. -/
def State.writeBytes (s : State) (a : Nat) : List Byte → State
  | [] => s
  | b :: bs => State.writeBytes (s.writeByte a b) (a + 1) bs

/-- Whether the aligned 8-byte word that holds an address is poisoned (R167). -/
def State.poisoned (s : State) (a : Nat) : Bool := s.poison.contains (.word (a / 8))

/-- The byte that a write leaves, from the one before it (R179, R311). -/
def HomeByte.merge (h : HomeByte) (old : Byte) : Byte :=
  match h.digit with
  | some i => BitVec.ofNat 8 (tern5Put old.toNat i ((h.val.toNat : Int) - 1))
  | none => (old &&& ~~~h.bits) ||| (h.val &&& h.bits)

/-- Write the chosen bits of one byte at its home (R311). -/
def State.writeHome (s : State) (h : HomeByte) : State := s.writeByte h.addr (h.merge (s.readByte h.addr))

def State.writeHomes (s : State) (hs : List HomeByte) : State := hs.foldl State.writeHome s

/-! ### What a die sees (R123), and the copies of replicated pages (R110, R124) -/

/-- What a die still sees of bytes that have newer values. -/
def State.dieView (s : State) (die : Nat) : Tbl Byte := (s.views.get? die).getD []

/-- A byte as a die sees it. -/
def State.seenByte (s : State) (die a : Nat) : Byte := ((s.dieView die).get? a).getD (s.readByte a)

def State.setView (s : State) (die : Nat) (v : Tbl Byte) : State :=
  { s with views := if v.isEmpty then s.views.del die else s.views.put die v }

/-- A die sees the bytes whose addresses satisfy `sel` as they are. -/
def State.unview (s : State) (die : Nat) (sel : Nat → Bool) : State :=
  if (s.dieView die).isEmpty then s else s.setView die ((s.dieView die).filter fun e => !sel e.1)

/-- A compute die still sees what consecutive bytes hold now, unless it sees older values of them (R123). -/
def State.lag (s : State) (die a n : Nat) : State :=
  if 12 ≤ die then s else s.setView die ((List.range n).foldl (fun v i => if (v.get? (a + i)).isSome then v else v.put (a + i) (s.readByte (a + i)))
    (s.dieView die))

/-- The distance between the copies of a replicated page (R110). -/
def copyStride : Nat := 0x1000000000

/-- Perform what the copies have still to take, of the entries that satisfy `sel` and, before each, of the earlier ones of
the same copy that share a byte with it, so that every copy takes a byte's writes in one order (R124). -/
def State.spread (s : State) (sel : Replica → Bool) : State :=
  let touches (a b : Replica) : Bool := a.die == b.die && a.bytes.any fun x => b.bytes.any fun y => x.addr == y.addr
  let due := s.replicas.reverse.foldl (fun (d : List Replica) r => if sel r || d.any (touches r) then r :: d else d) []
  due.foldl (fun u r => u.writeHomes (r.bytes.map fun h => { h with addr := h.addr + r.die * copyStride }))
    { s with replicas := s.replicas.filter fun r => !due.contains r }

/-- Perform what the copies have still to take at addresses of copy 0. -/
def State.spreadAt (s : State) (sel : Nat → Bool) : State :=
  if s.replicas.isEmpty then s else s.spread fun r => r.bytes.any fun h => sel h.addr

/-! ### L1 lines (R94, R116) -/

/-- Byte `i` of a line. -/
def Line.byte (l : Line) (i : Nat) : Byte := l.data.extractLsb' (8 * i) 8

/-- Replace byte `i` of a line and set or clear its dirty bit. -/
def Line.setByte (l : Line) (i : Nat) (b : Byte) (dirty : Bool) : Line :=
  { data := (l.data &&& ~~~((0xFF#1024) <<< (8 * i))) ||| ((b.setWidth 1024) <<< (8 * i)),
    dirty := if dirty then l.dirty ||| (1#128 <<< i) else l.dirty &&& ~~~(1#128 <<< i) }

/-- The line of a cluster that holds address `a`, if it is there. -/
def State.line? (s : State) (cl a : Nat) : Option Line := (s.cluster cl).l1.get? (a / 128)

/-- A line as its home holds it. -/
def State.homeLine (s : State) (a : Nat) : Line :=
  { data := BitVec.ofNat 1024 (s.readNat (a / 128 * 128) 128) }

/-- The die of a cluster. -/
def dieOfCluster (cl : Nat) : Nat := dieOfCore (coreOfCluster cl)

/-- A line as a cluster's die sees it. -/
def State.dieLine (s : State) (cl a : Nat) : Line :=
  if (s.dieView (dieOfCluster cl)).isEmpty then s.homeLine a
  else { data := BitVec.ofNat 1024 (natOf ((List.range 128).map fun i => s.seenByte (dieOfCluster cl) (a / 128 * 128 + i))) }

/-- Whether the cluster's L1 has room for one more line (R71). -/
def State.roomL1 (s : State) (cl : Nat) : Bool := decide ((s.cluster cl).l1.length < Config.l1Lines)

/-- Bring the line of `a` into the cluster's L1, when it is not there. With no room, the new line itself leaves again at
once; an eviction of another line may come before it (DESIGN CHOICE, log 38). -/
def State.fillLine (s : State) (cl a : Nat) : State :=
  match s.line? cl a with
  | some _ => s
  | none => if s.roomL1 cl then s.updCluster cl fun k => { k with l1 := k.l1.put (a / 128) (s.dieLine cl a) } else s

/-- A byte as the cluster reads it: from its L1 when the line is there, else from the home. -/
def State.clusterByte (s : State) (cl a : Nat) : Byte :=
  match s.line? cl a with
  | some l => l.byte (a % 128)
  | none => s.seenByte (dieOfCluster cl) a

/-- A byte as an access of the cluster that bypasses L1 reads it: the cluster's own byte when it is not performed yet, so
that no lane loses its own store (R115), else the home's. -/
def State.bypassByte (s : State) (cl a : Nat) : Byte :=
  match s.line? cl a with
  | some l => if l.dirty.getLsbD (a % 128) then l.byte (a % 128) else s.seenByte (dieOfCluster cl) a
  | none => s.seenByte (dieOfCluster cl) a

/-- Whether a read of the byte by the cluster meets an uncorrectable error (R167). -/
def State.clusterPoison (s : State) (cl a : Nat) : Bool :=
  match s.line? cl a with
  | some _ => s.poison.contains (.line cl (a / 128))
  | none => s.poisoned a

/-- Write a byte into the cluster's L1, dirty; the line is filled first. A line for which there is no room is written back
as it leaves. -/
def State.storeLine (s : State) (cl a : Nat) (b : Byte) : State :=
  let s1 := s.fillLine cl a
  match s1.line? cl a with
  | some _ => s1.updCluster cl fun k => { k with l1 := k.l1.upd (a / 128) fun l => l.setByte (a % 128) b true }
  | none => (s.writeByte a b).unview (dieOfCluster cl) (· == a)

/-- Write back the dirty bytes of a line whose addresses satisfy `sel`; they become clean (R94). -/
def State.cleanLine (s : State) (cl line : Nat) (sel : Nat → Bool) : State :=
  match (s.cluster cl).l1.get? line with
  | none => s
  | some l =>
    (List.range 128).foldl (fun u i =>
      if l.dirty.getLsbD i && sel (line * 128 + i) then
        ((u.writeByte (line * 128 + i) (l.byte i)).unview (dieOfCluster cl) (· == line * 128 + i)).updCluster cl fun k =>
          { k with l1 := k.l1.upd line fun x => { x with dirty := x.dirty &&& ~~~(1#128 <<< i) } }
      else u) s

/-- Drop a line. -/
def State.dropLine (s : State) (cl line : Nat) : State :=
  { s.updCluster cl fun k => { k with l1 := k.l1.del line } with
    poison := s.poison.filter (· ≠ .line cl line) }

/-- Write back and drop one line (an eviction, R94). -/
def State.evictLine (s : State) (cl line : Nat) : State := (s.cleanLine cl line fun _ => true).dropLine cl line

/-- The lines a cluster holds. -/
def State.lines (s : State) (cl : Nat) : List Nat := (s.cluster cl).l1.keys

/-- Write back every dirty byte of the cluster's lines that satisfy `sel`, keeping the lines. -/
def State.writeBack (s : State) (cl : Nat) (sel : Nat → Bool) : State :=
  ((s.lines cl).filter sel).foldl (fun u l => u.cleanLine cl l fun _ => true) s

/-- Write back and drop the cluster's lines that satisfy `sel`. -/
def State.invalidate (s : State) (cl : Nat) (sel : Nat → Bool) : State :=
  ((s.lines cl).filter sel).foldl (fun u l => u.evictLine cl l) s

/-- Invalidate lines of a cluster, and its die sees those lines' bytes as they are: what orders parties of two dies
(R2, R122, R123). -/
def State.renew (s : State) (cl : Nat) (sel : Nat → Bool) : State :=
  (s.invalidate cl sel).unview (dieOfCluster cl) fun a => sel (a / 128)

/-- Every cluster writes back and drops its L1, and every compute die sees memory as it is. -/
def State.renewAll (s : State) : State :=
  (List.range 12).foldl (fun u d => u.unview d fun _ => true)
    (s.clusters.keys.foldl (fun u k => u.invalidate k fun _ => true) s)

/-- Invalidate lines of a cluster at a scope: only one wider than the die orders parties of two dies (R2). -/
def State.invalidateAt (s : State) (scope cl : Nat) (sel : Nat → Bool) : State :=
  if scope ≤ 3 then s.invalidate cl sel else s.renew cl sel

/-- Write a byte at its home for a store of a cluster that bypasses L1: the cluster's own earlier store to it is performed
first (R116), a line that is there follows (R115), and the cluster's die sees it. -/
def State.storeThrough (s : State) (cl : Nat) (h : HomeByte) : State :=
  let s1 := (s.cleanLine cl (h.addr / 128) (· == h.addr)).writeHome h
  (s1.updCluster cl fun k =>
    { k with l1 := k.l1.upd (h.addr / 128) fun l => l.setByte (h.addr % 128) (s1.readByte h.addr) false }).unview
      (dieOfCluster cl) (· == h.addr)

/-! ### Stores that are not performed yet (R222, R312) -/

/-- Perform one store at its home (R312). -/
def State.performStore (s : State) (cl : Nat) (st : PendingStore) : State :=
  let s1 := st.cached.foldl (fun u a => u.cleanLine cl (a / 128) (· == a)) s
  match st.serial with
  | none => s1
  | some k => s1.spread fun r => r.serial == k

/-- Perform every store of a thread, in issue order. -/
def State.drainStores (s : State) (p : Party) : State :=
  match s.team? p with
  | none => s
  | some t =>
    let sts := (t.thread p.kind).stores
    (sts.foldl (fun u st => u.performStore t.cluster st) s).updThread p fun th => { th with stores := [] }

/-- Write the results of one load (R222). -/
def State.deliver (s : State) (p : Party) (ld : PendingLoad) : State :=
  let s' := s.updTeam p fun t => ld.writes.foldl (fun u w => u.applyWrite p.kind w) t
  match ld.list with
  | none => s'
  | some (k, rows) =>
    match p.kind with
    | .trail => { s' with pairs := s'.pairs.upd (pairKey p.crew p.team) fun q =>
        { q with wls := q.wls.put k rows } }
    | _ => s'.updCrew p.crew fun c => { c with wls := c.wls.put k rows }

/-- Complete every load of a thread, in issue order. -/
def State.drainLoads (s : State) (p : Party) : State :=
  match s.team? p with
  | none => s
  | some t =>
    ((t.thread p.kind).loads.foldl (fun u ld => u.deliver p ld) s).updThread p fun th => { th with loads := [] }

/-! ### Plane frames (R93) -/

/-- The owner of the 64 KiB frame that holds a physical address of the plane; 0 when no context owns it. -/
def State.owner (s : State) (pa : Nat) : Nat := s.owners.read 0 (pa / 65536)

def State.setOwner (s : State) (frame ctx : Nat) : State := { s with owners := s.owners.write 0 frame ctx }

/-- The physical address of scratch granule `g` of a core (R53, R93). -/
def granuleAddr (core g : Nat) : Nat := core * 0x800000 + 0x200000 + g * 65536

/-- The physical address of byte `a` of a crew's scratch, through its granule list. -/
def Crew.scratchAddr (c : Crew) (a : Nat) : Nat := granuleAddr c.core (c.granules.getD (a / 65536) 0) + a % 65536

end Sys2Proof.Machine
end

