-- ==== Sys2Proof/Machine/Translate.lean ====
section
/-! DEFINITION. Pointers, regions, the page table and the TLB (R97 to R104, R108, R109, R127), plane operands
(R93) and windows (R105, R107). A translation is a pure function of the state; what it fills is committed after
every lane of the instruction has passed its checks (log 8). -/

namespace Sys2Proof.Machine

open Sys2Proof

/-- The kinds of access (R97, R101, R112). -/
inductive Access where
  | load | store | fetch | atomic | kvmap
  deriving DecidableEq, Repr

/-- Who makes an access: the context, the core whose TLB serves it (none for engines and the service, which walk), its die
(12 stands for a hub die), whether it comes from the supervisor handler, and whether an engine makes it. -/
structure Agent where
  ctx : Nat
  core : Option Nat
  die : Nat := 12
  handler : Bool := false
  engine : Bool := false
  deriving DecidableEq, Repr

/-- An engine of a die, working for a context (R97). -/
def engineAgent (ctx : Nat) (die : Nat := 12) : Agent := { ctx := ctx, core := none, die := die, engine := true }

/-- Why a translation gives no address: a cause with the GEN of the leaf it reached (R160), a migrating leaf
(R108), or an owner that no route reaches (R109). -/
inductive XFault where
  | cause (c : Cause) (gen : Byte)
  | migrating (gen : Byte)
  | unreachable (gen : Byte)
  deriving DecidableEq, Repr

/-! ### Regions (R35, R97) -/

def regionV (r : BitVec 128) : Bool := r.getLsbD 7
def regionP (r : BitVec 128) : Bool := r.getLsbD 5
def regionE (r : BitVec 128) : Bool := r.getLsbD 4
def regionA (r : BitVec 128) : Bool := r.getLsbD 3
def regionX (r : BitVec 128) : Bool := r.getLsbD 2
def regionW (r : BitVec 128) : Bool := r.getLsbD 1
def regionRD (r : BitVec 128) : Bool := r.getLsbD 0
def regionBase (r : BitVec 128) : Nat := (r.extractLsb' 32 32).toNat
def regionLimit (r : BitVec 128) : Nat := (r.extractLsb' 64 32).toNat

/-- The region identifier, the virtual address and the 64 KiB page of a pointer (R97). -/
def rid (p : DWord) : Nat := (p.extractLsb' 56 8).toNat
def va (p : DWord) : Nat := (p.extractLsb' 0 48).toNat
def vpage (p : DWord) : Nat := (p.extractLsb' 16 32).toNat
/-- Bits 55:48 are zero (R97). -/
def canonical (p : DWord) : Bool := p.extractLsb' 48 8 == 0

/-- Whether the region entry gives the bits the access needs (R97, order 4). -/
def regionAllows (r : BitVec 128) (k : Access) (g : Agent) : Bool :=
  (match k with
   | .load => regionRD r
   | .kvmap => regionRD r
   | .store => regionW r
   | .fetch => regionX r
   | .atomic => regionRD r && regionW r && regionA r) &&
  (!g.engine || regionE r) &&
  (k == .kvmap || !regionP r || g.handler)

/-- A region entry of a context (R35). -/
def State.region (s : State) (ctx id : Nat) : BitVec 128 :=
  match s.contexts.get? ctx with
  | none => 0
  | some c => c.regions.read 0 id

/-- The checks of R97 before the walk; the first that fails. -/
def State.regionFault (s : State) (g : Agent) (k : Access) (p : DWord) : Option Cause :=
  let r := s.region g.ctx (rid p)
  if !canonical p then some .noncanonical
  else if !regionV r then some .regionInvalid
  else if vpage p < regionBase r || regionLimit r < vpage p then some .regionBounds
  else if !regionAllows r k g then some .regionDenied
  else none

/-! ### Leaves (R99 to R103) -/

def leafV (e : BitVec 128) : Bool := e.getLsbD 0
def leafL (e : BitVec 128) : Bool := e.getLsbD 1
def leafRD (e : BitVec 128) : Bool := e.getLsbD 2
def leafW (e : BitVec 128) : Bool := e.getLsbD 3
def leafX (e : BitVec 128) : Bool := e.getLsbD 4
def leafAT (e : BitVec 128) : Bool := e.getLsbD 5
def leafP (e : BitVec 128) : Bool := e.getLsbD 6
def leafAC (e : BitVec 128) : Bool := e.getLsbD 7
def leafD (e : BitVec 128) : Bool := e.getLsbD 8
def leafPM (e : BitVec 128) : Bool := e.getLsbD 9
def leafMIG (e : BitVec 128) : Bool := e.getLsbD 10
def leafFmt (e : BitVec 128) : Nat := (e.extractLsb' 58 6).toNat
def leafGeom (e : BitVec 128) : Nat := (e.extractLsb' 64 4).toNat
def leafFrame (e : BitVec 128) : Nat := (e.extractLsb' 68 36).toNat
def leafTier (e : BitVec 128) : Nat := (e.extractLsb' 104 2).toNat
def leafNode (e : BitVec 128) : Nat := (e.extractLsb' 109 11).toNat
def leafGen (e : BitVec 128) : Byte := e.extractLsb' 120 8
/-- NEXT of a non-leaf entry, as a physical address (R99). -/
def nextTable (e : BitVec 128) : Nat := (e.extractLsb' 64 40).toNat * 4096

/-- GEOM allowed for a format (R102, R103). -/
def geomOk (fmt geom : Nat) : Bool :=
  if 0x17 ≤ fmt ∧ fmt ≤ 0x19 then geom == 1 || geom == 2
  else if fmt = 0x1A then geom == 4
  else geom == 0

/-- Whether a non-leaf entry is well formed at its level (R101). -/
def State.tableOk (s : State) (level : Nat) (e : BitVec 128) : Bool :=
  !leafL e && level != 0 && e.extractLsb' 2 62 == 0 && e.extractLsb' 104 24 == 0 &&
  (let n := nextTable e
   n % 65536 == 0 && (match s.tierOf n with | some t => t ≤ 2 | none => false))

/-- Whether a leaf is well formed at its level (R101). -/
def State.leafOk (s : State) (level : Nat) (e : BitVec 128) : Bool :=
  let localNode := leafNode e == s.node
  leafL e && level != 2 && e.extractLsb' 11 47 == 0 && e.extractLsb' 106 3 == 0 &&
  (!localNode || s.tierOf (leafFrame e * 65536) == some (leafTier e)) &&
  (level != 1 || leafFrame e % 4096 == 0) &&
  leafFmt e ≤ 0x1B && geomOk (leafFmt e) (leafGeom e) &&
  (!leafPM e || (leafTier e == 1 && localNode && !leafAT e)) &&
  (!leafX e || leafFmt e == 0)

/-- An entry of a table, read whole at its home (R98). -/
def State.readEntry (s : State) (a : Nat) : BitVec 128 := BitVec.ofNat 128 (s.readNat a 16)

/-- What a walk finds: a leaf with its address and whether it maps 256 MiB, or a cause. -/
def State.walk (s : State) (ctx : Nat) (v : Nat) : Except Cause (BitVec 128 × Nat × Bool) :=
  let root := match s.contexts.get? ctx with | none => 0 | some c => c.root
  let e2 := s.readEntry (root + 16 * field v 40 8)
  if !leafV e2 then .error .notMapped
  else if !s.tableOk 2 e2 then .error .leafInvalid
  else
    let a1 := nextTable e2 + 16 * field v 28 12
    let e1 := s.readEntry a1
    if !leafV e1 then .error .notMapped
    else if leafL e1 then (if s.leafOk 1 e1 then .ok (e1, a1, true) else .error .leafInvalid)
    else if !s.tableOk 1 e1 then .error .leafInvalid
    else
      let a0 := nextTable e1 + 16 * field v 16 12
      let e0 := s.readEntry a0
      if !leafV e0 then .error .notMapped
      else if s.leafOk 0 e0 then .ok (e0, a0, false)
      else .error .leafInvalid

/-- The addresses of the entries that a walk reads, at most one of each level. -/
def State.walkEntries (s : State) (ctx v : Nat) : List Nat :=
  let a2 := ((s.contexts.get? ctx).elim 0 (·.root)) + 16 * field v 40 8
  let a1 := nextTable (s.readEntry a2) + 16 * field v 28 12
  [a2, a1, nextTable (s.readEntry a1) + 16 * field v 16 12]

/-- A walker has read the entries of a page at their home, so its die sees them as they are (R123, R127). -/
def State.seeWalk (s : State) (g : Agent) (page : Nat) : State :=
  if (s.dieView g.die).isEmpty then s
  else s.unview g.die fun a => (s.walkEntries g.ctx (page * 65536)).any fun e => e ≤ a && a < e + 16

/-- The leaf checks of R101 in order; MIG comes before permission (R108). -/
def leafFault (g : Agent) (k : Access) (e : BitVec 128) : Option XFault :=
  let gen := leafGen e
  if leafMIG e then some (.migrating gen)
  else if leafP e && !g.handler && k != .kvmap then some (.cause .privileged gen)
  else match k with
    | .load | .kvmap => if leafRD e then none else some (.cause .noRead gen)
    | .store => if leafW e then none else some (.cause .noWrite gen)
    | .fetch => if leafX e then none else some (.cause .noExecute gen)
    | .atomic =>
      if !leafRD e then some (.cause .noRead gen)
      else if !leafW e then some (.cause .noWrite gen)
      else if !leafAT e then some (.cause .noAtomic gen)
      else none

/-- Whether a wait is for a remote owner. -/
def XFault.isRemote : XFault → Bool
  | .unreachable _ => true
  | _ => false

/-- Whether a wait on a migrating leaf, or on a remote owner, has lasted longer than it may: it is over, whatever the leaf or
the route is now (R108, R109). -/
def overdue (since : Option DWord) (remote : Bool) (now : DWord) : Bool :=
  since.any fun a => (if remote then 340000 else 34000) < (now - a).toNat

/-- Whether a wait that began for one reason goes on for another. -/
def goesOn (since : Option DWord) (remote : Bool) (x : XFault) : Bool := since.isSome && remote == x.isRemote

/-- Since when a wait lasts that meets a reason now. -/
def waitSince (since : Option DWord) (remote : Bool) (x : XFault) (now : DWord) : Option DWord :=
  if goesOn since remote x then since else some now

/-- Whether another node answers over the fabric. -/
def State.reaches (s : State) (node : Nat) : Bool := s.domainUp && s.reachable.contains node

/-- The remote rules of R109 for a frame on another node. -/
def State.remoteFault (s : State) (node pa : Nat) (gen : Byte) : Option XFault :=
  let frame := pa / 65536 * 65536
  if node == s.node then none
  else if !s.reaches node then some (.unreachable gen)
  else if s.opened.any (fun o => o.1 == node && decide (o.2.1 ≤ frame ∧ frame + 65536 ≤ o.2.1 + o.2.2)) then none
  else some (.cause .remoteDenied gen)

/-- The rules of R92 and R109 for the place of an access: no hole of this F7, and an owner that answers. -/
def State.placeFault (s : State) (node pa : Nat) (gen : Byte) : Option XFault :=
  if node == s.node && (s.tierOf pa).isNone then some (.cause .leafInvalid gen) else s.remoteFault node pa gen

/-- The physical address a leaf gives for a virtual address. -/
def leafAddr (e : BitVec 128) (large : Bool) (v : Nat) : Nat :=
  leafFrame e * 65536 + (if large then v % 0x10000000 else v % 65536)

/-- Whether a TLB entry serves a page of a context. -/
def TlbEntry.covers (e : TlbEntry) (ctx page : Nat) : Bool :=
  e.ctx == ctx && (if e.large then e.page / 4096 == page / 4096 else e.page == page)

/-- The TLB entry of a core for a page, if it is there; one whose leaf has D = 0 does not serve a store (R104). -/
def State.tlbFind (s : State) (core : Option Nat) (ctx page : Nat) (store : Bool) : Option TlbEntry :=
  match core with
  | none => none
  | some c => (s.core c).tlb.find? fun e => e.covers ctx page && (!store || e.dirty)

/-- A leaf used for an address: its checks, the remote rules, and the address. -/
def State.useLeaf (s : State) (g : Agent) (k : Access) (v : Nat) (e : BitVec 128) (large : Bool) (leafAt : Nat)
    (fill : Option TlbEntry) : Except XFault Phys :=
  match leafFault g k e with
  | some f => .error f
  | none =>
    let pa := leafAddr e large v
    let store := k == .store || k == .atomic
    match s.placeFault (leafNode e) pa (leafGen e) with
    | some f => .error f
    | none => .ok
      { addr := globalAddr s.node (leafNode e) pa, tier := leafTier e, fmt := leafFmt e, geom := leafGeom e,
        pm := leafPM e, node := leafNode e, gen := leafGen e, large := large, fill := fill, leafAt := leafAt, leaf := e,
        setAc := fill.isSome && !leafAC e, setD := fill.isSome && store && !leafD e }

/-- Translate a pointer (R97, R101), through the core's TLB where it holds the page. -/
def State.translate (s : State) (g : Agent) (k : Access) (p : DWord) : Except XFault Phys :=
  match s.regionFault g k p with
  | some c => .error (.cause c 0)
  | none =>
    let store := k == .store || k == .atomic
    match s.tlbFind g.core g.ctx (vpage p) store with
    | some e => s.useLeaf g k (va p) e.leaf e.large e.leafAt none
    | none =>
      match s.walk g.ctx (va p) with
      | .error c => .error (.cause c 0)
      | .ok (e, a, large) =>
        s.useLeaf g k (va p) e large a
          (some { ctx := g.ctx, page := vpage p, large := large, leaf := e, leafAt := a,
                  dirty := leafD e || store })

/-- The walker's AC and D updates and the TLB fill of a translation (R104, R130); the walker's die sees the leaf as it is. -/
def State.commitFill (s : State) (g : Agent) (x : Phys) : State :=
  match x.fill with
  | none => s
  | some e =>
    let leaf := x.leaf ||| (if x.setAc then (1#128 <<< 7) else 0) ||| (if x.setD then (1#128 <<< 8) else 0)
    let s0 := s.seeWalk g e.page
    let s1 := if x.setAc || x.setD then s0.writeBytes x.leafAt (bytesOf 16 leaf.toNat) else s0
    match g.core with
    | none => s1
    | some c => s1.updCore c fun k =>
      { k with tlb := { e with leaf := leaf } :: k.tlb.filter fun o => !o.covers e.ctx e.page }

def State.commitFills (s : State) (g : Agent) (xs : List Phys) : State :=
  xs.foldl (fun u x => u.commitFill g x) s

/-! ### Replicated pages (R110, R124) -/

/-- The address at which a die reads a replicated page, and the addresses a store writes. -/
def Phys.readAddr (x : Phys) (die : Nat) : Nat :=
  if x.pm ∧ die < 12 then x.addr + die * copyStride else x.addr

def Phys.storeAddrs (x : Phys) : List Nat :=
  if x.pm then (List.range 12).map fun d => x.addr + d * copyStride else [x.addr]

/-- Write bits of one byte of a page at its home, in every copy of a replicated page; what the copies have still to take of
earlier stores comes first (R124). -/
def State.writePlace (s : State) (x : Phys) (h : HomeByte) : State :=
  x.storeAddrs.foldl (fun u a => u.writeHome { h with addr := a })
    (if x.pm then s.spreadAt (· == x.addr) else s)

/-- Write bits of one byte of a page for a party of a die, which sees what it wrote (R123). -/
def State.partyWrite (s : State) (die : Nat) (x : Phys) (h : HomeByte) : State :=
  (s.writePlace x h).unview die fun a => x.storeAddrs.contains a

/-- An engine of a die writes a byte everywhere a store to its page writes (R110). -/
def State.engineWrite (s : State) (die : Nat) (y : Phys) (b : Byte) : State :=
  s.partyWrite die y { addr := y.addr, bits := 0xFF, val := b }

/-! ### Plane operands (R93) -/

/-- The physical address a plane operand names, or its protection cause. -/
def State.planeAddr (s : State) (c : Crew) (scratchKiB : Nat) (a : Word) : Except Cause Nat :=
  let n := a.toNat
  if n ≤ 0x3FFFFF then
    if scratchKiB * 1024 ≤ n then .error .planeRange else .ok (c.scratchAddr n)
  else if 0x40000000 ≤ n then
    let pa := n - 0x40000000
    if s.tierOf pa ≠ some 0 then .error .planeRange
    else if s.owner pa ≠ c.ctx then .error .planeOwner
    else .ok pa
  else .error .planeRange

/-! ### Windows (R105, R107) -/

/-- The 128-bit image of a window (R105). -/
def Window.image (w : Window) : BitVec 128 :=
  w.gen ++ (w.node ++ (w.tier ++ (w.frame ++ (w.rid ++ (w.vbase ++ (w.limit ++ (BitVec.ofBool w.p ++
    (BitVec.ofBool w.at' ++ (BitVec.ofBool w.x ++ (BitVec.ofBool w.w ++ (BitVec.ofBool w.rd ++ (w.fmt ++
      (w.geom ++ (BitVec.ofBool w.pm ++
        ((match w.state with | .invalid => 0 | .pending => 1 | .valid => 2) : BitVec 2)))))))))))))))

/-- The pointer an offset through a window falls back to (R107, TLB path). -/
def Window.pointer (w : Window) (o : Int) : DWord :=
  BitVec.ofNat 64 (w.rid.toNat * 2 ^ 56 + wrap 48 ((w.vbase.toNat * 65536 : Nat) + o))

/-- Whether the window itself serves an access (R107, window path). -/
def Window.serves (w : Window) (k : Access) (handler : Bool) (o : Int) : Bool :=
  decide (0 ≤ o) && decide (o < (w.limit.toNat * 65536 : Nat)) && (!w.p || handler) &&
  (match k with
   | .load | .kvmap => w.rd
   | .store => w.w
   | .fetch => w.x
   | .atomic => w.rd && w.w && w.at')

/-- Translate an offset through a window that is not INVALID (R107). -/
def State.windowAddr (s : State) (g : Agent) (w : Window) (k : Access) (o : Int) : Except XFault Phys :=
  if w.serves k g.handler o then
    let pa := w.frame.toNat * 65536 + o.toNat
    match s.placeFault w.node.toNat pa w.gen with
    | some f => .error f
    | none => .ok
      { addr := globalAddr s.node w.node.toNat pa, tier := w.tier.toNat, fmt := w.fmt.toNat, geom := w.geom.toNat,
        pm := w.pm, node := w.node.toNat, gen := w.gen }
  else s.translate g k (w.pointer o)

end Sys2Proof.Machine
end

