-- ==== Sys2Proof/Machine/CupelBlock.lean ====
section
/-! DEFINITION. The forms of Cupel operands (R136 to R138, R338), the block of a Cupel operation, and what an operation reads
of the plane. -/

namespace Sys2Proof.Machine

open Sys2Proof

/-! ### Operand pairs (R136, R138, R338) -/

/-- The form of the A element and of the B element of a pair, in WBLOAD's numbering (R339): 0 FP16, 1 BF16, 2 DIR16,
3 E4M3 scaled, 4 E5M2 scaled, 7 INT8, 8 INT4 grouped, 9 ternary, 10 1-bit. -/
def aForm (pair : Nat) : Nat := match pair with | 3 | 4 => 3 | 5 | 6 => 4 | 8 | 9 => 7 | p => p
def bForm (pair : Nat) : Nat := match pair with | 3 | 5 => 3 | 4 | 6 => 4 | p => p

/-- Bytes of a chunk of a form (R138). -/
def formChunk (form : Nat) : Nat :=
  match form with | 0 | 1 => 64 | 2 => 66 | 3 | 4 => 33 | 7 => 32 | 8 => 16 | 9 => 7 | _ => 64

/-- Whether a form carries a norm word per chunk (R138). -/
def normed (form : Nat) : Bool := form ≤ 4

/-- Clocks per K-step of a pair (R136). -/
def stepClocks (pair : Nat) : Nat := match pair with | 0 | 1 | 2 => 8 | 9 => 2 | _ => 4

/-- The most K-steps the A-row store allows (R137): by the element of the form. -/
def stepLimit (form : Nat) : Nat := if form ≤ 2 ∨ form = 10 then 128 else 256

/-- Whether the accumulator of a pair is INT32. -/
def intPair (pair : Nat) : Bool := pair == 7 || pair == 9 || pair == 10

/-- Where chunk `s` of a column begins: two bytes of INT4 scale follow every fourth chunk. -/
def chunkAt (form s : Nat) : Nat := s * formChunk form + (if form = 8 then s / 4 * 2 else 0)

/-- Bytes of the chunks of a column of `s` chunks, and of the whole column of the buffer with its norm words. -/
def columnData (form s : Nat) : Nat := chunkAt form s
def columnBytes (form s : Nat) : Nat := columnData form s + (if normed form then 4 * s else 0)

/-! ### The block (R338) -/

def blockPair (b : List Word) : Nat := field (b.getD 0 0).toNat 28 4
def blockAq (b : List Word) : Bool := (b.getD 0 0).getLsbD 17
def blockZero (b : List Word) : Bool := (b.getD 0 0).getLsbD 16
def blockS (b : List Word) : Nat := field (b.getD 0 0).toNat 8 8 + 1
def blockM (b : List Word) : Nat := field (b.getD 0 0).toNat 0 6 + 1
def blockWord (b : List Word) (i : Nat) : Nat := (b.getD i 0).toNat

/-- Bytes of an A row. -/
def rowBytes (b : List Word) : Nat := blockS b * formChunk (aForm (blockPair b))

/-- Entries of the A-row feed that a row takes: the spare bytes of its last one are dropped (DEDUCED, log 17). -/
def rowEntries (b : List Word) : Nat := (rowBytes b + 7) / 8

/-! ### What an operation reads of the plane (R137, R142) -/

/-- The physical place of a plane address for a crew, and its cause when there is none (R93). -/
def State.planeByte (s : State) (c : Crew) (scratch a : Nat) : Except Cause Nat :=
  if 2 ^ 32 ≤ a then .error .planeRange else s.planeAddr c scratch (BitVec.ofNat 32 a)

/-- Bytes of a plane range, as the core's die sees them; none when one is poisoned. -/
def State.planeBytes (s : State) (c : Crew) (scratch a len : Nat) : Option (List Byte) :=
  (List.range len).mapM fun i => match s.planeByte c scratch (a + i) with
    | .error _ => some 0
    | .ok pa => if s.poisoned pa then none else some (s.seenByte (dieOfCore c.core) pa)

/-- The live rows of a loop, or of an epilogue: M, from its block (R338). -/
def CupelOp.m (o : CupelOp) : Nat := blockM o.block

/-- Whether an operation reads A rows. -/
def CupelOp.isLoop (o : CupelOp) : Bool :=
  match o.kind with | .dense | .bin _ | .topk _ => true | _ => false

/-- The A rows that a loop reads. -/
def State.planeRows (s : State) (c : Crew) (scratch : Nat) (o : CupelOp) : Option (List Byte) :=
  ((List.range (blockM o.block)).mapM fun r =>
    s.planeBytes c scratch (blockWord o.block 1 + r * blockWord o.block 2) (rowBytes o.block)).map List.flatten

/-- What an accepted operation has still to read of its crew's scratch: the A rows of a loop, or the row addresses of an
epilogue. -/
def State.planeSource (s : State) (c : Crew) (scratch : Nat) (o : CupelOp) : Option (List Byte) :=
  if o.kept.isSome then o.kept
  else if o.isLoop then (if blockAq o.block || o.started then none else s.planeRows c scratch o)
  else match o.kind with
    | .epiMem => s.planeBytes c scratch (blockWord o.block 1) (8 * o.m)
    | _ => none

/-- The operations of a crew keep what they have still to read of scratch that the crew gives up (R56, R125, R154). -/
def State.keepSources (s : State) (crew : Nat) : State :=
  match s.crews.get? crew with
  | none => s
  | some c =>
    let scratch := (s.launches.get? c.launch).elim 0 (·.scratch)
    let keep (o : CupelOp) : CupelOp := if o.crew = crew then { o with kept := s.planeSource c scratch o } else o
    if (s.core c.core).cupel.isEmpty then s else s.updCore c.core fun k => { k with cupel := k.cupel.map keep }

end Sys2Proof.Machine
end

