-- ==== Sys2Proof/Machine/Flags.lean ====
section
/-! DEFINITION. The conditions of compares and branches (R228, R239, R248, R254). The F7 keeps no condition flags:
no instruction sets a sticky or condition bit (R237, R263). -/

namespace Sys2Proof.Machine

open Sys2Proof

/-- The integer conditions of SCMP and VCMP (R228), signed or unsigned. -/
def intCond (fx : Nat) (signed : Bool) (a b : Word) : Bool :=
  let lt := if signed then a.slt b else a.ult b
  match fx with
  | 0 => a == b
  | 1 => a != b
  | 2 => lt
  | 3 => lt || a == b
  | 4 => !(lt || a == b)
  | _ => !lt

/-- The conditions of BRC: a signed value against zero (R239). -/
def zeroCond (c3 : Nat) (a : Word) : Bool :=
  match c3 with
  | 0 => a == 0
  | 1 => a != 0
  | 2 => a.slt 0
  | 3 => a.slt 0 || a == 0
  | 4 => !(a.slt 0) && a != 0
  | _ => !(a.slt 0)

/-- The conditions of WAIT instructions and WAIT packets (R48, R248). -/
def waitCond (c : Nat) (a b : DWord) : Bool :=
  match c with
  | 0 => a == b
  | 1 => a != b
  | 2 => !(a.ult b)
  | _ => a.ult b

/-- The number of set bits of a mask among lanes 0 to `n - 1` (R254). -/
def maskCount (m : Mask) (n : Nat) : Nat := (m.lanes n).length

/-- The lowest lane at or above `from` whose bit is set, among lanes 0 to `n - 1` (R254). -/
def maskFind (m : Mask) (n start : Nat) : Option Nat := (m.lanes n).find? (start ≤ ·)

end Sys2Proof.Machine
end

