-- ==== Sys2Proof/Machine/Check.lean ====
section
/-! DEFINITION. The decode checks of R230 that an instruction's words decide alone, in their order: SUBOP,
TYPE, RSV_BITS, and the assignment of a special-register number; with, for every instruction, which fields it
uses, which register each names (R224), and what it accepts. -/

namespace Sys2Proof.Machine

open Sys2Proof

/-- The modifier word that R227 takes when M = 0 (its C apart, which is then the D field). -/
def Mod.zero : Mod :=
  { pmk := 0, pe := false, pn := false, td := 0, ts := 0, rmode := 0, sat := false, scope := 0, fx := 0, c := 0 }

/-- The fields of an instruction word under one set of names, whatever its format. `b` is the B field, or S in
RRS; `imm` is IMM14, IMM4 or the offset, widened. -/
structure Parts where
  d : BitVec 7 := 0
  a : BitVec 7 := 0
  b : BitVec 7 := 0
  win : BitVec 3 := 0
  imm : BitVec 21 := 0
  c3 : BitVec 3 := 0
  rsv : Bool := false
  w : Bool := false
  lit : Option Word := none
  m : Option Mod := none
  deriving DecidableEq, Repr

def Parts.ofRRR (f : RRR) : Parts := { d := f.d, a := f.a, b := f.b, w := f.w, lit := f.lit, m := f.m }
def Parts.ofRRS (f : RRS) : Parts := { d := f.d, a := f.a, b := f.s, w := f.w, lit := f.lit, m := f.m }
def Parts.ofRI (f : RI) : Parts := { d := f.d, imm := f.imm.setWidth 21, w := f.w, lit := f.lit, m := f.m }
def Parts.ofMW (f : MW) : Parts :=
  { d := f.d, a := f.a, win := f.win, imm := f.imm.setWidth 21, w := f.w, lit := f.lit, m := f.m }
def Parts.ofZ (f : FZ) : Parts := { rsv := f.rsv != 0, lit := f.lit, m := f.m }
def Parts.ofBO (f : BO) : Parts := { imm := f.off, rsv := f.rsv, lit := f.lit, m := f.m }
def Parts.ofBC (f : BC) : Parts :=
  { a := f.a, c3 := f.c3, imm := f.off.setWidth 21, rsv := f.rsv, lit := f.lit, m := f.m }

/-- The view of an instruction's fields; an event of the part has none. LOOP alone takes bit 2 of its BC word
as W (R244; DEDUCED, log 9). -/
def partsOf : Instr → Option Parts
  | .loop f => some { Parts.ofBC f with rsv := false, w := f.rsv }
  | .bra f => some (Parts.ofBO f)
  | .brc f => some (Parts.ofBC f)
  | .brm f => some (Parts.ofBC f)
  | .join f => some (Parts.ofZ f)
  | .call f => some (Parts.ofBO f)
  | .ret f => some (Parts.ofZ f)
  | .jmpi f => some (Parts.ofRRR f)
  | .exit f => some (Parts.ofZ f)
  | .yield f => some (Parts.ofZ f)
  | .sleep f => some (Parts.ofRI f)
  | .wait f => some (Parts.ofRRS f)
  | .nop f => some (Parts.ofZ f)
  | .part f => some (Parts.ofRI f)
  | .mset f => some (Parts.ofRRS f)
  | .mand f => some (Parts.ofRRR f)
  | .mor f => some (Parts.ofRRR f)
  | .mxor f => some (Parts.ofRRR f)
  | .mnot f => some (Parts.ofRRR f)
  | .mmov f => some (Parts.ofRRR f)
  | .mpop f => some (Parts.ofRRR f)
  | .mfind f => some (Parts.ofRRR f)
  | .many f => some (Parts.ofRRR f)
  | .mall f => some (Parts.ofRRR f)
  | .mexec f => some (Parts.ofRRR f)
  | .setix f => some (Parts.ofRI f)
  | .srd f => some (Parts.ofRRS f)
  | .swr f => some (Parts.ofRRS f)
  | .smov f => some (Parts.ofRRR f)
  | .smovi f => some (Parts.ofRI f)
  | .sadd f => some (Parts.ofRRR f)
  | .ssub f => some (Parts.ofRRR f)
  | .smul f => some (Parts.ofRRR f)
  | .smulh f => some (Parts.ofRRR f)
  | .smad f => some (Parts.ofRRR f)
  | .sdiv f => some (Parts.ofRRR f)
  | .srem f => some (Parts.ofRRR f)
  | .sand f => some (Parts.ofRRR f)
  | .sor f => some (Parts.ofRRR f)
  | .sxor f => some (Parts.ofRRR f)
  | .sshl f => some (Parts.ofRRR f)
  | .sshr f => some (Parts.ofRRR f)
  | .ssar f => some (Parts.ofRRR f)
  | .smin f => some (Parts.ofRRR f)
  | .smax f => some (Parts.ofRRR f)
  | .scmp f => some (Parts.ofRRR f)
  | .ssel f => some (Parts.ofRRR f)
  | .sclz f => some (Parts.ofRRR f)
  | .spopc f => some (Parts.ofRRR f)
  | .sbfe f => some (Parts.ofRRR f)
  | .sbfi f => some (Parts.ofRRR f)
  | .sadd64 f => some (Parts.ofRRR f)
  | .qpush f => some (Parts.ofRRS f)
  | .qpop f => some (Parts.ofRRS f)
  | .vadd f => some (Parts.ofRRR f)
  | .vsub f => some (Parts.ofRRR f)
  | .vmul f => some (Parts.ofRRR f)
  | .vmulh f => some (Parts.ofRRR f)
  | .vmad f => some (Parts.ofRRR f)
  | .vand f => some (Parts.ofRRR f)
  | .vor f => some (Parts.ofRRR f)
  | .vxor f => some (Parts.ofRRR f)
  | .vnot f => some (Parts.ofRRR f)
  | .vshl f => some (Parts.ofRRR f)
  | .vshr f => some (Parts.ofRRR f)
  | .vsar f => some (Parts.ofRRR f)
  | .vmin f => some (Parts.ofRRR f)
  | .vmax f => some (Parts.ofRRR f)
  | .vabs f => some (Parts.ofRRR f)
  | .vcmp f => some (Parts.ofRRR f)
  | .vsel f => some (Parts.ofRRR f)
  | .vclz f => some (Parts.ofRRR f)
  | .vpopc f => some (Parts.ofRRR f)
  | .vbfe f => some (Parts.ofRRR f)
  | .vbfi f => some (Parts.ofRRR f)
  | .vperm f => some (Parts.ofRRR f)
  | .vdot4 f => some (Parts.ofRRR f)
  | .fadd f => some (Parts.ofRRR f)
  | .fsub f => some (Parts.ofRRR f)
  | .fmul f => some (Parts.ofRRR f)
  | .fma f => some (Parts.ofRRR f)
  | .fnma f => some (Parts.ofRRR f)
  | .fmin f => some (Parts.ofRRR f)
  | .fmax f => some (Parts.ofRRR f)
  | .fneg f => some (Parts.ofRRR f)
  | .fabs f => some (Parts.ofRRR f)
  | .fcmp f => some (Parts.ofRRR f)
  | .fclass f => some (Parts.ofRRR f)
  | .fscale f => some (Parts.ofRRR f)
  | .frcp f => some (Parts.ofRRR f)
  | .frsq f => some (Parts.ofRRR f)
  | .fsqrt f => some (Parts.ofRRR f)
  | .fexp2 f => some (Parts.ofRRR f)
  | .flog2 f => some (Parts.ofRRR f)
  | .fsin f => some (Parts.ofRRR f)
  | .fcos f => some (Parts.ofRRR f)
  | .ftanh f => some (Parts.ofRRR f)
  | .cvt f => some (Parts.ofRRR f)
  | .cvtn f => some (Parts.ofRRR f)
  | .cvtw f => some (Parts.ofRRR f)
  | .qnt f => some (Parts.ofRRR f)
  | .dqnt f => some (Parts.ofRRR f)
  | .shfl f => some (Parts.ofRRR f)
  | .shflu f => some (Parts.ofRRR f)
  | .shfld f => some (Parts.ofRRR f)
  | .shflx f => some (Parts.ofRRR f)
  | .vote f => some (Parts.ofRRS f)
  | .ballot f => some (Parts.ofRRS f)
  | .vred f => some (Parts.ofRRR f)
  | .vscan f => some (Parts.ofRRR f)
  | .tred f => some (Parts.ofRRR f)
  | .bcast f => some (Parts.ofRRR f)
  | .compact f => some (Parts.ofRRR f)
  | .vrand f => some (Parts.ofRRR f)
  | .dcvt f => some (Parts.ofRRR f)
  | .dexp f => some (Parts.ofRRR f)
  | .ddot f => some (Parts.ofRRR f)
  | .ddotf f => some (Parts.ofRRR f)
  | .dscal f => some (Parts.ofRRR f)
  | .dadd f => some (Parts.ofRRR f)
  | .dsub f => some (Parts.ofRRR f)
  | .dmix f => some (Parts.ofRRR f)
  | .dneg f => some (Parts.ofRRR f)
  | .dmov f => some (Parts.ofRRR f)
  | .dnrd f => some (Parts.ofRRR f)
  | .dnwr f => some (Parts.ofRRR f)
  | .dzero f => some (Parts.ofRRR f)
  | .dspan f => some (Parts.ofRI f)
  | .dld f => some (Parts.ofMW f)
  | .dst f => some (Parts.ofMW f)
  | .wlalloc f => some (Parts.ofRRS f)
  | .wlfree f => some (Parts.ofRRS f)
  | .wlclr f => some (Parts.ofRRS f)
  | .wlins f => some (Parts.ofRRR f)
  | .vtopk f => some (Parts.ofRRR f)
  | .wlmerge f => some (Parts.ofRRR f)
  | .wlrd f => some (Parts.ofRRR f)
  | .wlst f => some (Parts.ofRRR f)
  | .wlld f => some (Parts.ofRRR f)
  | .ssect f => some (Parts.ofRRR f)
  | .pksi f => some (Parts.ofRRR f)
  | .unpksi f => some (Parts.ofRRR f)
  | .gwnorm f => some (Parts.ofRRR f)
  | .smxacc f => some (Parts.ofRRR f)
  | .smxfin f => some (Parts.ofRRR f)
  | .ld f => some (Parts.ofMW f)
  | .st f => some (Parts.ofMW f)
  | .ldg f => some (Parts.ofRRR f)
  | .stg f => some (Parts.ofRRR f)
  | .ldp f => some (Parts.ofRRR f)
  | .stp f => some (Parts.ofRRR f)
  | .kvld f => some (Parts.ofRRR f)
  | .wmap f => some (Parts.ofRRR f)
  | .winv f => some (Parts.ofRRS f)
  | .pref f => some (Parts.ofMW f)
  | .cwb f => some (Parts.ofRRR f)
  | .cinv f => some (Parts.ofRRR f)
  | .ipref f => some (Parts.ofRRR f)
  | .ipin f => some (Parts.ofRRR f)
  | .iunpin f => some (Parts.ofRRR f)
  | .atom f => some (Parts.ofMW f)
  | .cas f => some (Parts.ofMW f)
  | .cas128 f => some (Parts.ofMW f)
  | .acq f => some (Parts.ofRRR f)
  | .rel f => some (Parts.ofRRR f)
  | .bind f => some (Parts.ofRRR f)
  | .unbind f => some (Parts.ofRRS f)
  | .fence f => some (Parts.ofZ f)
  | .fencePt f => some (Parts.ofZ f)
  | .shoot f => some (Parts.ofRRR f)
  | .bar f => some (Parts.ofRRS f)
  | .bara f => some (Parts.ofRRS f)
  | .barw f => some (Parts.ofRRS f)
  | .gbar f => some (Parts.ofZ f)
  | .qcfg f => some (Parts.ofRRS f)
  | .qstat f => some (Parts.ofRRS f)
  | .xcopy f => some (Parts.ofRRR f)
  | .xred f => some (Parts.ofRRR f)
  | .wbload f => some (Parts.ofRRR f)
  | .mloop f => some (Parts.ofRRR f)
  | .ctopk f => some (Parts.ofRRR f)
  | .cbin f => some (Parts.ofRRR f)
  | .cepi f => some (Parts.ofRRR f)
  | .cstat f => some (Parts.ofRRS f)
  | .spawn f => some (Parts.ofRRR f)
  | .nodefl f => some (Parts.ofRRR f)
  | .repack f => some (Parts.ofZ f)
  | .chgo f => some (Parts.ofRRR f)
  | .chstop f => some (Parts.ofZ f)
  | .phase f => some (Parts.ofRRS f)
  | .trap f => some (Parts.ofRRS f)
  | .tret f => some (Parts.ofZ f)
  | .trld f => some (Parts.ofRRR f)
  | .trst f => some (Parts.ofRRR f)
  | .bpset f => some (Parts.ofRRR f)
  | .wpset f => some (Parts.ofRRR f)
  | .step f => some (Parts.ofRRS f)
  | .snap f => some (Parts.ofZ f)
  | .finj f => some (Parts.ofRRR f)
  | .tsbegin f => some (Parts.ofZ f)
  | .tsend f => some (Parts.ofZ f)
  | .tbrd f => some (Parts.ofRRR f)
  | .halt f => some (Parts.ofZ f)
  | .powerGood => none
  | .dieTrained _ => none
  | .fullServiceDeadline => none
  | .powerOn => none
  | .powerOff => none
  | .sensors _ _ _ => none
  | .status => none
  | .selectSlot _ => none
  | .hold => none
  | .snapPin => none
  | .boardCommandUnknown _ => none
  | .tokenTurn _ _ => none
  | .tokenLoss _ => none
  | .tokenRebuild => none
  | .fillRateStep _ => none
  | .throttleLimit _ _ => none
  | .energySample => none
  | .energyDivide _ _ => none
  | .replan _ _ _ _ => none
  | .flitReceive _ _ => none
  | .replayRequest _ _ => none
  | .retrainComplete _ _ => none
  | .domainJoin _ _ => none
  | .cxlDeviceDiscovered _ _ _ => none
  | .inboundRdmaWrite _ _ _ => none
  | .inboundRdmaRead _ _ _ => none
  | .notifyWrite _ _ _ => none
  | .openContext _ => none
  | .closeContext _ => none
  | .closeGraceExpiry _ => none
  | .setRegion _ => none
  | .map _ => none
  | .unmap _ => none
  | .expose _ => none
  | .createQueue _ => none
  | .destroyQueue _ => none
  | .resumeQueue _ => none
  | .attachDebug _ => none
  | .debugStop _ => none
  | .debugRelease _ => none
  | .debugStep _ => none
  | .debugRead _ => none
  | .debugWrite _ => none
  | .armSnap _ => none
  | .readSnap _ => none
  | .detachDebug _ => none
  | .readHallmark _ => none
  | .requestIngot _ _ => none
  | .ingotSeal _ => none
  | .registerNotify _ => none
  | .serviceRequestUnknown _ _ => none
  | .packetFetch _ => none
  | .slotReread _ => none
  | .packetAcquire _ _ => none
  | .launchSettle _ _ => none
  | .nopPacket _ _ => none
  | .signalSet _ _ => none
  | .signalAdd _ _ => none
  | .signalSub _ _ => none
  | .waitPacket _ _ => none
  | .waitPacketMet _ _ => none
  | .waitTimeout _ _ => none
  | .copyPacket _ _ => none
  | .copyPacketDone _ _ => none
  | .nodeDefine _ _ => none
  | .nodeArm _ _ => none
  | .nodeDisarm _ _ => none
  | .nodeDisarmDrained _ _ => none
  | .flushTimer _ => none
  | .launchDrained _ => none
  | .packetConfirmed _ _ => none
  | .crewPlace _ _ => none
  | .crewLoaded _ => none
  | .migrationTrigger _ _ => none
  | .imageSealed _ => none
  | .crewRestore _ _ => none
  | .outstandingAck _ _ _ => none
  | .barrierTreeRelease _ => none
  | .exchangeCopyStart _ => none
  | .phaseEpoch _ => none
  | .clauseIssue _ _ => none
  | .promiseMissed _ _ => none
  | .loadComplete _ => none
  | .storePerformed _ => none
  | .windowFillComplete _ _ => none
  | .migratingTimeout _ => none
  | .remoteAccess _ => none
  | .remoteUnreachable _ => none
  | .shootComplete _ => none
  | .waitConditionMet _ => none
  | .sleepExpiry _ => none
  | .queueUnblock _ => none
  | .queueStarvedTimeout _ => none
  | .cupelOperationStart _ => none
  | .cupelComplete _ => none
  | .copyOperationStart _ => none
  | .copyComplete _ => none
  | .reduceUnitArrival _ => none
  | .touchstoneEpochEnd _ => none
  | .assayStart _ => none
  | .assayResult _ _ => none
  | .snapTrigger _ => none
  | .snapshotTimeout => none
  | .migratingLeafCleared _ => none
  | .uncorrectableError _ => none
  | .trailingCopyPlace _ _ => none


/-- The modifier fields in force (R227). -/
def Parts.md (p : Parts) : Mod := p.m.getD Mod.zero

/-- The fourth operand field: C of the modifier word, or the D field when M = 0 (R227). -/
def Parts.c (p : Parts) : BitVec 7 := match p.m with | none => p.d | some m => m.c

def Parts.td (p : Parts) : Nat := p.md.td.toNat
def Parts.ts (p : Parts) : Nat := p.md.ts.toNat
def Parts.fx (p : Parts) : Nat := p.md.fx.toNat
def Parts.sat (p : Parts) : Bool := p.md.sat
/-- S of an RRS instruction. -/
def Parts.s (p : Parts) : Nat := p.b.toNat

/-- The register classes an operand field can name (R224). `none` marks a barrier or special number. -/
inductive Cls where
  | v | d | n | s | m | w | q | wl | bar | bp
  deriving DecidableEq, Repr

/-- The place of an operand field. -/
inductive Pos where
  | d | a | b | c
  deriving DecidableEq, Repr

/-- One register operand: where its field stands, its class, how many consecutive registers it names, the
multiple its first must be, whether the instruction writes it, and whether a latch code may stand for it. -/
structure Opnd where
  pos : Pos
  cls : Cls
  len : Nat := 1
  algn : Nat := 1
  dst : Bool := false
  latch : Bool := true
  /-- a destination whose old value the instruction reads as well -/
  rd : Bool := false
  /-- the register that the instruction uses although no field names it -/
  fixed : Option Nat := none
  deriving DecidableEq, Repr

/-- How an instruction takes RMODE (R227): not at all, .RN to .RD, or .RN to .SR. -/
inductive RmUse where
  | no | toRd | toSr
  deriving DecidableEq, Repr

/-- How an instruction takes its types: `no` for opcodes 0xF0 to 0xFC (R228), or whether TD and TS as given
are accepted. -/
inductive TyUse where
  | no
  | ok (b : Bool)
  deriving DecidableEq, Repr

/-- What an instruction, in the form its fields select, uses and accepts (R230). -/
structure Rule where
  /-- S, FX and C3 hold assigned values -/
  sub : Bool := true
  rm : RmUse := .no
  scope : Bool := false
  ty : TyUse
  ops : List Opnd := []
  /-- the B position holds a sub-opcode or an immediate -/
  useS : Bool := false
  /-- the immediate or offset field is used -/
  useImm : Bool := false
  useC3 : Bool := false
  useWin : Bool := false
  useD : Bool := false
  useA : Bool := false
  fx : Bool := false
  pe : Bool := false
  sat : Bool := false
  w : Bool := false
  lit : Bool := false
  deriving DecidableEq, Repr

/-- A source of one register of class `k` at `pos`. -/
def src (pos : Pos) (k : Cls) : Opnd := { pos := pos, cls := k }
/-- A destination of one register. -/
def dst (pos : Pos) (k : Cls) : Opnd := { pos := pos, cls := k, dst := true, latch := false }
/-- A source of `n` registers whose first is a multiple of `a`; no latch code stands for it (R224). -/
def srcs (pos : Pos) (k : Cls) (n a : Nat) : Opnd := { pos := pos, cls := k, len := n, algn := a, latch := n == 1 }
/-- A destination of `n` registers whose first is a multiple of `a`. -/
def dsts (pos : Pos) (k : Cls) (n a : Nat) : Opnd :=
  { pos := pos, cls := k, len := n, algn := a, dst := true, latch := false }

/-- A destination that is a source too: a comparand, a kept slot, a counter, a state (R273, R275, R282, R303, R318). -/
def Opnd.both (o : Opnd) : Opnd := { o with rd := true }

/-- TD of 0 or .B32 with TS 0: an instruction whose only type is the default one (R228). -/
def Parts.tyDefault (p : Parts) : TyUse := .ok ((p.td == 0 || p.td == 18) && p.ts == 0)
/-- TD among the codes listed, TS 0. -/
def Parts.tyIn (p : Parts) (l : List Nat) : TyUse := .ok (l.contains p.td && p.ts == 0)
/-- The "any" and "signed" types of R256; with .SAT the signedness comes from TD. -/
def Parts.tyAny (p : Parts) : TyUse := p.tyIn [0, 5, 6, 18]
def Parts.tySigned (p : Parts) : TyUse := p.tyIn [0, 5, 6]
def Parts.tyAdd (p : Parts) : TyUse := if p.sat then p.tySigned else p.tyAny

/-- The registers that a floating type takes per operand: a pair for .F64 (R264). -/
def Parts.fw (p : Parts) : Nat := if p.td == 9 then 2 else 1

/-- The 64-bit type codes .S64, .U64 and .F64. -/
def wide (t : Nat) : Bool := t == 7 || t == 8 || t == 9

/-- B as a source, unless the literal replaces it (R226). -/
def Parts.bsrc (p : Parts) (o : Opnd) : List Opnd := if p.lit.isSome then [] else [o]

/-- A scalar or vector arithmetic form of class `k`: D, A, then B and C as named (R256, R265). -/
def arith (k : Cls) (p : Parts) (ty : TyUse) (sat useB useC : Bool) : Rule :=
  { ty := ty, sat := sat, w := true, lit := useB, pe := k == .v,
    ops := [dst .d k, src .a k] ++ (if useB then p.bsrc (src .b k) else []) ++ (if useC then [src .c k] else []) }

/-- A vector floating form of R269 and R271. -/
def floatOp (p : Parts) (tys : List Nat) (useB useC round : Bool) : Rule :=
  let n := p.fw
  { ty := p.tyIn tys, sat := round, rm := if round then .toRd else .no, w := true, pe := true,
    lit := useB && n == 1,
    ops := [dsts .d .v n n, srcs .a .v n n] ++ (if useB then p.bsrc (srcs .b .v n n) else []) ++
      (if useC then [srcs .c .v n n] else []) }

/-- A special function (R271). -/
def special (p : Parts) (tys : List Nat) : Rule := floatOp p tys false false true

/-- A direction form of R285; an FX value that its row does not list raises SUBOP. -/
def dirOp (p : Parts) (d a b : Option Cls) : Rule :=
  { ty := p.tyIn [0], fx := true, sub := p.fx == 0, pe := true,
    ops := (d.map (dst .d ·)).toList ++ (a.map (src .a ·)).toList ++ (b.map (src .b ·)).toList }

/-- The register width a load or store of the form moves: 4 for .Q, 2 for a 64-bit type, else 1 (R309, R310). -/
def Parts.memLen (p : Parts) : Nat := if p.fx == 2 then 4 else if wide p.td then 2 else 1

/-- The types a load or store accepts (R310); .Q takes TD 0 alone (R309). -/
def Parts.tyMem (p : Parts) : TyUse :=
  if p.fx == 2 then p.tyIn [0] else p.tyIn [0, 1, 2, 3, 4, 5, 6, 7, 8, 9, 10, 18]

/-- The address operand of an MW form: a vector offset, or in a chaser the pointer pair (R87). -/
def mwAddr (ch : Bool) : Opnd := if ch then srcs .a .s 2 2 else src .a .v
/-- The data class of a memory form: v, or s in a chaser (R87). -/
def memCls (ch : Bool) : Cls := if ch then .s else .v

/-- A load or store in format MW (R308). -/
def mwMem (ch : Bool) (p : Parts) (load : Bool) : Rule :=
  let n := p.memLen
  { ty := p.tyMem, sub := p.fx ≤ 2, fx := true, pe := true, sat := !load, w := load, lit := true,
    useImm := true, useWin := true,
    ops := [if load then dsts .d (memCls ch) n n else srcs .d (memCls ch) n n, mwAddr ch] }

/-- LDG or STG (R308). -/
def ptrMem (ch : Bool) (p : Parts) (load : Bool) : Rule :=
  let n := p.memLen
  { ty := p.tyMem, sub := p.fx == 0 || p.fx == 2, fx := true, pe := true, sat := !load, w := load, lit := true,
    ops := [if load then dsts .d (memCls ch) n n else srcs .d (memCls ch) n n,
      if ch then srcs .a .s 2 2 else srcs .a .v 2 2] ++ p.bsrc (src .b .s) }

/-- The integer types of an atomic's operation FX (R317). -/
def atomTypes (fx : Nat) : List Nat :=
  if fx == 0 then [0, 18, 5, 6, 7, 8, 10, 14]
  else if fx == 4 || fx == 5 then [0, 5, 6, 7, 8]
  else [0, 18, 5, 6, 7, 8]

/-- The plane-atomic operation that an LDP form performs, as ATOM codes it (R321). -/
def ldpAtomOp (fx : Nat) : Nat :=
  if fx == 1 then 0 else if fx == 3 then 4 else if fx == 4 then 5 else if fx == 5 then 6 else 2

/-- LDP and its atomic forms (R308, R309, R321). -/
def ldpRule (p : Parts) : Rule :=
  let addr := [src .a .s] ++ p.bsrc (src .b .v)
  if p.fx == 0 || p.fx == 2 then
    { ty := p.tyMem, fx := true, pe := true, w := true, lit := true,
      ops := [dsts .d .v p.memLen p.memLen] ++ addr }
  else if p.fx == 7 then
    let n := if wide p.td then 2 else 1
    { ty := p.tyIn [0, 18, 5, 6, 7, 8], fx := true, pe := true, w := true, lit := true,
      ops := [(dsts .d .v n n).both] ++ addr ++ [srcs .c .v n n] }
  else
    let n := if wide p.td then 2 else 1
    { ty := p.tyIn (atomTypes (ldpAtomOp p.fx)), fx := true, pe := true, w := true, lit := true,
      ops := [dsts .d .v n n] ++ addr ++ [srcs .c .v n n] }

/-- CAS of `n` registers (R318); in a chaser D names an even pair for every CAS (R87). -/
def casRule (ch : Bool) (_ : Parts) (ty : TyUse) (n : Nat) : Rule :=
  { ty := ty, pe := true, w := true, lit := true, useImm := true, useWin := true,
    ops := [(dsts .d (memCls ch) (if ch then 2 else n) (if ch then 2 else n)).both, mwAddr ch, srcs .c (memCls ch) n n] }

/-- A range instruction of R316. -/
def rangeRule (p : Parts) (all : Bool) : Rule :=
  if all then { ty := p.tyDefault, fx := true }
  else { ty := p.tyDefault, lit := true, ops := [srcs .a .s 2 2] ++ p.bsrc (src .b .s) }

/-- An engine instruction whose block at A has `n` registers (R329). -/
def engineRule (p : Parts) (n : Nat) : Rule :=
  { ty := p.tyDefault, ops := [dsts .d .s 4 4, srcs .a .s n 1] }

/-- Whether a special-register number is assigned (R73, R160). -/
def specialAssigned (n : Nat) : Bool := n ≤ 0x19 || (0x20 ≤ n && n ≤ 0x3A)

/-- Whether a special register is per lane (R73, R160). -/
def specialPerLane (n : Nat) : Bool := n ≤ 2 || (0x23 ≤ n && n ≤ 0x25) || n == 0x3A

/-- The element types a conversion accepts (R272). -/
def cvtTypes : List Nat := [1, 2, 3, 4, 5, 6, 7, 8, 9, 10, 11, 12, 15, 16, 17]

/-- The greatest slot of a packed type: CVTN's and CVTW's FX limit (R273). -/
def cvtnSlots (t : Nat) : Option Nat :=
  if [11, 12, 3, 4].contains t then some 0 else if [15, 16, 1, 2].contains t then some 1
  else if t == 17 then some 3 else none
def cvtwSlots (t : Nat) : Option Nat :=
  if [11, 12, 3, 4].contains t then some 1 else if [15, 16, 1, 2].contains t then some 3
  else if t == 17 then some 7 else none

/-- The types an operation of VRED, VSCAN or TRED accepts (R279). -/
def redTypes (fx : Nat) : List Nat :=
  if fx == 0 then [0, 18, 5, 6, 10] else if fx ≤ 2 then [0, 5, 6, 10] else [0, 18]

/-- VRED, VSCAN and TRED (R279). -/
def redRule (p : Parts) (k : Cls) : Rule :=
  { ty := p.tyIn (redTypes p.fx), sub := p.fx ≤ 5, fx := true, pe := true, w := true,
    ops := [dst .d k, src .a .v] }

/-- A shuffle (R277). -/
def shuffle (p : Parts) (maxFx : Nat) : Rule :=
  { ty := p.tyDefault, sub := p.fx ≤ maxFx, fx := true, pe := true, w := true, lit := true,
    ops := [dst .d .v, src .a .v] ++ p.bsrc (src .b .v) }

/-- A mask instruction in RRR with the operands listed (R253 to R255). -/
def maskRule (p : Parts) (ops : List Opnd) (w : Bool := false) : Rule :=
  { ty := p.tyDefault, w := w, ops := ops }

/-- A crew-barrier instruction (R327). -/
def barRule (p : Parts) : Rule :=
  { ty := p.tyDefault, w := true, ops := [dst .d .s, { pos := .a, cls := .bar, latch := false }] }

/-- An instruction of opcodes 0xF0 to 0xFC (R349): no type at all. -/
def sysRule (ops : List Opnd) : Rule := { ty := .no, ops := ops }

/-- What each instruction uses and accepts, in the form its fields select; `ch` says that a chaser issues it
(R87). An event of the part uses nothing. -/
def ruleOf (ch : Bool) (i : Instr) (p : Parts) : Rule :=
  match i with
  -- control (R239 to R250)
  | .bra _ | .call _ => { ty := p.tyDefault, useImm := true, lit := true }
  | .brc _ => { ty := p.tyDefault, useImm := true, lit := true, useC3 := true, sub := p.c3.toNat ≤ 5, ops := [src .a .s] }
  | .brm _ => { ty := p.tyDefault, useImm := true, lit := true, useC3 := true, useA := true, pe := true }
  | .join _ | .ret _ | .yield _ | .nop _ | .repack _ | .chstop _ => { ty := p.tyDefault }
  | .exit _ => { ty := p.tyDefault, pe := true }
  | .jmpi _ => { ty := p.tyDefault, fx := true, sub := p.fx ≤ 1, ops := [srcs .a .s 2 2] }
  | .loop _ => { ty := p.tyDefault, useImm := true, lit := true, useC3 := true, w := true,
                 ops := [{ pos := .a, cls := .s, latch := false }] }
  | .sleep _ =>
    if p.fx == 1 then { ty := p.tyDefault, fx := true, ops := [srcs .d .s 2 2] }
    else { ty := p.tyDefault, fx := true, sub := p.fx ≤ 1, useImm := true, lit := true }
  | .wait _ => { ty := p.tyDefault, useS := true, sub := p.s ≤ 3, ops := [srcs .a .s 2 2, srcs .d .s 2 2] }
  | .part _ => { ty := p.tyDefault, useImm := true, lit := true }
  | .setix _ => { ty := p.tyDefault, fx := true, sub := p.fx ≤ 1, useImm := true, useD := true, lit := true }
  | .srd _ =>
    if specialPerLane p.s then { ty := p.tyDefault, useS := true, pe := true, w := true, ops := [dst .d .v] }
    else { ty := p.tyDefault, useS := true, w := true, ops := [dst .d .s] }
  | .swr _ => { ty := p.tyDefault, useS := true, ops := [src .a .s] }
  -- masks (R252 to R255)
  | .mset _ =>
    { ty := p.tyDefault, useS := true, sub := p.s ≤ 5,
      ops := [dst .d .m] ++ (if p.s == 3 then [src .a .s] else []) }
  | .mand _ | .mor _ | .mxor _ => maskRule p [dst .d .m, src .a .m, src .b .m]
  | .mnot _ | .mmov _ => maskRule p [dst .d .m, src .a .m]
  | .mpop _ => { maskRule p [dst .d .s, src .a .m] true with fx := true, sub := p.fx ≤ 1 }
  | .mfind _ => { maskRule p ([dst .d .s, src .a .m] ++ p.bsrc (src .b .s)) true with lit := true }
  | .many _ | .mall _ => maskRule p [dst .d .s, src .a .m] true
  | .mexec _ => { maskRule p [src .a .m] with fx := true, sub := p.fx ≤ 2 }
  -- scalar integer (R256 to R261)
  | .smov _ => arith .s p p.tyAny false false false
  | .sclz _ | .spopc _ => arith .s p p.tyAny false false false
  | .smovi _ =>
    let n := if p.td == 7 || p.td == 8 then 2 else 1
    { ty := p.tyIn [0, 5, 6, 18, 7, 8], w := true, useImm := true, lit := true, ops := [dsts .d .s n n] }
  | .sadd _ | .ssub _ | .smul _ => arith .s p p.tyAdd true true false
  | .smad _ => arith .s p p.tyAdd true true true
  | .smulh _ | .sdiv _ | .srem _ | .smin _ | .smax _ => arith .s p p.tySigned false true false
  | .sand _ | .sor _ | .sxor _ | .sshl _ | .sshr _ | .ssar _ => arith .s p p.tyAny false true false
  | .scmp _ => { arith .s p p.tySigned false true false with fx := true, sub := p.fx ≤ 5 }
  | .ssel _ | .sbfi _ => arith .s p p.tyAny false true true
  | .sbfe _ => arith .s p p.tySigned false true false
  | .sadd64 _ =>
    { ty := p.tyIn [0, 7, 8], fx := true, sub := p.fx ≤ 2, w := true, lit := true,
      ops := [dsts .d .s 2 2, srcs .a .s 2 2] ++
        p.bsrc (if p.fx == 0 then srcs .b .s 2 2 else src .b .s) }
  -- queues (R262)
  | .qpush _ =>
    let k := if p.s ≤ 1 then Cls.s else .v
    let n := if p.s % 2 == 1 then 2 else 1
    { ty := p.tyDefault, useS := true, sub := p.s ≤ 3, pe := 2 ≤ p.s,
      ops := [{ pos := .d, cls := .q, latch := false }, srcs .a k n n] }
  | .qpop _ =>
    let k := if p.s ≤ 1 then Cls.s else .v
    let n := if p.s % 2 == 1 then 2 else 1
    { ty := p.tyDefault, useS := true, sub := p.s ≤ 3, pe := 2 ≤ p.s, w := true,
      ops := [dsts .d k n n, { pos := .a, cls := .q, latch := false }] }
  -- vector integer (R265 to R268)
  | .vadd _ | .vsub _ | .vmul _ => arith .v p p.tyAdd true true false
  | .vmad _ => arith .v p p.tyAdd true true true
  | .vmulh _ | .vmin _ | .vmax _ | .vbfe _ => arith .v p p.tySigned false true false
  | .vand _ | .vor _ | .vxor _ | .vshl _ | .vshr _ | .vsar _ => arith .v p p.tyAny false true false
  | .vnot _ | .vclz _ | .vpopc _ => arith .v p p.tyAny false false false
  | .vabs _ => arith .v p p.tySigned true false false
  | .vcmp _ =>
    { ty := p.tySigned, fx := true, sub := p.fx ≤ 5, pe := true, lit := true,
      ops := [dst .d .m, src .a .v] ++ p.bsrc (src .b .v) }
  | .vsel _ | .vbfi _ => arith .v p p.tyAny false true true
  | .vperm _ => { arith .v p p.tyDefault false true true with fx := true, sub := p.fx ≤ 2 }
  | .vdot4 _ => { arith .v p (p.tyIn [0, 5]) true true true with fx := true, sub := p.fx ≤ 3 }
  -- vector floating point (R269 to R271)
  | .fadd _ | .fsub _ | .fmul _ => floatOp p [0, 10, 13, 14, 9] true false true
  | .fma _ | .fnma _ => floatOp p [0, 10, 13, 14, 9] true true true
  | .fmin _ | .fmax _ => floatOp p [0, 10, 13, 14, 9] true false false
  | .fneg _ | .fabs _ => floatOp p [0, 10, 13, 14, 9] false false false
  | .fcmp _ =>
    { ty := p.tyIn [0, 10, 9], fx := true, pe := true, lit := p.fw == 1,
      ops := [dst .d .m, srcs .a .v p.fw p.fw] ++ p.bsrc (srcs .b .v p.fw p.fw) }
  | .fclass _ =>
    { ty := p.tyIn [0, 10, 13, 14, 9], pe := true, w := true, ops := [dst .d .v, srcs .a .v p.fw p.fw] }
  | .fscale _ =>
    { ty := p.tyIn [0, 10, 13, 14, 9], sat := true, rm := .toRd, w := true, pe := true, lit := p.fw == 1,
      ops := [dsts .d .v p.fw p.fw, srcs .a .v p.fw p.fw] ++ p.bsrc (src .b .v) }
  | .fsqrt _ => special p [0, 10, 13, 14, 9]
  | .frcp _ | .frsq _ | .fexp2 _ | .flog2 _ | .fsin _ | .fcos _ | .ftanh _ => special p [0, 10, 13, 14]
  -- conversions (R272 to R275)
  | .cvt _ =>
    let sr := p.md.rmode.toNat == 4
    let nd := if wide p.td then 2 else 1
    let na := if wide p.ts then 2 else 1
    { ty := .ok (cvtTypes.contains p.td && cvtTypes.contains p.ts), rm := .toSr, sat := true, pe := true, w := true,
      ops := [dsts .d .v nd nd, srcs .a .v na na] ++ (if sr then [srcs .b .s 2 2, (dst .c .v).both] else []) }
  | .cvtn _ =>
    { ty := .ok ((cvtnSlots p.td).isSome && [10, 5, 6].contains p.ts), rm := .toRd, sat := true, pe := true,
      fx := true, sub := p.fx ≤ (cvtnSlots p.td).getD 3, w := true, lit := true,
      ops := [(dst .d .v).both, src .a .v] ++ p.bsrc (src .b .v) }
  | .cvtw _ =>
    { ty := .ok ([10, 5, 6].contains p.td && (cvtwSlots p.ts).isSome), rm := .toRd, sat := true, pe := true,
      fx := true, sub := p.fx ≤ (cvtwSlots p.ts).getD 7, w := true, ops := [dst .d .v, src .a .v] }
  | .qnt _ =>
    { ty := .ok (p.ts == 10 && (if p.fx == 2 then p.td == 1 else [15, 16, 17].contains p.td)), sat := true,
      fx := true, sub := p.fx ≤ 2, pe := true, w := true, ops := [dst .d .v, src .a .v, dst .c .v] }
  | .dqnt _ =>
    { ty := .ok (p.td == 10 && (if p.fx == 1 then p.ts == 1 else [15, 16, 17].contains p.ts)),
      fx := true, sub := p.fx ≤ 1, pe := true, w := true, lit := true,
      ops := [dst .d .v, src .a .v] ++ p.bsrc (src .b .v) }
  -- cross-lane (R276 to R282)
  | .shfl _ => shuffle p 1
  | .shflu _ | .shfld _ | .shflx _ => shuffle p 0
  | .vote _ =>
    { ty := p.tyDefault, useS := true, sub := p.s ≤ 2, pe := true, ops := [dst .d .m, src .a .m] }
  | .ballot _ =>
    { ty := p.tyDefault, useS := true, sub := p.s ≤ 1, pe := true, w := true, ops := [dst .d .v, src .a .m] }
  | .vred _ | .vscan _ => redRule p .v
  | .tred _ => redRule p .s
  | .bcast _ =>
    { ty := p.tyDefault, pe := true, w := true, lit := true,
      ops := [dst .d .v, src .a .v] ++ p.bsrc (src .b .s) }
  | .compact _ => { ty := p.tyDefault, pe := true, w := true, ops := [dst .d .v, src .a .v] }
  | .vrand _ =>
    { ty := p.tyDefault, fx := true, sub := p.fx ≤ 1, pe := true, w := true,
      ops := [dst .d .v, srcs .a .s 2 2, (dst .c .v).both] }
  -- directions (R284 to R292)
  | .dcvt _ =>
    let packed := p.ts == 13 || p.ts == 14
    { ty := .ok (p.td == 0 && [0, 10, 13, 14].contains p.ts), fx := true, sub := p.fx == 0, pe := true,
      ops := [dst .d .d, src .a .v] ++ (if packed then [] else [src .b .v]) }
  | .dexp _ =>
    { ty := p.tyIn (if p.fx == 0 then [0, 10, 13, 14] else [0, 10]), fx := true, sub := p.fx ≤ 1, rm := .toRd,
      sat := true, pe := true, w := true, ops := [dst .d .v, src .a .d] }
  | .ddot _ =>
    { ty := p.tyIn [0, 10], fx := true, sub := p.fx == 0, rm := .toRd, pe := true, w := true, ops := [dst .d .v, src .a .d, src .b .d] }
  | .ddotf _ =>
    { ty := p.tyIn [0, 10], fx := true, sub := p.fx == 0, rm := .toRd, sat := true, pe := true, w := true,
      ops := [dst .d .v, src .a .d, src .b .d] }
  | .dscal _ =>
    { ty := p.tyIn [0], fx := true, sub := p.fx ≤ 1, pe := true, lit := true,
      ops := [dst .d .d, src .a .d] ++ p.bsrc (src .b .s) }
  | .dadd _ | .dsub _ => dirOp p (some .d) (some .d) (some .d)
  | .dmix _ =>
    { ty := p.tyIn [0], fx := true, sub := p.fx == 0, pe := true,
      ops := [dst .d .d, src .a .d, src .b .d] ++ (if p.m.isSome then [src .c .s] else []) }
  | .dneg _ | .dmov _ => dirOp p (some .d) (some .d) none
  | .dnrd _ => { dirOp p (some .v) (some .n) none with fx := true, sub := p.fx ≤ 2, w := true }
  | .dnwr _ => { dirOp p (some .n) (some .v) none with fx := true, sub := p.fx ≤ 1 }
  | .dzero _ => dirOp p (some .d) none none
  | .dspan _ => { ty := p.tyIn [0], useImm := true, lit := true }
  | .dld _ =>
    { ty := p.tyIn [0], pe := true, lit := true, useImm := true, useWin := true, ops := [dst .d .d, src .a .v] }
  | .dst _ =>
    { ty := p.tyIn [0], pe := true, lit := true, useImm := true, useWin := true, ops := [src .d .d, src .a .v] }
  -- selection (R293 to R305)
  | .wlalloc _ | .wlfree _ | .wlclr _ =>
    { ty := p.tyDefault, fx := true, sub := p.fx == 0, ops := [{ pos := .d, cls := .wl, latch := false }] }
  | .wlins _ =>
    { ty := p.tyDefault, fx := true, sub := p.fx == 0, pe := true,
      ops := [{ pos := .d, cls := .wl, latch := false }, src .a .v, src .b .v] ++
        (if p.m.isSome then [src .c .s] else []) }
  | .vtopk _ | .pksi _ =>
    { ty := p.tyDefault, fx := true, sub := p.fx == 0, pe := true, ops := [dsts .d .v 2 2, src .a .v, src .b .v] }
  | .wlmerge _ | .wlst _ | .wlld _ =>
    { ty := p.tyDefault, fx := true, sub := p.fx == 0, ops := [{ pos := .d, cls := .wl, latch := false }, srcs .a .s 2 2] }
  | .wlrd _ =>
    { ty := p.tyDefault, fx := true, sub := p.fx ≤ 2, pe := true, w := true, lit := true,
      ops := [dst .d .v, { pos := .a, cls := .wl, latch := false }] ++ p.bsrc (src .b .v) }
  | .ssect _ =>
    { ty := p.tyDefault, fx := true, sub := p.fx == 0, pe := true, w := true, ops := [dst .d .v, src .a .v, src .b .v] }
  | .unpksi _ =>
    { ty := p.tyDefault, fx := true, sub := p.fx ≤ 1, pe := true, w := true, ops := [dst .d .v, srcs .a .v 2 2] }
  | .gwnorm _ =>
    { ty := p.tyDefault, fx := true, sub := p.fx == 0, pe := true, w := true, ops := [dst .d .v, src .a .v, dst .b .m] }
  | .smxacc _ =>
    { ty := p.tyDefault, fx := true, sub := p.fx == 0, pe := true,
      ops := [(dsts .d .v 5 1).both, src .a .v] ++ (if p.m.isSome then [dst .c .v] else []) }
  | .smxfin _ =>
    { ty := p.tyDefault, fx := true, sub := p.fx ≤ 1, pe := true, w := true, ops := [dst .d .v, srcs .a .v 5 1] }
  -- memory (R308 to R328)
  | .ld _ => mwMem ch p true
  | .st _ => mwMem ch p false
  | .ldg _ => ptrMem ch p true
  | .stg _ => ptrMem ch p false
  | .ldp _ => ldpRule p
  | .stp _ =>
    { ty := p.tyMem, fx := true, sub := p.fx == 0 || p.fx == 2, pe := true, sat := true, lit := true,
      ops := [srcs .d .v p.memLen p.memLen, src .a .s] ++ p.bsrc (src .b .v) }
  | .kvld _ =>
    { ty := p.tyIn [0], pe := true, w := true, ops := [dsts .d .v 2 2, srcs .a .s 2 2, srcs .b .v 4 1] }
  | .wmap _ => { ty := p.tyDefault, ops := [{ pos := .d, cls := .w, dst := true, latch := false }, srcs .a .s 2 2] }
  | .winv _ => { ty := p.tyDefault, ops := [{ pos := .d, cls := .w, dst := true, latch := false }] }
  | .pref _ =>
    { ty := p.tyDefault, fx := true, sub := p.fx ≤ 1, pe := true, lit := true, useImm := true, useWin := true,
      ops := [mwAddr ch] }
  | .cwb _ => { rangeRule p (p.fx == 1) with fx := true, sub := p.fx ≤ 1 }
  | .cinv _ => { rangeRule p false with fx := true, sub := p.fx ≤ 1, scope := p.fx == 1 }
  | .ipref _ | .iunpin _ => { rangeRule p false with fx := true, sub := p.fx == 0 }
  | .ipin _ =>
    { ty := p.tyDefault, fx := true, sub := p.fx == 0, lit := true, w := true,
      ops := [dst .d .s, srcs .a .s 2 2] ++ p.bsrc (src .b .s) }
  | .atom _ =>
    let n := if wide p.td then 2 else 1
    { ty := p.tyIn (atomTypes p.fx), fx := true, sub := p.fx ≤ 6, pe := true, w := true, lit := true,
      useImm := true, useWin := true,
      ops := [dsts .d (memCls ch) n n, mwAddr ch, srcs .c (memCls ch) n n] }
  | .cas _ => casRule ch p (p.tyIn [0, 18, 5, 6, 7, 8]) (if wide p.td then 2 else 1)
  | .cas128 _ => casRule ch p (p.tyIn [0]) 4
  | .acq _ => { ty := p.tyIn [0, 7, 8], scope := true, w := true, ops := [dsts .d .s 2 2, srcs .a .s 2 2] }
  | .rel _ =>
    { ty := p.tyIn [0, 7, 8], scope := true, lit := true, ops := [srcs .a .s 2 2] ++ p.bsrc (srcs .b .s 2 2) }
  | .bind _ =>
    { ty := p.tyDefault, w := true,
      ops := [dst .d .s, srcs .a .s 2 2, srcs .b .s 2 2] ++ (if p.m.isSome then [srcs .c .s 2 2] else []) }
  | .unbind _ => { ty := p.tyDefault, useS := true }
  | .fence _ | .fencePt _ => { ty := p.tyDefault, fx := true, sub := p.fx == 0, scope := true }
  | .shoot _ => { ty := p.tyDefault, scope := true, lit := true, ops := [srcs .a .s 2 2] ++ p.bsrc (src .b .s) }
  | .bar _ | .bara _ | .barw _ => barRule p
  | .gbar _ => { ty := p.tyDefault, ops := [dst .c .s] }
  -- engines (R329 to R348)
  | .qcfg _ =>
    { ty := p.tyDefault, useS := true, sub := p.s ≤ 7, ops := [{ pos := .d, cls := .q, latch := false }] }
  | .qstat _ => { ty := p.tyDefault, w := true, ops := [dst .d .s, { pos := .a, cls := .q, latch := false }] }
  | .xcopy _ => { engineRule p 6 with lit := true, ops := [dsts .d .s 4 4, srcs .a .s 6 1] ++ p.bsrc (src .b .s) }
  | .xred _ =>
    { ty := p.tyIn [0, 5, 6, 10, 12], fx := true, sub := p.fx == 0 || p.fx == 4 || p.fx == 5, lit := true,
      ops := [dsts .d .s 4 4, srcs .a .s 7 1] ++ p.bsrc (src .b .s) }
  | .wbload _ => engineRule p 6
  | .mloop _ => engineRule p 5
  | .ctopk _ =>
    { ty := p.tyDefault, ops := [dsts .d .s 4 4, srcs .a .s 11 1, { pos := .b, cls := .wl, latch := false }] }
  | .cbin _ => { engineRule p 5 with fx := true, sub := p.fx ≤ 1 }
  | .cepi _ =>
    { ty := if p.fx == 0 then p.tyIn [10, 5, 6] else p.tyIn [0], fx := true, sub := p.fx ≤ 1, sat := true,
      ops := [dsts .d .s 4 4, srcs .a .s 2 1] ++ (if p.fx == 0 then [dst .b .v] else []) }
  | .cstat _ => { ty := p.tyDefault, useS := true, sub := p.s ≤ 2, w := true, ops := [dst .d .s] }
  | .spawn _ => { ty := p.tyDefault, pe := true, ops := [srcs .a .s 2 2, { pos := .b, cls := .v, latch := false }] }
  | .nodefl _ => { ty := p.tyDefault, ops := [srcs .a .s 2 2] }
  | .chgo _ =>
    if p.fx == 0 then { ty := p.tyDefault, fx := true, ops := [srcs .a .s 2 2] }
    else { ty := p.tyDefault, fx := true, sub := p.fx ≤ 1 }
  | .phase _ => { ty := p.tyDefault, w := true, ops := [dst .d .s] }
  -- system (R349 to R356)
  | .trap _ => { sysRule [] with useS := true }
  | .tret _ | .snap _ | .tsbegin _ | .tsend _ | .halt _ => sysRule []
  | .trld _ => { sysRule ([dsts .d .s 2 2, src .a .s] ++ p.bsrc (src .b .s)) with lit := true }
  | .trst _ => { sysRule ([srcs .d .s 2 2, src .a .s] ++ p.bsrc (src .b .s)) with lit := true }
  | .bpset _ =>
    let bp : Opnd := { pos := .d, cls := .bp, latch := false }
    if p.fx == 1 then { sysRule [bp] with fx := true }
    else { sysRule [bp, srcs .a .s 2 2, src .b .m] with fx := true, sub := p.fx == 0 }
  | .wpset _ =>
    let wp : Opnd := { pos := .d, cls := .bp, latch := false }
    if p.fx == 0 then { sysRule [wp] with fx := true }
    else { sysRule ([wp, srcs .a .s 2 2, src .b .m] ++ (if p.m.isSome then [src .c .s] else [])) with fx := true }
  | .step _ => { sysRule [] with useS := true, sub := p.s ≤ 1 }
  | .finj _ =>
    let k := if p.fx == 0 then Cls.v else if p.fx == 1 then .s else if p.fx == 2 then .m else .n
    { sysRule ([dst .d k, src .a .s] ++ p.bsrc (src .b .s)) with fx := true, sub := p.fx ≤ 3, lit := true }
  | .tbrd _ =>
    if p.fx == 0 then { sysRule [dsts .d .s 2 2] with fx := true }
    else { sysRule [dsts .d .s 2 2, srcs .a .s 1 4] with fx := true, sub := p.fx ≤ 1 }
  -- the events of the part carry no instruction word
  | .powerGood
  | .dieTrained _
  | .fullServiceDeadline
  | .powerOn
  | .powerOff
  | .sensors _ _ _
  | .status
  | .selectSlot _
  | .hold
  | .snapPin
  | .boardCommandUnknown _
  | .tokenTurn _ _
  | .tokenLoss _
  | .tokenRebuild
  | .fillRateStep _
  | .throttleLimit _ _
  | .energySample
  | .energyDivide _ _
  | .replan _ _ _ _
  | .flitReceive _ _
  | .replayRequest _ _
  | .retrainComplete _ _
  | .domainJoin _ _
  | .cxlDeviceDiscovered _ _ _
  | .inboundRdmaWrite _ _ _
  | .inboundRdmaRead _ _ _
  | .notifyWrite _ _ _
  | .openContext _
  | .closeContext _
  | .closeGraceExpiry _
  | .setRegion _
  | .map _
  | .unmap _
  | .expose _
  | .createQueue _
  | .destroyQueue _
  | .resumeQueue _
  | .attachDebug _
  | .debugStop _
  | .debugRelease _
  | .debugStep _
  | .debugRead _
  | .debugWrite _
  | .armSnap _
  | .readSnap _
  | .detachDebug _
  | .readHallmark _
  | .requestIngot _ _
  | .ingotSeal _
  | .registerNotify _
  | .serviceRequestUnknown _ _
  | .packetFetch _
  | .slotReread _
  | .packetAcquire _ _
  | .launchSettle _ _
  | .nopPacket _ _
  | .signalSet _ _
  | .signalAdd _ _
  | .signalSub _ _
  | .waitPacket _ _
  | .waitPacketMet _ _
  | .waitTimeout _ _
  | .copyPacket _ _
  | .copyPacketDone _ _
  | .nodeDefine _ _
  | .nodeArm _ _
  | .nodeDisarm _ _
  | .nodeDisarmDrained _ _
  | .flushTimer _
  | .launchDrained _
  | .packetConfirmed _ _
  | .crewPlace _ _
  | .crewLoaded _
  | .migrationTrigger _ _
  | .imageSealed _
  | .crewRestore _ _
  | .outstandingAck _ _ _
  | .barrierTreeRelease _
  | .exchangeCopyStart _
  | .phaseEpoch _
  | .clauseIssue _ _
  | .promiseMissed _ _
  | .loadComplete _
  | .storePerformed _
  | .windowFillComplete _ _
  | .migratingTimeout _
  | .remoteAccess _
  | .remoteUnreachable _
  | .shootComplete _
  | .waitConditionMet _
  | .sleepExpiry _
  | .queueUnblock _
  | .queueStarvedTimeout _
  | .cupelOperationStart _
  | .cupelComplete _
  | .copyOperationStart _
  | .copyComplete _
  | .reduceUnitArrival _
  | .touchstoneEpochEnd _
  | .assayStart _
  | .assayResult _ _
  | .snapTrigger _
  | .snapshotTimeout
  | .migratingLeafCleared _
  | .uncorrectableError _
  | .trailingCopyPlace _ _ => { ty := .ok true }

/-- Whether an operand or another use takes the field at `pos`. -/
def Rule.uses (r : Rule) (pos : Pos) : Bool := r.ops.any (·.pos == pos)

/-- R230, order 2: an unassigned S, FX or condition; a rounding mode or a scope that is not accepted. -/
def subopFails (p : Parts) (r : Rule) : Bool :=
  !r.sub ||
  (match r.rm with
   | .no => false
   | .toRd => 3 < p.md.rmode.toNat
   | .toSr => 4 < p.md.rmode.toNat) ||
  (r.scope && 6 ≤ p.md.scope.toNat)

/-- R230, order 3: a type code that is not accepted. -/
def typeFails (r : Rule) : Bool := match r.ty with | .no => false | .ok b => !b

/-- The B or S field, or the immediate, that a literal replaces must be 0 (R226). -/
def litField (p : Parts) : Bool := p.b == 0 && p.imm == 0

/-- R230, order 4: a rsv bit, an unused field, PMK or PN without PE, or a W or L bit that is not accepted. -/
def rsvFails (p : Parts) (r : Rule) : Bool :=
  let md := p.md
  p.rsv ||
  (!(r.uses .d || r.useD) && p.d != 0) ||
  (!(r.uses .a || r.useA) && p.a != 0) ||
  (!(r.uses .b || r.useS) && p.b != 0) ||
  (!(r.uses .c) && md.c != 0) ||
  (!r.useImm && p.imm != 0) ||
  (!r.useC3 && p.c3 != 0) ||
  (!r.useWin && p.win != 0) ||
  (r.rm == .no && md.rmode != 0) ||
  (!r.scope && md.scope != 0) ||
  (r.ty == .no && (md.td != 0 || md.ts != 0)) ||
  (!r.sat && md.sat) ||
  (!r.fx && md.fx != 0) ||
  (!r.pe && md.pe) ||
  (!md.pe && (md.pmk != 0 || md.pn)) ||
  (!r.w && p.w) ||
  (p.lit.isSome && !(r.lit && litField p))

/-- The checks of R230, orders 2 to 5, that the words alone decide; the first that fails. -/
def checkInstr (ch : Bool) (i : Instr) : Option Cause :=
  match partsOf i with
  | none => none
  | some p =>
    let r := ruleOf ch i p
    if subopFails p r then some .subop
    else if typeFails r then some .type
    else if rsvFails p r then some .rsvBits
    else match i with
      | .srd _ | .swr _ => if specialAssigned p.s then none else some .specialReg
      | _ => none

end Sys2Proof.Machine
end

