-- ==== Sys2Proof/Machine/Operands.lean ====
section
/-! DEFINITION. Operands: what an operand field names (R224), latches (R225), allotments (R76), literals (R226),
and the results an instruction writes in its destination and its latch (R225, R263). -/

namespace Sys2Proof.Machine

open Sys2Proof

/-- An instruction being executed: its party, the launch, crew and team as they stand, the thread and the clause,
its fields, its effective mask (R78), and whether a chaser issues it. -/
structure Exe where
  p : Party
  launch : Launch
  crew : Crew
  team : Team
  th : Thread
  cl : Clause
  parts : Parts
  eff : Mask
  exec : Mask
  ch : Bool
  now : DWord
  deriving DecidableEq, Repr

/-- The lanes of the team: 32 per strand. -/
def Exe.nlanes (x : Exe) : Nat := 32 * x.launch.strands

/-- The lanes of the effective mask, ascending. -/
def Exe.lanes (x : Exe) : List Nat := x.eff.lanes x.nlanes

/-- Every lane of the team. -/
def Exe.allLanes (x : Exe) : List Nat := List.range x.nlanes

/-- The I bit and the base of an operand field (R224). -/
def indexed (f : BitVec 7) : Bool := f.getLsbD 6
def base (f : BitVec 7) : Nat := (f.extractLsb' 0 6).toNat

/-- The latch that a source field names, if it names one (R224). -/
def latchCode (f : BitVec 7) : Option Nat := if indexed f && 60 ≤ base f then some (base f - 60) else none

/-- The index added to an indexed field of a class (R224); a chaser has no index registers, so 0. -/
def Exe.index (x : Exe) (k : Cls) : Nat :=
  if x.ch then 0 else match k with
  | .s => x.team.xs.toNat
  | _ => x.team.xv.toNat

/-- The register number of a field of class v, d, n or s that names no latch (R224). -/
def Exe.regNum (x : Exe) (k : Cls) (f : BitVec 7) : Nat := base f + if indexed f then x.index k else 0

/-- The field of an operand's position. -/
def Parts.at (p : Parts) : Pos → BitVec 7
  | .d => p.d | .a => p.a | .b => p.b | .c => p.c

/-- Whether a class is one of v, d, n, s: indexed and checked against the allotments (R76, R224). -/
def Cls.allotted : Cls → Bool
  | .v | .d | .n | .s => true
  | _ => false

/-- The first number past a class (R224). -/
def Cls.size : Cls → Nat
  | .m | .w => 8 | .q | .bar => 16 | .wl => 8 | .bp => 4 | _ => 64

/-- The registers of a class that the team, or chaser, is allotted (R46, R76, R237). -/
def Exe.allot (x : Exe) : Cls → Nat
  | .v => x.launch.vregs
  | .d | .n => min 32 x.launch.vregs
  | .s => if x.ch then 32 else x.launch.sregs
  | k => k.size

/-- The latch that an operand's field stands for. A destination names none, and neither does the fourth operand of a one-word
form, which is D's register (R227, R263). -/
def Exe.latchOf (x : Exe) (o : Opnd) : Option Nat :=
  if o.dst || (o.pos == .c && x.parts.m.isNone) then none else latchCode (x.parts.at o.pos)

/-- Whether an operand's field stands for a latch. -/
def Exe.isLatch (x : Exe) (o : Opnd) : Bool := o.cls.allotted && (x.latchOf o).isSome

/-- ALLOTMENT for one operand: the register number that violates (R76). -/
def Exe.allotFault (x : Exe) (o : Opnd) : Option Nat :=
  if !o.cls.allotted || x.isLatch o then none
  else
    let r := x.regNum o.cls (x.parts.at o.pos)
    if x.allot o.cls < r + o.len then some (max r (x.allot o.cls)) else none

/-- ILLEGAL_OPERAND for one operand's field (R76, R87, R224). -/
def Exe.operandFault (x : Exe) (o : Opnd) : Option Cause :=
  let f := x.parts.at o.pos
  if x.ch && (o.cls == .v || o.cls == .d || o.cls == .n) then some .general
  else if !o.cls.allotted then (if indexed f || o.cls.size ≤ base f then some .general else none)
  else if x.isLatch o then
    (if o.cls == .d || o.cls == .n then some .latchNorm else if o.latch then none else some .general)
  else if x.regNum o.cls f % o.algn ≠ 0 then some .oddPair
  else none

/-- What reading a latch gives a source of a class: stale, or a vector in a scalar source (R225). -/
inductive LatchFault where
  | stale (k : Nat)
  | vector
  deriving DecidableEq, Repr

def Exe.latchFault (x : Exe) (o : Opnd) : Option LatchFault :=
  match x.latchOf o with
  | none => none
  | some k => match x.th.latch k with
    | .none => some (.stale k)
    | .scalar _ => none
    | .vector _ => if o.cls == .s then some .vector else none

/-- Whether a source operand field can be read: it names no stale latch. -/
def Exe.known (x : Exe) (f : BitVec 7) : Bool :=
  match latchCode f with
  | none => true
  | some k => x.th.latch k != .none

/-! ### Reading sources -/

/-- A scalar source (R224, R225). -/
def Exe.s (x : Exe) (f : BitVec 7) : Word :=
  match latchCode f with
  | some k => match x.th.latch k with
    | .scalar v => v
    | _ => 0
  | none => x.th.readS (x.regNum .s f)

/-- The scalar register `i` above the one a field names. -/
def Exe.sAt (x : Exe) (f : BitVec 7) (i : Nat) : Word := x.th.readS (x.regNum .s f + i)

/-- A scalar pair (R224, R264). -/
def Exe.pair (x : Exe) (f : BitVec 7) : DWord := Word.pair (x.sAt f 0) (x.sAt f 1)

/-- A vector source in a lane (R224, R225). -/
def Exe.v (x : Exe) (f : BitVec 7) (l : Nat) : Word :=
  match latchCode f with
  | some k => match x.th.latch k with
    | .scalar v => v
    | .vector vs => vs.read 0 l
    | .none => 0
  | none => x.team.readV (x.regNum .v f) l

/-- The vector register `i` above the one a field names, in a lane. -/
def Exe.vAt (x : Exe) (f : BitVec 7) (i l : Nat) : Word := x.team.readV (x.regNum .v f + i) l

/-- A 64-bit vector operand in a lane (R264). -/
def Exe.vPair (x : Exe) (f : BitVec 7) (l : Nat) : DWord := Word.pair (x.vAt f 0 l) (x.vAt f 1 l)

/-- The register that a field names, whatever its code: as a field that is a destination too (R224). -/
def Exe.sReg (x : Exe) (f : BitVec 7) : Word := x.th.readS (x.regNum .s f)
def Exe.vReg (x : Exe) (f : BitVec 7) (l : Nat) : Word := x.team.readV (x.regNum .v f) l

/-- The fourth operand: D's register in a one-word form (R227, R263). -/
def Exe.sC (x : Exe) : Word := if x.parts.m.isNone then x.sReg x.parts.c else x.s x.parts.c
def Exe.vC (x : Exe) (l : Nat) : Word := if x.parts.m.isNone then x.vReg x.parts.c l else x.v x.parts.c l

/-- The scope of the instruction (R2, R226). -/
def Exe.scope (x : Exe) : Nat := x.parts.md.scope.toNat
/-- Scalar source B, or the literal (R226). -/
def Exe.sB (x : Exe) : Word := match x.parts.lit with | some w => w | none => x.s x.parts.b

/-- Vector source B, or the literal in every lane (R226). -/
def Exe.vB (x : Exe) (l : Nat) : Word := match x.parts.lit with | some w => w | none => x.v x.parts.b l

/-- A mask register source. -/
def Exe.m (x : Exe) (f : BitVec 7) : Mask := x.team.readM (base f)

/-- IMM14, or the literal: sign-extended to an integer (R226, R247). -/
def Exe.immInt (x : Exe) : Int :=
  match x.parts.lit with
  | some w => w.toInt
  | none => (x.parts.imm.setWidth 14).toInt

/-! ### Writing results -/

/-- Set the latch of the instruction's position. -/
def setResult (x : Exe) (l : Latch) (s : State) : State :=
  s.updThread x.p fun th => th.setLatch x.cl.pos l

/-- Write a scalar result to the register a field names, unless W = 1, and to the latch (R225). -/
def writeScalar (x : Exe) (f : BitVec 7) (v : Word) (s : State) : State :=
  let s' := if x.parts.w then s else s.updThread x.p fun th => th.writeS (x.regNum .s f) v
  setResult x (.scalar v) s'

/-- Write consecutive scalar registers from the one a field names, unless W = 1; the latch receives the first. -/
def writeScalars (x : Exe) (f : BitVec 7) (vs : List Word) (s : State) : State :=
  let r := x.regNum .s f
  let s' := if x.parts.w then s
    else s.updThread x.p fun th => (List.range vs.length).foldl (fun u i => u.writeS (r + i) (vs.getD i 0)) th
  setResult x (.scalar (vs.getD 0 0)) s'

/-- Write a 64-bit scalar result to a pair. -/
def writePair (x : Exe) (f : BitVec 7) (v : DWord) (s : State) : State := writeScalars x f [v.lo, v.hi] s

/-- The latch value of a vector result: the results in the lanes written, the destination elsewhere (R263). -/
def vectorLatch (x : Exe) (r : Nat) (vals : List (Nat × Word)) : Latch :=
  .vector (vals.foldl (fun t lv => Tbl.write 0 t lv.1 lv.2)
    (x.allLanes.foldl (fun t l => Tbl.write 0 t l (x.team.readV r l)) []))

/-- Write lanes of the vector register a field names, unless W = 1, and the latch (R225, R263). -/
def writeVector (x : Exe) (f : BitVec 7) (vals : List (Nat × Word)) (s : State) : State :=
  let r := x.regNum .v f
  let s' := if x.parts.w then s else s.updTeam x.p fun t => t.writeLanes r vals
  setResult x (vectorLatch x r vals) s'

/-- Write `f l` in each active lane. -/
def writeEach (x : Exe) (d : BitVec 7) (f : Nat → Word) (s : State) : State :=
  writeVector x d (x.lanes.map fun l => (l, f l)) s

/-- Write a 64-bit result in each active lane of a pair; the latch receives the low register (R264). -/
def writeEachPair (x : Exe) (d : BitVec 7) (f : Nat → DWord) (s : State) : State :=
  let r := x.regNum .v d
  let s' := if x.parts.w then s
    else s.updTeam x.p fun t => t.writeLanes (r + 1) (x.lanes.map fun l => (l, (f l).hi))
  writeVector x d (x.lanes.map fun l => (l, (f l).lo)) s'

/-- Write bits of the mask register a field names: `f l` in each active lane, the others kept (R266). -/
def writeMaskBits (x : Exe) (d : BitVec 7) (f : Nat → Bool) (s : State) : State :=
  setResult x .none (s.updTeam x.p fun t =>
    t.writeM x.nlanes (base d) (x.lanes.foldl (fun m l => m.put l (f l)) (t.readM (base d))))

/-- Write a whole mask register. -/
def writeMask (x : Exe) (d : BitVec 7) (m : Mask) (s : State) : State :=
  setResult x .none (s.updTeam x.p fun t => t.writeM x.nlanes (base d) m)

/-- Write a vector register that is no instruction result in the latch's sense (a second destination). -/
def writeExtra (x : Exe) (f : BitVec 7) (vals : List (Nat × Word)) (s : State) : State :=
  s.updTeam x.p fun t => t.writeLanes (x.regNum .v f) vals

end Sys2Proof.Machine
end

