-- ==== Sys2Proof/Decode.lean ====
section
/-! DEFINITION. The decoder of R220, R226, R227 and R229, total on any words and rejecting by name, and after it
the encoder written from the same tables. -/

namespace Sys2Proof

/-- Why the words of a clause give no instruction: no word is left, the primary opcode is unassigned (R229), or a
suffix word that M or L announces is missing (R219, order 6). -/
inductive DecodeError where
  | noWord
  | opcode (op : Byte)
  | suffix
  deriving DecidableEq, Repr

/-- The fields of the modifier word (R227). -/
def decodeMod (w : Word) : Mod :=
  { pmk := w.extractLsb' 29 3, pe := w.getLsbD 28, pn := w.getLsbD 27, td := w.extractLsb' 22 5,
    ts := w.extractLsb' 17 5, rmode := w.extractLsb' 14 3, sat := w.getLsbD 13, scope := w.extractLsb' 10 3,
    fx := w.extractLsb' 7 3, c := w.extractLsb' 0 7 }

/-- The fields of an RRR word (R226). -/
def decodeRRR (w : Word) (lit : Option Word) (m : Option Mod) : RRR :=
  { d := w.extractLsb' 17 7, a := w.extractLsb' 10 7, b := w.extractLsb' 3 7, w := w.getLsbD 2, lit := lit, m := m }
/-- The fields of an RRS word (R226). -/
def decodeRRS (w : Word) (lit : Option Word) (m : Option Mod) : RRS :=
  { d := w.extractLsb' 17 7, a := w.extractLsb' 10 7, s := w.extractLsb' 3 7, w := w.getLsbD 2, lit := lit, m := m }
/-- The fields of an RI word (R226). -/
def decodeRI (w : Word) (lit : Option Word) (m : Option Mod) : RI :=
  { d := w.extractLsb' 17 7, imm := w.extractLsb' 3 14, w := w.getLsbD 2, lit := lit, m := m }
/-- The fields of an MW word (R226). -/
def decodeMW (w : Word) (lit : Option Word) (m : Option Mod) : MW :=
  { d := w.extractLsb' 17 7, a := w.extractLsb' 10 7, win := w.extractLsb' 7 3, imm := w.extractLsb' 3 4,
    w := w.getLsbD 2, lit := lit, m := m }
/-- The fields of a Z word (R226). -/
def decodeZ (w : Word) (lit : Option Word) (m : Option Mod) : FZ :=
  { rsv := w.extractLsb' 2 22, lit := lit, m := m }
/-- The fields of a BO word (R226). -/
def decodeBO (w : Word) (lit : Option Word) (m : Option Mod) : BO :=
  { off := w.extractLsb' 3 21, rsv := w.getLsbD 2, lit := lit, m := m }
/-- The fields of a BC word (R226). -/
def decodeBC (w : Word) (lit : Option Word) (m : Option Mod) : BC :=
  { a := w.extractLsb' 17 7, c3 := w.extractLsb' 14 3, off := w.extractLsb' 3 11, rsv := w.getLsbD 2,
    lit := lit, m := m }

/-- The primary opcodes of R229, sixteen at a time. -/
def decodeRow0 (w : Word) (lit : Option Word) (m : Option Mod) : Nat → Option Instr
  | 0x0 => some (.bra (decodeBO w lit m))
  | 0x1 => some (.brc (decodeBC w lit m))
  | 0x2 => some (.brm (decodeBC w lit m))
  | 0x3 => some (.join (decodeZ w lit m))
  | 0x4 => some (.call (decodeBO w lit m))
  | 0x5 => some (.ret (decodeZ w lit m))
  | 0x6 => some (.jmpi (decodeRRR w lit m))
  | 0x7 => some (.loop (decodeBC w lit m))
  | 0x8 => some (.exit (decodeZ w lit m))
  | 0x9 => some (.yield (decodeZ w lit m))
  | 0xA => some (.sleep (decodeRI w lit m))
  | 0xB => some (.wait (decodeRRS w lit m))
  | 0xC => some (.nop (decodeZ w lit m))
  | 0xD => some (.part (decodeRI w lit m))
  | 0xE => some (.mset (decodeRRS w lit m))
  | 0xF => some (.mand (decodeRRR w lit m))
  | _ => none

def decodeRow1 (w : Word) (lit : Option Word) (m : Option Mod) : Nat → Option Instr
  | 0x0 => some (.mor (decodeRRR w lit m))
  | 0x1 => some (.mxor (decodeRRR w lit m))
  | 0x2 => some (.mnot (decodeRRR w lit m))
  | 0x3 => some (.mmov (decodeRRR w lit m))
  | 0x4 => some (.mpop (decodeRRR w lit m))
  | 0x5 => some (.mfind (decodeRRR w lit m))
  | 0x6 => some (.many (decodeRRR w lit m))
  | 0x7 => some (.mall (decodeRRR w lit m))
  | 0x8 => some (.mexec (decodeRRR w lit m))
  | 0x9 => some (.setix (decodeRI w lit m))
  | 0xA => some (.srd (decodeRRS w lit m))
  | 0xB => some (.swr (decodeRRS w lit m))
  | _ => none

def decodeRow2 (w : Word) (lit : Option Word) (m : Option Mod) : Nat → Option Instr
  | 0x0 => some (.smov (decodeRRR w lit m))
  | 0x1 => some (.smovi (decodeRI w lit m))
  | 0x2 => some (.sadd (decodeRRR w lit m))
  | 0x3 => some (.ssub (decodeRRR w lit m))
  | 0x4 => some (.smul (decodeRRR w lit m))
  | 0x5 => some (.smulh (decodeRRR w lit m))
  | 0x6 => some (.smad (decodeRRR w lit m))
  | 0x7 => some (.sdiv (decodeRRR w lit m))
  | 0x8 => some (.srem (decodeRRR w lit m))
  | 0x9 => some (.sand (decodeRRR w lit m))
  | 0xA => some (.sor (decodeRRR w lit m))
  | 0xB => some (.sxor (decodeRRR w lit m))
  | 0xC => some (.sshl (decodeRRR w lit m))
  | 0xD => some (.sshr (decodeRRR w lit m))
  | 0xE => some (.ssar (decodeRRR w lit m))
  | 0xF => some (.smin (decodeRRR w lit m))
  | _ => none

def decodeRow3 (w : Word) (lit : Option Word) (m : Option Mod) : Nat → Option Instr
  | 0x0 => some (.smax (decodeRRR w lit m))
  | 0x1 => some (.scmp (decodeRRR w lit m))
  | 0x2 => some (.ssel (decodeRRR w lit m))
  | 0x3 => some (.sclz (decodeRRR w lit m))
  | 0x4 => some (.spopc (decodeRRR w lit m))
  | 0x5 => some (.sbfe (decodeRRR w lit m))
  | 0x6 => some (.sbfi (decodeRRR w lit m))
  | 0x7 => some (.sadd64 (decodeRRR w lit m))
  | 0x8 => some (.qpush (decodeRRS w lit m))
  | 0x9 => some (.qpop (decodeRRS w lit m))
  | _ => none

def decodeRow4 (w : Word) (lit : Option Word) (m : Option Mod) : Nat → Option Instr
  | 0x0 => some (.vadd (decodeRRR w lit m))
  | 0x1 => some (.vsub (decodeRRR w lit m))
  | 0x2 => some (.vmul (decodeRRR w lit m))
  | 0x3 => some (.vmulh (decodeRRR w lit m))
  | 0x4 => some (.vmad (decodeRRR w lit m))
  | 0x5 => some (.vand (decodeRRR w lit m))
  | 0x6 => some (.vor (decodeRRR w lit m))
  | 0x7 => some (.vxor (decodeRRR w lit m))
  | 0x8 => some (.vnot (decodeRRR w lit m))
  | 0x9 => some (.vshl (decodeRRR w lit m))
  | 0xA => some (.vshr (decodeRRR w lit m))
  | 0xB => some (.vsar (decodeRRR w lit m))
  | 0xC => some (.vmin (decodeRRR w lit m))
  | 0xD => some (.vmax (decodeRRR w lit m))
  | 0xE => some (.vabs (decodeRRR w lit m))
  | 0xF => some (.vcmp (decodeRRR w lit m))
  | _ => none

def decodeRow5 (w : Word) (lit : Option Word) (m : Option Mod) : Nat → Option Instr
  | 0x0 => some (.vsel (decodeRRR w lit m))
  | 0x1 => some (.vclz (decodeRRR w lit m))
  | 0x2 => some (.vpopc (decodeRRR w lit m))
  | 0x3 => some (.vbfe (decodeRRR w lit m))
  | 0x4 => some (.vbfi (decodeRRR w lit m))
  | 0x5 => some (.vperm (decodeRRR w lit m))
  | 0x6 => some (.vdot4 (decodeRRR w lit m))
  | _ => none

def decodeRow6 (w : Word) (lit : Option Word) (m : Option Mod) : Nat → Option Instr
  | 0x0 => some (.fadd (decodeRRR w lit m))
  | 0x1 => some (.fsub (decodeRRR w lit m))
  | 0x2 => some (.fmul (decodeRRR w lit m))
  | 0x3 => some (.fma (decodeRRR w lit m))
  | 0x4 => some (.fnma (decodeRRR w lit m))
  | 0x5 => some (.fmin (decodeRRR w lit m))
  | 0x6 => some (.fmax (decodeRRR w lit m))
  | 0x7 => some (.fneg (decodeRRR w lit m))
  | 0x8 => some (.fabs (decodeRRR w lit m))
  | 0x9 => some (.fcmp (decodeRRR w lit m))
  | 0xA => some (.fclass (decodeRRR w lit m))
  | 0xB => some (.fscale (decodeRRR w lit m))
  | 0xC => some (.frcp (decodeRRR w lit m))
  | 0xD => some (.frsq (decodeRRR w lit m))
  | 0xE => some (.fsqrt (decodeRRR w lit m))
  | 0xF => some (.fexp2 (decodeRRR w lit m))
  | _ => none

def decodeRow7 (w : Word) (lit : Option Word) (m : Option Mod) : Nat → Option Instr
  | 0x0 => some (.flog2 (decodeRRR w lit m))
  | 0x1 => some (.fsin (decodeRRR w lit m))
  | 0x2 => some (.fcos (decodeRRR w lit m))
  | 0x3 => some (.ftanh (decodeRRR w lit m))
  | _ => none

def decodeRow8 (w : Word) (lit : Option Word) (m : Option Mod) : Nat → Option Instr
  | 0x0 => some (.cvt (decodeRRR w lit m))
  | 0x1 => some (.cvtn (decodeRRR w lit m))
  | 0x2 => some (.cvtw (decodeRRR w lit m))
  | 0x3 => some (.qnt (decodeRRR w lit m))
  | 0x4 => some (.dqnt (decodeRRR w lit m))
  | _ => none

def decodeRow9 (w : Word) (lit : Option Word) (m : Option Mod) : Nat → Option Instr
  | 0x0 => some (.shfl (decodeRRR w lit m))
  | 0x1 => some (.shflu (decodeRRR w lit m))
  | 0x2 => some (.shfld (decodeRRR w lit m))
  | 0x3 => some (.shflx (decodeRRR w lit m))
  | 0x4 => some (.vote (decodeRRS w lit m))
  | 0x5 => some (.ballot (decodeRRS w lit m))
  | 0x6 => some (.vred (decodeRRR w lit m))
  | 0x7 => some (.vscan (decodeRRR w lit m))
  | 0x8 => some (.tred (decodeRRR w lit m))
  | 0x9 => some (.bcast (decodeRRR w lit m))
  | 0xA => some (.compact (decodeRRR w lit m))
  | 0xB => some (.vrand (decodeRRR w lit m))
  | _ => none

def decodeRowA (w : Word) (lit : Option Word) (m : Option Mod) : Nat → Option Instr
  | 0x0 => some (.dcvt (decodeRRR w lit m))
  | 0x1 => some (.dexp (decodeRRR w lit m))
  | 0x2 => some (.ddot (decodeRRR w lit m))
  | 0x3 => some (.ddotf (decodeRRR w lit m))
  | 0x4 => some (.dscal (decodeRRR w lit m))
  | 0x5 => some (.dadd (decodeRRR w lit m))
  | 0x6 => some (.dsub (decodeRRR w lit m))
  | 0x7 => some (.dmix (decodeRRR w lit m))
  | 0x8 => some (.dneg (decodeRRR w lit m))
  | 0x9 => some (.dmov (decodeRRR w lit m))
  | 0xA => some (.dnrd (decodeRRR w lit m))
  | 0xB => some (.dnwr (decodeRRR w lit m))
  | 0xC => some (.dzero (decodeRRR w lit m))
  | 0xD => some (.dspan (decodeRI w lit m))
  | 0xE => some (.dld (decodeMW w lit m))
  | 0xF => some (.dst (decodeMW w lit m))
  | _ => none

def decodeRowB (w : Word) (lit : Option Word) (m : Option Mod) : Nat → Option Instr
  | 0x0 => some (.wlalloc (decodeRRS w lit m))
  | 0x1 => some (.wlfree (decodeRRS w lit m))
  | 0x2 => some (.wlclr (decodeRRS w lit m))
  | 0x3 => some (.wlins (decodeRRR w lit m))
  | 0x4 => some (.vtopk (decodeRRR w lit m))
  | 0x5 => some (.wlmerge (decodeRRR w lit m))
  | 0x6 => some (.wlrd (decodeRRR w lit m))
  | 0x7 => some (.wlst (decodeRRR w lit m))
  | 0x8 => some (.wlld (decodeRRR w lit m))
  | 0x9 => some (.ssect (decodeRRR w lit m))
  | 0xA => some (.pksi (decodeRRR w lit m))
  | 0xB => some (.unpksi (decodeRRR w lit m))
  | 0xC => some (.gwnorm (decodeRRR w lit m))
  | 0xD => some (.smxacc (decodeRRR w lit m))
  | 0xE => some (.smxfin (decodeRRR w lit m))
  | _ => none

def decodeRowC (w : Word) (lit : Option Word) (m : Option Mod) : Nat → Option Instr
  | 0x0 => some (.ld (decodeMW w lit m))
  | 0x1 => some (.st (decodeMW w lit m))
  | 0x2 => some (.ldg (decodeRRR w lit m))
  | 0x3 => some (.stg (decodeRRR w lit m))
  | 0x4 => some (.ldp (decodeRRR w lit m))
  | 0x6 => some (.stp (decodeRRR w lit m))
  | 0x7 => some (.kvld (decodeRRR w lit m))
  | 0x8 => some (.wmap (decodeRRR w lit m))
  | 0x9 => some (.winv (decodeRRS w lit m))
  | 0xA => some (.pref (decodeMW w lit m))
  | 0xB => some (.cwb (decodeRRR w lit m))
  | 0xC => some (.cinv (decodeRRR w lit m))
  | 0xD => some (.ipref (decodeRRR w lit m))
  | 0xE => some (.ipin (decodeRRR w lit m))
  | 0xF => some (.iunpin (decodeRRR w lit m))
  | _ => none

def decodeRowD (w : Word) (lit : Option Word) (m : Option Mod) : Nat → Option Instr
  | 0x0 => some (.atom (decodeMW w lit m))
  | 0x1 => some (.cas (decodeMW w lit m))
  | 0x2 => some (.cas128 (decodeMW w lit m))
  | 0x3 => some (.acq (decodeRRR w lit m))
  | 0x4 => some (.rel (decodeRRR w lit m))
  | 0x5 => some (.bind (decodeRRR w lit m))
  | 0x6 => some (.unbind (decodeRRS w lit m))
  | 0x7 => some (.fence (decodeZ w lit m))
  | 0x8 => some (.fencePt (decodeZ w lit m))
  | 0x9 => some (.shoot (decodeRRR w lit m))
  | 0xA => some (.bar (decodeRRS w lit m))
  | 0xB => some (.bara (decodeRRS w lit m))
  | 0xC => some (.barw (decodeRRS w lit m))
  | 0xD => some (.gbar (decodeZ w lit m))
  | _ => none

def decodeRowE (w : Word) (lit : Option Word) (m : Option Mod) : Nat → Option Instr
  | 0x0 => some (.qcfg (decodeRRS w lit m))
  | 0x1 => some (.qstat (decodeRRS w lit m))
  | 0x2 => some (.xcopy (decodeRRR w lit m))
  | 0x3 => some (.xred (decodeRRR w lit m))
  | 0x4 => some (.wbload (decodeRRR w lit m))
  | 0x5 => some (.mloop (decodeRRR w lit m))
  | 0x6 => some (.ctopk (decodeRRR w lit m))
  | 0x7 => some (.cbin (decodeRRR w lit m))
  | 0x8 => some (.cepi (decodeRRR w lit m))
  | 0x9 => some (.cstat (decodeRRS w lit m))
  | 0xA => some (.spawn (decodeRRR w lit m))
  | 0xB => some (.nodefl (decodeRRR w lit m))
  | 0xC => some (.repack (decodeZ w lit m))
  | 0xD => some (.chgo (decodeRRR w lit m))
  | 0xE => some (.chstop (decodeZ w lit m))
  | 0xF => some (.phase (decodeRRS w lit m))
  | _ => none

def decodeRowF (w : Word) (lit : Option Word) (m : Option Mod) : Nat → Option Instr
  | 0x0 => some (.trap (decodeRRS w lit m))
  | 0x1 => some (.tret (decodeZ w lit m))
  | 0x2 => some (.trld (decodeRRR w lit m))
  | 0x3 => some (.trst (decodeRRR w lit m))
  | 0x4 => some (.bpset (decodeRRR w lit m))
  | 0x5 => some (.wpset (decodeRRR w lit m))
  | 0x6 => some (.step (decodeRRS w lit m))
  | 0x7 => some (.snap (decodeZ w lit m))
  | 0x8 => some (.finj (decodeRRR w lit m))
  | 0x9 => some (.tsbegin (decodeZ w lit m))
  | 0xA => some (.tsend (decodeZ w lit m))
  | 0xB => some (.tbrd (decodeRRR w lit m))
  | 0xC => some (.halt (decodeZ w lit m))
  | _ => none

/-- The instruction an opcode's word and its suffix words give; none where R229 assigns no instruction. -/
def decodeOp (op : Byte) (w : Word) (lit : Option Word) (m : Option Mod) : Option Instr :=
  let lo := (op.extractLsb' 0 4).toNat
  match (op.extractLsb' 4 4).toNat with
  | 0x0 => decodeRow0 w lit m lo
  | 0x1 => decodeRow1 w lit m lo
  | 0x2 => decodeRow2 w lit m lo
  | 0x3 => decodeRow3 w lit m lo
  | 0x4 => decodeRow4 w lit m lo
  | 0x5 => decodeRow5 w lit m lo
  | 0x6 => decodeRow6 w lit m lo
  | 0x7 => decodeRow7 w lit m lo
  | 0x8 => decodeRow8 w lit m lo
  | 0x9 => decodeRow9 w lit m lo
  | 0xA => decodeRowA w lit m lo
  | 0xB => decodeRowB w lit m lo
  | 0xC => decodeRowC w lit m lo
  | 0xD => decodeRowD w lit m lo
  | 0xE => decodeRowE w lit m lo
  | 0xF => decodeRowF w lit m lo
  | _ => none

/-- The suffix words that bit 0 (M) and bit 1 (L) of an instruction word announce, modifier first (R220). -/
def takeSuffix (w : Word) (rest : List Word) : Option (Option Mod × Option Word × List Word) :=
  match w.getLsbD 0, w.getLsbD 1, rest with
  | false, false, r => some (none, none, r)
  | true, false, m :: r => some (some (decodeMod m), none, r)
  | false, true, l :: r => some (none, some l, r)
  | true, true, m :: l :: r => some (some (decodeMod m), some l, r)
  | _, _, _ => none

/-- Decode the instruction that the words begin with; the words after it are returned. -/
def decode : List Word → Except DecodeError (Instr × List Word)
  | [] => .error .noWord
  | w :: rest =>
    let op := w.extractLsb' 24 8
    match takeSuffix w rest with
    | none => match decodeOp op w none none with
      | none => .error (.opcode op)
      | some _ => .error .suffix
    | some (m, lit, r) => match decodeOp op w lit m with
      | none => .error (.opcode op)
      | some i => .ok (i, r)

/-- How many words an instruction word and its suffix words take (R220). -/
def wordCount (w : Word) : Nat := 1 + (w.getLsbD 0).toNat + (w.getLsbD 1).toNat

/-- Bits 1:0 of an instruction word: L, then M. -/
def encodeLM (lit : Option Word) (m : Option Mod) : BitVec 2 :=
  BitVec.ofBool lit.isSome ++ BitVec.ofBool m.isSome

/-- The modifier word of its fields (R227). -/
def encodeMod (m : Mod) : Word :=
  m.pmk ++ (BitVec.ofBool m.pe ++ (BitVec.ofBool m.pn ++ (m.td ++ (m.ts ++ (m.rmode ++
    (BitVec.ofBool m.sat ++ (m.scope ++ (m.fx ++ m.c))))))))

/-- The suffix words (R220). -/
def encodeSuffix (lit : Option Word) (m : Option Mod) : List Word :=
  (m.map encodeMod).toList ++ lit.toList

def encodeRRR (op : Byte) (f : RRR) : List Word :=
  (op ++ (f.d ++ (f.a ++ (f.b ++ (BitVec.ofBool f.w ++ encodeLM f.lit f.m)))) : BitVec 32) :: encodeSuffix f.lit f.m
def encodeRRS (op : Byte) (f : RRS) : List Word :=
  (op ++ (f.d ++ (f.a ++ (f.s ++ (BitVec.ofBool f.w ++ encodeLM f.lit f.m)))) : BitVec 32) :: encodeSuffix f.lit f.m
def encodeRI (op : Byte) (f : RI) : List Word :=
  (op ++ (f.d ++ (f.imm ++ (BitVec.ofBool f.w ++ encodeLM f.lit f.m))) : BitVec 32) :: encodeSuffix f.lit f.m
def encodeMW (op : Byte) (f : MW) : List Word :=
  (op ++ (f.d ++ (f.a ++ (f.win ++ (f.imm ++ (BitVec.ofBool f.w ++ encodeLM f.lit f.m))))) : BitVec 32) ::
    encodeSuffix f.lit f.m
def encodeZ (op : Byte) (f : FZ) : List Word :=
  (op ++ (f.rsv ++ encodeLM f.lit f.m) : BitVec 32) :: encodeSuffix f.lit f.m
def encodeBO (op : Byte) (f : BO) : List Word :=
  (op ++ (f.off ++ (BitVec.ofBool f.rsv ++ encodeLM f.lit f.m)) : BitVec 32) :: encodeSuffix f.lit f.m
def encodeBC (op : Byte) (f : BC) : List Word :=
  (op ++ (f.a ++ (f.c3 ++ (f.off ++ (BitVec.ofBool f.rsv ++ encodeLM f.lit f.m)))) : BitVec 32) ::
    encodeSuffix f.lit f.m

/-- The words of an instruction (R226, R227, R229). An event of the part has none. -/
def encode : Instr → List Word
  | .bra f => encodeBO 0x00#8 f
  | .brc f => encodeBC 0x01#8 f
  | .brm f => encodeBC 0x02#8 f
  | .join f => encodeZ 0x03#8 f
  | .call f => encodeBO 0x04#8 f
  | .ret f => encodeZ 0x05#8 f
  | .jmpi f => encodeRRR 0x06#8 f
  | .loop f => encodeBC 0x07#8 f
  | .exit f => encodeZ 0x08#8 f
  | .yield f => encodeZ 0x09#8 f
  | .sleep f => encodeRI 0x0A#8 f
  | .wait f => encodeRRS 0x0B#8 f
  | .nop f => encodeZ 0x0C#8 f
  | .part f => encodeRI 0x0D#8 f
  | .mset f => encodeRRS 0x0E#8 f
  | .mand f => encodeRRR 0x0F#8 f
  | .mor f => encodeRRR 0x10#8 f
  | .mxor f => encodeRRR 0x11#8 f
  | .mnot f => encodeRRR 0x12#8 f
  | .mmov f => encodeRRR 0x13#8 f
  | .mpop f => encodeRRR 0x14#8 f
  | .mfind f => encodeRRR 0x15#8 f
  | .many f => encodeRRR 0x16#8 f
  | .mall f => encodeRRR 0x17#8 f
  | .mexec f => encodeRRR 0x18#8 f
  | .setix f => encodeRI 0x19#8 f
  | .srd f => encodeRRS 0x1A#8 f
  | .swr f => encodeRRS 0x1B#8 f
  | .smov f => encodeRRR 0x20#8 f
  | .smovi f => encodeRI 0x21#8 f
  | .sadd f => encodeRRR 0x22#8 f
  | .ssub f => encodeRRR 0x23#8 f
  | .smul f => encodeRRR 0x24#8 f
  | .smulh f => encodeRRR 0x25#8 f
  | .smad f => encodeRRR 0x26#8 f
  | .sdiv f => encodeRRR 0x27#8 f
  | .srem f => encodeRRR 0x28#8 f
  | .sand f => encodeRRR 0x29#8 f
  | .sor f => encodeRRR 0x2A#8 f
  | .sxor f => encodeRRR 0x2B#8 f
  | .sshl f => encodeRRR 0x2C#8 f
  | .sshr f => encodeRRR 0x2D#8 f
  | .ssar f => encodeRRR 0x2E#8 f
  | .smin f => encodeRRR 0x2F#8 f
  | .smax f => encodeRRR 0x30#8 f
  | .scmp f => encodeRRR 0x31#8 f
  | .ssel f => encodeRRR 0x32#8 f
  | .sclz f => encodeRRR 0x33#8 f
  | .spopc f => encodeRRR 0x34#8 f
  | .sbfe f => encodeRRR 0x35#8 f
  | .sbfi f => encodeRRR 0x36#8 f
  | .sadd64 f => encodeRRR 0x37#8 f
  | .qpush f => encodeRRS 0x38#8 f
  | .qpop f => encodeRRS 0x39#8 f
  | .vadd f => encodeRRR 0x40#8 f
  | .vsub f => encodeRRR 0x41#8 f
  | .vmul f => encodeRRR 0x42#8 f
  | .vmulh f => encodeRRR 0x43#8 f
  | .vmad f => encodeRRR 0x44#8 f
  | .vand f => encodeRRR 0x45#8 f
  | .vor f => encodeRRR 0x46#8 f
  | .vxor f => encodeRRR 0x47#8 f
  | .vnot f => encodeRRR 0x48#8 f
  | .vshl f => encodeRRR 0x49#8 f
  | .vshr f => encodeRRR 0x4A#8 f
  | .vsar f => encodeRRR 0x4B#8 f
  | .vmin f => encodeRRR 0x4C#8 f
  | .vmax f => encodeRRR 0x4D#8 f
  | .vabs f => encodeRRR 0x4E#8 f
  | .vcmp f => encodeRRR 0x4F#8 f
  | .vsel f => encodeRRR 0x50#8 f
  | .vclz f => encodeRRR 0x51#8 f
  | .vpopc f => encodeRRR 0x52#8 f
  | .vbfe f => encodeRRR 0x53#8 f
  | .vbfi f => encodeRRR 0x54#8 f
  | .vperm f => encodeRRR 0x55#8 f
  | .vdot4 f => encodeRRR 0x56#8 f
  | .fadd f => encodeRRR 0x60#8 f
  | .fsub f => encodeRRR 0x61#8 f
  | .fmul f => encodeRRR 0x62#8 f
  | .fma f => encodeRRR 0x63#8 f
  | .fnma f => encodeRRR 0x64#8 f
  | .fmin f => encodeRRR 0x65#8 f
  | .fmax f => encodeRRR 0x66#8 f
  | .fneg f => encodeRRR 0x67#8 f
  | .fabs f => encodeRRR 0x68#8 f
  | .fcmp f => encodeRRR 0x69#8 f
  | .fclass f => encodeRRR 0x6A#8 f
  | .fscale f => encodeRRR 0x6B#8 f
  | .frcp f => encodeRRR 0x6C#8 f
  | .frsq f => encodeRRR 0x6D#8 f
  | .fsqrt f => encodeRRR 0x6E#8 f
  | .fexp2 f => encodeRRR 0x6F#8 f
  | .flog2 f => encodeRRR 0x70#8 f
  | .fsin f => encodeRRR 0x71#8 f
  | .fcos f => encodeRRR 0x72#8 f
  | .ftanh f => encodeRRR 0x73#8 f
  | .cvt f => encodeRRR 0x80#8 f
  | .cvtn f => encodeRRR 0x81#8 f
  | .cvtw f => encodeRRR 0x82#8 f
  | .qnt f => encodeRRR 0x83#8 f
  | .dqnt f => encodeRRR 0x84#8 f
  | .shfl f => encodeRRR 0x90#8 f
  | .shflu f => encodeRRR 0x91#8 f
  | .shfld f => encodeRRR 0x92#8 f
  | .shflx f => encodeRRR 0x93#8 f
  | .vote f => encodeRRS 0x94#8 f
  | .ballot f => encodeRRS 0x95#8 f
  | .vred f => encodeRRR 0x96#8 f
  | .vscan f => encodeRRR 0x97#8 f
  | .tred f => encodeRRR 0x98#8 f
  | .bcast f => encodeRRR 0x99#8 f
  | .compact f => encodeRRR 0x9A#8 f
  | .vrand f => encodeRRR 0x9B#8 f
  | .dcvt f => encodeRRR 0xA0#8 f
  | .dexp f => encodeRRR 0xA1#8 f
  | .ddot f => encodeRRR 0xA2#8 f
  | .ddotf f => encodeRRR 0xA3#8 f
  | .dscal f => encodeRRR 0xA4#8 f
  | .dadd f => encodeRRR 0xA5#8 f
  | .dsub f => encodeRRR 0xA6#8 f
  | .dmix f => encodeRRR 0xA7#8 f
  | .dneg f => encodeRRR 0xA8#8 f
  | .dmov f => encodeRRR 0xA9#8 f
  | .dnrd f => encodeRRR 0xAA#8 f
  | .dnwr f => encodeRRR 0xAB#8 f
  | .dzero f => encodeRRR 0xAC#8 f
  | .dspan f => encodeRI 0xAD#8 f
  | .dld f => encodeMW 0xAE#8 f
  | .dst f => encodeMW 0xAF#8 f
  | .wlalloc f => encodeRRS 0xB0#8 f
  | .wlfree f => encodeRRS 0xB1#8 f
  | .wlclr f => encodeRRS 0xB2#8 f
  | .wlins f => encodeRRR 0xB3#8 f
  | .vtopk f => encodeRRR 0xB4#8 f
  | .wlmerge f => encodeRRR 0xB5#8 f
  | .wlrd f => encodeRRR 0xB6#8 f
  | .wlst f => encodeRRR 0xB7#8 f
  | .wlld f => encodeRRR 0xB8#8 f
  | .ssect f => encodeRRR 0xB9#8 f
  | .pksi f => encodeRRR 0xBA#8 f
  | .unpksi f => encodeRRR 0xBB#8 f
  | .gwnorm f => encodeRRR 0xBC#8 f
  | .smxacc f => encodeRRR 0xBD#8 f
  | .smxfin f => encodeRRR 0xBE#8 f
  | .ld f => encodeMW 0xC0#8 f
  | .st f => encodeMW 0xC1#8 f
  | .ldg f => encodeRRR 0xC2#8 f
  | .stg f => encodeRRR 0xC3#8 f
  | .ldp f => encodeRRR 0xC4#8 f
  | .stp f => encodeRRR 0xC6#8 f
  | .kvld f => encodeRRR 0xC7#8 f
  | .wmap f => encodeRRR 0xC8#8 f
  | .winv f => encodeRRS 0xC9#8 f
  | .pref f => encodeMW 0xCA#8 f
  | .cwb f => encodeRRR 0xCB#8 f
  | .cinv f => encodeRRR 0xCC#8 f
  | .ipref f => encodeRRR 0xCD#8 f
  | .ipin f => encodeRRR 0xCE#8 f
  | .iunpin f => encodeRRR 0xCF#8 f
  | .atom f => encodeMW 0xD0#8 f
  | .cas f => encodeMW 0xD1#8 f
  | .cas128 f => encodeMW 0xD2#8 f
  | .acq f => encodeRRR 0xD3#8 f
  | .rel f => encodeRRR 0xD4#8 f
  | .bind f => encodeRRR 0xD5#8 f
  | .unbind f => encodeRRS 0xD6#8 f
  | .fence f => encodeZ 0xD7#8 f
  | .fencePt f => encodeZ 0xD8#8 f
  | .shoot f => encodeRRR 0xD9#8 f
  | .bar f => encodeRRS 0xDA#8 f
  | .bara f => encodeRRS 0xDB#8 f
  | .barw f => encodeRRS 0xDC#8 f
  | .gbar f => encodeZ 0xDD#8 f
  | .qcfg f => encodeRRS 0xE0#8 f
  | .qstat f => encodeRRS 0xE1#8 f
  | .xcopy f => encodeRRR 0xE2#8 f
  | .xred f => encodeRRR 0xE3#8 f
  | .wbload f => encodeRRR 0xE4#8 f
  | .mloop f => encodeRRR 0xE5#8 f
  | .ctopk f => encodeRRR 0xE6#8 f
  | .cbin f => encodeRRR 0xE7#8 f
  | .cepi f => encodeRRR 0xE8#8 f
  | .cstat f => encodeRRS 0xE9#8 f
  | .spawn f => encodeRRR 0xEA#8 f
  | .nodefl f => encodeRRR 0xEB#8 f
  | .repack f => encodeZ 0xEC#8 f
  | .chgo f => encodeRRR 0xED#8 f
  | .chstop f => encodeZ 0xEE#8 f
  | .phase f => encodeRRS 0xEF#8 f
  | .trap f => encodeRRS 0xF0#8 f
  | .tret f => encodeZ 0xF1#8 f
  | .trld f => encodeRRR 0xF2#8 f
  | .trst f => encodeRRR 0xF3#8 f
  | .bpset f => encodeRRR 0xF4#8 f
  | .wpset f => encodeRRR 0xF5#8 f
  | .step f => encodeRRS 0xF6#8 f
  | .snap f => encodeZ 0xF7#8 f
  | .finj f => encodeRRR 0xF8#8 f
  | .tsbegin f => encodeZ 0xF9#8 f
  | .tsend f => encodeZ 0xFA#8 f
  | .tbrd f => encodeRRR 0xFB#8 f
  | .halt f => encodeZ 0xFC#8 f
  | .powerGood
  | .dieTrained _
  | .fullServiceDeadline
  | .powerOn
  | .powerOff
  | .sensors _ _ _
  | .status
  | .selectSlot _
  | .hold
  | .snapPin
  | .boardCommandUnknown _
  | .tokenTurn _ _
  | .tokenLoss _
  | .tokenRebuild
  | .fillRateStep _
  | .throttleLimit _ _
  | .energySample
  | .energyDivide _ _
  | .replan _ _ _ _
  | .flitReceive _ _
  | .replayRequest _ _
  | .retrainComplete _ _
  | .domainJoin _ _
  | .cxlDeviceDiscovered _ _ _
  | .inboundRdmaWrite _ _ _
  | .inboundRdmaRead _ _ _
  | .notifyWrite _ _ _
  | .openContext _
  | .closeContext _
  | .closeGraceExpiry _
  | .setRegion _
  | .map _
  | .unmap _
  | .expose _
  | .createQueue _
  | .destroyQueue _
  | .resumeQueue _
  | .attachDebug _
  | .debugStop _
  | .debugRelease _
  | .debugStep _
  | .debugRead _
  | .debugWrite _
  | .armSnap _
  | .readSnap _
  | .detachDebug _
  | .readHallmark _
  | .requestIngot _ _
  | .ingotSeal _
  | .registerNotify _
  | .serviceRequestUnknown _ _
  | .packetFetch _
  | .slotReread _
  | .packetAcquire _ _
  | .launchSettle _ _
  | .nopPacket _ _
  | .signalSet _ _
  | .signalAdd _ _
  | .signalSub _ _
  | .waitPacket _ _
  | .waitPacketMet _ _
  | .waitTimeout _ _
  | .copyPacket _ _
  | .copyPacketDone _ _
  | .nodeDefine _ _
  | .nodeArm _ _
  | .nodeDisarm _ _
  | .nodeDisarmDrained _ _
  | .flushTimer _
  | .launchDrained _
  | .packetConfirmed _ _
  | .crewPlace _ _
  | .crewLoaded _
  | .migrationTrigger _ _
  | .imageSealed _
  | .crewRestore _ _
  | .outstandingAck _ _ _
  | .barrierTreeRelease _
  | .exchangeCopyStart _
  | .phaseEpoch _
  | .clauseIssue _ _
  | .promiseMissed _ _
  | .loadComplete _
  | .storePerformed _
  | .windowFillComplete _ _
  | .migratingTimeout _
  | .remoteAccess _
  | .remoteUnreachable _
  | .shootComplete _
  | .waitConditionMet _
  | .sleepExpiry _
  | .queueUnblock _
  | .queueStarvedTimeout _
  | .cupelOperationStart _
  | .cupelComplete _
  | .copyOperationStart _
  | .copyComplete _
  | .reduceUnitArrival _
  | .touchstoneEpochEnd _
  | .assayStart _
  | .assayResult _ _
  | .snapTrigger _
  | .snapshotTimeout
  | .migratingLeafCleared _
  | .uncorrectableError _
  | .trailingCopyPlace _ _ => []

/-- The longest instruction takes three words: the word, its modifier and its literal (R220). -/
def maxWords : Nat := 3

/-- The words of the number `w`, whose bits are numbered from the least significant bit of the first word, up to
the longest instruction. -/
def tableWords (nbits w : Nat) : List Word :=
  let v := w % 2 ^ nbits
  [BitVec.ofNat 32 v, BitVec.ofNat 32 (v / 2 ^ 32), BitVec.ofNat 32 (v / 2 ^ 64)]

/-- The instruction that the decoder reads from the bits `w` of an opcode-table row of `nbits` bits. -/
def decodeTableWord (nbits w : Nat) : Option Instr :=
  if nbits = 0 then none
  else match decode (tableWords nbits w) with
    | .ok (i, _) => some i
    | .error _ => none

end Sys2Proof
end

