-- ==== Sys2Proof/Machine/Fetch.lean ====
section
/-! DEFINITION. Instruction fetch (R221, R231 to R235) and the checks of a clause (R218 to R220). -/

namespace Sys2Proof.Machine

open Sys2Proof

/-! ### The clause header (R218) -/

def hdrSig (h : Word) : Bool := h.extractLsb' 24 8 == 0xC5
def hdrWT (h : Word) : Bool := h.getLsbD 20
def hdrWQ (h : Word) : Bool := h.getLsbD 19
def hdrWE (h : Word) : Nat := (h.extractLsb' 15 4).toNat
def hdrWS (h : Word) : Nat := (h.extractLsb' 11 4).toNat
def hdrWL (h : Word) : Nat := (h.extractLsb' 7 4).toNat
def hdrClass (h : Word) : Nat := (h.extractLsb' 4 3).toNat
def hdrCount (h : Word) : Nat := (h.extractLsb' 0 4).toNat

/-- The execution class of a primary opcode; 0xFF has none (R214). -/
def classOf (op : Nat) : Option Nat :=
  if op ≤ 0x1F then some 4 else if op ≤ 0x9F then some 0 else if op ≤ 0xBF then some 3
  else if op ≤ 0xDF then some 1 else if op ≤ 0xEF then some 2 else if op ≤ 0xFE then some 4 else none

/-- BRA, BRC, BRM, JOIN, CALL, RET, JMPI, LOOP, EXIT by primary opcode (R219, order 7). -/
def isTransfer (op : Nat) : Bool := op ≤ 0x08

/-- The instruction words of a clause (R220): each primary opcode, how many suffix words it announces, and how many
words of the clause follow it. -/
def clauseInstrs : Nat → List Word → List (Nat × Nat × Nat)
  | 0, _ => []
  | _, [] => []
  | fuel + 1, w :: rest =>
    let n := wordCount w - 1
    ((w.extractLsb' 24 8).toNat, n, rest.length) :: clauseInstrs fuel (rest.drop n)

/-- The first failure of R219, in the order of its table. -/
def clauseFault (h : Word) (ws : List Word) : Option Cause :=
  let is := clauseInstrs 16 ws
  if !hdrSig h then some .signature
  else if hdrCount h = 0 then some .countZero
  else if 5 ≤ hdrClass h then some .eclass
  else if h.extractLsb' 21 3 != 0 then some .clauseRsv
  else if is.any (fun i => (classOf i.1).isSome && classOf i.1 != some (hdrClass h)) then some .eclass
  else if is.any (fun i => i.2.2 < i.2.1) then some .clauseRsv
  else if is.any (fun i => isTransfer i.1 && i.2.1 < i.2.2) then some .clauseRsv
  else none

/-- The next instruction of a clause in progress, decoded from its words (R220, R229). -/
def Clause.instr (c : Clause) : Except DecodeError Instr :=
  match decode (c.words.drop (c.pos - 1)) with
  | .ok (i, _) => .ok i
  | .error e => .error e

/-! ### Code through the instruction caches (R231, R233) -/

/-- A 32-bit word of a line. -/
def lineWord (l : BitVec 1024) (a : Nat) : Word := l.extractLsb' (8 * (a % 128)) 32

/-- A code word as a fetch by a cluster returns it. -/
def State.codeWord (s : State) (cl a : Nat) : Word :=
  match (s.cluster cl).icache.get? (a / 128) with
  | some l => lineWord l a
  | none => match (s.core (coreOfCluster cl)).icache.get? (a / 128) with
    | some l => lineWord l a
    | none => BitVec.ofNat 32 (s.readNat (a / 4 * 4) 4)

/-- A table of lines with room for one more: the first line that nothing pins leaves a full cache. Any other line may leave
before (DESIGN CHOICE, log 38). -/
def makeRoom (room : Nat) (pins : Tbl (List Nat)) (t : Tbl (BitVec 1024)) : Tbl (BitVec 1024) :=
  if t.length < room then t
  else match t.find? fun e => (pins.get? e.1).isNone with
    | none => t
    | some e => t.del e.1

/-- Put a line of code into a core's cache, or a cluster's. -/
def Core.takeLine (k : Core) (line : Nat) (l : BitVec 1024) : Core :=
  { k with icache := (makeRoom Config.coreCodeLines k.pins k.icache).put line l }
def Cluster.takeLine (k : Cluster) (line : Nat) (l : BitVec 1024) : Cluster :=
  { k with icache := (makeRoom Config.clusterCodeLines [] k.icache).put line l }

/-- Fill the caches of a cluster and its core with the line of an address, read at its home, which the core's die then sees
as it is (R123, R233). -/
def State.fillCode (s : State) (cl a : Nat) : State :=
  let core := coreOfCluster cl
  let line := match (s.core core).icache.get? (a / 128) with
    | some l => l
    | none => (s.homeLine a).data
  let s1 := match (s.core core).icache.get? (a / 128) with
    | some _ => s
    | none => (s.updCore core fun k => k.takeLine (a / 128) line).unview (dieOfCore core) (· / 128 == a / 128)
  match (s.cluster cl).icache.get? (a / 128) with
  | some _ => s1
  | none => s1.updCluster cl fun k => k.takeLine (a / 128) line

/-- A core has fetched code through a page that a translation reached (R233). -/
def State.markPage (s : State) (core ctx page : Nat) (y : Phys) : State :=
  let at' := y.readAddr (dieOfCore core)
  let e : CodePage := { ctx := ctx, page := page, large := y.large, addr := at' - at' % 65536 }
  if (s.core core).code.contains e then s else s.updCore core fun k => { k with code := k.code ++ [e] }

/-- The fetch of a clause fills the caches of a cluster and its core. -/
def State.fillFetched (s : State) (g : Agent) (cl : Nat) (p : DWord) (fills : List Phys) : State :=
  ((List.range fills.length).zip fills).foldl (fun u e =>
    (u.fillCode cl (e.2.readAddr (dieOfCluster cl))).markPage (coreOfCluster cl) g.ctx (vpage (p + BitVec.ofNat 64 (4 * e.1))) e.2)
    (s.commitFills g fills)

/-- What a fetch gives: the clause with what it filled, or how it fails. -/
inductive Fetched where
  | ok (hdr : Word) (words : List Word) (fills : List Phys)
  | illegal (c : Cause)
  | fault (x : XFault) (at' : DWord)
  deriving DecidableEq, Repr

/-- Fetch consecutive words from a pointer. -/
def State.fetchWords (s : State) (g : Agent) (cl : Nat) (p : DWord) : Nat → Except (XFault × DWord) (List (Word × Phys))
  | 0 => .ok []
  | n + 1 => match s.translate g .fetch p with
    | .error x => .error (x, p)
    | .ok a => match s.fetchWords g cl (p + 4) n with
      | .error e => .error e
      | .ok ws => .ok ((s.codeWord cl (a.readAddr (dieOfCluster cl)), a) :: ws)

/-- Fetch and check the clause at a pointer (R219, R221, R232). `seq` says that the path fell through to it. -/
def State.fetchClause (s : State) (g : Agent) (cl : Nat) (p : DWord) (seq : Bool) : Fetched :=
  match s.fetchWords g cl p 1 with
  | .error (x, a) => .fault x a
  | .ok hs =>
    let h := (hs.map (·.1)).getD 0 0
    if p.extractLsb' 0 2 != 0 then .illegal .fetchTarget
    else if !hdrSig h then .illegal (if seq then .signature else .fetchTarget)
    else match s.fetchWords g cl (p + 4) (hdrCount h) with
    | .error (x, a) => .fault x a
    | .ok ws =>
      match clauseFault h (ws.map (·.1)) with
      | some c => .illegal c
      | none => .ok h (ws.map (·.1)) ((hs ++ ws).map (·.2))

/-- The next sequential header: header + 4 × (COUNT + 1), in the same region (R220, R238). -/
def nextHeader (hdr : DWord) (count : Nat) : DWord :=
  (hdr &&& 0xFFFF000000000000) ||| ((hdr + 4 * (BitVec.ofNat 64 (count + 1))) &&& 0xFFFFFFFFFFFF)

/-- The target of a relative branch: the address of the word at `pos` plus 4 × offset, modulo 2^48, in the current
region (R226, R238). -/
def branchTarget (hdr : DWord) (pos : Nat) (off : Int) : DWord :=
  (hdr &&& 0xFF00000000000000) |||
    BitVec.ofNat 64 (wrap 48 ((va hdr + 4 * pos : Nat) + 4 * off))

end Sys2Proof.Machine
end

