-- ==== Sys2Proof/Machine/Paths.lean ====
section
/-! DEFINITION. Paths, join records and reconvergence (R80 to R84, R240 to R242, R255). -/

namespace Sys2Proof.Machine

open Sys2Proof

/-- The paths in the table (R80): those not folded. -/
def Team.tablePaths (t : Team) : List Path := t.paths.filter fun p => !p.folded

def Team.path? (t : Team) (c : Word) : Option Path := t.paths.find? fun p => p.creation == c

def Team.updPath (t : Team) (c : Word) (f : Path → Path) : Team :=
  { t with paths := t.paths.map fun p => if p.creation = c then f p else p }

def Team.updJoin (t : Team) (id : Nat) (f : JoinRec → JoinRec) : Team :=
  { t with joins := t.joins.map fun j => if j.id = id then f j else j }

/-- The path of a list with the highest creation number. -/
def highest (ps : List Path) : Option Path :=
  ps.foldl (fun best p => match best with
    | none => some p
    | some b => if b.creation.ult p.creation then some p else some b) none

/-- Fold the path of highest creation number in the table, other than `keep` (R84). -/
def Team.foldOne (t : Team) (keep : Word) : Team :=
  match highest (t.tablePaths.filter fun p => p.creation != keep) with
  | none => t
  | some p => t.updPath p.creation fun q => { q with folded := true }

/-- Room for one more path: when all 8 entries are in use, two paths are folded (R84). -/
def Team.pathRoom (t : Team) (keep : Word) : Team :=
  if t.tablePaths.length < 8 then t else (t.foldOne keep).foldOne keep

/-- Whether a path in the table names a record. -/
def Team.named (t : Team) (id : Nat) : Bool := t.tablePaths.any fun p => p.join == some id

/-- The record of lowest identifier among some. -/
def lowestJoin (js : List JoinRec) : Option JoinRec :=
  js.foldl (fun best j => match best with
    | none => some j
    | some b => if j.id < b.id then some j else some b) none

/-- Room for one more record: when all 8 are in use, the one of lowest identifier that no path of the table names is
folded (R84). -/
def Team.joinRoom (t : Team) (keep : Option Nat) : Team :=
  if (t.joins.filter fun j => !j.folded).length < 8 then t
  else match lowestJoin (t.joins.filter fun j => !j.folded && !t.named j.id && some j.id != keep) with
  | none => t
  | some j => t.updJoin j.id fun r => { r with folded := true }

/-- Fetch a folded record back before a path arrives at it (R84). -/
def Team.fetchJoin (t : Team) (id : Nat) : Team :=
  match t.joins.find? fun j => j.id == id with
  | some j => if j.folded then (t.joinRoom (some id)).updJoin id fun r => { r with folded := false } else t
  | none => t

/-- The next unused 11-bit identifier, after the last one given and cyclically: R80 does not say which (DESIGN CHOICE,
log 39). -/
def Team.freeJoinId (t : Team) : Nat :=
  ((List.range 2048).map fun k => (t.nextJoin + k) % 2048).find?
    (fun id => !t.joins.any fun j => j.id == id) |>.getD 0

/-- Create a path that continues a resumed record (R82): it takes the next creation number and age 0. -/
def Team.addPath (t : Team) (pc : DWord) (mask : Mask) (join : Option Nat) (handler : Bool) : Team :=
  let t' := t.pathRoom t.nextCreation
  { t' with
    paths := t'.paths ++ [{ pc := pc, mask := mask, creation := t.nextCreation, join := join, handler := handler }],
    nextCreation := t.nextCreation + 1 }

/-- An arrival at a record with no path at its JOIN (R82): the record resumes when its count reaches zero, on a new
path; a record that resumes with an empty mask arrives at its outer record. `after` gives where the clause at J is
followed. -/
def Team.arrive (after : DWord → DWord) (handler : Bool) : Nat → Team → Nat → Team
  | 0, t, _ => t
  | fuel + 1, t0, id =>
    let t := t0.fetchJoin id
    match t.joins.find? fun j => j.id == id with
    | none => t
    | some r =>
      if 1 < r.pending then t.updJoin id fun j => { j with pending := j.pending - 1 }
      else
        let t' := { t with joins := t.joins.filter fun j => j.id != id }
        let mask := r.mask &&& ~~~t.exited
        if mask = 0 then
          match r.outer with
          | none => t'
          | some o => Team.arrive after handler fuel t' o
        else t'.addPath (after r.j) mask r.outer handler

/-- Remove a path whose mask is empty and act on its record as a JOIN would (R80, R82). -/
def Team.removePath (after : DWord → DWord) (t : Team) (c : Word) : Team :=
  match t.path? c with
  | none => t
  | some p =>
    let t' := { t with paths := t.paths.filter fun q => q.creation != c }
    match p.join with
    | none => t'
    | some id => Team.arrive after p.handler 1100 t' id

/-- Remove lanes from every record of a chain (R82). -/
def Team.clearChain (lanes : Mask) : Nat → Team → Option Nat → Team
  | 0, t, _ => t
  | _, t, none => t
  | fuel + 1, t, some id =>
    let outer := (t.joins.find? fun j => j.id == id).bind (·.outer)
    Team.clearChain lanes fuel (t.updJoin id fun j => { j with mask := j.mask &&& ~~~lanes }) outer

/-- EXIT of lanes by a path (R82, R245). -/
def Team.exitLanes (after : DWord → DWord) (t : Team) (c : Word) (lanes : Mask) : Team :=
  match t.path? c with
  | none => t
  | some p =>
    let t1 := { t with exited := t.exited ||| lanes }
    let t2 := Team.clearChain lanes 1100 t1 p.join
    let left := p.mask &&& ~~~lanes
    let t3 := t2.updPath c fun q => { q with mask := left }
    if left = 0 then t3.removePath after c else t3

/-- Split a path (R81, R240): the taken lanes at `target` on a new path, the staying lanes on this one, both naming a
new record with address `j`. -/
def Team.split (t : Team) (c : Word) (j target : DWord) (taken : Mask) : Team :=
  match t.path? c with
  | none => t
  | some p =>
    let t1 := (t.pathRoom c).joinRoom none
    let id := t1.freeJoinId
    let r : JoinRec := { id := id, j := j, pending := 2, mask := p.mask, outer := p.join }
    let t2 := t1.updPath c fun q => { q with mask := p.mask &&& ~~~taken, join := some id, age := 0 }
    { t2 with
      joins := t2.joins ++ [r], nextJoin := (id + 1) % 2048,
      paths := t2.paths ++ [{ pc := target, mask := taken, creation := t2.nextCreation, join := some id,
                              handler := p.handler }],
      nextCreation := t2.nextCreation + 1 }

/-- JOIN by a path at address `a` (R81, R241). -/
def Team.join (t0 : Team) (c : Word) (a : DWord) : Team :=
  match t0.path? c with
  | none => t0
  | some p => match p.join with
    | none => t0
    | some id =>
      match t0.joins.find? fun r => r.id == id with
      | none => t0
      | some r0 =>
        if r0.j ≠ a then t0
        else
          let t := t0.fetchJoin id
          if 1 < r0.pending then
            { t.updJoin id fun r => { r with pending := r.pending - 1 } with
              paths := t.paths.filter fun q => q.creation != c }
          else
            { t.updPath c fun q => { q with mask := r0.mask &&& ~~~t.exited, join := r0.outer, age := 0 } with
              joins := t.joins.filter fun r => r.id != id }

/-- The lanes a path may set by an exec write (R77): those of its innermost record, or the launched lanes that have
not exited. -/
def Team.settable (t : Team) (p : Path) : Mask :=
  match p.join with
  | none => t.launched &&& ~~~t.exited
  | some id => match t.joins.find? fun r => r.id == id with
    | none => 0
    | some r => r.mask

/-- The path of a list with the largest age, the lowest creation number on a tie (R83). -/
def oldest (ps : List Path) : Option Path :=
  ps.foldl (fun best p => match best with
    | none => some p
    | some b =>
      if b.age.ult p.age || (b.age == p.age && p.creation.ult b.creation) then some p else some b) none

/-- The path of a list with the smallest age, the highest creation number on a tie. -/
def youngest (ps : List Path) : Option Path :=
  ps.foldl (fun best p => match best with
    | none => some p
    | some b =>
      if p.age.ult b.age || (b.age == p.age && b.creation.ult p.creation) then some p else some b) none

/-- The paths that may issue: while the handler bit is set, handler paths alone (R158, R242). -/
def Team.runnable (t : Team) : List Path := t.tablePaths.filter fun p => !t.handler || p.handler

/-- The exchange of a clause boundary (R84): a folded path older than the youngest path of the table takes its
place; with no runnable path in the table, the oldest folded one is unfolded. A boundary makes one exchange, of the oldest
folded path: R84 does not say how many, nor which (DESIGN CHOICE, log 39). -/
def Team.exchange (t : Team) : Team :=
  let folded := t.paths.filter fun p => p.folded && (!t.handler || p.handler)
  match oldest folded with
  | none => t
  | some f =>
    if t.runnable.isEmpty then t.updPath f.creation fun q => { q with folded := false }
    else match youngest t.tablePaths with
    | none => t
    | some y =>
      if y.age.ult f.age then
        (t.updPath f.creation fun q => { q with folded := false }).updPath y.creation
          fun q => { q with folded := true }
      else t

/-- The issuing path of a clause boundary (R83); after TRET, the path that resumes (R159). -/
def Team.choose (t : Team) : Option Path :=
  match t.resumeAt with
  | some r => t.path? r.path
  | none => oldest t.runnable

/-- Ageing at issue (R83): the chosen path takes age 0, every other one rises by one, saturating; suspended in the
handler for the paths that do not issue (R158). -/
def Team.agePaths (t : Team) (c : Word) : Team :=
  { t with paths := t.paths.map fun p =>
      if p.creation = c then { p with age := 0 }
      else if t.handler && !p.handler then p
      else { p with age := if p.age = 0xFFFF then p.age else p.age + 1 } }

end Sys2Proof.Machine
end

