-- ==== Sys2Proof/Machine/Power.lean ====
section
/-! DEFINITION. The power allowance of a cluster (R67), the energy accounting (R68), and the passing of time. -/

namespace Sys2Proof.Machine

open Sys2Proof

/-! ### The allowance (R67) -/

/-- The clock rate of a die in Hz: its margin table and its grains give it (R9, R22); while reduced service lasts the
compute dies run at 850 MHz (R27). -/
def State.hz (s : State) (die : Nat) : Nat :=
  if s.mod.service = .reduced then 850000000 else Config.clockHz (s.die die).table (s.die die).grains

/-- The fill rate F of a holding and a clock rate, in pJ per clock. -/
def fillRate (grains hz : Nat) : Int := ((grains : Int) - 2000) * 25000000000 / (128 * hz : Nat)

/-- Clocks of a die that end in a run of ticks (R3: 1.7 × 10^9 ticks a second). -/
def clocksIn (hz a b : Nat) : Nat := b * hz / 1700000000 - a * hz / 1700000000

/-- The fill rate `k` steps of 100 ticks after a change of holding: 17 equal steps lead to the new value. -/
def Cluster.rate (c : Cluster) (k : Nat) : Int := c.fill + (c.target - c.fill) * (min 17 k : Nat) / 17

/-- What is kept of an allowance: it never leaves −65,536 to 65,536. -/
def clampAllowance (a : Int) : Int := clamp (-65536) 65536 a

/-- The allowance at a tick: the fill of every clock since the last reckoning, step by step of a change. -/
def Cluster.filled (c : Cluster) (hz : Nat) (now : DWord) : Cluster :=
  let from' := c.fillTick.toNat
  let fin := now.toNat
  let c0 := c.changed.toNat
  let add (a : Int) (k : Nat) : Int :=
    let lo := max from' (c0 + 100 * k)
    let hi := if k = 17 then fin else min fin (c0 + 100 * (k + 1))
    if hi ≤ lo then a else clampAllowance (a + c.rate k * clocksIn hz lo hi)
  { c with allowance := (List.range 18).foldl add c.allowance, fillTick := now }

/-- Bring the allowance of a cluster up to now. -/
def State.settlePower (s : State) (cluster : Nat) : State :=
  s.updCluster cluster fun c => c.filled (s.hz (dieOfCluster cluster)) s.now

/-- Charge a cluster an energy in pJ. -/
def State.charge (s : State) (cluster : Nat) (pj : Nat) : State :=
  (s.settlePower cluster).updCluster cluster fun c => { c with allowance := clampAllowance (c.allowance - pj) }

/-- The clusters of a die. -/
def clustersOf (die : Nat) : List Nat := (List.range 128).map (128 * die + ·)

/-- A die's holding changes: the fill rate of its clusters moves to its new value from now on. -/
def State.setGrains (s : State) (die grains : Nat) : State :=
  if 12 ≤ die then s.updDie die fun d => { d with grains := grains }
  else
    let s1 := (clustersOf die).foldl State.settlePower s
    let s2 := s1.updDie die fun d => { d with grains := grains }
    (clustersOf die).foldl (fun u k => u.updCluster k fun c =>
      { c with fill := c.rate ((s.now - c.changed).toNat / 100), changed := s.now,
               target := fillRate grains (s2.hz die) }) s2

/-! ### Energy (R68) -/

/-- The contexts of the team slots of a cluster. -/
def State.slotContexts (s : State) (c : Cluster) : List Nat :=
  c.slots.filterMap fun e => (s.crews.get? e.2.crew).map (·.ctx)

/-- Samples of every cluster, `n` of them. -/
def State.sample (s : State) (n : Nat) : State :=
  let count (c : Cluster) : Tbl Nat :=
    (s.slotContexts c).foldl (fun t x => Tbl.write 0 t x (Tbl.read 0 t x + n)) c.samples
  { s with clusters := s.clusters.map fun (e : Nat × Cluster) => (e.1, { e.2 with samples := count e.2 }) }

/-- The context with the most samples, the lowest number first. -/
def mostSamples (t : Tbl Nat) : Option (Nat × Nat) :=
  t.foldl (fun b e => match b with
    | none => some e
    | some b => if b.2 < e.2 then some e else some b) none

/-- The window of 170,000 ticks of every cluster ends: its samples wait for the measured energy. -/
def State.endWindow (s : State) : State :=
  { s with clusters := s.clusters.map fun (e : Nat × Cluster) =>
      (e.1, if e.2.samples.isEmpty then e.2 else { e.2 with samples := [], due := e.2.due ++ [e.2.samples] }) }

/-- Divide an energy in nJ among the contexts of a window by their samples; the remainder goes to the one with the
most. -/
def State.shareEnergy (s : State) (t : Tbl Nat) (e : Nat) : State :=
  let total := (t.map (·.2)).foldl (· + ·) 0
  match mostSamples t with
  | none => s
  | some top =>
    let share (k : Nat) : Nat := e * k / total
    let rest := e - (t.map fun x => share x.2).foldl (· + ·) 0
    t.foldl (fun u x => u.updContext x.1 fun c =>
      { c with energy := c.energy + BitVec.ofNat 64 (share x.2 + if x.1 = top.1 then rest else 0) }) s

/-- Multiples of `k` in (a, b]. -/
def multiples (k a b : Nat) : Nat := b / k - a / k

/-- Ticks pass up to `fin`: samples every 100 ticks, and a window's end every 170,000. -/
def State.passTo (s : State) : Nat → Nat → State
  | 0, fin => { s.sample (multiples 100 s.now.toNat fin) with now := BitVec.ofNat 64 fin }
  | k + 1, fin =>
    let edge := (s.now.toNat / 170000 + 1) * 170000
    let s1 := { s.sample (multiples 100 s.now.toNat edge) with now := BitVec.ofNat 64 edge }
    State.passTo s1.endWindow k fin

/-- Some ticks pass. -/
def State.elapse (s : State) (ticks : Nat) : State :=
  s.passTo (multiples 170000 s.now.toNat (s.now.toNat + ticks)) (s.now.toNat + ticks)

end Sys2Proof.Machine
end

