-- ==== Sys2Proof/Machine/Snap.lean ====
section
/-! DEFINITION. The device snapshot (R170): what each block latches, and who may freeze it. -/

namespace Sys2Proof.Machine

open Sys2Proof

def Wait.code : Wait → Nat
  | .sleep _ => 1 | .word .. => 2 | .bar .. => 3 | .gbar _ => 4 | .phase _ => 5 | .epoch .. => 6 | .shoot .. => 7
  | .spawn .. => 8 | .tsPlace => 9 | .fetch .. => 12 | .fetchRemote .. => 13
  | .debug => 14

def CrewState.code : CrewState → Nat
  | .claimed => 0 | .loading => 1 | .resident => 2 | .stopping => 3 | .saved => 4 | .retired => 5

def QState.code : QState → Nat
  | .active => 0 | .stopped => 1 | .destroyed => 2

/-- The issuing path's program counter, the path count and the wait state of a slot. -/
def State.snapSlot (s : State) (cl : Nat) (e : Nat × Party) : Option SnapSlot :=
  match s.team? e.2, s.crews.get? e.2.crew with
  | some t, some c => some
    { cluster := cl, slot := e.1, ctx := c.ctx, pc := (t.choose.map (·.pc)).getD 0, paths := t.paths.length,
      waits := (t.th.waits.map Wait.code).getD 0 0 }
  | _, _ => none

/-- What the blocks latch (R170). -/
def State.capture (s : State) (owner : Nat) : Snapshot :=
  { owner := owner, tick := s.now,
    slots := s.clusters.flatMap fun k => k.2.slots.filterMap (s.snapSlot k.1),
    clusters := s.clusters.map fun k =>
      (k.1, k.2.pointer, (k.2.filled (s.hz (dieOfCluster k.1)) s.now).allowance),
    cupel := s.cores.filterMap fun c => match c.2.cupel with
      | [] => none
      | o :: _ => some (c.1, o.ctx, o.opId, o.step, o.next, o.dross),
    copy := s.cores.filterMap fun c => match c.2.copies with
      | [] => none
      | o :: _ => some (c.1, o.ctx, o.transfer, o.unit, o.promise),
    queues := s.queues.map fun q => (q.1, q.2.ctx, q.2.wi, q.2.ri, q.2.state.code,
      (s.packets.filter fun p => p.2.queue == q.1).length),
    crews := s.crews.map fun c => (c.1, c.2.ctx, c.2.state.code, c.2.state == .stopping || c.2.state == .saved),
    ports := s.ports.map fun p => (p.1, p.2.txSeq.toNat, p.2.ack.toNat, p.2.replays),
    channels := s.freeCount }

/-- Memory channels: 128 of each NCS stack and 32 of LPDDR6 (R11). Each shows a queue depth and an error count; the model
performs an access in one step and says no value of either: free values (log 24). -/
def memChannels : Nat := 12 * 128 + 32

/-- The session a trigger acts for: one that armed the source (R170). -/
def State.armed (s : State) (src : SnapSource) : Option Nat :=
  match src with
  | .snap ctx => (s.sessions.find? fun e => e.2.ctx == ctx && e.2.mask.getLsbD 0).map (·.1)
  | .trap ctx => (s.sessions.find? fun e => e.2.ctx == ctx && e.2.mask.getLsbD 1).map (·.1)
  | .debug k => (s.sessions.find? fun e => e.1 == k && e.2.mask.getLsbD 2).map (·.1)
  | .pin => (s.sessions.find? fun e => e.2.mask.getLsbD 3).map (·.1)

/-- A trigger freezes the snapshot when it is not frozen and a session armed the source (R170). -/
def State.trigger (s : State) (src : SnapSource) : State :=
  match s.snapshot, s.armed src with
  | none, some k => { s with snapshot := some (s.capture k), freeCount := s.freeCount + 2 * memChannels }
  | _, _ => s

end Sys2Proof.Machine
end

