-- ==== Sys2Proof/Machine/Ops.lean ====
section
/-! DEFINITION. The operations every meaning shares: visibility of ranges (R118 to R122), barriers and the tree's
arrivals (R64, R326, R168), collective copies (R335), retirement and halts (R82, R167), taking a trap and returning
from one (R158, R159), the checks of an instruction in the order of R157 and R230, and its completion. -/

namespace Sys2Proof.Machine

open Sys2Proof

/-- How an instruction ends without its effect: it traps, it holds the issue slot, or it consumes an uncorrectable
error (R167). -/
inductive Stop where
  | trap (t : Trap)
  | hold (h : Hold)
  | poison
  deriving DecidableEq, Repr

abbrev Res (α : Type) := Except Stop α

/-! ### Ranges and visibility -/

/-- The physical place of a page, whatever it permits (R120, R316): none when it is unmapped. -/
def State.resolve (s : State) (g : Agent) (p : DWord) : Option Phys :=
  let r := s.region g.ctx (rid p)
  if !canonical p || !regionV r || vpage p < regionBase r || regionLimit r < vpage p then none
  else
    let use (e : BitVec 128) (large : Bool) (a : Nat) : Phys :=
      { addr := globalAddr s.node (leafNode e) (leafAddr e large (va p)), tier := leafTier e, fmt := leafFmt e,
        geom := leafGeom e, pm := leafPM e, node := leafNode e, gen := leafGen e, leafAt := a, leaf := e }
    match s.tlbFind g.core g.ctx (vpage p) false with
    | some e => some (use e.leaf e.large e.leafAt)
    | none => match s.walk g.ctx (va p) with
      | .error _ => none
      | .ok (e, a, large) => some (use e large a)

/-- The pieces of a pointer range, page by page: pointer and length (at most 2^24 pages, R118); an empty range has none. -/
def rangePieces (base : DWord) (len : Nat) : List (DWord × Nat) :=
  let o := base.toNat % 65536
  if len = 0 then [] else
  (List.range ((o + len + 65535) / 65536)).map fun i =>
    let lo := if i = 0 then o else 0
    let hi := min 65536 (o + len - i * 65536)
    (base - BitVec.ofNat 64 o + BitVec.ofNat 64 (i * 65536 + lo), hi - lo)

/-- The physical pieces of a range, read by a die; unmapped pages are skipped (R120). -/
def State.spans (s : State) (g : Agent) (die : Nat) (base : DWord) (len : Nat) : List (Nat × Nat) :=
  (rangePieces base len).filterMap fun pc => (s.resolve g pc.1).map fun x => (x.readAddr die, pc.2)

/-- Whether a line overlaps one of the pieces. -/
def inSpans (sp : List (Nat × Nat)) (line : Nat) : Bool :=
  sp.any fun a => line * 128 < a.1 + a.2 && a.1 < line * 128 + 128

/-- The agent a party's accesses come from (R87, R158). -/
def Crew.agent (c : Crew) (t : Team) (k : PartyKind) : Agent :=
  { ctx := c.ctx, core := some (coreOfCluster t.cluster), die := dieOfCluster t.cluster, handler := t.handler && k != .chaser }

def Exe.agent (x : Exe) : Agent := x.crew.agent x.team x.p.kind

/-- The object pointer of crew barrier `k` (R118). -/
def barrierObj (k : Nat) : DWord := 0xFFFF000000000000 + BitVec.ofNat 64 (8 * k)

/-- Whether a pointer names a crew barrier (R118). -/
def isBarrier (p : DWord) : Bool := decide (barrierObj 0 ≤ p ∧ p ≤ barrierObj 15)

/-- The bindings of a team: its own, then the packet's (R118). -/
def State.bindings (s : State) (crew : Crew) (t : Team) : List Binding :=
  (t.own ++ (match s.launches.get? crew.launch with | none => [] | some l => l.binds)).filter fun b => b.len != 0

/-- The physical identity of a sync object: a barrier object's pointer, or a word's global address (R117). -/
def State.objKey (s : State) (g : Agent) (p : DWord) : Option (Bool × Nat) :=
  if isBarrier p then some (true, p.toNat)
  else (s.resolve g p).map fun x => (false, x.addr)

/-- The granules of a crew's scratch, which every crew barrier carries (R119, R126). -/
def Crew.scratchSpans (c : Crew) : List (Nat × Nat) := c.granules.map fun g => (granuleAddr c.core g, 65536)

/-- The pieces of the ranges bound to an object, as a die reads them (R119, R120, R126); copy 0 is what a hub die reads. -/
def State.boundSpans (s : State) (crew : Crew) (t : Team) (die : Nat) (obj : DWord) : List (Nat × Nat) :=
  let g := crew.agent t .team
  (if isBarrier obj then crew.scratchSpans else []) ++
  (s.bindings crew t).flatMap fun b =>
    if s.objKey g b.obj == s.objKey g obj && (s.objKey g obj).isSome then s.spans g die b.base b.len.toNat else []

/-- Wait until every earlier access of a thread is performed: its loads and stores complete. -/
def State.settleParty (s : State) (p : Party) : State := (s.drainLoads p).drainStores p

/-- The thread whose accesses are the same party's (R114): the chaser of a team, and the team of a chaser. -/
def fellow (p : Party) : Option Party :=
  match p.kind with
  | .team => some { p with kind := .chaser }
  | .chaser => some { p with kind := .team }
  | .trail => none

/-- Wait until every earlier access of a team, its chaser's among them, is performed (R114, R120, R122). -/
def State.settleTeam (s : State) (p : Party) : State :=
  match fellow p with
  | none => s.settleParty p
  | some q => (s.settleParty p).settleParty q

/-- Wait until every earlier store of a team, its chaser's among them, is performed (R114, R128). -/
def State.drainTeam (s : State) (p : Party) : State :=
  match fellow p with
  | none => s.drainStores p
  | some q => (s.drainStores p).drainStores q

/-- Whether an address lies in one of some pieces. -/
def inPieces (sp : List (Nat × Nat)) (a : Nat) : Bool := sp.any fun x => x.1 ≤ a && a < x.1 + x.2

/-- The release of an object by a party: earlier accesses are performed, the bound dirty lines written back, and every copy
of a bound replicated page has taken every earlier store, those that the team has observed among them (R120, R121, R124,
R126). -/
def State.releaseObj (s : State) (p : Party) (crew : Crew) (t : Team) (obj : DWord) : State :=
  let sp := s.boundSpans crew t (dieOfCluster t.cluster) obj
  let s1 := (s.settleTeam p).writeBack t.cluster (inSpans sp)
  if s1.replicas.isEmpty then s1 else s1.spreadAt (inPieces (s.boundSpans crew t 12 obj))

/-- The acquire of an object: the bound lines of the cluster's L1 are invalidated (R120, R126). A release reaches a party
of another die only when both scopes are wider than a die (R2, R121). -/
def State.acquireObj (s : State) (crew : Crew) (t : Team) (obj : DWord) (scope : Nat) : State :=
  let sp := s.boundSpans crew t (dieOfCluster t.cluster) obj
  let released := match s.objKey (crew.agent t .team) obj with
    | some (false, a) => s.released.read 0 a
    | _ => 0
  s.invalidateAt (min scope released) t.cluster (inSpans sp)

/-- The acquire that a crew barrier's completion is, of crew scope (R126). -/
def State.acquireBar (s : State) (crew : Crew) (t : Team) (k : Nat) : State := s.acquireObj crew t (barrierObj k) 1

/-- FENCE.SC by a party at a scope (R122). -/
def State.fenceSC (s : State) (p : Party) (cluster scope : Nat) : State :=
  (s.settleTeam p).invalidateAt scope cluster fun _ => true

/-- FENCE.PT by a party (R128): the earlier PTE writes of its team are performed, and it sees leaves as they are (R130). -/
def State.fencePT (s : State) (p : Party) (die : Nat) : State := (s.drainTeam p).unview die fun _ => true

/-! ### Waits -/

/-- Drop the waits of a team that satisfy a test, in its thread and in the clause in progress. -/
def Team.dropWaits (t : Team) (f : Wait → Bool) : Team :=
  { t with th := { t.th with
      waits := t.th.waits.filter (!f ·),
      issue := t.th.issue.map fun c => { c with waits := c.waits.filter (!f ·) },
      later := t.th.later.map fun c => { c with waits := c.waits.filter (!f ·) } } }

/-- The waits a team has or will have at the end of its clauses. -/
def Team.allWaits (t : Team) : List Wait :=
  t.th.waits ++ (match t.th.issue with | none => [] | some c => c.waits) ++ t.th.later.flatMap (·.waits)

/-- A WAIT that was interrupted, as it is issued again: its words alone, at their position (R248). -/
def Wait.reissue : Wait → Option Clause
  | .word _ _ _ path hdr pos ws => some { hdr := hdr, path := path, words := List.replicate (pos - 1) 0 ++ ws, pos := pos }
  | _ => none

/-- Every WAIT of a thread is interrupted, to be issued again (R91, R248). -/
def Thread.interrupt (th : Thread) : Thread :=
  { th with waits := th.waits.filter fun w => w.reissue.isNone, again := th.again ++ th.waits.filterMap (·.reissue) }

/-- What a thread resumes of its interrupted clauses at a header, and those below it. -/
def Thread.parked (th : Thread) (hdr : DWord) : Option Clause × List Clause :=
  let rest := th.later.dropWhile (·.hdr != hdr)
  (rest.head?, rest.drop 1)

/-- Whether a resumption goes on within its clause (R159). -/
def Resume.mid (r : Resume) : Bool := !(r.retry && r.pos == 0)

/-- Whether a team stands within a clause that TRET has still to resume (R159): that is no clause boundary, so that no
boundary trap is taken there (R161) and no stop finds it (R91). -/
def Team.resuming (t : Team) : Bool := t.resumeAt.any fun r => r.mid && !r.stopped

/-- A team stands in DEBUG_STOP: stopped at a boundary by a request, or by an event that a session takes (R163). -/
def Team.debugStopped (t : Team) : Bool := t.th.waits.contains .debug || (t.stopReq && t.th.issue.isNone && !t.resuming)

/-- Write a status register, when one is named. -/
def Team.writeStatus (t : Team) (sd : Option Nat) (v : Word) : Team :=
  match sd with
  | none => t
  | some r => { t with th := t.th.writeS r v }

/-! ### Crew barriers (R326, R327, R168) -/

/-- Release a team that waits at barrier `k`, with a status. -/
def Team.releaseBar (t : Team) (k : Nat) (v : Word) : Team :=
  let t1 := t.allWaits.foldl (fun u w => match w with
    | .bar k' sd => if k' = k then u.writeStatus sd v else u
    | _ => u) t
  t1.dropWaits fun w => match w with | .bar k' _ => k' == k | _ => false

def Team.waitsBar (t : Team) (k : Nat) : Bool :=
  t.allWaits.any fun w => match w with | .bar k' _ => k' == k | _ => false

/-- Whether every team of the crew has arrived at a barrier or retired (R326). -/
def Crew.barFull (c : Crew) (k : Nat) : Bool :=
  c.teams.all fun t => t.2.retired || (c.bar k).bitmap.getLsbD t.1

/-- Complete barrier `k` when its round is full: the phase inverts, the count and bitmap return to 0, and every waiting
team is released with status 0 and acquires what it bound to the barrier (R126, R326). -/
def State.barComplete (s : State) (crew k : Nat) : State :=
  match s.crews.get? crew with
  | none => s
  | some c =>
    let b := c.bar k
    if b.count = 0 || b.abandoned || !c.barFull k then s
    else
      let s1 := s.updCrew crew fun c => c.setBar k { b with count := 0, bitmap := 0, phase := !b.phase }
      c.teams.foldl (fun u e =>
        if e.2.waitsBar k then
          (u.updCopies ⟨crew, e.1, .team⟩ fun t => t.releaseBar k 0).acquireBar c e.2 k
        else u) s1

/-- An arrival of a team at barrier `k`; its releases have been done (R326). -/
def State.barArrive (s : State) (crew team k : Nat) : State :=
  (s.updCrew crew fun c =>
    let b := c.bar k
    c.setBar k { b with count := b.count + 1, bitmap := b.bitmap ||| (1#16 <<< team) }).barComplete crew k

/-- Abandon every barrier record of a crew; waiting teams leave with BARRIER_ABANDONED, and nothing is acquired
(R168). -/
def State.abandonBars (s : State) (crew : Nat) : State :=
  let free (t : Team) : Team := (List.range 16).foldl (fun t k => t.releaseBar k 1) t
  let s1 := s.updCrew crew fun c =>
    { c with
      bars := (List.range 16).foldl (fun bs k => bs.write {} k { bs.read {} k with abandoned := true }) c.bars,
      teams := c.teams.map fun e => (e.1, free e.2) }
  { s1 with pairs := s1.pairs.map fun e =>
      if e.1 / 16 = crew then (e.1, e.2.each free) else e }

/-! ### The barrier tree (R64, R168, R348) -/

def Wait.isTree : Wait → Bool
  | .gbar _ | .phase _ | .epoch .. => true
  | _ => false

/-- A team leaves GBAR or PHASE with BARRIER_ABANDONED (R168, R348). -/
def Team.releaseTree (t : Team) : Team :=
  (t.allWaits.foldl (fun u w => match w with
    | .gbar sd => u.writeStatus (some sd) 1
    | .phase sd => u.writeStatus sd (BitVec.ofNat 32 t.phase ||| 0x80000000)
    | .epoch _ sd _ => u.writeStatus sd (BitVec.ofNat 32 t.phase ||| 0x80000000)
    | _ => u) t).dropWaits Wait.isTree

/-- Abandon the channel of a launch: every pending GBAR and PHASE of its crews completes (R168). -/
def State.abandonTree (s : State) (launch : Nat) : State :=
  match (s.launches.get? launch).bind (·.channel) with
  | none => s
  | some ch =>
    { s with
      channels := s.channels.upd ch fun c => { c with abandoned := true, arrived := [] },
      crews := s.crews.map fun e =>
        if e.2.launch = launch then
          (e.1, { e.2 with tree := [], treeArrived := none,
                           teams := e.2.teams.map fun t => (t.1, t.2.releaseTree) })
        else e,
      pairs := s.pairs.map fun e =>
        if (s.crews.get? (e.1 / 16)).any (·.launch == launch) then
          (e.1, e.2.each Team.releaseTree)
        else e }

/-- A crew arrives on its channel once every team that has not retired has executed GBAR or PHASE (R328, R348). -/
def State.treeArrive (s : State) (crew : Nat) : State :=
  match s.crews.get? crew with
  | none => s
  | some c =>
    match (s.launches.get? c.launch).bind (·.channel) with
    | none => s
    | some ch =>
      if c.tree.isEmpty || !(c.teams.all fun t => t.2.retired || c.tree.any fun a => a.1 == t.1) then s
      else
        { s.updCrew crew fun c => { c with tree := [], treeArrived := some .gbar } with
          channels := s.channels.upd ch fun x =>
            { x with arrived := x.arrived ++ (c.tree.map fun a => (crew, a.2)) } }

/-! ### Copy-engine acceptance (R331, R335) -/

/-- The rate of a latency class, in bytes per clock, by tier code; remote pages are PEER (R151, R331). -/
def tierRate (tier : Nat) (remote : Bool) : Nat :=
  if remote then 2 else match tier with | 0 => 32 | 1 => 32 | 2 => 8 | _ => 2

/-- The rate and remoteness of one end of a copy, by its first page; an unmapped page counts as NEAR. -/
def State.endRate (s : State) (ctx : Nat) (plane : Bool) (p : DWord) : Nat × Bool :=
  if plane then (32, false)
  else match s.resolve (engineAgent ctx) p with
    | none => (32, false)
    | some x => (tierRate x.tier (x.node != s.node), x.node != s.node)

/-- The duration of R331 for `len` bytes between two ends. -/
def State.copyTicks (s : State) (ctx : Nat) (sl : Slice) (len : Nat) : Nat :=
  let a := s.endRate ctx sl.sp sl.src
  let b := s.endRate ctx sl.dp sl.dst
  let r := min a.1 b.1
  2 * (256 + (len + r - 1) / r) + (if a.2 || b.2 then 3400 else 0)

/-- The later of two ticks. -/
def later (a b : DWord) : DWord := if a.ult b then b else a

/-- Move the promise of an engine record, if it has not expired and the new one is later (R335). -/
def Team.movePromise (t : Team) (op : Nat) (now p : DWord) : Team :=
  { t with engines := t.engines.map fun e =>
      if e.op = op && !e.done && !(e.promise.ult now) then { e with promise := later e.promise p } else e }

/-- The promise of an operation that is not complete becomes `p` (R28, R151). -/
def Team.setPromise (t : Team) (op : Nat) (p : DWord) : Team :=
  { t with engines := t.engines.map fun e => if e.op = op && !e.done then { e with promise := p } else e }

/-- Move the promise of an operation later by some ticks. -/
def Team.delayPromise (t : Team) (op : Nat) (d : DWord) : Team :=
  { t with engines := t.engines.map fun e => if e.op = op then { e with promise := e.promise + d } else e }

/-- The copy engine of the crew's core accepts a copy whose last slice has arrived (R329, R335). -/
def State.acceptCopy (s : State) (op : CopyOp) : State :=
  match s.crews.get? op.crew with
  | none => s
  | some c =>
    let k := s.core c.core
    let t0 := later s.now k.copyPromise
    let total := (op.slices.map (·.len)).foldl (· + ·) 0
    let p := op.slices.foldl (fun a sl => later a (t0 + BitVec.ofNat 64 (s.copyTicks op.ctx sl total))) t0
    let slices := op.slices.map fun sl => { sl with promise := if sl.promise.ult s.now then sl.promise else later sl.promise p }
    let op' := { op with promise := p, transfer := k.transfers, slices := slices }
    let s1 := s.setCore c.core { k with copies := k.copies ++ [op'], copyPromise := p, transfers := k.transfers + 1 }
    op.slices.foldl (fun u sl => u.updCopies ⟨op.crew, sl.team, .team⟩ fun t => t.movePromise sl.opId s.now p) s1

/-- Whether every team that a collective copy's masks name has a slice or has retired (R335). -/
def Crew.copyFull (c : Crew) (op : CopyOp) : Bool :=
  c.teams.all fun t => !(op.mask.testBit t.1) || t.2.retired || op.slices.any fun sl => sl.team == t.1

/-- Accept the crew's waiting collective copies whose last slice has arrived (R335). -/
def State.acceptReady (s : State) (crew : Nat) : State :=
  match s.crews.get? crew with
  | none => s
  | some c =>
    let ready := c.copies.filter fun op => c.copyFull op
    let s1 := s.updCrew crew fun c => { c with copies := c.copies.filter fun op => !(c.copyFull op) }
    ready.foldl (fun u op => u.acceptCopy op) s1

/-! ### The end of a clause -/

/-- Remove the clause in progress of a party and give up the issue slot; the latches become invalid (R78). -/
def State.dropClause (s : State) (p : Party) : State :=
  match s.team? p with
  | none => s
  | some t =>
    let s1 := s.setTeam p (t.setThread p.kind { t.thread p.kind with issue := none, latches := [] })
    let s2 := match p.kind with
      | .chaser => s1
      | _ => s1.updCluster t.cluster fun k => { k with holder := if k.holder = some p then none else k.holder }
    { s2 with turn := if s2.turn = some p then none else s2.turn }

/-- Remove the clause in progress of a party that a trap or a stop interrupts. -/
def State.parkClause (s : State) (p : Party) : State :=
  (s.updThread p fun th => { th with later := th.issue.toList ++ th.later }).dropClause p

/-- A team, or a trailing copy, blocked in a push or pop is stopped, with the operation left to be repeated (R91). -/
def State.restQueue (s : State) (p : Party) : State :=
  match p.kind, s.team? p with
  | .chaser, _ | _, none => s
  | _, some t => match t.th.issue with
    | none => s
    | some c => match c.hold with
      | some (.queue, _) => (s.parkClause p).updTeam p fun u =>
          { u with resumeAt := some { path := c.path, pos := c.pos, retry := true, stopped := true,
                                      latches := (List.range 4).map t.th.latch } }
      | _ => s

/-- A chaser stands between instructions: its accesses are performed, and its clause resumes where it is (R91). -/
def State.restChaser (s : State) (p : Party) : State :=
  match s.team? p with
  | none => s
  | some t => match t.chaser.th.issue with
    | none => s.settleParty p
    | some c =>
      let s1 := (s.settleParty p).parkClause p
      if c.again.isSome then
        s1.updThread p fun th => { th with later := th.later.drop 1, again := { c with again := none, target := none } :: th.again }
      else s1.updTeam p fun u => { u with chaser := { u.chaser with pc := c.hdr, resumePos := c.pos } }

/-- The chaser of a team in DEBUG_STOP stops with it (R91). -/
def State.debugRest (s : State) (p : Party) : State :=
  match p.kind, s.team? p with
  | .team, some t => if t.debugStopped then s.restChaser { p with kind := .chaser } else s
  | _, _ => s

/-- Where the clause at a record's address is followed (R82): after the clause at J when a header is there, else at J
itself. -/
def State.afterJoin (s : State) (g : Agent) (cluster : Nat) (j : DWord) : DWord :=
  match s.fetchWords g cluster j 1 with
  | .ok [(h, _)] => if hdrSig h then nextHeader j (hdrCount h) else j
  | _ => j

/-! ### Retirement and halts (R56, R82, R167) -/

/-- Release the pins that a launch made on a core (R234). -/
def Core.unpin (k : Core) (launch : Nat) : Core :=
  { k with pins := (k.pins.map fun e => (e.1, e.2.filter (· ≠ launch))).filter fun e => !e.2.isEmpty }

/-- Whether another crew of a launch is on a core. -/
def State.hosts (s : State) (core launch : Nat) : Bool :=
  s.crews.any fun c => c.2.core == core && c.2.launch == launch && c.2.state != .saved && c.2.state != .retired

/-- Free the tracking entry of a launch that reports zero (R57). -/
def State.freeTrack (s : State) (core launch : Nat) : State :=
  match (s.core core).track.get? launch with
  | none => s
  | some e =>
    if e.stores = 0 && e.signals = 0 && !s.hosts core launch then
      s.updCore core fun k => { k with track := k.track.del launch }
    else s

/-- The scan of a core under assay runs from now (R171). -/
def State.restartScan (s : State) (core : Nat) : State :=
  s.updDie (dieOfCore core) fun d => { d with assay := d.assay.map fun a => if a.1 = core then (a.1, a.2.1, s.now) else a }

/-- Free what a crew occupies on its core, the launch-tracking entry apart (R53, R56): slots, scratch frames (R93),
winner lists, and the launch's pins when it was the last crew there (R234). The scan of a core under assay runs from
when the last crew has left it (R171). -/
def State.freeCrew (s : State) (crew : Nat) (st : CrewState) : State :=
  match s.crews.get? crew with
  | none => s
  | some c =>
    let s1 := s.updCrew crew fun c => { c with state := st }
    let s2 := c.granules.foldl (fun u g => u.setOwner (granuleAddr c.core g / 65536) 0) s1
    let s3 := [0, 1, 2, 3].foldl (fun u i => u.updCluster (4 * c.core + i) fun k =>
      { k with slots := k.slots.filter fun e => e.2.crew != crew || e.2.kind == .trail }) s2
    let s4 := if s3.hosts c.core c.launch then s3 else s3.updCore c.core fun k => k.unpin c.launch
    s4.restartScan c.core

/-- The last team of a crew has retired (R56). Its record stays, for the copies it issued, until the launch drains. -/
def State.retireCrew (s : State) (crew : Nat) : State :=
  match s.crews.get? crew with
  | none => s
  | some c =>
    if c.state = .retired then s else ((s.keepSources crew).freeCrew crew .retired).freeTrack c.core c.launch

/-- The trailing copy of a team retires: its slot is freed (R355). -/
def State.dropPair (s : State) (p : Party) : State :=
  match s.pairs.get? (pairKey p.crew p.team) with
  | none => s
  | some q =>
    let t : Party := { p with kind := .trail }
    let s1 := (s.dropClause t).updCluster q.trail.cluster fun k => { k with slots := k.slots.del q.trail.slot }
    { s1 with pairs := s1.pairs.del (pairKey p.crew p.team) }.restartScan q.core

/-- A team retires (R82): its chaser stops and the entries it holds are discarded (R87), its stores are performed and
its cluster's dirty bytes written back (the binding of R119 to the launch's completion), barriers, the tree and
collective copies that waited for it go on, and a crew with no team left retires. -/
def State.retireTeam (s : State) (p : Party) : State :=
  match s.team? p with
  | none => s
  | some t =>
    if t.retired then s else
    let s1 := ((s.dropClause p).settleParty p).settleParty { p with kind := .chaser }
    let s2 := s1.writeBack t.cluster fun _ => true
    let s3 := s2.updTeam p fun t =>
      { t with retired := true, paths := [], joins := [], queues := [], pending := [],
               th := { t.th with waits := [], issue := none },
               chaser := { t.chaser with run := .stopped, th := { t.chaser.th with waits := [], issue := none } } }
    let s4 := (List.range 16).foldl (fun u k => u.barComplete p.crew k) s3
    let s5 := (s4.treeArrive p.crew).acceptReady p.crew
    let s6 := s5.dropPair p
    match s6.crews.get? p.crew with
    | none => s6
    | some c => if c.teams.all (·.2.retired) then s6.retireCrew p.crew else s6

/-- The rows of a list that hold unspecified bits (R155, R373): free values. -/
def freeRows (n start : Nat) : Tbl WRow :=
  (List.range n).map fun r =>
    (r, { entries := (List.range 16).map fun e => (e, Config.freeDWord (start + 17 * r + e)),
          stat := (Config.freeDWord (start + 17 * r + 16)).setWidth 32 })

/-- Leave a loop's list rows, or the tile that its team owns on the core or in its crew's image, unspecified within R373. -/
def State.spoil (s : State) (core : Nat) (o : CupelOp) : State :=
  match o.kind with
  | .topk wl =>
    let (n, s1) := s.takeFreeN (17 * o.m)
    s1.updCrew o.crew fun c => { c with
      wls := c.wls.upd wl fun rows => (freeRows o.m n).foldl (fun t e => t.put e.1 e.2) rows }
  | .dense | .bin _ =>
    let (n, s1) := s.takeFreeN 4096
    let fill (t : Tbl Word) : Tbl Word :=
      (List.range (64 * o.m)).foldl (fun t i => Tbl.write 0 t i ((Config.freeDWord (n + i)).setWidth 32)) t
    match (s1.crews.get? o.crew).bind (·.tile) with
    | some (t, int, cells) =>
      if t ≠ o.team then s1 else s1.updCrew o.crew fun c => { c with tile := some (t, int, fill cells) }
    | none =>
      if (s.core core).tileOwner ≠ some (o.crew, o.team) then s
      else s1.updCore core fun k => { k with tile := fill k.tile }
  | _ => s

/-- A halted team's Cupel operations complete with CANCELLED, when the engine reaches them (R155, R167). -/
def State.cancelCupel (s : State) (crew team : Nat) : State :=
  let mark (o : CupelOp) : CupelOp := if o.crew = crew && o.team = team then { o with cancelled := true } else o
  match s.crews.get? crew with
  | none => s
  | some c => (s.updCore c.core fun k => { k with cupel := k.cupel.map mark }).updCrew crew fun c =>
      { c with cupel := c.cupel.map mark }

/-- The copies that a team blocks on a fault complete with FAULT when it halts (R335): the resume record goes and the
engine meets the fault again as one that ends the copy. -/
def State.unblockCopies (s : State) (crew team : Nat) : State :=
  { s with cores := s.cores.map fun e => (e.1, { e.2 with copies := e.2.copies.map fun o =>
      match o.resume with
      | some (t, a) => if o.crew = crew && t = team then { o with resume := some (16, a) } else o
      | none => o }) }

/-- A team is halted (R167, R168). -/
def State.haltTeam (s : State) (p : Party) : State :=
  match s.crews.get? p.crew with
  | none => s
  | some c =>
    let lead : Party := { p with kind := .team }
    let s1 := s.updLaunch c.launch fun l => { l with halt := match l.halt with
      | none => some (s.now, c.lin, p.team)
      | some (a, b, d) => if a = s.now && c.lin < b then some (s.now, c.lin, p.team) else some (a, b, d) }
    let s2 := (s1.dropClause p).dropClause lead
    let s3 := s2.updTeam lead fun t => { t with halted := true, exited := t.launched }
    let s4 := ((s3.cancelCupel p.crew p.team).unblockCopies p.crew p.team).abandonBars p.crew
    (s4.abandonTree c.launch).retireTeam lead

/-- A team is halted for a cause (R156, R167); the first cause stays. -/
def State.haltFor (s : State) (c : HaltCause) (p : Party) : State :=
  (s.updTeam { p with kind := .team } fun t => { t with haltCause := t.haltCause.or (some c) }).haltTeam p

/-! ### Taking a trap and returning from one (R156 to R159, R163) -/

/-- tstat (R161). -/
def Trap.tstat (t : Trap) : Word :=
  let low := t.mask.lanes 1024 |>.head?
  let c := match low.bind fun l => t.causes.get? l with
    | some c => c
    | none => t.cause
  c.cls.code ++ (c.code ++ (BitVec.ofNat 4 t.pos ++ (BitVec.ofNat 2 t.origin ++
    (BitVec.ofBool t.retry ++ (0 : BitVec 9)))))

/-- The frame a trap writes (R158, R160). -/
def Trap.frame (tr : Trap) (t : Team) (path : Path) : Frame :=
  { tstat := tr.tstat, tpc := tr.tpc, tinfo := tr.info, tpath := path.creation, mask := tr.mask,
    addr := tr.addr.filter fun e => tr.mask.lane e.1,
    cause := (tr.mask.lanes 1024).map fun l => (l, ((tr.causes.get? l).getD tr.cause).code),
    gen := tr.gen.filter fun e => tr.mask.lane e.1,
    latches := (List.range 4).map t.th.latch, exec := path.mask, part := t.part, xv := t.xv, xs := t.xs,
    again := t.th.again }

/-- The lowest-numbered debug session of a context. -/
def State.sessionOf (s : State) (ctx : Nat) : Option Nat := ((s.sessions.filter fun e => e.2.ctx == ctx).map (·.1)).min?

/-- The classes a debug session can take in the place of the handler (R163). -/
def TrapClass.debug : TrapClass → Bool
  | .breakpoint | .watchpoint | .step => true
  | _ => false

/-- Resume a team from its frame (R159), as TRET does and as a debug RELEASE does (R164): exec, part, xv and xs come
back, issue resumes at tpc and POS, the WAITs that the trap interrupted are to be issued again (R248), and a breakpoint's or
watchpoint's retry sets SKIP (R163). -/
def Team.resumeFrame (t : Team) (c : Word) : Team :=
  let f := t.frame
  let cls := f.tstat.extractLsb' 24 8
  let skip := cls == 0x0B || cls == 0x0C
  { t.updPath c fun q => { q with mask := f.exec &&& ~~~t.exited, pc := f.tpc, handler := false, seq := false } with
    th := { t.th with again := f.again }, handler := false, part := f.part, xv := f.xv, xs := f.xs,
    stepctl := if skip then t.stepctl ||| 4 else t.stepctl,
    resumeAt := some { path := c, pos := (f.tstat.extractLsb' 12 4).toNat, retry := f.tstat.getLsbD 9,
                       latches := f.latches } }

/-- A DEBUG_STOP team goes on: from its frame, as TRET would, when an event stopped it; else from where it is, its WAITs
issued again (R91). -/
def Team.debugRelease (t : Team) : Team :=
  let t1 : Team := { t with stopReq := false, session := none, th := t.th.interrupt,
                            paths := t.paths.map fun p => { p with seq := false } }
  if t.th.waits.contains .debug then (t1.dropWaits (· == .debug)).resumeFrame t.frame.tpath else t1

/-- Take a trap on the path with creation number `c` (R158): the frame, the saved latches and masks, the handler bit,
the trap mask in exec, and the handler's entry. With no handler entry the team halts; in the handler it halts with
DOUBLE_TRAP; with stepctl.DBG a debug-class event stops the team in DEBUG_STOP. A chaser's trap stops the chaser and
is delivered to its team (R87). -/
def takeTrap (p : Party) (c : Word) (tr : Trap) (s : State) : State :=
  match s.crews.get? p.crew, s.team? p with
  | some crew, some t =>
    match p.kind with
    | .chaser =>
      (s.parkClause p).updTeam p fun u =>
        { u with chaser := { u.chaser with run := .faulted, pc := tr.tpc, resumePos := tr.pos, seq := false },
                 pending := u.pending ++ [{ tr with origin := 1 }] }
    | _ =>
      match t.path? c with
      | none => s
      | some path =>
        let entry := match s.contexts.get? crew.ctx with | none => 0 | some x => x.handler
        let s0 := (if tr.cause.cls = .translation then s.unview (dieOfCluster t.cluster) fun _ => true else s).trigger
          (.trap crew.ctx)
        if t.handler then s0.haltFor .doubleTrap p
        else if tr.cause.cls.debug && t.stepctl.getLsbD 1 then
          let stop (u : Team) : Team :=
            { u with frame := tr.frame t path, session := u.session.or (s0.sessionOf crew.ctx),
                     th := { u.th with waits := u.th.waits ++ [.debug], again := [] } }
          -- a trailing copy takes the event where the leading one did, and goes on as the release does (R371; log 19)
          if p.kind = .trail then (s0.parkClause p).updTeam p fun u => (stop u).debugRelease
          else ((s0.parkClause p).updTeam p stop).debugRest p
        else if entry = 0 then s0.haltFor .halted p
        else
          (s0.parkClause p).updTeam p fun u =>
            { u.updPath c fun q => { q with mask := tr.mask, pc := entry, handler := true, seq := false } with
              frame := tr.frame t path, handler := true, th := { u.th with again := [] } }
  | _, _ => s

/-- A copy goes on from its resume record: the ticks it was blocked are added to its promises (R335). -/
def State.resumeCopy (s : State) (core : Nat) (o : CopyOp) : State :=
  let d : DWord := match o.since with | some a => s.now - a | none => 0
  let o' := { o with resume := none, since := none, promise := o.promise + d,
                     slices := o.slices.map fun sl => { sl with promise := sl.promise + d } }
  let s1 := s.updCore core fun k =>
    { k with copies := k.copies.map (fun c => if c = o then o' else c), copyPromise := later k.copyPromise o'.promise }
  o.slices.foldl (fun u sl => u.updCopies ⟨o.crew, sl.team, .team⟩ fun t => t.delayPromise sl.opId d) s1

/-- The copies that a team blocks resume (R335). -/
def State.resumeCopies (s : State) (crew team : Nat) : State :=
  s.cores.foldl (fun u e => (e.2.copies.filter fun o =>
    o.crew == crew && o.resume.any fun r => r.1 == team).foldl (fun u o => u.resumeCopy e.1 o) u) s

/-- Return from a trap (R159, R242): with more than one handler path the team halts with DOUBLE_TRAP. Barrier records
that TRST filled complete (R165), and a copy blocked on a fault of the team resumes (R335). -/
def returnFromTrap (p : Party) (c : Word) (s : State) : State :=
  match s.team? p with
  | none => s
  | some t =>
    if 1 < (t.paths.filter (·.handler)).length then s.haltFor .doubleTrap p
    else
      let s1 := (s.dropClause p).updTeam p fun u => u.resumeFrame c
      let s2 := (List.range 16).foldl (fun u k => u.barComplete p.crew k) s1
      if (t.frame.tstat.extractLsb' 10 2) == 2 then s2.resumeCopies p.crew p.team else s2

/-! ### The checks of an instruction (R157, R230) -/

/-- The instructions a chaser may execute (R87). -/
def chaserMay (i : Instr) (p : Parts) : Bool :=
  match i with
  | .bra _ | .brc _ | .call _ | .ret _ | .loop _ | .jmpi _ | .exit _ | .yield _ | .sleep _ | .wait _ | .nop _
  | .smov _ | .smovi _ | .sadd _ | .ssub _ | .smul _ | .smulh _ | .smad _ | .sdiv _ | .srem _ | .sand _ | .sor _
  | .sxor _ | .sshl _ | .sshr _ | .ssar _ | .smin _ | .smax _ | .scmp _ | .ssel _ | .sclz _ | .spopc _ | .sbfe _
  | .sbfi _ | .sadd64 _ | .acq _ | .rel _ | .fence _ | .atom _ | .cas _ | .pref _ => true
  | .ld _ | .st _ | .ldg _ | .stg _ => p.fx != 2
  | .srd _ => 0x03 ≤ p.s && p.s ≤ 0x18
  | .qpush _ | .qpop _ => p.s ≤ 1
  | _ => false

/-- The instructions allowed only in the supervisor handler (R325, R349). -/
def privileged (i : Instr) : Bool :=
  match i with
  | .shoot _ | .tret _ | .trld _ | .trst _ | .bpset _ | .wpset _ | .step _ | .finj _ => true
  | _ => false

/-- SPECIAL_REG outside the handler, then CONTEXT (R73, R230, orders 5 and 6). -/
def contextFault (x : Exe) (i : Instr) : Option Cause :=
  let special := match i with
    | .srd _ | .swr _ => 0x20 ≤ x.parts.s
    | _ => false
  if special && !(x.team.handler && !x.ch) then some .specialReg
  else if x.ch && !chaserMay i x.parts then some .context
  else if privileged i && !x.team.handler then some .context
  else match i with
    | .phase _ => if x.launch.co then none else some .context
    | _ => none

/-- The instructions that act in the lanes of their effective mask, so that an empty one leaves them without effect
(R79, R236, R263, R283, R305, R306). -/
def perLane (i : Instr) (p : Parts) : Bool :=
  match i with
  | .brm _ | .exit _ | .ld _ | .st _ | .ldg _ | .stg _ | .ldp _ | .stp _ | .kvld _ | .pref _ | .atom _ | .cas _
  | .cas128 _ | .spawn _ => true
  | .srd _ => specialPerLane p.s
  | .qpush _ | .qpop _ => 2 ≤ p.s
  | .dspan _ | .wlalloc _ | .wlfree _ | .wlclr _ | .wlmerge _ | .wlst _ | .wlld _ => false
  | .vadd _ | .vsub _ | .vmul _ | .vmulh _ | .vmad _ | .vand _ | .vor _ | .vxor _ | .vnot _ | .vshl _ | .vshr _
  | .vsar _ | .vmin _ | .vmax _ | .vabs _ | .vcmp _ | .vsel _ | .vclz _ | .vpopc _ | .vbfe _ | .vbfi _ | .vperm _
  | .vdot4 _ | .fadd _ | .fsub _ | .fmul _ | .fma _ | .fnma _ | .fmin _ | .fmax _ | .fneg _ | .fabs _ | .fcmp _
  | .fclass _ | .fscale _ | .frcp _ | .frsq _ | .fsqrt _ | .fexp2 _ | .flog2 _ | .fsin _ | .fcos _ | .ftanh _
  | .cvt _ | .cvtn _ | .cvtw _ | .qnt _ | .dqnt _ | .shfl _ | .shflu _ | .shfld _ | .shflx _ | .vote _ | .ballot _
  | .vred _ | .vscan _ | .tred _ | .bcast _ | .compact _ | .vrand _ | .dcvt _ | .dexp _ | .ddot _ | .ddotf _
  | .dscal _ | .dadd _ | .dsub _ | .dmix _ | .dneg _ | .dmov _ | .dnrd _ | .dnwr _ | .dzero _ | .dld _ | .dst _
  | .wlins _ | .vtopk _ | .wlrd _ | .ssect _ | .pksi _ | .unpksi _ | .gwnorm _ | .smxacc _ | .smxfin _ => true
  | _ => false

/-- The effective mask (R78): exec, ANDed with the predicate mask or its complement where the instruction is predicated.
A team-uniform instruction acts whatever the mask holds: its mask is exec. -/
def effMask (i : Instr) (p : Parts) (t : Team) (exec : Mask) : Mask :=
  if !perLane i p || !p.md.pe then exec
  else
    let m := t.readM p.md.pmk.toNat
    exec &&& (if p.md.pn then ~~~m else m)

/-- A trap of the instruction: its cause and detail, its mask (R158), its position. -/
def Exe.trapOf (x : Exe) (c : Cause) (info : Word := 0) : Trap :=
  { cause := c, mask := x.eff, pos := x.cl.pos, tpc := x.cl.hdr, info := info }

/-- The first register of an operand. -/
def Exe.first (x : Exe) (o : Opnd) : Nat := o.fixed.getD (x.regNum o.cls (x.parts.at o.pos))

/-- Whether an operand names a register of its class. -/
def Exe.holds (x : Exe) (o : Opnd) (r : Nat) : Bool :=
  (o.fixed.isSome || !x.isLatch o) && decide (x.first o ≤ r) && decide (r < x.first o + o.len)

/-- The registers an instruction names, as the scoreboard sees them (R223). -/
def Exe.names (x : Exe) (ops : List Opnd) (k : Cls) (r : Nat) : Bool :=
  ops.any fun o => (match o.cls with | .d => Cls.v | c => c) == k && x.holds o r

/-- Whether a register write of a load touches a register the instruction names. -/
def Exe.awaitsWrite (x : Exe) (ops : List Opnd) : RegWrite → Bool
  | .lane r _ _ => x.names ops .v r || (decide (r < 32) && x.names ops .n r)
  | .scalar r _ => x.names ops .s r
  | .norm r _ _ => x.names ops .v r || x.names ops .n r

/-- The winner lists an instruction names (R153, R294). -/
def Exe.listNamed (x : Exe) (ops : List Opnd) : Option Nat :=
  (ops.find? fun o => o.cls == .wl).map fun o => base (x.parts.at o.pos)

/-- Whether a load in flight must complete before the instruction issues (R223, R294). -/
def Exe.awaitsLoad (x : Exe) (ops : List Opnd) : Bool :=
  x.th.loads.any fun ld =>
    ld.writes.any (x.awaitsWrite ops) || (match ld.list with | none => false | some (k, _) => x.listNamed ops == some k)

/-- Whether the instruction reads or writes a status pair, or a register of an epilogue, that an engine has still to
write, or a winner list that an accepted loop writes (R152, R153, R329, R342). -/
def Exe.awaitsEngine (x : Exe) (s : State) (ops : List Opnd) : Bool :=
  !x.ch && (
    (x.team.engines.any fun e => !e.done && (x.names ops .s e.quad || x.names ops .s (e.quad + 1))) ||
    ((s.core x.crew.core).cupel.any fun o =>
      (match o.kind with
       | .epiReg _ r => o.crew == x.p.crew && o.team == x.p.team &&
           (List.range ((64 * o.m + x.nlanes - 1) / x.nlanes)).any fun i =>
             x.names ops .v (r + i) || (decide (r + i < 32) && x.names ops .n (r + i))
       | .topk wl => o.crew == x.p.crew && x.listNamed ops == some wl
       | _ => false)))

/-- CALL, RET and JMPI.LINK use the link pair, which a team with fewer than two scalar registers lacks (R243). -/
def usesLink (i : Instr) (p : Parts) : Bool :=
  match i with
  | .call _ | .ret _ => true
  | .jmpi _ => p.fx == 1
  | _ => false

/-- The first register of the link pair (R243). -/
def Exe.linkReg (x : Exe) : Nat := (x.allot .s - 2) / 2 * 2

/-- The registers that an instruction uses although no operand field names them: the link pair (R243), the predicate (R78),
its window, and the norms that DSPAN marks (R284). -/
def Exe.implicit (x : Exe) (i : Instr) : List Opnd :=
  let one (k : Cls) (r n : Nat) (dst : Bool) : List Opnd := [{ pos := .d, cls := k, len := n, dst := dst, fixed := some r }]
  (if usesLink i x.parts then one .s x.linkReg 2 (match i with | .ret _ => false | _ => true) else []) ++
  (if perLane i x.parts && x.parts.md.pe then one .m x.parts.md.pmk.toNat 1 false else []) ++
  (if (ruleOf x.ch i x.parts).useWin && !x.ch then one .w x.parts.win.toNat 1 false else []) ++
  (match i with | .dspan _ => one .n 0 32 true | _ => [])

/-- The registers whose loads an instruction awaits (R223): what it names and uses, and the registers that a SPAWN's records
may take, 8 of them at most. -/
def Exe.loadOps (x : Exe) (i : Instr) : List Opnd :=
  (ruleOf x.ch i x.parts).ops ++ x.implicit i ++
    match i with | .spawn _ => [{ pos := .b, cls := .v, len := 8 }] | _ => []

/-- The node of a context with a key (R59). -/
def State.findNode (s : State) (ctx : Nat) (key : DWord) : Option Nat :=
  (s.nodes.find? fun e => e.2.ctx == ctx && e.2.key == key).map (·.1)

/-- The node that A names (R344, R345). -/
def Exe.node (x : Exe) (s : State) : Option Nat := s.findNode x.crew.ctx (x.pair x.parts.a)

/-- The registers that a SPAWN reads from v(B) on: its record's, where the team has them all (R344). -/
def Exe.recordOps (x : Exe) (s : State) (i : Instr) : List Opnd :=
  match i with
  | .spawn _ => (((x.node s).bind s.nodes.get?).toList.map fun n =>
      ({ pos := .b, cls := .v, len := (n.recSize + 3) / 4, latch := false } : Opnd)).filter fun o =>
        decide (x.regNum .v x.parts.b + o.len ≤ x.launch.vregs)
  | _ => []

/-- The registers whose engine results an instruction awaits (R223): TBRD.PROM names a quad without reading it (R356). -/
def Exe.engineOps (x : Exe) (s : State) (i : Instr) : List Opnd :=
  (match i with
   | .tbrd _ => (ruleOf x.ch i x.parts).ops.filter (·.dst)
   | _ => (ruleOf x.ch i x.parts).ops) ++ x.implicit i ++ x.recordOps s i

/-- The other teams of the crew that still load the winner list an instruction names (R294). -/
def Exe.listLoaders (x : Exe) (ops : List Opnd) : List Party :=
  match x.p.kind, x.listNamed ops with
  | .trail, _ => []
  | _, none => []
  | _, some k => (x.crew.teams.filter fun t => t.1 != x.p.team && t.2.th.loads.any fun ld =>
      match ld.list with | none => false | some e => e.1 == k).map fun t => { x.p with team := t.1, kind := .team }

/-- The loads that an instruction awaits complete (R223, R294). -/
def Exe.settleLoads (x : Exe) (ops : List Opnd) (s : State) : State :=
  (x.listLoaders ops).foldl (fun u q => u.drainLoads q) (if x.awaitsLoad ops then s.drainLoads x.p else s)

/-- Whether an instruction reads its vector sources in a lane: an active one, and the lane that BCAST names (R280). -/
def Exe.readsLane (x : Exe) (i : Instr) (l : Nat) : Bool :=
  x.eff.lane l || match i with | .bcast _ => l == x.sB.toNat | _ => false

/-- Whether an instruction writes a vector destination in a lane: an active one, or for COMPACT the first lanes of each tile,
as many as its active ones (R281). -/
def Exe.writesLane (x : Exe) (i : Instr) (l : Nat) : Bool :=
  match i with
  | .compact _ =>
    let k := x.team.part
    decide (l % k < ((List.range k).filter fun j => x.eff.lane (l / k * k + j)).length)
  | _ => x.eff.lane l

/-- Whether an operand the instruction reads holds an uncorrectable error (R167). -/
def Exe.poisoned (x : Exe) (s : State) (i : Instr) : Bool :=
  let ops := (ruleOf x.ch i x.parts).ops ++ x.implicit i ++ x.recordOps s i
  let reads (k : Cls) (r : Nat) : Bool := ops.any fun o => (!o.dst || o.rd) && o.cls == k && x.holds o r
  s.poison.any fun e => match e with
    | .vreg p r l => p == x.p && (reads .v r || reads .d r) && x.readsLane i l
    | .sreg p r => p == x.p && reads .s r
    | .mask p r => p == x.p && reads .m r
    | .norm p r => p == x.p && (reads .n r || reads .d r)
    | .window p r => p == x.p && reads .w r
    | .queue p r => p == x.p && reads .q r
    | _ => false

/-- What an instruction writes afresh holds no error any more; a mask register that it writes in some lanes alone keeps its
own. -/
def Exe.cleanse (x : Exe) (i : Instr) (s : State) : State :=
  let ops := (ruleOf x.ch i x.parts).ops ++ x.implicit i
  let whole := !perLane i x.parts || x.eff &&& x.team.launched = x.team.launched
  let writes (k : Cls) (r : Nat) : Bool := !x.parts.w && ops.any fun o => o.dst && o.cls == k && x.holds o r
  { s with poison := s.poison.filter fun e => match e with
    | .vreg p r l => !(p == x.p && (writes .v r || writes .d r) && x.writesLane i l)
    | .sreg p r => !(p == x.p && writes .s r)
    | .mask p r => !(p == x.p && writes .m r && whole)
    | .norm p r => !(p == x.p && (writes .n r || writes .d r))
    | .window p r => !(p == x.p && writes .w r)
    | _ => true }

/-- ALLOTMENT, ILLEGAL_OPERAND and STALE_LATCH of the operand fields, in the order of R157; `oc` gives the further
ILLEGAL_OPERAND conditions of the instruction. -/
def Exe.operandStop (x : Exe) (i : Instr) (ops : List Opnd) (oc : Option Cause) : Option Trap :=
  match (if usesLink i x.parts && x.allot .s < 2 then some 1 else none).or (ops.findSome? x.allotFault) with
  | some r => some (x.trapOf .allotBounds (BitVec.ofNat 32 r))
  | none =>
    match ops.findSome? x.operandFault with
    | some c => some (x.trapOf c)
    | none =>
      if ops.any (fun o => x.latchFault o == some .vector) then some (x.trapOf .general)
      else match oc with
      | some c => some (x.trapOf c)
      | none =>
        match ops.findSome? (fun o => match x.latchFault o with | some (.stale k) => some k | _ => none) with
        | some k => some (x.trapOf .stale (BitVec.ofNat 32 k))
        | none => none

/-- The instruction in progress of the party whose turn it is, as `exec` sees it. PE = 1 on a chaser's memory form is
accepted and has no effect, since a chaser's effective mask is 1: R87 does not say (DESIGN CHOICE, log 39). -/
def State.issuer? (s : State) (i : Instr) : Option Exe :=
  match s.turn with
  | none => none
  | some p =>
    match s.crews.get? p.crew, s.team? p with
    | some crew, some t =>
      match s.launches.get? crew.launch, (t.thread p.kind).issue with
      | some l, some cl =>
        let parts := (partsOf i).getD {}
        let exec := (t.path? cl.path).elim 0 (·.mask)
        let ch := p.kind == .chaser
        some { p := p, launch := l, crew := crew, team := t, th := t.thread p.kind, cl := cl, parts := parts,
               eff := if ch then 1 else effMask i parts t exec, exec := exec, ch := ch, now := s.now }
      | _, _ => none
    | _, _ => none

/-- The instruction at which a party's clause stands, as its execution would see it. -/
def State.standing? (s : State) (p : Party) : Option (Instr × Exe) :=
  match s.team? p with
  | none => none
  | some t => match (t.thread p.kind).issue with
    | none => none
    | some c => match c.instr with
      | .error _ => none
      | .ok i => ({ s with turn := some p }.issuer? i).map fun x => (i, x)

/-- The view of the same instruction after the state has changed. -/
def State.refresh (s : State) (x : Exe) : Exe :=
  match s.crews.get? x.p.crew, s.team? x.p with
  | some c, some t => { x with crew := c, team := t, th := t.thread x.p.kind }
  | _, _ => x

/-- How many words an instruction takes (R220). -/
def Parts.words (p : Parts) : Nat := 1 + p.m.isSome.toNat + p.lit.isSome.toNat

/-- The clause of a party has ended: control goes to its target or falls through, the waits that its instructions
asked for begin, SKIP is cleared, STEP falls due, and HALT, YIELD and a chaser's EXIT act (R78, R163, R238, R246,
R350). A WAIT that was issued again alone (R248) is no clause of its own. -/
def State.endClause (s : State) (p : Party) : State :=
  match s.team? p with
  | none => s
  | some t =>
    match (t.thread p.kind).issue with
    | none => s
    | some cl =>
      let n := nextHeader cl.hdr cl.words.length
      let pc := cl.target.getD n
      let s1 := s.updThread p fun th => { th with waits := th.waits ++ cl.waits }
      let s2 := match p.kind with
        | .chaser => s1.updTeam p fun u => { u with chaser :=
            { u.chaser with pc := pc, resumePos := 0, seq := cl.again.getD cl.target.isNone, yielded := cl.yields,
                            run := if cl.stops then .stopped else u.chaser.run } }
        | _ => s1.updTeam p fun u =>
            { u.updPath cl.path fun q => { q with pc := pc, seq := cl.again.getD cl.target.isNone } with
              yielded := cl.yields,
              stepctl := if cl.skip then u.stepctl &&& ~~~4 else u.stepctl,
              stepDue := if u.handler || cl.again.isSome then u.stepDue else u.stepctl.getLsbD 0 }
      let s3 := s2.dropClause p
      if cl.halts then s3.haltFor .halted p
      else match s3.team? p with
        | none => s3
        | some u => if p.kind != .chaser && u.paths.isEmpty && !u.retired then s3.retireTeam p else s3.debugRest p

/-- Whether the instructions of a copy count for its pair (R174, R371): not those of the leading copy's handler for
TOUCHSTONE. -/
def Team.counted (t : Team) : Bool := !(t.handler && t.frame.tstat.extractLsb' 16 8 == 0x70)

/-- A debug session's STEP sets STEP and DBG; DETACH clears them, and no STEP falls due any more (R164). -/
def Team.arm (t : Team) (on : Bool) : Team :=
  if on then { t with stepctl := t.stepctl ||| 3 } else { t with stepctl := t.stepctl &&& ~~~3, stepDue := false }

/-- The trailing copy takes what a session asked of the leading one, once it has retired as much. -/
def Pair.armDue (q : Pair) : Pair :=
  { q with trail := (q.arms.filter (·.1 ≤ q.trailDone)).foldl (fun t e => t.arm e.2) q.trail,
           arms := q.arms.filter (q.trailDone < ·.1) }

/-- One more instruction of a copy has retired (R174). -/
def State.countRetired (s : State) (p : Party) (t : Team) : State :=
  if t.role = .off || p.kind == .chaser || !t.counted then s
  else { s with pairs := s.pairs.upd (pairKey p.crew p.team) fun q =>
    match p.kind with
    | .trail => { q with trailDone := q.trailDone + 1 }.armDue
    | _ => { q with leadDone := q.leadDone + 1, stalled := q.stalled || 4096 ≤ q.leadDone + 1 - q.trailDone } }

/-- The registers that the instruction at the party's position writes hold no error any more (R167); with an empty mask it
writes none (R79). -/
def Exe.cleansed (x : Exe) (s : State) : State :=
  match x.cl.instr with
  | .error _ => s
  | .ok (.finj _) => s
  | .ok i =>
    if !x.ch && perLane i x.parts && x.eff = 0 then s
    else x.cleanse i s

/-- The instruction is complete: the next position of its clause, or the clause's end. A clause that the instruction
itself removed (a trap return, a retirement) stays removed. -/
def advance (x : Exe) (s0 : State) : State :=
  let s := (if s0.poison.isEmpty then s0 else x.cleansed s0).countRetired x.p x.team
  match s.team? x.p with
  | none => { s with turn := if s.turn = some x.p then none else s.turn }
  | some t =>
    match (t.thread x.p.kind).issue with
    | none => { s with turn := if s.turn = some x.p then none else s.turn }
    | some cl =>
      let pos := cl.pos + x.parts.words
      if cl.words.length < pos then s.endClause x.p
      else s.updClause x.p fun c => { c with pos := pos, hold := none, meet := none, moved := 0, taken := [] }

/-- Whether two holds are of one kind. -/
def Hold.alike : Hold → Hold → Bool
  | .queue, .queue | .engine, .engine | .meet, .meet | .migrating _, .migrating _ | .remote _, .remote _ => true
  | _, _ => false

/-- The instruction holds the issue slot, since the tick at which it first did for this reason (R108, R109, R223). -/
def holdSlot (p : Party) (h : Hold) (s : State) : State :=
  s.updClause p fun c => { c with hold := match c.hold with
    | some (k, since) => some (h, if k.alike h then since else s.now)
    | none => some (h, s.now) }

/-- What an instruction is at once, before its effect: it does not issue (a trap, a hold, an uncorrectable error), it
has no effect because its mask is empty, or it goes on in a state whose awaited loads have completed. -/
inductive Ready where
  | stop (k : Stop)
  | empty
  | go (x : Exe) (s : State)
  deriving DecidableEq, Repr

/-- The checks before an instruction's effect, in the order of R157 and R230: ILLEGAL_INSTRUCTION, then, when its
mask is not empty (R79), the wait for what it reads (R223), ALLOTMENT, ILLEGAL_OPERAND and STALE_LATCH. -/
def prepare (i : Instr) (oc : Exe → State → Option Cause) (x : Exe) (s : State) : Ready :=
  match checkInstr x.ch i with
  | some c => .stop (.trap (x.trapOf c))
  | none =>
    match contextFault x i with
    | some c => .stop (.trap (x.trapOf c))
    | none =>
      if !x.ch && perLane i x.parts && x.eff = 0 then .empty
      else
        let ops := (ruleOf x.ch i x.parts).ops
        if x.awaitsEngine s (x.engineOps s i) then .stop (.hold .engine)
        else
          let s1 := x.settleLoads (x.loadOps i) s
          let x1 := s1.refresh x
          match x1.operandStop i ops (oc x1 s1) with
          | some t => .stop (.trap t)
          | none => if x1.poisoned s1 i then .stop .poison else .go x1 s1

/-- How an instruction that stops leaves the machine (R158, R167, R223). -/
def stopWith (x : Exe) (k : Stop) (s : State) : State :=
  match k with
  | .trap t => takeTrap x.p x.cl.path t s
  | .hold h =>
    let s1 := holdSlot x.p h s
    if x.team.stopReq then (s1.restQueue x.p).debugRest x.p else s1
  | .poison => s.haltFor .uncorrectable x.p

/-- Execute an instruction with the effect `body` for the party whose turn it is. Its latch holds no value unless the
body writes it (R225). -/
def perform (i : Instr) (oc : Exe → State → Option Cause) (body : Exe → State → Res State) (s : State) :
    Host.Outcome State Fault Refusal :=
  match s.issuer? i with
  | none => .fault .noIssuer
  | some x =>
    match prepare i oc x s with
    | .stop k => .next (stopWith x k s)
    | .empty => .next (advance x (setResult x .none s))
    | .go x1 s1 =>
      match body x1 (setResult x1 .none s1) with
      | .ok s2 => .next (advance x1 s2)
      | .error k => .next (stopWith x1 k s1)

/-- Execute an instruction that moves pass by pass and may stop between two passes (R89): the state it has reached is
kept. Its latch keeps what it held until the instruction is complete. -/
def performPasses (i : Instr) (oc : Exe → State → Option Cause) (body : Exe → State → State × Option Stop)
    (s : State) : Host.Outcome State Fault Refusal :=
  match s.issuer? i with
  | none => .fault .noIssuer
  | some x =>
    match prepare i oc x s with
    | .stop k => .next (stopWith x k s)
    | .empty => .next (advance x (setResult x .none s))
    | .go x1 s1 =>
      match body x1 s1 with
      | (s2, none) => .next (advance x1 s2)
      | (s2, some k) => .next (stopWith x1 k s2)

/-- No further ILLEGAL_OPERAND condition. -/
def noCheck (_ : Exe) (_ : State) : Option Cause := none

/-- Execute an instruction whose effect cannot stop once its operands have passed. -/
def performPure (i : Instr) (oc : Exe → State → Option Cause) (body : Exe → State → State) (s : State) :
    Host.Outcome State Fault Refusal :=
  perform i oc (fun x u => .ok (body x u)) s

/-- Throw a trap of the instruction. -/
def trapNow {α : Type} (x : Exe) (c : Cause) (info : Word := 0) : Res α := .error (.trap (x.trapOf c info))

/-- An event of the part offered in a state in which it cannot occur: it does not happen, and nothing changes
(log 6). -/
def absent (s : State) : Host.Outcome State Fault Refusal := .next s

/-- Change the clause in progress of the instruction's party. -/
def onClause (x : Exe) (f : Clause → Clause) (s : State) : State := s.updClause x.p f

end Sys2Proof.Machine
end

