-- ==== Sys2Proof/Machine/CupelForm.lean ====
section
/-! DEFINITION. The A-row feed of the Cupel engine (R137, R151, R155) and the copy-status queue (R330). -/

namespace Sys2Proof.Machine

open Sys2Proof

/-! ### The A-row feed (R137, R151) -/

/-- How many bytes of its A rows a started operation still has to pop. -/
def CupelOp.hunger (o : CupelOp) : Nat :=
  if o.started && blockAq o.block then 8 * rowEntries o.block * blockM o.block - o.rows.length else 0

/-- Pop what the operation needs from its team's feed queue: the operation and the entries left. -/
def CupelOp.eat (o : CupelOp) (es : List DWord) : CupelOp × List DWord :=
  let n := min (o.hunger / 8) es.length
  ({ o with rows := o.rows ++ (es.take n).flatMap fun e => bytesOf 8 e.toNat }, es.drop n)

/-- The Cupel engine of a core takes A rows from the feed of the team whose loop it runs; the ticks it waited on an empty
queue move the promise (R151). -/
def State.feedCupel (s : State) (core : Nat) : State :=
  match (s.core core).cupel with
  | [] => s
  | o :: rest =>
    let p : Party := ⟨o.crew, o.team, .team⟩
    match s.team? p with
    | none => s
    | some t =>
      match if o.hunger = 0 || o.cancelled then none else t.queueOfRole 5 with
      | none => s
      | some q =>
        let (o1', left) := o.eat (t.queue q).entries
        let o1 := { o1' with bad := o1'.bad || (o1'.rows.length ≠ o.rows.length && s.poison.contains (.queue p q)) }
        let d : DWord := if o1.rows.length = o.rows.length then 0 else match o.since with
          | some a => s.now - a
          | none => 0
        let o2 := { o1 with promise := o.promise + d,
                            since := if o1.hunger = 0 then none
                              else if d = 0 then o.since.or (some s.now) else some s.now }
        ((s.updCore core fun k =>
            { k with cupel := o2 :: rest,
                     cupelPromise := if rest.isEmpty then k.cupelPromise + d else k.cupelPromise }).updTeam p fun t =>
          t.setQueue q { t.queue q with entries := left }).updCopies p fun t => t.delayPromise o.opId d

/-- Refill the copy-status queue of a team from the status words that wait (R330). -/
def Team.feedStatus (t : Team) : Team :=
  match t.queueOfRole 4 with
  | none => { t with copyStatus := [] }
  | some q =>
    let k := t.queue q
    let n := 32 - k.entries.length
    { t.setQueue q { k with entries := k.entries ++ t.copyStatus.take n } with copyStatus := t.copyStatus.drop n }

end Sys2Proof.Machine
end

