-- ==== Sys2Proof/Machine/Lanes.lean ====
section
/-! DEFINITION. Accesses to memory by lanes: where each lane's access goes (R93, R107, R308), its checks in the order
of R157, watchpoints (R162), the elements of pages (R102, R103, R311), and what loads, stores and atomics do
(R94 to R96, R307, R310 to R312, R319). -/

namespace Sys2Proof.Machine

open Sys2Proof

/-! ### Where a lane's access goes -/

/-- What a lane's translation gives. -/
inductive LaneRes where
  | ok (x : Phys)
  | cause (c : Cause) (gen : Byte)
  | migrating (gen : Byte)
  | unreachable (gen : Byte)
  deriving DecidableEq, Repr

def LaneRes.of : Except XFault Phys → LaneRes
  | .ok x => .ok x
  | .error (.cause c g) => .cause c g
  | .error (.migrating g) => .migrating g
  | .error (.unreachable g) => .unreachable g

/-- A lane's access: the address it reports and its translation. -/
structure LaneAddr where
  lane : Nat
  addr : DWord
  res : LaneRes
  deriving DecidableEq, Repr

/-- Whether a physical address of this F7 lies in a core's slice (R92). -/
def inSlice (core pa : Nat) : Bool := core * 0x800000 ≤ pa && pa < core * 0x800000 + 0x600000

/-- A compute phase (R65, R348): an even phase from 2 on, in a cooperative launch. -/
def Exe.computing (x : Exe) : Bool := x.launch.co && 2 ≤ x.team.phase && x.team.phase % 2 == 0

/-- PHASE_ACCESS for a pointer (R65, R101): outside the core's slice, the crew's scratch included. -/
def Exe.phaseDenies (x : Exe) (s : State) (p : DWord) : Bool :=
  x.computing && (match s.resolve x.agent p with
    | none => true
    | some y => !(y.tier == 0 && y.node == s.node && inSlice x.crew.core y.addr))

/-- An access by pointer (R97). -/
def Exe.byPointer (x : Exe) (s : State) (k : Access) (lane : Nat) (p : DWord) : LaneAddr :=
  { lane := lane, addr := p,
    res := if x.phaseDenies s p then .cause .phaseAccess 0 else LaneRes.of (s.translate x.agent k p) }

/-- An access through a window at an offset (R107). -/
def Exe.byWindow (x : Exe) (s : State) (k : Access) (w : Window) (lane : Nat) (o : Int) : LaneAddr :=
  let p := w.pointer o
  { lane := lane, addr := p,
    res := if x.phaseDenies s p then .cause .phaseAccess 0 else LaneRes.of (s.windowAddr x.agent w k o) }

/-- A plane operand (R93). -/
def Exe.byPlane (x : Exe) (s : State) (lane : Nat) (a : Word) : LaneAddr :=
  { lane := lane, addr := a.setWidth 64,
    res := match s.planeAddr x.crew x.launch.scratch a with
      | .error c => if x.computing && 0x40000000 ≤ a.toNat && !inSlice x.crew.core (a.toNat - 0x40000000) then
          .cause .phaseAccess 0 else .cause c 0
      | .ok pa => if x.computing && !inSlice x.crew.core pa then .cause .phaseAccess 0
        else .ok { addr := pa, tier := 0, fmt := 0, geom := 0, pm := false, node := s.node, gen := 0 } }

/-- The offset of an MW form (R226): IMM4 × 16, or the literal, sign-extended. -/
def Exe.mwOff (x : Exe) : Int :=
  match x.parts.lit with
  | some w => w.toInt
  | none => (x.parts.imm.setWidth 4).toInt * 16

/-- The offset of LDG and STG (R308). -/
def Exe.ptrOff (x : Exe) : Int := x.sB.toInt

/-- A pointer and a signed offset modulo 2^64. -/
def addOff (p : DWord) (o : Int) : DWord := p + BitVec.ofInt 64 o

/-- The window of an MW form. -/
def Exe.win (x : Exe) : Window := x.team.window x.parts.win.toNat

/-- ILLEGAL_OPERAND of an MW form: an INVALID window (R107); in a chaser, a WIN other than 0 (R87). -/
def windowCheck (x : Exe) (_ : State) : Option Cause :=
  if x.ch then (if x.parts.win = 0 then none else some .general)
  else if x.win.state = .invalid then some .windowInvalid
  else none

/-- The byte offset of element `e` on pages of a format (R311): `raw` is the access size on a RAW page. -/
def elemOffset (fmt geom raw e : Nat) : Nat :=
  if rawLike fmt then e * raw
  else if fmt = 0x0E then e / 5
  else if blockScaled fmt then
    let per := blocksPer fmt geom * geomSize geom
    4096 * (e / per) + e % per * fmtBits fmt / 8
  else e * fmtBits fmt / 8

/-- The slot of element `e` within its byte (R311). -/
def elemSlot (fmt geom e : Nat) : Nat :=
  if fmt = 0x0E then e % 5
  else if fmtBits fmt = 0 ∨ 8 ≤ fmtBits fmt then 0
  else if blockScaled fmt then e % (blocksPer fmt geom * geomSize geom) % (8 / fmtBits fmt)
  else e % (8 / fmtBits fmt)

/-- The bytes of a RAW access by TD (R310). -/
def rawSize (td : Nat) : Nat :=
  match td with | 1 | 2 => 1 | 3 | 4 => 2 | 7 | 8 | 9 => 8 | _ => 4

/-- The formats and geometries that scale an element's index (R102, R103, R311). -/
def elemForms : List (Nat × Nat) :=
  (List.range 28).flatMap fun f => if blockScaled f then [(f, 1), (f, 2), (f, 3), (f, 4)] else [(f, 0)]

/-- The access of a lane of LD or ST in its .ELEM form: the page's own format scales the index. It is found by a first
translation with the scale of the window's format, which for a window with LIMIT 0 is that of the page at its base, or of
whichever format puts the element on a page of that format when no page is mapped there (R107, R311; DEDUCED, log 13). -/
def Exe.elemAccess (x : Exe) (s : State) (k : Access) (lane : Nat) : LaneAddr :=
  let e := (x.v x.parts.a lane).toNat
  let at' (fmt geom : Nat) := x.byWindow s k x.win lane (x.mwOff + (elemOffset fmt geom (rawSize x.parts.td) e : Nat))
  let own : Nat × Nat := (x.win.fmt.toNat, x.win.geom.toNat)
  let scale (f : Nat × Nat) : Nat := elemOffset f.1 f.2 (rawSize x.parts.td) e
  let agrees (f : Nat × Nat) : Bool := match (at' f.1 f.2).res with
    | .ok y => scale (y.fmt, y.geom) == scale f
    | _ => false
  let form := if x.win.limit = 0 then (match s.resolve x.agent (x.win.pointer 0) with
      | some y => (y.fmt, y.geom)
      | none => ((own :: elemForms).find? agrees).getD own)
    else own
  let first := at' form.1 form.2
  match first.res with
  | .ok y => at' y.fmt y.geom
  | _ => first

/-- The accesses of an MW form at byte offsets, lane by lane (R87, R107, R308, R315). -/
def Exe.byteAccess (x : Exe) (s : State) (k : Access) : List LaneAddr :=
  if x.ch then [x.byPointer s k 0 (addOff (x.pair x.parts.a) x.mwOff)]
  else x.lanes.map fun l => x.byWindow s k x.win l ((x.v x.parts.a l).toNat + x.mwOff)

/-- The accesses of LD, ST and the atomics of a window, lane by lane: FX 1 of LD and ST is .ELEM (R307, R311). -/
def Exe.mwAccess (x : Exe) (s : State) (k : Access) : List LaneAddr :=
  if !x.ch && x.parts.fx == 1 && (k == .load || k == .store) then x.lanes.map (x.elemAccess s k) else x.byteAccess s k

/-- The accesses of LDG and STG. -/
def Exe.ptrAccess (x : Exe) (s : State) (k : Access) : List LaneAddr :=
  if x.ch then [x.byPointer s k 0 (addOff (x.pair x.parts.a) x.ptrOff)]
  else x.lanes.map fun l => x.byPointer s k l (addOff (x.vPair x.parts.a l) x.ptrOff)

/-- The accesses of LDP and STP. -/
def Exe.planeAccess (x : Exe) (s : State) : List LaneAddr :=
  x.lanes.map fun l => x.byPlane s l (x.s x.parts.a + x.vB l)

/-! ### Faults of the lanes -/

/-- A faulting lane. -/
structure LaneFault where
  lane : Nat
  cause : Cause
  addr : DWord
  gen : Byte
  deriving DecidableEq, Repr

/-- The trap of faulting lanes (R101, R158): its mask is those lanes, each with its own cause, address and GEN. -/
def Exe.laneTrap (x : Exe) (fs : List LaneFault) : Trap :=
  { cause := (fs.head?.map (·.cause)).getD .general, mask := Mask.ofList (fs.map (·.lane)), pos := x.cl.pos,
    tpc := x.cl.hdr,
    causes := fs.foldl (fun t f => t.put f.lane f.cause) [],
    addr := fs.foldl (fun t f => t.put f.lane f.addr) [],
    gen := fs.foldl (fun t f => t.put f.lane f.gen) [] }

/-- The checks of every lane before any lane is performed (R307): a lane that waits on a migrating leaf or a remote
owner holds the instruction (R108, R109); else any fault traps. -/
def Exe.passLanes (x : Exe) (as : List LaneAddr) (late : List LaneFault) : Res Unit :=
  let faults := late ++ as.filterMap fun a => match a.res with
    | .cause c g => some ⟨a.lane, c, a.addr, g⟩
    | _ => none
  let mig := as.filterMap fun a => match a.res with
    | .migrating g => some ⟨a.lane, .migrating, a.addr, g⟩
    | _ => none
  let unr := as.filterMap fun a => match a.res with
    | .unreachable g => some ⟨a.lane, .remoteUnreachable, a.addr, g⟩
    | _ => none
  let sorted (fs : List LaneFault) : List LaneFault :=
    x.allLanes.filterMap fun l => fs.find? fun f => f.lane == l
  if !mig.isEmpty then .error (.hold (.migrating (x.laneTrap (sorted (faults ++ mig)))))
  else if !unr.isEmpty then .error (.hold (.remote (x.laneTrap (sorted (faults ++ unr)))))
  else if !faults.isEmpty then .error (.trap (x.laneTrap (sorted faults)))
  else .ok ()

/-- The lanes whose translation gave an address. -/
def okLanes (as : List LaneAddr) : List (LaneAddr × Phys) :=
  as.filterMap fun a => match a.res with
    | .ok y => some (a, y)
    | _ => none

/-- The lanes of a team-uniform access: each lane of exec carries the cause (R306). -/
def Exe.uniformLanes (x : Exe) : List Nat := if x.ch then [0] else x.exec.lanes x.nlanes

/-- A team-uniform access at a pointer (R306). -/
def Exe.uniform (x : Exe) (s : State) (k : Access) (p : DWord) (check : Phys → Option Cause) : Res Phys :=
  let a := x.byPointer s k 0 p
  let all (c : Cause) (g : Byte) : List LaneFault := x.uniformLanes.map fun l => ⟨l, c, p, g⟩
  match a.res with
  | .ok y => match check y with
    | some c => .error (.trap (x.laneTrap (all c y.gen)))
    | none => .ok y
  | .cause c g => .error (.trap (x.laneTrap (all c g)))
  | .migrating g => .error (.hold (.migrating (x.laneTrap (all .migrating g))))
  | .unreachable g => .error (.hold (.remote (x.laneTrap (all .remoteUnreachable g))))

/-! ### Watchpoints (R162) -/

def wpBase (w : DWord) : Nat := (w.extractLsb' 22 42).toNat * 64
def wpLen (w : DWord) : Nat := ((w.extractLsb' 10 12).toNat + 1) * 64

/-- Whether an access of `n` bytes at a pointer touches a watchpoint's range. -/
def wpTouches (w : DWord) (p : DWord) (n : Nat) : Bool :=
  va p < wpBase w + wpLen w && wpBase w < va p + n

/-- The bytes an access touches: the RAW size, or the element of the page it reaches. -/
def Exe.reach (x : Exe) (s : State) (raw : Nat) (p : DWord) : Nat :=
  match s.resolve x.agent p with
  | some y => if rawLike y.fmt then raw else max 1 (fmtBits y.fmt / 8)
  | none => raw

/-- The watchpoint that a translated access matches, lowest-numbered first: bit 7 for loads, 8 for stores, 9 for
atomics, ACQ and REL. -/
def Exe.watch (x : Exe) (s : State) (kind raw : Nat) (as : List (Nat × DWord)) : Option Trap :=
  if x.ch || x.team.handler || x.team.stepctl.getLsbD 2 then none
  else ([0, 1, 2, 3] : List (Fin 4)).findSome? fun k =>
    let r := x.team.wpReg k.val
    if !(r.val.getLsbD 0 && r.val.getLsbD kind) then none
    else
      let hits := as.filter fun a => r.mask.lane a.1 && wpTouches r.val a.2 (x.reach s raw a.2)
      if hits.isEmpty then none
      else some
        { cause := .watchpoint k, mask := x.eff &&& r.mask, pos := x.cl.pos, tpc := x.cl.hdr,
          addr := hits.foldl (fun t a => t.put a.1 a.2) [] }

/-- Take the watchpoint trap, if there is one. -/
def Exe.watched (x : Exe) (s : State) (kind raw : Nat) (as : List LaneAddr) : Res Unit :=
  match x.watch s kind raw (as.map fun a => (a.lane, a.addr)) with
  | some t => .error (.trap t)
  | none => .ok ()

/-! ### Touchstone pairs: the compare buffer (R175) -/

/-- The pair of the executing copy, while its stores are checked. -/
def Exe.pair? (x : Exe) (s : State) : Option Pair :=
  if x.ch || x.team.role = .off || !x.team.counted then none else s.pairs.get? (pairKey x.p.crew x.p.team)

/-- A byte as the pair's loads see it: the buffer, newest entry last applied, over memory. -/
def Exe.overlay (x : Exe) (s : State) (a : Nat) (b : Byte) : Byte :=
  match x.pair? s with
  | none => b
  | some q => q.buf.foldl (fun b e => e.home.foldl (fun b h => if h.addr = a then h.merge b else b) b) b

/-! ### Reading memory -/

/-- Whether an access bypasses L1 (R94): tier 0, PTAB and KVMAP pages, stores to replicated and sub-byte pages. -/
def bypasses (store : Bool) (y : Phys) : Bool :=
  y.tier == 0 || y.fmt == 1 || y.fmt == 2 || (store && (y.pm || subByte y.fmt))

/-- The home address a load reads. -/
def Exe.loadAddr (x : Exe) (y : Phys) : Nat := y.readAddr (dieOfCluster x.team.cluster)

/-- One byte as a load by the instruction reads it. -/
def Exe.loadByte (x : Exe) (s : State) (bypass : Bool) (a : Nat) : Byte :=
  x.overlay s a (if bypass then s.bypassByte x.team.cluster a else s.clusterByte x.team.cluster a)

def Exe.loadNat (x : Exe) (s : State) (bypass : Bool) (a n : Nat) : Nat :=
  natOf ((List.range n).map fun i => x.loadByte s bypass (a + i))

/-- Whether a byte that a load reads is poisoned (R167). -/
def Exe.loadPoison (x : Exe) (s : State) (bypass : Bool) (a : Nat) : Bool :=
  if bypass then s.poisoned a else s.clusterPoison x.team.cluster a

/-- Fill the lines that a cached load of bytes touches. -/
def fillLines (cl : Nat) (as : List Nat) (s : State) : State := as.foldl (fun u a => u.fillLine cl a) s

/-! ### Elements of a page -/

/-- The element an access reaches: its place, the bytes it takes, its slot within a byte, and how many registers it
moves. -/
structure Elem where
  lane : Nat
  addr : DWord
  phys : Phys
  size : Nat
  slot : Nat
  regs : Nat
  deriving DecidableEq, Repr

/-- The element and alignment and format faults of one lane of a load or store (R157, R309 to R311). -/
def Exe.element (x : Exe) (a : LaneAddr) (y : Phys) : Except Cause Elem :=
  let td := x.parts.td
  let quad := x.parts.fx = 2
  let elem := x.parts.fx = 1
  let regs := if quad then 4 else if wide td then 2 else 1
  let mk (size slot : Nat) : Elem := ⟨a.lane, a.addr, y, size, slot, regs⟩
  if rawLike y.fmt then
    let n := if quad then 16 else rawSize td
    if y.addr % n ≠ 0 then .error .align else .ok (mk n 0)
  else
    let eb := fmtBits y.fmt / 8
    if eb ≠ 0 ∧ y.addr % eb ≠ 0 then .error .align
    else if y.fmt = 0x1B then .error .formatOp
    else if quad then .error .formatOp
    else if subByte y.fmt ∧ !elem then .error .formatOp
    else if wide td != fmtWide y.fmt ∨ (1 ≤ td ∧ td ≤ 4) then .error .formatOp
    else if blockScaled y.fmt ∧ blocksPer y.fmt y.geom * blockBytes y.fmt y.geom ≤ y.addr % 4096 then
      .error .scaleStrip
    else .ok (mk (max 1 eb) (if elem then elemSlot y.fmt y.geom (x.v x.parts.a a.lane).toNat else 0))

/-- The elements of the lanes, and the lanes that fail their own checks. -/
def Exe.elements (x : Exe) (as : List LaneAddr) : List Elem × List LaneFault :=
  let rs := (okLanes as).map fun p => (p.1, p.2, x.element p.1 p.2)
  (rs.filterMap fun r => r.2.2.toOption,
   rs.filterMap fun r => match r.2.2 with
     | .error c => some ⟨r.1.lane, c, r.1.addr, r.2.1.gen⟩
     | .ok _ => none)

/-- The block of a block-scaled element: the address of its 4 KiB, its number, and its scale's address (R103). -/
def Elem.block (e : Elem) (a : Nat) : Nat × Nat × Nat :=
  let k := a / 4096 * 4096
  let b := blockBytes e.phys.fmt e.phys.geom
  let j := a % 4096 / b
  (k, j, k + blocksPer e.phys.fmt e.phys.geom * b + j * scaleBytes e.phys.fmt)

/-- The bytes a load of the element reads: the element, and its block's scale. -/
def Elem.bytes (e : Elem) (a : Nat) : List Nat :=
  (List.range e.size).map (a + ·) ++
    (if blockScaled e.phys.fmt then (List.range (scaleBytes e.phys.fmt)).map ((e.block a).2.2 + ·) else [])

/-- The element's own bits, from its bytes. -/
def Elem.bits (e : Elem) (raw : Nat) : Nat :=
  let n := fmtBits e.phys.fmt
  if rawLike e.phys.fmt ∨ 8 ≤ n then raw
  else field raw (n * e.slot) n

/-- The value a load of the element delivers (R102, R310). -/
def Elem.value (e : Elem) (td raw scale : Nat) : Nat :=
  let fmt := e.phys.fmt
  if rawLike fmt then
    (match td with
     | 1 => wrap 32 (signed 8 raw)
     | 3 => wrap 32 (signed 16 raw)
     | _ => raw)
  else if fmt = 0x0E then wrap 32 (tern5 raw e.slot)
  else if fmt = 0x1A then (groupDecode scale (signed 4 (e.bits raw))).toNat
  else if blockScaled fmt then match pageFloat fmt with
    | some f => (e8m0Decode scale (f.decode (e.bits raw))).toNat
    | none => 0
  else elemDecode fmt (e.bits raw)

/-- The register writes of a loaded value. -/
def Exe.loadWrites (x : Exe) (lane regs v : Nat) : List RegWrite :=
  (List.range regs).map fun i =>
    let w : Word := BitVec.ofNat 32 (v >>> (32 * i))
    if x.ch then .scalar (x.regNum .s x.parts.d + i) w else .lane (x.regNum .v x.parts.d + i) lane w

/-! ### Loads (R307, R312) -/

/-- A counted load: when 63 are in flight, the oldest completes first (R222). -/
def State.countLoad (s : State) (p : Party) (ld : PendingLoad) : State :=
  let full := match s.team? p with
    | none => none
    | some t => let ls := (t.thread p.kind).loads; if 63 ≤ ls.length then ls.head? else none
  let s1 := match full with
    | none => s
    | some o => (s.deliver p o).updThread p fun th => { th with loads := th.loads.drop 1 }
  s1.updThread p fun th => { th with loads := th.loads ++ [ld] }

/-- Issue a load of values into the destination, by lane: counted, and in the latch at once (R225, R312). -/
def loadInto (x : Exe) (regs : Nat) (vals : List (Nat × Nat)) (s : State) : State :=
  let ws := vals.flatMap fun v => x.loadWrites v.1 regs v.2
  let s1 := s.countLoad x.p { writes := if x.parts.w then [] else ws }
  let low (v : Nat) : Word := BitVec.ofNat 32 v
  let latch := if x.ch then Latch.scalar (low ((vals.head?.map (·.2)).getD 0))
    else vectorLatch x (x.regNum .v x.parts.d) (vals.map fun v => (v.1, low v.2))
  setResult x latch s1

/-- Perform a load whose lanes name their locations. -/
def loadLanes (x : Exe) (translated : Bool) (as : List LaneAddr) (s : State) : Res State := do
  if translated then x.watched s 7 (if x.parts.fx = 2 then 16 else rawSize x.parts.td) as
  let (es, late) := x.elements as
  x.passLanes as late
  let s1 := s.commitFills x.agent (es.map (·.phys))
  let place (e : Elem) : Nat × Bool := (x.loadAddr e.phys, bypasses false e.phys)
  if es.any fun e => (e.bytes (place e).1).any (x.loadPoison s1 (place e).2) then .error .poison
  let s2 := es.foldl (fun u e => if (place e).2 then u else fillLines x.team.cluster (e.bytes (place e).1) u) s1
  let vals := es.map fun e =>
    let (a, by') := place e
    let scale := if blockScaled e.phys.fmt then x.loadNat s2 by' (e.block a).2.2 (scaleBytes e.phys.fmt) else 0
    (e.lane, e.value x.parts.td (x.loadNat s2 by' a e.size) scale)
  .ok (loadInto x ((es.head?.map (·.regs)).getD 1) vals s2)

/-! ### Stores (R310, R311) -/

/-- What a store writes at its home: the addresses of a replicated page are those of copy 0. -/
structure StoreBytes where
  lane : Nat
  phys : Phys
  bytes : List HomeByte
  /-- the data that the lane shows to the CRC of its pass (R175), when it is not the bytes: the source register of a lane
  that stores to a block-scaled page (log 10) -/
  shown : Option (Nat × List Byte) := none
  deriving DecidableEq, Repr

/-- Whole bytes from an address. -/
def wholeBytes (a : Nat) (bs : List Byte) : List HomeByte :=
  (List.range bs.length).map fun i => { addr := a + i, bits := 0xFF, val := bs.getD i 0 }

/-- The value of the source register of a lane. -/
def Exe.storeValue (x : Exe) (lane regs : Nat) : Nat :=
  natOf ((List.range regs).flatMap fun i =>
    let w := if x.ch then (if regs = 1 then x.s x.parts.d else x.sAt x.parts.d i)
      else (if regs = 1 then x.v x.parts.d lane else x.vAt x.parts.d i lane)
    bytesOf 4 w.toNat)

/-- The bytes of one element of a store to a page without block scales. -/
def Exe.storeElem (x : Exe) (e : Elem) : List HomeByte :=
  let td := x.parts.td
  let v := x.storeValue e.lane e.regs
  let fmt := e.phys.fmt
  let a := e.phys.addr
  if rawLike fmt then
    let v' := if x.parts.md.sat then
        (match td with
         | 1 => intoInt true 8 true (signed 32 v) | 2 => intoInt false 8 true (v : Int)
         | 3 => intoInt true 16 true (signed 32 v) | 4 => intoInt false 16 true (v : Int)
         | _ => v)
      else v
    wholeBytes a (bytesOf e.size v')
  else if fmt = 0x0E then
    [{ addr := a, bits := 0xFF, val := BitVec.ofInt 8 (clamp (-1) 1 (signed 32 v) + 1), digit := some e.slot }]
  else
    let b := elemEncode fmt x.parts.md.sat v
    let n := fmtBits fmt
    if n < 8 then
      [{ addr := a, bits := BitVec.ofNat 8 ((2 ^ n - 1) <<< (n * e.slot)), val := BitVec.ofNat 8 (b <<< (n * e.slot)) }]
    else wholeBytes a (bytesOf e.size b)

/-- The elements of one block of a block-scaled store, in element order, each once: the highest lane's (R78). -/
def blockElems (es : List Elem) (scaleAt : Nat) : List (Nat × Elem) :=
  let mine := es.filter fun e => blockScaled e.phys.fmt && (e.block e.phys.addr).2.2 == scaleAt
  mine.foldl (fun t e =>
    let n := fmtBits e.phys.fmt
    let i := (e.phys.addr % 4096 % blockBytes e.phys.fmt e.phys.geom) * 8 / n + e.slot
    Tbl.put t i e) []

/-- The blocks that a store touches, by the address of their scale. -/
def scaleAddrs (es : List Elem) : List Nat :=
  (es.filter fun e => blockScaled e.phys.fmt).foldl (fun l e =>
    let a := (e.block e.phys.addr).2.2
    if l.contains a then l else l ++ [a]) []

/-- The bytes of one block of a block-scaled store (R184, R185): elements, then scale; they belong to the highest
lane. -/
def Exe.storeBlock (x : Exe) (es : List Elem) (scaleAt : Nat) : List StoreBytes :=
  let b := blockElems es scaleAt
  let vals := b.map fun p => f32.decode (x.storeValue p.2.lane 1)
  match b.getLast? with
  | none => []
  | some (_, last) =>
    let fmt := last.phys.fmt
    let n := fmtBits fmt
    let put (e : Elem) (c : Nat) : List HomeByte :=
      if n < 8 then [{ addr := e.phys.addr, bits := BitVec.ofNat 8 ((2 ^ n - 1) <<< (n * e.slot)),
                       val := BitVec.ofNat 8 (c <<< (n * e.slot)) }]
      else wholeBytes e.phys.addr (bytesOf e.size c)
    let (scale, codes) : Nat × List Nat := match pageFloat fmt with
      | some f => encodeBlock f vals
      | none => let g := encodeGroup vals; (g.1, g.2.map (wrap 4))
    let mine := es.filter fun e => blockScaled e.phys.fmt && (e.block e.phys.addr).2.2 == scaleAt
    mine.map (fun e =>
      { lane := e.lane, phys := e.phys, shown := some (e.phys.addr, bytesOf 4 (x.storeValue e.lane 1)),
        bytes := match (b.zip codes).find? fun p => p.1.2.lane == e.lane with
          | some p => put e p.2
          | none => [] }) ++
      [{ lane := last.lane, phys := last.phys, bytes := wholeBytes scaleAt (bytesOf (scaleBytes fmt) scale),
         shown := some (scaleAt, []) }]

/-- PARTIAL_BLOCK (R103, R310): the lanes that leave a PTAB or KVMAP entry, or a block, partly written. -/
def partialLanes (es : List Elem) : List LaneFault :=
  es.filterMap fun e =>
    let f : LaneFault := ⟨e.lane, .partialBlock, e.addr, e.phys.gen⟩
    if e.phys.fmt = 1 ∨ e.phys.fmt = 2 then
      let base := e.phys.addr / 16 * 16
      if (List.range 16).all fun i => es.any fun o =>
          o.phys.addr ≤ base + i && base + i < o.phys.addr + o.size then none else some f
    else if blockScaled e.phys.fmt then
      (if (blockElems es (e.block e.phys.addr).2.2).length < geomSize e.phys.geom then some f else none)
    else none

/-- The number of the next store to replicated pages. -/
def State.nextSerial (s : State) : Nat := (s.replicas.map (·.serial)).foldl (fun a b => max a (b + 1)) 0

/-- Write bytes at home. A store to a replicated page is serialised at copy 0 and written at once there and in the issuing
die's copy, which first takes the earlier stores to those bytes; the other copies take it later (R110, R124). -/
def Exe.storeHome (x : Exe) (serial : Nat) (b : StoreBytes) (s : State) : State :=
  let cl := x.team.cluster
  let die := dieOfCluster cl
  let put (u : State) (hs : List HomeByte) : State := hs.foldl (fun v h => v.storeThrough cl h) u
  if b.phys.pm then
    let own := if die < 12 ∧ die ≠ 0 then b.bytes.map fun h => { h with addr := h.addr + die * copyStride } else []
    let s1 := s.spread fun r => r.die == die && r.bytes.any fun h => b.bytes.any fun o => o.addr == h.addr
    let s2 := put (put s1 b.bytes) own
    { s2 with replicas := s2.replicas ++ ((List.range 12).filter fun d => d != 0 && d != die).map fun d =>
        { serial := serial, die := d, bytes := b.bytes } }
  else put s b.bytes

/-- A counted store: when 63 are in flight, the oldest is performed first (R222). -/
def State.countStore (s : State) (p : Party) (cl : Nat) (st : PendingStore) : State :=
  let full := match s.team? p with
    | none => none
    | some t => let ss := (t.thread p.kind).stores; if 63 ≤ ss.length then ss.head? else none
  let s1 := match full with
    | none => s
    | some o => (s.performStore cl o).updThread p fun th => { th with stores := th.stores.drop 1 }
  s1.updThread p fun th => { th with stores := th.stores ++ [st] }

/-- The strands of the active lanes: one pass each (R78). -/
def Exe.passes (x : Exe) : List Nat := (List.range x.launch.strands).filter fun g => x.lanes.any fun l => l / 32 == g

/-- What a lane shows to the CRC of its pass: its address and its data; the scale of a block shows nothing. -/
def StoreBytes.show (b : StoreBytes) : Nat × List Byte :=
  b.shown.getD ((b.bytes.head?.map (·.addr)).getD 0, b.bytes.map (·.val))

/-- The CRC-32C of a pass (R175): each active lane's 8-byte address, 2-byte size and data, in lane order. -/
def passCrc (bs : List StoreBytes) : Word :=
  crc32c (bs.flatMap fun b =>
    let (a, d) := b.show
    if d.isEmpty then [] else bytesOf 8 a ++ bytesOf 2 d.length ++ d)

/-- Enter a store's passes in the compare buffer, or check them against it (R175). -/
def Exe.bufferStore (x : Exe) (q : Pair) (bs : List StoreBytes) (s : State) : State :=
  let gs := (List.range x.launch.strands).filter fun g => bs.any fun b => b.lane / 32 == g
  let q' := gs.foldl (fun q g =>
    let mine := bs.filter fun b => b.lane / 32 == g
    match x.p.kind with
    | .trail =>
      let i := (q.buf.findIdx fun e => e.trail.isNone)
      { q with buf := q.buf.modify i fun e => { e with trail := some (passCrc mine) } }
    | _ => { q with buf := q.buf ++
        [{ lanes := mine.map (·.lane),
           accesses := mine.map fun b => (BitVec.ofNat 64 b.show.1, b.show.2),
           home := mine.flatMap fun b =>
             (if b.phys.pm then List.range 12 else [0]).flatMap fun d =>
               b.bytes.map fun h => { h with addr := h.addr + d * copyStride },
           crc := passCrc mine, first := gs.head? == some g }] }) q
  { s with pairs := s.pairs.upd (pairKey x.p.crew x.p.team) fun _ =>
      { q' with stalled := q'.stalled || 256 ≤ q'.buf.length } }

/-- Perform a store of bytes, lane by lane in ascending order (R78, R94, R312). -/
def storeBytes (x : Exe) (bs : List StoreBytes) (s : State) : State :=
  match x.pair? s with
  | some q => x.bufferStore q bs s
  | none =>
    let cl := x.team.cluster
    let n := s.nextSerial
    let (s1, cached) := bs.foldl (fun (acc : State × List Nat) b =>
      if bypasses true b.phys then (x.storeHome n b acc.1, acc.2)
      else (b.bytes.foldl (fun u h => u.storeLine cl h.addr h.val) acc.1, acc.2 ++ b.bytes.map (·.addr)))
      (s, [])
    s1.countStore x.p cl { cached := cached, serial := if bs.any (·.phys.pm) then some n else none }

/-- Put the bytes of a lane before those of the lanes not below it. -/
def placeLane (b : StoreBytes) : List StoreBytes → List StoreBytes
  | [] => [b]
  | c :: cs => if b.lane ≤ c.lane then b :: c :: cs else c :: placeLane b cs

/-- The bytes of a store in lane order, those of one lane in the order in which they stand. -/
def sortLanes (bs : List StoreBytes) : List StoreBytes := bs.foldr placeLane []

/-- Perform a store whose lanes name their locations. -/
def storeLanes (x : Exe) (translated : Bool) (as : List LaneAddr) (s : State) : Res State := do
  if translated then x.watched s 8 (if x.parts.fx = 2 then 16 else rawSize x.parts.td) as
  let (es, late) := x.elements as
  x.passLanes as (late ++ partialLanes es)
  let s1 := s.commitFills x.agent (es.map (·.phys))
  let plain := (es.filter fun e => !blockScaled e.phys.fmt).map fun e => ⟨e.lane, e.phys, x.storeElem e, none⟩
  let blocks := (scaleAddrs es).flatMap (x.storeBlock es)
  .ok (storeBytes x (sortLanes (plain ++ blocks)) s1)

/-! ### Atomics (R95, R96, R316 to R321) -/

/-- The operations of an ALU. -/
inductive AluOp where
  | add | and | or | xor | min | max | xchg | fadd | bfadd
  | cas (cmp : Nat)
  deriving DecidableEq, Repr

/-- The operation that FX and TD of ATOM name (R228, R317). -/
def aluOp (fx td : Nat) : AluOp :=
  match fx with
  | 0 => if td = 10 then .fadd else if td = 14 then .bfadd else .add
  | 1 => .and | 2 => .or | 3 => .xor | 4 => .min | 5 => .max | _ => .xchg

/-- What the ALU writes (R96): `n` bits, `sg` for signed minima and maxima. -/
def AluOp.eval (o : AluOp) (n : Nat) (sg : Bool) (old v : Nat) : Nat :=
  let less : Bool := if sg then decide (signed n v < signed n old) else decide (v < old)
  match o with
  | .add => (old + v) % 2 ^ n
  | .and => old &&& v
  | .or => old ||| v
  | .xor => old ^^^ v
  | .min => if less then v else old
  | .max => if less || v == old then old else v
  | .xchg => v
  | .fadd => f32.addBits .rn false old v
  | .bfadd => bf16.addBits .rn false (field old 0 16) (field v 0 16) +
      bf16.addBits .rn false (field old 16 16) (field v 16 16) * 65536
  | .cas c => if old = c then v else old

/-- The page formats an atomic of `n` bits is allowed on (R96). -/
def AluOp.fmtOk (o : AluOp) (n fmt : Nat) : Bool :=
  fmt == 0 ||
  (match o with
   | .fadd => fmt == 0x11
   | .bfadd => fmt == 0x13
   | _ => (n == 32 && (fmt == 9 || fmt == 0xA)) || (n == 64 && (fmt == 0xB || fmt == 0xC)) ||
       (fmt == 1 && (n == 64 || n == 128)))

/-- Alignment, then format, of an atomic's lane (R319). -/
def atomCheck (o : AluOp) (n : Nat) (y : Phys) : Option Cause :=
  if y.addr % (n / 8) ≠ 0 then some .align
  else if !o.fmtOk n y.fmt then some .formatOp
  else none

/-- One atomic at its owner's ALU: the issuing cluster's copy of the line is written back and dropped first (R116);
the old value and the state after. -/
def State.atomic (s : State) (cl : Nat) (o : AluOp) (n : Nat) (sg : Bool) (a v : Nat) : Nat × State :=
  let s1 := s.evictLine cl (a / 128)
  let old := s1.readNat a (n / 8)
  (old, (s1.writeBytes a (bytesOf (n / 8) (o.eval n sg old v))).unview (dieOfCluster cl) fun b => a ≤ b && b < a + n / 8)

/-- Count the atomics that the owners of remote pages perform, the remote signals of a launch (R57; DEDUCED, log 30). -/
def State.addSignals (s : State) (core launch n : Nat) : State :=
  s.updCore core fun k => { k with track := k.track.upd launch fun e => { e with signals := e.signals + n } }

/-- Whether the count of remote signals has no room (R57). -/
def Exe.signalsFull (x : Exe) (s : State) (n : Nat) : Bool :=
  match (s.core x.crew.core).track.get? x.crew.launch with
  | none => false
  | some e => 0xFFFFFFFF < e.signals + n

/-- Perform an atomic in every lane, ascending (R307, R319); `arg` gives a lane's operation and operand. -/
def atomLanes (x : Exe) (translated : Bool) (n : Nat) (sg : Bool) (arg : Nat → AluOp × Nat) (as : List LaneAddr)
    (s : State) : Res State := do
  if translated then x.watched s 9 (n / 8) as
  let late := (okLanes as).filterMap fun p =>
    (atomCheck (arg p.1.lane).1 n p.2).map fun c => ⟨p.1.lane, c, p.1.addr, p.2.gen⟩
  x.passLanes as late
  let ok := okLanes as
  let far := (ok.filter fun p => p.2.node ≠ s.node).length
  if x.signalsFull s far then .error (.hold .engine)
  let s1 := (s.commitFills x.agent (ok.map (·.2))).addSignals x.crew.core x.crew.launch far
  let s2 := ok.foldl (fun u p => u.evictLine x.team.cluster (p.2.addr / 128)) s1
  if ok.any fun p => (List.range (n / 8)).any fun i => s2.poisoned (p.2.addr + i) then .error .poison
  let (s3, olds) := ok.foldl (fun (acc : State × List (Nat × Nat)) p =>
    let g := arg p.1.lane
    let r := acc.1.atomic x.team.cluster g.1 n sg p.2.addr g.2
    (r.2, acc.2 ++ [(p.1.lane, r.1)])) (s2, [])
  .ok (loadInto x (n / 32) olds s3)

end Sys2Proof.Machine
end

