-- ==== Sys2Proof/Machine/Touch.lean ====
section
/-! DEFINITION. Touchstone pairs (R174 to R176, R355, R369 to R372): checkpoints, the end of an epoch, rollback, and
the meeting points, which the leading copy performs once for both. -/

namespace Sys2Proof.Machine

open Sys2Proof

def asTrail (p : Party) : Party := { p with kind := .trail }
def asLead (p : Party) : Party := { p with kind := .team }

def State.pair (s : State) (p : Party) : Option Pair := s.pairs.get? (pairKey p.crew p.team)

def State.updPair (s : State) (p : Party) (f : Pair → Pair) : State :=
  { s with pairs := s.pairs.upd (pairKey p.crew p.team) f }

/-- SLACK and BUF as tsstate shows them (R174, R371). -/
def Pair.slack (q : Pair) : Nat := q.leadDone - q.trailDone

/-- Take a checkpoint of both copies (R174). -/
def State.checkpoint (s : State) (p : Party) : State :=
  match s.team? (asLead p), s.crews.get? p.crew with
  | some t, some c => s.updPair p fun q =>
      { q with leadCp := t, trailCp := q.trail, popped := [], pushed := [], wls := c.wls, wlsCp := c.wls,
               traps := q.traps.drop q.trapsTaken, trapsTaken := 0, stalled := false }
  | _, _ => s

/-- The RETRY count, common to the pair (R371). -/
def State.setRetry (s : State) (p : Party) (n : Nat) : State := s.updCopies (asLead p) fun t => { t with tsRetry := n }

/-- Perform the buffered stores at their homes in entry order, after dropping from both clusters the lines they
overlap (R175, step 2). -/
def State.flushBuffer (s : State) (p : Party) (q : Pair) : State :=
  match s.team? (asLead p) with
  | none => s
  | some t =>
    let homes := q.buf.flatMap (·.home)
    let s1 := homes.foldl (fun u h => (u.evictLine t.cluster (h.addr / 128)).evictLine q.trail.cluster (h.addr / 128)) s
    let s2 := s1.spreadAt fun a => homes.any fun h => h.addr == a
    let d1 := dieOfCluster t.cluster
    let d2 := dieOfCluster q.trail.cluster
    let here (a : Nat) : Bool := homes.any fun h => h.addr == a
    (((s2.writeHomes homes).unview d1 here).unview d2 here).updPair p fun q => { q with buf := [] }

/-- Whether every entry of the compare buffer is verified (R175). -/
def Pair.verified (q : Pair) : Bool := q.buf.all fun e => e.trail == some e.crc

/-- An epoch that ends with every entry verified: RETRY returns to 0 and a checkpoint is taken (R175, R371). -/
def State.endEpoch (s : State) (p : Party) (q : Pair) : State :=
  ((s.flushBuffer p q).setRetry p 0).checkpoint p

/-- A copy as its checkpoint holds it (R175, step 3): the chaser runs on, stores already performed stay performed,
and a clause in progress resumes at its position. -/
def Team.restored (cur cp : Team) : Team :=
  let t : Team := { cp with
    th := { cp.th with stores := cur.th.stores, issue := none, later := cp.th.issue.toList ++ cp.th.later },
    chaser := cur.chaser, queues := cur.queues,
    copyStatus := cur.copyStatus, pending := cur.pending, stopReq := cur.stopReq, cluster := cur.cluster, slot := cur.slot,
    tsRetry := min 15 (cur.tsRetry + 1) }
  match cp.th.issue with
  | none => t
  | some cl => { t with resumeAt := some { path := cl.path, pos := cl.pos, retry := true, latches := cp.th.latches } }

/-- The queues of the leading copy after a rollback: what it popped since the checkpoint comes back, and what it pushed
is taken out again. -/
def Pair.rewind (q : Pair) (t : Team) : List Queue :=
  (List.range 16).map fun k =>
    let x := t.queue k
    let back := q.popped.read [] k ++ x.entries
    { x with entries := back.take (back.length - q.pushed.read 0 k) }

/-- A mismatched epoch (R175, steps 3 and 4, R372): both copies return to the checkpoint, nothing of the buffer is
performed, and the leading copy takes TOUCHSTONE with tinfo = RETRY. -/
def State.rollback (s : State) (p : Party) : State :=
  match s.pair p, s.team? (asLead p) with
  | some q, some t =>
    let n := min 15 (t.tsRetry + 1)
    let s1 := (s.dropClause (asLead p)).dropClause (asTrail p)
    let s2 := s1.updTeam (asLead p) fun u =>
      { u.restored q.leadCp with
        queues := q.rewind u,
        pending := u.pending ++ (q.traps.map (·.2)).filter (·.cause != .queueStarved) ++ [{ cause := .mismatch, info := BitVec.ofNat 32 n }] }
    let s3 := s2.updTeam (asTrail p) fun u => { u.restored q.trailCp with queues := q.trailCp.queues }
    (s3.updCrew p.crew fun c => { c with wls := q.wlsCp }).updPair p fun q =>
      { q with buf := [], trailDone := q.leadDone, traps := [], trapsTaken := 0, popped := [], pushed := [], wls := q.wlsCp,
               arms := [], stalled := false }
  | _, _ => s

/-! ### Meeting points (R176) -/

/-- The 32-bit words of a mask. -/
def maskWords (m : Mask) : List Word := (List.range 32).map fun i => m.extractLsb' (32 * i) 32

/-- What the two copies compare at a meeting point: the instruction, where it stands, its mask, and its operands in
every lane, those among its destinations that it reads included. -/
def Exe.operandWords (x : Exe) (s : State) (i : Instr) : List Word :=
  let r := ruleOf x.ch i x.parts
  let one (o : Opnd) : List Word :=
    let f := x.parts.at o.pos
    if o.dst && !o.rd then [] else match o.cls with
    | .s => if o.len = 1 then [if (x.latchOf o).isSome then x.s f else x.sReg f] else (List.range o.len).map (x.sAt f)
    | .v | .d => x.lanes.flatMap fun l =>
      if o.len = 1 then [if (x.latchOf o).isSome then x.v f l else x.vReg f l] else (List.range o.len).map fun k => x.vAt f k l
    | .m => maskWords (x.m f)
    | _ => []
  let w := x.win.image
  [x.cl.hdr.lo, x.cl.hdr.hi, BitVec.ofNat 32 x.cl.pos] ++ (x.cl.words.drop (x.cl.pos - 1)).take x.parts.words ++
    maskWords x.eff ++ (r.ops ++ x.recordOps s i).flatMap one ++
    (if r.useWin then (List.range 4).map fun k => w.extractLsb' (32 * k) 32 else [])

/-- What the performance of a meeting-point instruction gives the trailing copy (R176, step 4): destination registers,
the latch, the load, the engine record, the waits and the collective count of the leading copy. -/
def Team.receive (t : Team) (x : Exe) (ops : List Opnd) (a b : Team) : Team :=
  let regs := ops.foldl (fun (u : Team) o =>
    if o.dst && o.cls == .s then
      let r := x.regNum .s (x.parts.at o.pos)
      (List.range o.len).foldl (fun u k => { u with th := u.th.writeS (r + k) (b.th.readS (r + k)) }) u
    else u) t
  { regs with
    engines := t.engines ++ b.engines.drop a.engines.length,
    collN := b.collN,
    th := { regs.th.setLatch x.cl.pos (b.th.latch ((x.cl.pos + 3) % 4)) with
      loads := regs.th.loads ++ (if b.th.loads = a.th.loads then [] else b.th.loads.getLast?.toList),
      issue := regs.th.issue.map fun c => { c with waits := (b.th.issue.map (·.waits)).getD c.waits } } }

/-- A trap that both copies take as the result of a meeting point (R176). -/
def trapBoth (x : Exe) (t : Trap) (s : State) : State :=
  match s.pair x.p with
  | none => takeTrap x.p x.cl.path t s
  | some q =>
    let s1 := s.checkpoint x.p
    takeTrap x.p x.cl.path t
      (match q.trail.th.issue with
       | none => s1
       | some c => takeTrap (asTrail x.p) c.path t s1)

/-- The instruction of a meeting point is complete in both copies, and a fresh checkpoint follows (R176, step 5). -/
def advanceBoth (x : Exe) (ops : List Opnd) (s1 s2 : State) : State :=
  let s3 := match s1.team? x.p, s2.team? x.p with
    | some a, some b => s2.updTeam (asTrail x.p) fun t => t.receive x ops a b
    | _, _ => s2
  let s4 := advance x s3
  match s4.pair x.p with
  | none => s4
  | some q =>
    let y : Exe := { x with p := (asTrail x.p), team := q.trail, th := q.trail.th }
    (advance y s4).checkpoint x.p

/-- How a meeting-point instruction that stops leaves the pair: a trap goes to both copies. -/
def stopBoth (x : Exe) (k : Stop) (s : State) : State :=
  match k with
  | .trap t => trapBoth x t s
  | k => stopWith x k s

/-- Perform a released meeting point: the leading copy executes the instruction, once for both (R176, step 3). -/
def performReleased (i : Instr) (oc : Exe → State → Option Cause) (body : Exe → State → Res State) (x : Exe)
    (s : State) : State :=
  match prepare i oc x s with
  | .stop k => stopBoth x k s
  | .empty => advanceBoth x [] s (setResult x .none s)
  | .go x1 s1 =>
    match body x1 (setResult x1 .none s1) with
    | .ok s2 => advanceBoth x1 (ruleOf false i x1.parts).ops s1 s2
    | .error k => stopBoth x1 k s1

/-- Reach a meeting point: once what it reads is written, the copy holds its slot, with its operands (R176, step 1, R223). -/
def reachMeet (i : Instr) (oc : Exe → State → Option Cause) (x : Exe) (s : State) : State :=
  match prepare i oc x s with
  | .stop (.hold h) => stopWith x (.hold h) s
  | .stop .poison => stopWith x .poison s
  | _ =>
    let s1 := x.settleLoads (x.loadOps i) s
    (holdSlot x.p .meet s1).updClause x.p fun c => { c with meet := some (0, (s1.refresh x).operandWords s1 i) }

/-- Whether the executing party is a copy of a pair whose instructions are checked. -/
def Exe.paired (x : Exe) (s : State) : Bool := (x.pair? s).isSome

/-- Execute an instruction that is a meeting point (R176); outside a pair it executes as any other. -/
def performMeet (i : Instr) (oc : Exe → State → Option Cause) (body : Exe → State → Res State) (s : State) :
    Host.Outcome State Fault Refusal :=
  match s.issuer? i with
  | none => .fault .noIssuer
  | some x =>
    if !x.paired s then perform i oc body s
    else if x.p.kind == .team && (x.cl.meet.any fun m => m.1 == 1) then .next (performReleased i oc body x s)
    else .next (reachMeet i oc x s)

/-- The operands with which a copy holds at a meeting point. -/
def Team.meeting (t : Team) : Option (List Word) :=
  match t.th.issue with
  | none => none
  | some c => match c.meet with
    | some (0, ws) => some ws
    | _ => none

/-- Whether the trailing copy went past what the leading one executed. -/
def Team.strayed (t : Team) : Bool :=
  match t.th.issue with
  | none => false
  | some c => c.meet.any fun m => m.1 == 2

/-- TOUCHSTONE_EPOCH_END (R175, R176, R372): the epoch of a pair ends at a meeting point that both copies have reached,
or at a stall of the leading copy once the trailing copy has caught up. -/
def execTouchstoneEpochEnd (p : Party) (s : State) : Host.Outcome State Fault Refusal :=
  match s.pair p, s.team? (asLead p) with
  | some q, some t =>
    match t.meeting, q.trail.meeting with
    | some a, some b =>
      if a = b && q.slack = 0 && q.verified then
        .next ((s.endEpoch p q).updClause (asLead p) fun c => { c with meet := some (1, a) })
      else .next (s.rollback p)
    | _, b =>
      if q.trail.strayed then .next (s.rollback p)
      else if q.stalled && t.th.issue.isNone then
        (if b.isSome && q.slack ≠ 0 then .next (s.rollback p)
         else if q.slack = 0 && q.trail.th.issue.isNone then
           .next (if q.verified then s.endEpoch p q else s.rollback p)
         else absent s)
      else absent s
  | _, _ => absent s

/-- The meeting points (R176, R355; log 14): atomics, ACQ, REL, FENCE, barrier arrivals, engine issues, SPAWN, TSEND, and
the EXIT that retires the team. -/
def meets (i : Instr) (x : Exe) : Bool :=
  match i with
  | .atom _ | .cas _ | .cas128 _ | .acq _ | .rel _ | .fence _ | .fencePt _ | .bar _ | .bara _ | .barw _ | .gbar _
  | .phase _ | .xcopy _ | .xred _ | .wbload _ | .mloop _ | .ctopk _ | .cbin _ | .cepi _ | .spawn _ | .tsend _ => true
  | .ldp _ => x.parts.fx ≠ 0 && x.parts.fx ≠ 2
  | .exit _ => (x.team.launched &&& ~~~(x.team.exited ||| x.eff)) = 0 && !x.team.handler
  | _ => false

/-- What holds a trailing copy that has caught up (R175, R176): before the leading copy retires more it waits; with the
leading copy at a meeting point, it has strayed when its instruction is none. -/
def State.trailHeld (s : State) (p : Party) (i : Instr) : Option State :=
  match p.kind with
  | .trail => (s.pair p).bind fun q =>
    if q.slack ≠ 0 then none
    else if (s.team? (asLead p)).any fun t => t.meeting.isSome then
      match { s with turn := some p }.issuer? i with
      | some x => if meets i x then none
        else some { (holdSlot p .meet s).updClause p fun c => { c with meet := some (2, []) } with turn := none }
      | none => none
    else some { s with turn := none }
  | _ => none

/-- TSBEGIN (R174, R355): the team waits from the end of its clause until a trailing copy is placed. -/
def execTsbegin (f : FZ) (s : State) : Host.Outcome State Fault Refusal :=
  performPure (.tsbegin f) (fun x _ => if x.team.role = .off then none else some .general)
    (fun x u => onClause x (fun c => { c with waits := c.waits ++ [.tsPlace] }) u) s

/-- TSEND (R174, R355): after the epoch has ended, the trailing copy retires. -/
def execTsend (f : FZ) (s : State) : Host.Outcome State Fault Refusal :=
  performMeet (.tsend f) noCheck (fun x u =>
    .ok (if x.team.role = .off then u
      else (u.dropPair x.p).updTeam x.p fun t => { t with role := .off, tsRetry := 0 })) s

end Sys2Proof.Machine
end

