-- ==== Sys2Proof/Machine/Regs.lean ====
section
/-! DEFINITION. The special registers (R73, R160 to R163, R174): what SRD reads and SWR writes. -/

namespace Sys2Proof.Machine

open Sys2Proof

/-- A half of a 64-bit value: the low word for 0, the high word else. -/
def half (v : DWord) (i : Nat) : Word := if i = 0 then v.lo else v.hi

/-- A 64-bit value with one half replaced. -/
def setHalf (v : DWord) (i : Nat) (w : Word) : DWord :=
  if i = 0 then Word.pair w v.hi else Word.pair v.lo w

/-- tsstate (R174, R371). -/
def Exe.tsstate (x : Exe) (s : State) : Word :=
  match x.team.role, s.pair x.p with
  | .off, _ | _, none => 0
  | r, some q =>
    BitVec.ofNat 4 x.team.tsRetry ++ (BitVec.ofNat 13 (min 4096 q.slack) ++ (BitVec.ofNat 9 (min 256 q.buf.length) ++
      ((0 : BitVec 4) ++ (if r == .leading then 1 else 2 : BitVec 2))))

/-- A per-lane special register in a lane (R73, R160). -/
def Exe.specialLane (x : Exe) (n l : Nat) : Word :=
  let f := x.team.frame
  match n with
  | 0x00 => BitVec.ofNat 32 l
  | 0x01 => BitVec.ofNat 32 (l % x.team.part)
  | 0x02 => BitVec.ofNat 32 (l / 32)
  | 0x23 => (f.addr.read 0 l).lo
  | 0x24 => (f.addr.read 0 l).hi
  | 0x25 => (f.cause.read 0 l).setWidth 32
  | _ => (f.gen.read 0 l).setWidth 32

/-- A uniform special register (R73, R160). -/
def Exe.specialReg (x : Exe) (s : State) (n : Nat) : Word :=
  let k (v : Nat) : Word := BitVec.ofNat 32 v
  let f := x.team.frame
  match n with
  | 0x03 => k x.p.team
  | 0x04 => k x.crew.x
  | 0x05 => k x.crew.y
  | 0x06 => k x.crew.z
  | 0x07 => k x.crew.lin
  | 0x08 => k x.launch.stage
  | 0x09 => k x.launch.gx
  | 0x0A => k x.launch.gy
  | 0x0B => k x.launch.gz
  | 0x0C => k x.launch.teams
  | 0x0D => k x.launch.strands
  | 0x0E => k x.launch.vregs
  | 0x0F => k x.launch.sregs
  | 0x10 => k x.team.part
  | 0x11 => k x.team.span
  | 0x12 => x.team.xv.setWidth 32
  | 0x13 => x.team.xs.setWidth 32
  | 0x14 => x.now.lo
  | 0x15 => x.team.timehi
  | 0x16 => x.launch.tileBase.lo
  | 0x17 => x.launch.tileBase.hi
  | 0x18 => k x.launch.tileCount
  | 0x19 => x.cl.path
  | 0x20 => f.tstat
  | 0x21 => f.tpc.lo
  | 0x22 => f.tpc.hi
  | 0x26 => f.tinfo
  | 0x27 => f.tpath
  | 0x38 => x.team.stepctl
  | 0x39 => x.tsstate s
  | _ =>
    if n < 0x30 then half (x.team.bpReg ((n - 0x28) / 2)).val (n % 2)
    else half (x.team.wpReg ((n - 0x30) / 2)).val (n % 2)

/-- Whether SWR may write a special register (R73, R160). -/
def specialWritable (n : Nat) : Bool :=
  n == 0x10 || n == 0x12 || n == 0x13 || (0x20 ≤ n && n ≤ 0x22) || (0x28 ≤ n && n ≤ 0x38)

/-- A tile width (R86, R249). -/
def partOk (v : Nat) : Bool := v == 2 || v == 4 || v == 8 || v == 16 || v == 32

/-- The bits of a breakpoint and of a watchpoint register that are not rsv (R162). -/
def bpBits : DWord := 0xFFFFFFFFFFFF0001
def wpBits : DWord := 0xFFFFFFFFFFFFFF81

/-- Write a special register; rsv and RO fields keep their values (R7, R161 to R163). -/
def Team.writeSpecial (t : Team) (n : Nat) (v : Word) : Team :=
  match n with
  | 0x10 => { t with part := v.toNat }
  | 0x12 => { t with xv := v.setWidth 8 }
  | 0x13 => { t with xs := v.setWidth 6 }
  | 0x20 => { t with frame := { t.frame with tstat := (t.frame.tstat &&& 0xFFFF0DFF) ||| (v &&& 0x0000F200) } }
  | 0x21 => { t with frame := { t.frame with tpc := setHalf t.frame.tpc 0 v } }
  | 0x22 => { t with frame := { t.frame with tpc := setHalf t.frame.tpc 1 (v &&& 0xFF00FFFF) } }
  | 0x38 => { t with stepctl := v &&& 7 }
  | _ =>
    if n < 0x30 then
      let k := (n - 0x28) / 2
      { t with bp := t.bp.write {} k { t.bpReg k with val := setHalf (t.bpReg k).val (n % 2) v &&& bpBits } }
    else
      let k := (n - 0x30) / 2
      { t with wp := t.wp.write {} k { t.wpReg k with val := setHalf (t.wpReg k).val (n % 2) v &&& wpBits } }

end Sys2Proof.Machine
end

