-- ==== Sys2Proof/Machine/Scalar.lean ====
section
/-! DEFINITION. Scalar integer instructions (R256 to R261), and the integer operations that the vector ones share
(R258, R259, R265). -/

namespace Sys2Proof.Machine

open Sys2Proof

/-- The signedness of a type code: .S32, or .U32; 0 is signed where an instruction is marked so (R256). -/
def Parts.signed (p : Parts) : Bool := p.td != 6

/-- An integer read with a signedness. -/
def asInt (sg : Bool) (v : Word) : Int := if sg then v.toInt else (v.toNat : Int)

/-- An exact result: its low 32 bits, or clamped under .SAT (R256). -/
def Parts.narrow (p : Parts) (v : Int) : Word := BitVec.ofNat 32 (intoInt p.signed 32 p.sat v)

/-- The sum, difference, product and multiply-add of two words (R257, R265). -/
def Parts.addW (p : Parts) (a b : Word) : Word := p.narrow (asInt p.signed a + asInt p.signed b)
def Parts.subW (p : Parts) (a b : Word) : Word := p.narrow (asInt p.signed a - asInt p.signed b)
def Parts.mulW (p : Parts) (a b : Word) : Word := p.narrow (asInt p.signed a * asInt p.signed b)
def Parts.madW (p : Parts) (a b c : Word) : Word := p.narrow (asInt p.signed a * asInt p.signed b + asInt p.signed c)

/-- Bits 63:32 of the product. -/
def Parts.mulhW (p : Parts) (a b : Word) : Word := BitVec.ofInt 32 ((asInt p.signed a * asInt p.signed b) >>> 32)

/-- The lesser and the greater of two words. -/
def Parts.minW (p : Parts) (a b : Word) : Word := if asInt p.signed b < asInt p.signed a then b else a
def Parts.maxW (p : Parts) (a b : Word) : Word := if asInt p.signed a < asInt p.signed b then b else a

/-- The quotient of SDIV and the remainder of SREM (R258). -/
def Parts.divW (p : Parts) (a b : Word) : Word :=
  if b = 0 then 0xFFFFFFFF else if p.signed then a.sdiv b else a.udiv b
def Parts.remW (p : Parts) (a b : Word) : Word :=
  if b = 0 then a else if p.signed then a.srem b else a.umod b

/-- The shifts (R259). -/
def shlW (a b : Word) : Word := if 32 ≤ b.toNat then 0 else a <<< b.toNat
def shrW (a b : Word) : Word := if 32 ≤ b.toNat then 0 else a >>> b.toNat
def sarW (a b : Word) : Word := a.sshiftRight (min 31 b.toNat)

/-- The position and width of a field control (R259). -/
def fieldLo (b : Word) : Nat := (b.extractLsb' 0 5).toNat
def fieldWidth (b : Word) : Nat := min (b.extractLsb' 8 6).toNat (32 - fieldLo b)

/-- SBFE and VBFE (R259): .S32 sign-extends, .U32 is the default. -/
def Parts.bfeW (p : Parts) (a b : Word) : Word :=
  let w := fieldWidth b
  let v := field a.toNat (fieldLo b) w
  if w = 0 then 0 else if p.td = 5 then BitVec.ofInt 32 (Machine.signed w v) else BitVec.ofNat 32 v

/-- SBFI and VBFI (R259). -/
def bfiW (a b c : Word) : Word :=
  let m : Word := BitVec.ofNat 32 ((2 ^ fieldWidth b - 1) <<< fieldLo b)
  (c &&& ~~~m) ||| ((a <<< fieldLo b) &&& m)

/-- Leading zeros and set bits of a word. -/
def clzW (a : Word) : Word := if a = 0 then 32 else BitVec.ofNat 32 (31 - Nat.log2 a.toNat)
def popcW (a : Word) : Word := BitVec.ofNat 32 ((List.range 32).countP fun i => a.getLsbD i)

/-- Execute a scalar instruction whose result is one word. -/
def scalarOp (i : Instr) (g : Exe → Word) (s : State) : Host.Outcome State Fault Refusal :=
  performPure i noCheck (fun x u => writeScalar x x.parts.d (g x) u) s

/-- The scalar source A. -/
def Exe.sA (x : Exe) : Word := x.s x.parts.a

/-- SMOV (R257). -/
def execSmov (f : RRR) (s : State) : Host.Outcome State Fault Refusal :=
  scalarOp (.smov f) (fun x => x.sA) s

/-- SADD (R257). -/
def execSadd (f : RRR) (s : State) : Host.Outcome State Fault Refusal :=
  scalarOp (.sadd f) (fun x => x.parts.addW x.sA x.sB) s

/-- SSUB (R257). -/
def execSsub (f : RRR) (s : State) : Host.Outcome State Fault Refusal :=
  scalarOp (.ssub f) (fun x => x.parts.subW x.sA x.sB) s

/-- SMUL (R257). -/
def execSmul (f : RRR) (s : State) : Host.Outcome State Fault Refusal :=
  scalarOp (.smul f) (fun x => x.parts.mulW x.sA x.sB) s

/-- SMULH (R257). -/
def execSmulh (f : RRR) (s : State) : Host.Outcome State Fault Refusal :=
  scalarOp (.smulh f) (fun x => x.parts.mulhW x.sA x.sB) s

/-- SMAD (R257). -/
def execSmad (f : RRR) (s : State) : Host.Outcome State Fault Refusal :=
  scalarOp (.smad f) (fun x => x.parts.madW x.sA x.sB x.sC) s

/-- SDIV (R258). -/
def execSdiv (f : RRR) (s : State) : Host.Outcome State Fault Refusal :=
  scalarOp (.sdiv f) (fun x => x.parts.divW x.sA x.sB) s

/-- SREM (R258). -/
def execSrem (f : RRR) (s : State) : Host.Outcome State Fault Refusal :=
  scalarOp (.srem f) (fun x => x.parts.remW x.sA x.sB) s

/-- SAND (R257). -/
def execSand (f : RRR) (s : State) : Host.Outcome State Fault Refusal :=
  scalarOp (.sand f) (fun x => x.sA &&& x.sB) s

/-- SOR (R257). -/
def execSor (f : RRR) (s : State) : Host.Outcome State Fault Refusal :=
  scalarOp (.sor f) (fun x => x.sA ||| x.sB) s

/-- SXOR (R257). -/
def execSxor (f : RRR) (s : State) : Host.Outcome State Fault Refusal :=
  scalarOp (.sxor f) (fun x => x.sA ^^^ x.sB) s

/-- SSHL (R259). -/
def execSshl (f : RRR) (s : State) : Host.Outcome State Fault Refusal :=
  scalarOp (.sshl f) (fun x => shlW x.sA x.sB) s

/-- SSHR (R259). -/
def execSshr (f : RRR) (s : State) : Host.Outcome State Fault Refusal :=
  scalarOp (.sshr f) (fun x => shrW x.sA x.sB) s

/-- SSAR (R259). -/
def execSsar (f : RRR) (s : State) : Host.Outcome State Fault Refusal :=
  scalarOp (.ssar f) (fun x => sarW x.sA x.sB) s

/-- SMIN (R257). -/
def execSmin (f : RRR) (s : State) : Host.Outcome State Fault Refusal :=
  scalarOp (.smin f) (fun x => x.parts.minW x.sA x.sB) s

/-- SMAX (R257). -/
def execSmax (f : RRR) (s : State) : Host.Outcome State Fault Refusal :=
  scalarOp (.smax f) (fun x => x.parts.maxW x.sA x.sB) s

/-- SCMP (R228, R257). -/
def execScmp (f : RRR) (s : State) : Host.Outcome State Fault Refusal :=
  scalarOp (.scmp f) (fun x => if intCond x.parts.fx x.parts.signed x.sA x.sB then 1 else 0) s

/-- SSEL (R257). -/
def execSsel (f : RRR) (s : State) : Host.Outcome State Fault Refusal :=
  scalarOp (.ssel f) (fun x => if x.sC = 0 then x.sB else x.sA) s

/-- SCLZ (R257). -/
def execSclz (f : RRR) (s : State) : Host.Outcome State Fault Refusal :=
  scalarOp (.sclz f) (fun x => clzW x.sA) s

/-- SPOPC (R257). -/
def execSpopc (f : RRR) (s : State) : Host.Outcome State Fault Refusal :=
  scalarOp (.spopc f) (fun x => popcW x.sA) s

/-- SBFE (R259). -/
def execSbfe (f : RRR) (s : State) : Host.Outcome State Fault Refusal :=
  scalarOp (.sbfe f) (fun x => x.parts.bfeW x.sA x.sB) s

/-- SBFI (R259). -/
def execSbfi (f : RRR) (s : State) : Host.Outcome State Fault Refusal :=
  scalarOp (.sbfi f) (fun x => bfiW x.sA x.sB x.sC) s

/-- The value of SMOVI, extended to 64 bits for .S64 and .U64 (R260). -/
def Exe.moviValue (x : Exe) : DWord :=
  match x.parts.lit with
  | some w => if x.parts.td = 8 then w.setWidth 64 else w.signExtend 64
  | none => (x.parts.imm.setWidth 14).signExtend 64

/-- SMOVI (R260). -/
def execSmovi (f : RI) (s : State) : Host.Outcome State Fault Refusal :=
  performPure (.smovi f) noCheck
    (fun x u =>
      if x.parts.td = 7 || x.parts.td = 8 then writePair x x.parts.d x.moviValue u
      else writeScalar x x.parts.d x.moviValue.lo u) s

/-- The addend of SADD64 (R226, R261). -/
def Exe.addend64 (x : Exe) : DWord :=
  match x.parts.fx with
  | 0 => match x.parts.lit with
    | some w => if x.parts.td = 7 then w.signExtend 64 else w.setWidth 64
    | none => x.pair x.parts.b
  | 1 => x.sB.signExtend 64
  | _ => x.sB.setWidth 64

/-- SADD64 (R261). -/
def execSadd64 (f : RRR) (s : State) : Host.Outcome State Fault Refusal :=
  performPure (.sadd64 f) noCheck (fun x u => writePair x x.parts.d (x.pair x.parts.a + x.addend64) u) s

end Sys2Proof.Machine
end

