-- ==== Sys2Proof/Machine/Direction.lean ====
section
/-! DEFINITION. Direction instructions (R283 to R292) and renormalisation (R188, R189). -/

namespace Sys2Proof.Machine

open Sys2Proof

/-! ### Renormalisation (R189) -/

/-- Exact result components of a group, y_i = ys_i × 2^exp × 2^(common / 256). When a factor 2^(r / 256) that is not
common to all makes them irrational, the ys are found to about 2^-700 and `exact` is false (log 12). -/
structure Comps where
  ys : List Int
  exp : Int := 0
  common : Int := 0
  exact : Bool := true
  deriving DecidableEq, Repr

/-- A direction: its norm and its components. -/
structure Dir where
  norm : Half
  comps : List Int
  deriving DecidableEq, Repr

def Dir.zero (n : Nat) : Dir := { norm := l16Zero, comps := List.replicate n 0 }
def Dir.nan (n : Nat) : Dir := { norm := l16Nan, comps := List.replicate n 0 }

/-- The sum of squares of components. -/
def sumSq (ys : List Int) : Nat := (ys.map fun y => y.natAbs * y.natAbs).foldl (· + ·) 0

/-- RNE(16384 × y / √g2) (R189). -/
def compOf (exact : Bool) (g2 : Nat) (y : Int) : Int :=
  let a := y.natAbs
  let k := isqrt (2 ^ 28 * a * a / g2)
  let lhs : Int := ((2 ^ 30 * a * a : Nat) : Int)
  let rhs : Int := (((2 * k + 1) * (2 * k + 1) * g2 : Nat) : Int)
  let d := lhs - rhs
  let tie := d = 0 || (!exact && d.natAbs * 2 ^ 600 < g2)
  let c := if tie then (if k % 2 = 0 then k else k + 1) else if 0 < d then k + 1 else k
  if y < 0 then -(c : Int) else (c : Int)

/-- Insert an index into a list in descending |y|, after equal ones. -/
def insertDesc (y : Nat → Nat) (i : Nat) : List Nat → List Nat
  | [] => [i]
  | j :: t => if y j < y i then i :: j :: t else j :: insertDesc y i t

/-- The correction of R189: components in descending |y|, cycling, one unit at a time, until |E| ≤ 2^17. -/
def correct (order : List Nat) : Nat → List Nat → List Int → List Int
  | 0, _, cs => cs
  | fuel + 1, todo, cs =>
    let e : Int := (sumSq cs : Int) - 2 ^ 28
    if e.natAbs ≤ 2 ^ 17 then cs
    else match todo with
      | [] => correct order fuel order cs
      | i :: t =>
        let c := cs.getD i 0
        if c = 0 then correct order fuel t cs
        else
          let away : Int := if c < 0 then -1 else 1
          correct order fuel t (cs.set i (if 0 < e then c - away else c + away))

/-- Renormalise (R189). -/
def Comps.renorm (y : Comps) : Dir :=
  let n := y.ys.length
  let g2 := sumSq y.ys
  if g2 = 0 then Dir.zero n
  else
    let m : Int := (((Nat.log2 (g2 ^ 256) + 1) / 2 : Nat) : Int) + 256 * y.exp + y.common
    if m ≤ -32767 then Dir.zero n
    else
      let cs := y.ys.map (compOf y.exact g2)
      let order := (List.range n).foldl (fun l i => insertDesc (fun j => (y.ys.getD j 0).natAbs) i l) []
      { norm := if 32767 ≤ m then l16Inf else BitVec.ofInt 16 m, comps := correct order (2 ^ 16) order cs }

/-- The invariant of R188 on finite or INF components. -/
def unitComps (cs : List Int) : Bool := ((sumSq cs : Int) - 2 ^ 28).natAbs ≤ 2 ^ 17

/-! ### Groups of a register (R75, R283) -/

/-- The components of register `r` in span group `g`. -/
def Team.comps (t : Team) (r g : Nat) : List Int :=
  (t.groupStrands g).flatMap fun st => (List.range 32).flatMap fun j =>
    let w := t.readV r (32 * st + j)
    [(w.extractLsb' 0 16).toInt, (w.extractLsb' 16 16).toInt]

/-- A direction operand of a group. A group that is ZERO or NAN holds no components, whatever bits its registers keep (R188,
R283). -/
def Exe.dir (x : Exe) (f : BitVec 7) (g : Nat) : Dir :=
  let r := x.regNum .d f
  let norm := x.team.readN r (g * x.team.span)
  let cs := x.team.comps r g
  { norm := norm, comps := if norm = l16Nan || norm = l16Zero then cs.map fun _ => 0 else cs }

/-- The word of components 2j and 2j + 1. -/
def compWord (cs : List Int) (j : Nat) : Word :=
  BitVec.ofInt 16 (cs.getD (2 * j + 1) 0) ++ BitVec.ofInt 16 (cs.getD (2 * j) 0)

/-- The lanes of a group with their words. -/
def Exe.dirLanes (x : Exe) (g : Nat) (cs : List Int) : List (Nat × Word) :=
  (List.range (32 * x.team.span)).map fun j => (32 * x.team.span * g + j, compWord cs j)

/-- The active groups, ascending (R283). -/
def Exe.groups (x : Exe) : List Nat :=
  (List.range (x.launch.strands / x.team.span)).filter fun g => x.lanes.any fun l => x.team.groupOf l == g

/-- The lanes of a group, and of all active groups. -/
def Exe.groupLanes (x : Exe) (g : Nat) : List Nat :=
  (List.range (32 * x.team.span)).map (32 * x.team.span * g + ·)

/-- Components in a group. -/
def Exe.width (x : Exe) : Nat := 64 * x.team.span

/-- Write directions, group by group, with their norms, and the latch. -/
def writeDirs (x : Exe) (ds : List (Nat × Dir)) (s : State) : State :=
  let r := x.regNum .d x.parts.d
  let lanes := ds.flatMap fun d => x.dirLanes d.1 d.2.comps
  setResult x (vectorLatch x r lanes)
    (s.updTeam x.p fun t => ds.foldl (fun u d => u.writeN r (u.groupStrands d.1) d.2.norm) (t.setLanes r lanes))

/-- Execute an instruction that writes a direction in each active group. -/
def dirInstr (i : Instr) (oc : Exe → State → Option Cause) (g : Exe → Nat → Dir) (s : State) :
    Host.Outcome State Fault Refusal :=
  performPure i oc (fun x u => writeDirs x (x.groups.map fun k => (k, g x k)) u) s

/-- Write a v register in every lane of each active group (R283): a value of each lane, or of each group (R288, R291). -/
def writeGroupLanes (x : Exe) (f : Nat → Nat → Word) (s : State) : State :=
  writeVector x x.parts.d (x.groups.flatMap fun g => (x.groupLanes g).map fun l => (l, f g l)) s
def writeGroups (x : Exe) (f : Nat → Word) (s : State) : State := writeGroupLanes x (fun g _ => f g) s

/-! ### The instructions (R284 to R291) -/

/-- DSPAN (R284). -/
def execDspan (f : RI) (s : State) : Host.Outcome State Fault Refusal :=
  performPure (.dspan f)
    (fun x _ =>
      let n := x.immInt
      if (n = 1 ∨ n = 2 ∨ n = 4) ∧ x.launch.strands % n.toNat = 0 then none else some .general)
    (fun x u =>
      let n := x.immInt.toNat
      if n = x.team.span then u
      else u.updTeam x.p fun t =>
        { (List.range 32).foldl (fun w r => w.writeN r (List.range x.launch.strands) l16Nan) t with span := n }) s

/-- Values over one exponent: numerators and the exponent; none when one is not finite. -/
def commonExp (vs : List FVal) : Option (List Int × Int) :=
  if !vs.all FVal.finite then none
  else
    let q := vs.foldl (fun q v => match v with | .fin _ m e => if m = 0 then q else min q e | _ => q) 0
    some (vs.map fun v => match v with | .fin sg m e => if m = 0 then 0 else numAt sg m e q | _ => 0, q)

/-- DCVT (R286). -/
def Exe.dcvt (x : Exe) (g : Nat) : Dir :=
  let halves (f : FFmt) (l : Nat) : List FVal :=
    let w := (x.v x.parts.a l).toNat
    [f.decode (field w 0 16), f.decode (field w 16 16)]
  let vs := (x.groupLanes g).flatMap fun l => match x.parts.ts with
    | 13 => halves f16 l
    | 14 => halves bf16 l
    | _ => [f32.decode (x.v x.parts.a l).toNat, f32.decode (x.v x.parts.b l).toNat]
  match commonExp vs with
  | none => Dir.nan x.width
  | some (ys, e) => Comps.renorm { ys := ys, exp := e }

def execDcvt (f : RRR) (s : State) : Host.Outcome State Fault Refusal := dirInstr (.dcvt f) noCheck Exe.dcvt s

/-- 2^(n / 256). -/
def exp2Eighth (n : Int) : FVal := if n % 256 = 0 then .fin false 1 (n / 256) else exp2Ratio n 256

/-- A component's value (R285), with INF as R287 gives it. -/
def dirValue (norm : Half) (c : Int) : FVal :=
  if norm = l16Nan then .nan
  else if norm = l16Zero || c = 0 then .fin false 0 0
  else if norm = l16Inf then .inf (decide (c < 0))
  else (FVal.fin (decide (c < 0)) c.natAbs (-14)).mul (exp2Eighth norm.toInt)

/-- A value in a format: an infinity that an INF norm gives stays one under .SAT (R287, R288). -/
def Exe.encodeDir (x : Exe) (fm : FFmt) (v : FVal) : Nat :=
  fm.encode (Round.ofCode x.parts.md.rmode.toNat) (x.parts.sat && (match v with | .inf _ => false | _ => true)) v

/-- DEXP (R287): every lane of the active groups. -/
def execDexp (f : RRR) (s : State) : Host.Outcome State Fault Refusal :=
  performPure (.dexp f) noCheck
    (fun x u => writeGroupLanes x (fun g l =>
      let d := x.dir x.parts.a g
      let j := l - 32 * x.team.span * g
      let val (fm : FFmt) (i : Nat) : Nat := x.encodeDir fm (dirValue d.norm (d.comps.getD i 0))
      BitVec.ofNat 32 (match x.parts.td with
        | 13 => val f16 (2 * j) + val f16 (2 * j + 1) * 65536
        | 14 => val bf16 (2 * j) + val bf16 (2 * j + 1) * 65536
        | _ => val f32 (2 * j + x.parts.fx))) u) s

/-- The exact sum of products of components (R288). -/
def dotP (a b : Dir) : Int := ((a.comps.zip b.comps).map fun p => p.1 * p.2).foldl (· + ·) 0

/-- The value P / 2^28 × 2^(n / 256). -/
def dotVal (p : Int) (n : Int) : FVal :=
  if p = 0 then .fin false 0 0 else (FVal.fin (decide (p < 0)) p.natAbs (-28)).mul (exp2Eighth n)

/-- DDOT and DDOTF (R288). -/
def dotOf (full : Bool) (a b : Dir) : FVal :=
  if a.norm = l16Nan || b.norm = l16Nan then .nan
  else if a.norm = l16Zero || b.norm = l16Zero then .fin false 0 0
  else
    let p := dotP a b
    if !full then dotVal p 0
    else if a.norm = l16Inf || b.norm = l16Inf then (if p = 0 then .nan else .inf (decide (p < 0)))
    else dotVal p (a.norm.toInt + b.norm.toInt)

/-- The dot product of a group, rounded. -/
def Exe.ddot (x : Exe) (full : Bool) (g : Nat) : Word :=
  BitVec.ofNat 32 (x.encodeDir f32 (dotOf full (x.dir x.parts.a g) (x.dir x.parts.b g)))

def execDdot (f : RRR) (s : State) : Host.Outcome State Fault Refusal :=
  performPure (.ddot f) noCheck (fun x u => writeGroups x (x.ddot false) u) s
def execDdotf (f : RRR) (s : State) : Host.Outcome State Fault Refusal :=
  performPure (.ddotf f) noCheck (fun x u => writeGroups x (x.ddot true) u) s

/-- A direction with every component negated. -/
def Dir.negate (d : Dir) : Dir := { d with comps := d.comps.map (- ·) }

/-- DSCAL (R289). -/
def Dir.scale (d : Dir) (t : Int) (neg : Bool) : Dir :=
  let e := if neg then d.negate else d
  if d.norm = l16Zero || d.norm = l16Nan || d.norm = l16Inf then e
  else
    let n := d.norm.toInt + t
    if n ≤ -32767 then Dir.zero d.comps.length
    else { e with norm := l16Of n }

def execDscal (f : RRR) (s : State) : Host.Outcome State Fault Refusal :=
  dirInstr (.dscal f) noCheck
    (fun x g => (x.dir x.parts.a g).scale (x.sB.extractLsb' 0 16).toInt (x.parts.fx == 1)) s

/-- Components p × a_i + q × b_i with dyadic factors p and q, for operands that are ZERO or finite (R285, R290). -/
def combine (p q : FVal) (a b : Dir) : Comps :=
  match p, q with
  | .fin sp mp ep, .fin sq mq eq =>
    let za := a.norm == l16Zero || mp == 0
    let zb := b.norm == l16Zero || mq == 0
    let sg (s : Bool) (m : Nat) : Int := if s then -(m : Int) else m
    let ka := sg sp mp
    let kb := sg sq mq
    if za && zb then { ys := a.comps.map fun _ => 0 }
    else if zb then { ys := a.comps.map (ka * ·), exp := ep - 14, common := a.norm.toInt }
    else if za then { ys := b.comps.map (kb * ·), exp := eq - 14, common := b.norm.toInt }
    else
      let d := b.norm.toInt - a.norm.toInt
      let r := d % 256
      let e := min ep (eq + d / 256)
      let ua := ka * 2 ^ (ep - e).toNat
      let ub := kb * 2 ^ (eq + d / 256 - e).toNat
      if r = 0 then
        { ys := (a.comps.zip b.comps).map fun c => ua * c.1 + ub * c.2, exp := e - 14, common := a.norm.toInt }
      else match exp2Ratio r 256 with
        | .fin _ m k =>
          let one : Int := 2 ^ (-k).toNat
          { ys := (a.comps.zip b.comps).map fun c => ua * c.1 * one + ub * c.2 * m,
            exp := e - 14 + k, common := a.norm.toInt, exact := false }
        | _ => { ys := [] }
  | _, _ => { ys := a.comps.map fun _ => 0 }

/-- DADD and DSUB (R290). -/
def Dir.addSub (sub : Bool) (a b : Dir) : Dir :=
  let n := a.comps.length
  let b' := if sub then b.negate else b
  if a.norm = l16Nan || b.norm = l16Nan then Dir.nan n
  else if a.norm = l16Inf && b.norm = l16Inf then
    let y := Comps.renorm { ys := (a.comps.zip b'.comps).map fun c => c.1 + c.2 }
    if y.norm = l16Zero then Dir.nan n else { y with norm := l16Inf }
  else if a.norm = l16Inf then a
  else if b.norm = l16Inf then b'
  else (combine (ofInt 1) (ofInt 1) a b').renorm

/-- DMIX (R290): t is taken exactly. -/
def Dir.mix (t : FVal) (a b : Dir) : Dir :=
  let n := a.comps.length
  if a.norm = l16Nan || b.norm = l16Nan then Dir.nan n
  else if !t.finite || a.norm = l16Inf || b.norm = l16Inf then Dir.nan n
  else (combine ((ofInt 1).add .rn t.neg) t a b).renorm

def execDadd (f : RRR) (s : State) : Host.Outcome State Fault Refusal :=
  dirInstr (.dadd f) noCheck (fun x g => Dir.addSub false (x.dir x.parts.a g) (x.dir x.parts.b g)) s
def execDsub (f : RRR) (s : State) : Host.Outcome State Fault Refusal :=
  dirInstr (.dsub f) noCheck (fun x g => Dir.addSub true (x.dir x.parts.a g) (x.dir x.parts.b g)) s

/-- A form that requires the modifier word (R285, R296, R303). -/
def needsMod (x : Exe) (_ : State) : Option Cause := if x.parts.m.isNone then some .general else none

def execDmix (f : RRR) (s : State) : Host.Outcome State Fault Refusal :=
  dirInstr (.dmix f) needsMod
    (fun x g => Dir.mix (f32.decode x.sC.toNat) (x.dir x.parts.a g) (x.dir x.parts.b g)) s

/-- DNEG, DMOV, DZERO (R286). -/
def execDneg (f : RRR) (s : State) : Host.Outcome State Fault Refusal :=
  dirInstr (.dneg f) noCheck (fun x g => (x.dir x.parts.a g).negate) s
def execDmov (f : RRR) (s : State) : Host.Outcome State Fault Refusal :=
  dirInstr (.dmov f) noCheck (fun x g => x.dir x.parts.a g) s
def execDzero (f : RRR) (s : State) : Host.Outcome State Fault Refusal :=
  dirInstr (.dzero f) noCheck (fun x _ => Dir.zero x.width) s

/-- DNRD's value (R291). -/
def normValue (fx : Nat) (l : Half) : Word :=
  match fx with
  | 0 => l.signExtend 32
  | 1 => fp32Bits (l16Val l)
  | _ => fp32Bits (if l = l16Zero then .inf true else if l = l16Nan then .nan else if l = l16Inf then .inf false
      else .fin (decide (l.toInt < 0)) l.toInt.natAbs (-8))

def execDnrd (f : RRR) (s : State) : Host.Outcome State Fault Refusal :=
  performPure (.dnrd f) noCheck
    (fun x u => writeGroups x (fun g =>
      normValue x.parts.fx (x.team.readN (x.regNum .n x.parts.a) (g * x.team.span))) u) s

/-- Write a norm to a group (R291). -/
def Team.putNorm (t : Team) (r g : Nat) (l : Half) : Team :=
  let old := t.readN r (g * t.span)
  let clear (u : Team) : Team := u.setLanes r ((List.range (32 * t.span)).map fun j => (32 * t.span * g + j, 0))
  if l = l16Zero || l = l16Nan then (clear t).writeN r (t.groupStrands g) l
  else if old = l16Zero || old = l16Nan then (clear t).writeN r (t.groupStrands g) l16Nan
  else t.writeN r (t.groupStrands g) l

/-- DNWR (R291): the value is that of the lowest active lane of the group. -/
def execDnwr (f : RRR) (s : State) : Host.Outcome State Fault Refusal :=
  performPure (.dnwr f) noCheck
    (fun x u => u.updTeam x.p fun t => x.groups.foldl (fun t g =>
      let l := (x.lanes.find? fun l => x.team.groupOf l == g).getD 0
      let v := x.v x.parts.a l
      t.putNorm (x.regNum .n x.parts.d) g
        (if x.parts.fx = 0 then v.setWidth 16 else (f32.decode v.toNat).toL16)) t) s

/-! ### Directions in memory (R292) -/

/-- Every half-word of a group's chunks, at the window address of the group's lowest lane. -/
def Exe.chunkAccess (x : Exe) (s : State) (k : Access) (g : Nat) : List LaneAddr :=
  let l := 32 * x.team.span * g
  let o : Int := ((x.v x.parts.a l).toNat : Int) + x.mwOff
  (List.range (66 * x.team.span)).map fun i => x.byWindow s k x.win l (o + (2 * i : Nat))

/-- Faults of a group are faults of every one of its lanes: the first half-word without a translation, then ALIGNMENT,
then FORMAT (R157). -/
def Exe.groupFaults (x : Exe) (g : Nat) (as : List LaneAddr) : List LaneFault :=
  let first (own : Phys → Option Cause) (bad : LaneRes → Option (Cause × Byte)) : Option LaneFault :=
    as.findSome? fun a =>
      let r : Option (Cause × Byte) := match a.res with
        | .ok y => (own y).map fun c => (c, y.gen)
        | r => bad r
      r.map fun c => ⟨a.lane, c.1, a.addr, c.2⟩
  let fault := (first (fun _ => none) fun r => match r with | .cause c b => some (c, b) | _ => none).or
    ((first (fun y => if y.addr % 2 ≠ 0 then some .align else none) fun _ => none).or
      (first (fun y => if y.fmt ≠ 0x1B then some .formatOp else none) fun _ => none))
  match fault with
  | none => []
  | some f => (x.groupLanes g).map fun l => { f with lane := l }

/-- The accesses of a group that wait: a migrating leaf or a remote owner, in every lane of the group. -/
def Exe.groupWaits (x : Exe) (g : Nat) (as : List LaneAddr) : List LaneAddr :=
  match as.find? fun a => (match a.res with | .migrating _ | .unreachable _ => true | _ => false) with
  | none => []
  | some a => (x.groupLanes g).map fun l => { a with lane := l }

/-- The checks of DLD and DST: the accesses of each active group. -/
def Exe.dirAccess (x : Exe) (s : State) (k : Access) : Res (List (Nat × List LaneAddr)) := do
  let gs := x.groups.map fun g => (g, x.chunkAccess s k g)
  x.watched s (if k = .load then 7 else 8) 2 (gs.flatMap (·.2))
  x.passLanes (gs.flatMap fun g => x.groupWaits g.1 g.2) (gs.flatMap fun g => x.groupFaults g.1 g.2)
  .ok gs

/-- What DLD makes of chunks of components and norm codes (R292). No chunk is unreadable, so step 1 meets the NAN code
alone (DEDUCED, log 16). -/
def loadDir (chunks : List (List Int × Half)) : Dir :=
  let cs := chunks.flatMap (·.1)
  let n := cs.length
  let l0 := (chunks.head?.map (·.2)).getD l16Zero
  if chunks.all (fun c => c.2 == l0) && l0 != l16Zero && l0 != l16Nan && unitComps cs then { norm := l0, comps := cs }
  else if chunks.any fun c => c.2 == l16Nan then Dir.nan n
  else if chunks.any fun c => c.2 == l16Inf then
    let d := Comps.renorm { ys := chunks.flatMap fun c => if c.2 = l16Inf then c.1 else c.1.map fun _ => 0 }
    if d.norm = l16Zero then Dir.nan n else { d with norm := l16Inf }
  else match (chunks.find? fun c => c.2 != l16Zero).map (·.2) with
    | none => Dir.zero n
    | some base =>
      let live := chunks.filter fun c => c.2 != l16Zero
      let q := live.foldl (fun q c => min q ((c.2.toInt - base.toInt) / 256)) 0
      let exact := live.all fun c => (c.2.toInt - base.toInt) % 256 == 0
      let prec : Int := if exact then 0 else -800
      let scaled (c : List Int × Half) : List Int :=
        if c.2 = l16Zero then c.1.map fun _ => 0
        else match exp2Eighth (c.2.toInt - base.toInt) with
          | .fin _ m k =>
            let sh := k - q - prec
            let f : Int := if 0 ≤ sh then ((m <<< sh.toNat : Nat) : Int) else ((m >>> (-sh).toNat : Nat) : Int)
            c.1.map (f * ·)
          | _ => []
      Comps.renorm { ys := chunks.flatMap scaled, exp := q + prec - 14, common := base.toInt, exact := exact }

/-- DLD (R292). -/
def execDld (f : MW) (s : State) : Host.Outcome State Fault Refusal :=
  perform (.dld f) windowCheck
    (fun x u => do
      let gs ← x.dirAccess u .load
      let oks := gs.flatMap fun g => okLanes g.2
      let u1 := u.commitFills x.agent (oks.map (·.2))
      let bytes (y : Phys) : List Nat := [x.loadAddr y, x.loadAddr y + 1]
      if oks.any fun e => (bytes e.2).any (x.loadPoison u1 (bypasses false e.2)) then .error .poison
      let u2 := oks.foldl (fun v e =>
        if bypasses false e.2 then v else fillLines x.team.cluster (bytes e.2) v) u1
      let ds := gs.map fun g =>
        let hs := (okLanes g.2).map fun e => x.loadNat u2 (bypasses false e.2) (x.loadAddr e.2) 2
        (g.1, loadDir ((chunks 33 (2 * x.team.span + 1) hs).map fun c =>
          ((c.take 32).map (Machine.signed 16), BitVec.ofNat 16 (c.getD 32 0))))
      let r := x.regNum .d x.parts.d
      let lanes := ds.flatMap fun d => x.dirLanes d.1 d.2.comps
      let norms := ds.flatMap fun d => (x.team.groupStrands d.1).map fun st => RegWrite.norm r st d.2.norm
      .ok (setResult x (vectorLatch x r lanes)
        (u2.countLoad x.p { writes := (lanes.map fun lv => RegWrite.lane r lv.1 lv.2) ++ norms }))) s

/-- The half-words that DST writes for a group: its chunks. -/
def Dir.halves (d : Dir) : List Half :=
  let clear := d.norm = l16Zero || d.norm = l16Nan
  (List.range (d.comps.length / 32)).flatMap fun k =>
    ((List.range 32).map fun i => if clear then 0 else BitVec.ofInt 16 (d.comps.getD (32 * k + i) 0)) ++ [d.norm]

/-- DST (R292). A half-word of chunk k belongs to the pass of its strand. -/
def execDst (f : MW) (s : State) : Host.Outcome State Fault Refusal :=
  perform (.dst f) windowCheck
    (fun x u => do
      let gs ← x.dirAccess u .store
      let u1 := u.commitFills x.agent (gs.flatMap fun g => (okLanes g.2).map (·.2))
      let bs := gs.flatMap fun g =>
        let hs := (x.dir x.parts.d g.1).halves
        let low := (x.lanes.find? fun l => x.team.groupOf l == g.1).getD 0
        ((okLanes g.2).zip (List.range hs.length)).map fun e =>
          let strand := x.team.span * g.1 + e.2 / 66
          let lane := if x.lanes.any fun l => l / 32 == strand then 32 * strand else low
          (⟨lane, e.1.2, wholeBytes e.1.2.addr (bytesOf 2 (hs.getD e.2 0).toNat), none⟩ : StoreBytes)
      .ok (storeBytes x bs u1)) s

end Sys2Proof.Machine
end

