-- ==== Sys2Proof/Machine/Vector.lean ====
section
/-! DEFINITION. Vector integer, floating-point and conversion instructions (R263 to R275). -/

namespace Sys2Proof.Machine

open Sys2Proof

/-- Execute a vector instruction whose result is one word in each active lane. -/
def vectorOp (i : Instr) (g : Exe → Nat → Word) (s : State) : Host.Outcome State Fault Refusal :=
  performPure i noCheck (fun x u => writeEach x x.parts.d (g x) u) s

/-- The vector source A of a lane. -/
def Exe.vA (x : Exe) (l : Nat) : Word := x.v x.parts.a l

/-! ### Vector integer (R265 to R268) -/

/-- VABS (R265). -/
def Parts.absW (p : Parts) (a : Word) : Word :=
  if p.signed then p.narrow a.toInt.natAbs else a

/-- The table byte, or nibble, that VPERM selects (R267). -/
def permByte (fx : Nat) (a b c : Word) (k : Nat) : Nat :=
  let t := a.toNat + b.toNat * 2 ^ 32
  let s := field c.toNat (4 * k) 4
  match fx with
  | 0 => let v := field t (8 * (s % 8)) 8
    if s < 8 then v else if v.testBit 7 then 0xFF else 0
  | 1 => wrap 8 (Machine.signed 4 (field t (4 * s) 4))
  | _ => field t (4 * s) 4

/-- VPERM's result (R267). -/
def permW (fx : Nat) (a b c : Word) : Word :=
  BitVec.ofNat 32 (natOf ((List.range 4).map fun k => BitVec.ofNat 8 (permByte fx a b c k)))

/-- VDOT4's result (R268): FX 0 and 1 read A signed, FX 0 and 2 read B signed. -/
def Parts.dot4W (p : Parts) (a b c : Word) : Word :=
  let el (sg : Bool) (v : Word) (i : Nat) : Int :=
    let n := field v.toNat (8 * i) 8
    if sg then Machine.signed 8 n else (n : Int)
  let sum := (List.range 4).foldl (fun acc i => acc + el (p.fx < 2) a i * el (p.fx % 2 == 0) b i) c.toInt
  BitVec.ofNat 32 (intoInt true 32 p.sat sum)

/-- VADD (R265). -/
def execVadd (f : RRR) (s : State) : Host.Outcome State Fault Refusal :=
  vectorOp (.vadd f) (fun x l => x.parts.addW (x.vA l) (x.vB l)) s

/-- VSUB (R265). -/
def execVsub (f : RRR) (s : State) : Host.Outcome State Fault Refusal :=
  vectorOp (.vsub f) (fun x l => x.parts.subW (x.vA l) (x.vB l)) s

/-- VMUL (R265). -/
def execVmul (f : RRR) (s : State) : Host.Outcome State Fault Refusal :=
  vectorOp (.vmul f) (fun x l => x.parts.mulW (x.vA l) (x.vB l)) s

/-- VMULH (R265). -/
def execVmulh (f : RRR) (s : State) : Host.Outcome State Fault Refusal :=
  vectorOp (.vmulh f) (fun x l => x.parts.mulhW (x.vA l) (x.vB l)) s

/-- VMAD (R265). -/
def execVmad (f : RRR) (s : State) : Host.Outcome State Fault Refusal :=
  vectorOp (.vmad f) (fun x l => x.parts.madW (x.vA l) (x.vB l) (x.vC l)) s

/-- VAND (R265). -/
def execVand (f : RRR) (s : State) : Host.Outcome State Fault Refusal :=
  vectorOp (.vand f) (fun x l => x.vA l &&& x.vB l) s

/-- VOR (R265). -/
def execVor (f : RRR) (s : State) : Host.Outcome State Fault Refusal :=
  vectorOp (.vor f) (fun x l => x.vA l ||| x.vB l) s

/-- VXOR (R265). -/
def execVxor (f : RRR) (s : State) : Host.Outcome State Fault Refusal :=
  vectorOp (.vxor f) (fun x l => x.vA l ^^^ x.vB l) s

/-- VNOT (R265). -/
def execVnot (f : RRR) (s : State) : Host.Outcome State Fault Refusal :=
  vectorOp (.vnot f) (fun x l => ~~~(x.vA l)) s

/-- VSHL (R265). -/
def execVshl (f : RRR) (s : State) : Host.Outcome State Fault Refusal :=
  vectorOp (.vshl f) (fun x l => shlW (x.vA l) (x.vB l)) s

/-- VSHR (R265). -/
def execVshr (f : RRR) (s : State) : Host.Outcome State Fault Refusal :=
  vectorOp (.vshr f) (fun x l => shrW (x.vA l) (x.vB l)) s

/-- VSAR (R265). -/
def execVsar (f : RRR) (s : State) : Host.Outcome State Fault Refusal :=
  vectorOp (.vsar f) (fun x l => sarW (x.vA l) (x.vB l)) s

/-- VMIN (R265). -/
def execVmin (f : RRR) (s : State) : Host.Outcome State Fault Refusal :=
  vectorOp (.vmin f) (fun x l => x.parts.minW (x.vA l) (x.vB l)) s

/-- VMAX (R265). -/
def execVmax (f : RRR) (s : State) : Host.Outcome State Fault Refusal :=
  vectorOp (.vmax f) (fun x l => x.parts.maxW (x.vA l) (x.vB l)) s

/-- VABS (R265). -/
def execVabs (f : RRR) (s : State) : Host.Outcome State Fault Refusal :=
  vectorOp (.vabs f) (fun x l => x.parts.absW (x.vA l)) s

/-- VSEL (R265). -/
def execVsel (f : RRR) (s : State) : Host.Outcome State Fault Refusal :=
  vectorOp (.vsel f) (fun x l => if x.vC l = 0 then x.vB l else x.vA l) s

/-- VCLZ (R265). -/
def execVclz (f : RRR) (s : State) : Host.Outcome State Fault Refusal :=
  vectorOp (.vclz f) (fun x l => clzW (x.vA l)) s

/-- VPOPC (R265). -/
def execVpopc (f : RRR) (s : State) : Host.Outcome State Fault Refusal :=
  vectorOp (.vpopc f) (fun x l => popcW (x.vA l)) s

/-- VBFE (R265). -/
def execVbfe (f : RRR) (s : State) : Host.Outcome State Fault Refusal :=
  vectorOp (.vbfe f) (fun x l => x.parts.bfeW (x.vA l) (x.vB l)) s

/-- VBFI (R265). -/
def execVbfi (f : RRR) (s : State) : Host.Outcome State Fault Refusal :=
  vectorOp (.vbfi f) (fun x l => bfiW (x.vA l) (x.vB l) (x.vC l)) s

/-- VPERM (R267). -/
def execVperm (f : RRR) (s : State) : Host.Outcome State Fault Refusal :=
  vectorOp (.vperm f) (fun x l => permW x.parts.fx (x.vA l) (x.vB l) (x.vC l)) s

/-- VDOT4 (R268). -/
def execVdot4 (f : RRR) (s : State) : Host.Outcome State Fault Refusal :=
  vectorOp (.vdot4 f) (fun x l => x.parts.dot4W (x.vA l) (x.vB l) (x.vC l)) s

/-- VCMP (R266): bits of inactive lanes keep their values. -/
def execVcmp (f : RRR) (s : State) : Host.Outcome State Fault Refusal :=
  performPure (.vcmp f) noCheck
    (fun x u => writeMaskBits x x.parts.d (fun l => intCond x.parts.fx x.parts.signed (x.vA l) (x.vB l)) u) s

end Sys2Proof.Machine
end

