-- ==== Sys2Proof/Machine/FloatOps.lean ====
section
/-! DEFINITION. Vector floating-point instructions (R269 to R271). -/

namespace Sys2Proof.Machine

open Sys2Proof

/-- The format of the instruction's elements, and whether two are packed in a word (R269). -/
def Parts.ffmt (p : Parts) : FFmt := laneFormat p.td
def Parts.packed (p : Parts) : Bool := p.td == 13 || p.td == 14

/-- A floating source of a lane: a word, or a pair for .F64 (R264). -/
def Exe.fv (x : Exe) (f : BitVec 7) (l : Nat) : Nat :=
  if x.parts.fw = 2 then (x.vPair f l).toNat else (x.v f l).toNat
def Exe.fA (x : Exe) (l : Nat) : Nat := x.fv x.parts.a l
def Exe.fB (x : Exe) (l : Nat) : Nat :=
  match x.parts.lit with | some w => w.toNat | none => x.fv x.parts.b l
def Exe.fC (x : Exe) (l : Nat) : Nat := if x.parts.fw = 2 then (x.vPair x.parts.c l).toNat else (x.vC l).toNat

/-- A floating operation on the elements of a lane: each half of a packed word on its own (R196, R269). -/
def Parts.elementwise (p : Parts) (g : Nat → Nat → Nat → Nat) (a b c : Nat) : Nat :=
  if p.packed then
    g (field a 0 16) (field b 0 16) (field c 0 16) + g (field a 16 16) (field b 16 16) (field c 16 16) * 65536
  else g a b c

/-- Write a floating result in each active lane: a word, or a pair for .F64. -/
def writeFloat (x : Exe) (g : Nat → Nat) (s : State) : State :=
  if x.parts.fw = 2 then writeEachPair x x.parts.d (fun l => BitVec.ofNat 64 (g l)) s
  else writeEach x x.parts.d (fun l => BitVec.ofNat 32 (g l)) s

/-- The rounding mode of the instruction. -/
def Parts.round (p : Parts) : Round := Round.ofCode p.md.rmode.toNat

/-- Execute a floating instruction with the operation `g` on elements A, B and C. -/
def floatInstr (i : Instr) (g : Parts → Nat → Nat → Nat → Nat) (s : State) : Host.Outcome State Fault Refusal :=
  performPure i noCheck
    (fun x u => writeFloat x (fun l => x.parts.elementwise (g x.parts) (x.fA l) (x.fB l) (x.fC l)) u) s

/-- Execute a special function (R271). -/
def specialInstr (i : Instr) (g : SpecialFn) (s : State) : Host.Outcome State Fault Refusal :=
  floatInstr i (fun p a _ _ => p.ffmt.special g p.round p.sat a) s

/-- FADD (R269). -/
def execFadd (f : RRR) (s : State) : Host.Outcome State Fault Refusal :=
  floatInstr (.fadd f) (fun p a b _ => p.ffmt.addBits p.round p.sat a b) s

/-- FSUB (R269). -/
def execFsub (f : RRR) (s : State) : Host.Outcome State Fault Refusal :=
  floatInstr (.fsub f) (fun p a b _ => p.ffmt.subBits p.round p.sat a b) s

/-- FMUL (R269). -/
def execFmul (f : RRR) (s : State) : Host.Outcome State Fault Refusal :=
  floatInstr (.fmul f) (fun p a b _ => p.ffmt.mulBits p.round p.sat a b) s

/-- FMA (R269). -/
def execFma (f : RRR) (s : State) : Host.Outcome State Fault Refusal :=
  floatInstr (.fma f) (fun p a b c => p.ffmt.fmaBits p.round p.sat false a b c) s

/-- FNMA (R269). -/
def execFnma (f : RRR) (s : State) : Host.Outcome State Fault Refusal :=
  floatInstr (.fnma f) (fun p a b c => p.ffmt.fmaBits p.round p.sat true a b c) s

/-- FMIN (R199, R270). -/
def execFmin (f : RRR) (s : State) : Host.Outcome State Fault Refusal :=
  floatInstr (.fmin f) (fun p a b _ => p.ffmt.minmax false a b) s

/-- FMAX (R199, R270). -/
def execFmax (f : RRR) (s : State) : Host.Outcome State Fault Refusal :=
  floatInstr (.fmax f) (fun p a b _ => p.ffmt.minmax true a b) s

/-- FNEG (R269). -/
def execFneg (f : RRR) (s : State) : Host.Outcome State Fault Refusal :=
  floatInstr (.fneg f) (fun p a _ _ => a ^^^ p.ffmt.sign true) s

/-- FABS (R269). -/
def execFabs (f : RRR) (s : State) : Host.Outcome State Fault Refusal :=
  floatInstr (.fabs f) (fun p a _ _ => a % 2 ^ (p.ffmt.eb + p.ffmt.fb)) s

/-- FRCP (R271). -/
def execFrcp (f : RRR) (s : State) : Host.Outcome State Fault Refusal :=
  specialInstr (.frcp f) .rcp s

/-- FRSQ (R271). -/
def execFrsq (f : RRR) (s : State) : Host.Outcome State Fault Refusal :=
  specialInstr (.frsq f) .rsq s

/-- FSQRT (R271). -/
def execFsqrt (f : RRR) (s : State) : Host.Outcome State Fault Refusal :=
  specialInstr (.fsqrt f) .sqrt s

/-- FEXP2 (R271). -/
def execFexp2 (f : RRR) (s : State) : Host.Outcome State Fault Refusal :=
  specialInstr (.fexp2 f) .exp2 s

/-- FLOG2 (R271). -/
def execFlog2 (f : RRR) (s : State) : Host.Outcome State Fault Refusal :=
  specialInstr (.flog2 f) .log2 s

/-- FSIN (R271). -/
def execFsin (f : RRR) (s : State) : Host.Outcome State Fault Refusal :=
  specialInstr (.fsin f) .sin s

/-- FCOS (R271). -/
def execFcos (f : RRR) (s : State) : Host.Outcome State Fault Refusal :=
  specialInstr (.fcos f) .cos s

/-- FTANH (R271). -/
def execFtanh (f : RRR) (s : State) : Host.Outcome State Fault Refusal :=
  specialInstr (.ftanh f) .tanh s

/-- FCMP (R270): it writes md as VCMP does. -/
def execFcmp (f : RRR) (s : State) : Host.Outcome State Fault Refusal :=
  performPure (.fcmp f) noCheck
    (fun x u => writeMaskBits x x.parts.d (fun l => x.parts.ffmt.cond x.parts.fx (x.fA l) (x.fB l)) u) s

/-- FCLASS (R270): one class word, or one in each half. -/
def execFclass (f : RRR) (s : State) : Host.Outcome State Fault Refusal :=
  performPure (.fclass f) noCheck
    (fun x u => writeEach x x.parts.d
      (fun l => BitVec.ofNat 32 (x.parts.elementwise (fun a _ _ => x.parts.ffmt.classBits a) (x.fA l) 0 0)) u) s

/-- FSCALE (R269): B is one register, an INT32, or an INT16 in each half of a packed type. -/
def execFscale (f : RRR) (s : State) : Host.Outcome State Fault Refusal :=
  performPure (.fscale f) noCheck
    (fun x u => writeFloat x (fun l =>
      x.parts.elementwise (fun a b _ => x.parts.ffmt.scaleBits x.parts.round x.parts.sat a
        (if x.parts.packed then Machine.signed 16 b else Machine.signed 32 b)) (x.fA l) (x.vB l).toNat 0) u) s

end Sys2Proof.Machine
end

