-- ==== Sys2Proof/Machine/Cvt.lean ====
section
/-! DEFINITION. Conversions (R272 to R275) and the random draws of lanes (R193, R194, R282). -/

namespace Sys2Proof.Machine

open Sys2Proof

/-! ### Random words of lanes (R194) -/

/-- The counter that a lane's draw uses. -/
def Exe.counter (x : Exe) (l : Nat) : Word := x.vReg x.parts.c l

/-- Word 0 of the lane's draw, with E = 1. -/
def Exe.draw (x : Exe) (key : BitVec 7) (l : Nat) : Word :=
  philox (x.sAt key 0) (x.sAt key 1) (x.counter l) (BitVec.ofNat 32 l) (BitVec.ofNat 32 x.crew.lin)
    (BitVec.ofNat 32 (x.p.team + 16 * x.launch.stage)) 0

/-- Advance the counter register of every active lane. -/
def advanceCounter (x : Exe) (s : State) : State :=
  writeExtra x x.parts.c (x.lanes.map fun l => (l, x.counter l + 1)) s

/-- ILLEGAL_OPERAND when C names the destination (R272, R274, R282). -/
def counterCheck (x : Exe) (_ : State) : Option Cause :=
  if x.regNum .v x.parts.c = x.regNum .v x.parts.d then some .general else none

/-- VRAND (R282). -/
def execVrand (f : RRR) (s : State) : Host.Outcome State Fault Refusal :=
  performPure (.vrand f) counterCheck
    (fun x u => advanceCounter x (writeEach x x.parts.d (fun l =>
      let w := x.draw x.parts.a l
      if x.parts.fx = 0 then w else fp32Bits (.fin false (w >>> 8).toNat (-24))) u)) s

/-! ### CVT, CVTN, CVTW (R272, R273) -/

/-- CVT (R272). -/
def execCvt (f : RRR) (s : State) : Host.Outcome State Fault Refusal :=
  performPure (.cvt f) (fun x u => if x.parts.md.rmode = 4 then counterCheck x u else none)
    (fun x u =>
      let p := x.parts
      let sr := p.md.rmode == 4
      let val (l : Nat) : Nat :=
        let a := if wide p.ts then (x.vPair p.a l).toNat else (x.vA l).toNat
        let r := if sr then Round.sr (x.draw p.b l) else p.round
        extendResult p.td (convert p.ts p.td r p.sat a)
      let u1 := if wide p.td then writeEachPair x p.d (fun l => BitVec.ofNat 64 (val l)) u
        else writeEach x p.d (fun l => BitVec.ofNat 32 (val l)) u
      if sr then advanceCounter x u1 else u1) s

/-- CVTN's result (R273): A in the lower slot, B in the upper, the rest kept. -/
def Parts.narrowPack (p : Parts) (d a b : Word) : Word :=
  let w := typeWidth p.td
  let at' := 2 * w * p.fx
  let c (v : Word) : Nat := convert p.ts p.td p.round p.sat v.toNat
  let m : Word := BitVec.ofNat 32 ((2 ^ (2 * w) - 1) <<< at')
  (d &&& ~~~m) ||| BitVec.ofNat 32 ((c a + c b * 2 ^ w) <<< at')

/-- CVTN (R273). -/
def execCvtn (f : RRR) (s : State) : Host.Outcome State Fault Refusal :=
  performPure (.cvtn f) noCheck
    (fun x u => writeEach x x.parts.d (fun l => x.parts.narrowPack (x.vAt x.parts.d 0 l) (x.vA l) (x.vB l)) u) s

/-- CVTW (R273): slot FX of a packed element. -/
def execCvtw (f : RRR) (s : State) : Host.Outcome State Fault Refusal :=
  vectorOp (.cvtw f) (fun x l =>
    let w := typeWidth x.parts.ts
    BitVec.ofNat 32 (convert x.parts.ts x.parts.td x.parts.round x.parts.sat
      (field (x.vA l).toNat (w * x.parts.fx) w))) s

/-! ### QNT, DQNT (R274, R275) -/

/-- The lanes of a QNT block. -/
def Parts.blockLanes (p : Parts) : Nat := match p.fx with | 0 => 32 | 1 => 16 | _ => 128

/-- One block: its scale and its element words, over its active lanes in ascending order (R184, R185). -/
def Parts.quantise (p : Parts) (vals : List FVal) : Nat × List Nat :=
  if p.fx = 2 then
    let r := encodeGroup vals
    (r.1, r.2.map (wrap 32))
  else match floatType p.td with
    | some f => encodeBlock f vals
    | none => (0, [])

/-- The block results of QNT: lane, element and scale. -/
def Exe.qntLanes (x : Exe) : List (Nat × Nat × Nat) :=
  (List.range (x.nlanes / 16)).flatMap fun b =>
    let ls := x.lanes.filter fun l => l / x.parts.blockLanes == b
    let r := x.parts.quantise (ls.map fun l => f32.decode (x.vA l).toNat)
    (ls.zip r.2).map fun e => (e.1, e.2, r.1)

/-- QNT (R274): elements in vd, the block's scale in vc. -/
def execQnt (f : RRR) (s : State) : Host.Outcome State Fault Refusal :=
  performPure (.qnt f) counterCheck
    (fun x u =>
      let r := x.qntLanes
      writeVector x x.parts.d (r.map fun e => (e.1, BitVec.ofNat 32 e.2.1))
        (writeExtra x x.parts.c (r.map fun e => (e.1, BitVec.ofNat 32 e.2.2)) u)) s

/-- DQNT's result (R275). -/
def Parts.dequantise (p : Parts) (a b : Word) : Word :=
  if p.fx = 1 then groupDecode (field b.toNat 0 16) (Machine.signed 4 (field a.toNat 0 4))
  else match floatType p.ts with
    | some f => e8m0Decode (field b.toNat 0 8) (f.decode (field a.toNat 0 f.width))
    | none => 0

/-- DQNT (R275). -/
def execDqnt (f : RRR) (s : State) : Host.Outcome State Fault Refusal :=
  vectorOp (.dqnt f) (fun x l => x.parts.dequantise (x.vA l) (x.vB l)) s

end Sys2Proof.Machine
end

