-- ==== Sys2Proof/Machine/CrossLane.lean ====
section
/-! DEFINITION. Cross-lane instructions (R276 to R281) and their reductions (R197 to R199). -/

namespace Sys2Proof.Machine

open Sys2Proof

/-- The tile base of a lane. -/
def Exe.tileBase (x : Exe) (l : Nat) : Nat := l - l % x.team.part

/-- The active lanes of the tile of a lane, ascending. -/
def Exe.tileLanes (x : Exe) (l : Nat) : List Nat := x.lanes.filter fun k => x.tileBase k == x.tileBase l

/-- The value of a shuffle: A of the source lane, or the lane's own when there is none or it is inactive (R277). -/
def Exe.shuffled (x : Exe) (src : Exe → Nat → Option Nat) (l : Nat) : Word :=
  match src x l with
  | some k => if x.eff.lane k then x.vA k else x.vA l
  | none => x.vA l

/-- SHFL and SHFL.CK (R277): the checked form traps when an active lane's index is at least part. -/
def execShfl (f : RRR) (s : State) : Host.Outcome State Fault Refusal :=
  perform (.shfl f) noCheck
    (fun x u =>
      if x.parts.fx = 1 && x.lanes.any fun l => x.team.part ≤ (x.vB l).toNat then trapNow x .shflIndex
      else .ok (writeEach x x.parts.d (x.shuffled fun x l => some (x.tileBase l + (x.vB l).toNat % x.team.part)) u)) s

/-- SHFLU (R277). -/
def execShflu (f : RRR) (s : State) : Host.Outcome State Fault Refusal :=
  vectorOp (.shflu f) (fun x l => x.shuffled (fun x l =>
    let t := l % x.team.part
    let i := (x.vB l).toNat
    if i ≤ t then some (x.tileBase l + t - i) else none) l) s

/-- SHFLD (R277). -/
def execShfld (f : RRR) (s : State) : Host.Outcome State Fault Refusal :=
  vectorOp (.shfld f) (fun x l => x.shuffled (fun x l =>
    let t := l % x.team.part + (x.vB l).toNat
    if t < x.team.part then some (x.tileBase l + t) else none) l) s

/-- SHFLX (R277). -/
def execShflx (f : RRR) (s : State) : Host.Outcome State Fault Refusal :=
  vectorOp (.shflx f) (fun x l => x.shuffled (fun x l =>
    some (x.tileBase l + ((l % x.team.part) ^^^ ((x.vB l).toNat % x.team.part)))) l) s

/-- VOTE's answer for the tile of a lane (R278). -/
def Exe.vote (x : Exe) (l : Nat) : Bool :=
  let m := x.m x.parts.a
  let ls := x.tileLanes l
  match x.parts.s with
  | 0 => ls.any m.lane
  | 1 => ls.all m.lane
  | _ => ls.all m.lane || !ls.any m.lane

/-- VOTE (R278). -/
def execVote (f : RRS) (s : State) : Host.Outcome State Fault Refusal :=
  performPure (.vote f) noCheck (fun x u => writeMaskBits x x.parts.d x.vote u) s

/-- BALLOT's value for a lane (R278). -/
def Exe.ballot (x : Exe) (l : Nat) : Word :=
  let m := x.m x.parts.a
  let set := (x.tileLanes l).filter m.lane
  if x.parts.s = 1 then BitVec.ofNat 32 set.length
  else set.foldl (fun w k => w ||| (1#32 <<< (k % x.team.part))) 0

/-- BALLOT (R278). -/
def execBallot (f : RRS) (s : State) : Host.Outcome State Fault Refusal :=
  performPure (.ballot f) noCheck (fun x u => writeEach x x.parts.d x.ballot u) s

/-! ### Reductions (R197 to R199, R279) -/

/-- One combination of the operation FX at type TD; a floating sum is rounded once. -/
def Parts.combine (p : Parts) (a b : Word) : Word :=
  if p.td = 10 then match p.fx with
    | 0 => BitVec.ofNat 32 (f32.addBits .rn false a.toNat b.toNat)
    | 1 => BitVec.ofNat 32 (f32.minmax false a.toNat b.toNat)
    | _ => BitVec.ofNat 32 (f32.minmax true a.toNat b.toNat)
  else match p.fx with
    | 0 => a + b
    | 1 => p.minW a b
    | 2 => p.maxW a b
    | 3 => a &&& b
    | 4 => a ||| b
    | _ => a ^^^ b

/-- A minimum or maximum of one NaN is the canonical NaN (R199). -/
def Parts.single (p : Parts) (a : Word) : Word := if p.td = 10 ∧ p.fx ≠ 0 then p.combine a a else a

/-- One level of the tree of R197 over adjacent positions. -/
def treeLevel (g : Word → Word → Word) : List (Option Word) → List (Option Word)
  | some a :: some b :: t => some (g a b) :: treeLevel g t
  | none :: b :: t => b :: treeLevel g t
  | a :: none :: t => a :: treeLevel g t
  | [a] => [a]
  | [] => []

/-- The tree of R197: `n` levels. -/
def treeReduce (g : Word → Word → Word) : Nat → List (Option Word) → Option Word
  | 0, l => l.headD none
  | n + 1, l => treeReduce g n (treeLevel g l)

/-- The values that the lanes of a run hold, none where a lane is inactive. -/
def Exe.laneVals (x : Exe) (b n : Nat) : List (Option Word) :=
  (List.range n).map fun j => if x.eff.lane (b + j) then some (x.parts.single (x.vA (b + j))) else none

/-- VRED (R279). -/
def execVred (f : RRR) (s : State) : Host.Outcome State Fault Refusal :=
  vectorOp (.vred f) (fun x l =>
    (treeReduce x.parts.combine 5 (x.laneVals (x.tileBase l) x.team.part)).getD 0) s

/-- VSCAN's value for a lane (R198, R279). -/
def Exe.scan (x : Exe) (l : Nat) : Word :=
  match (x.tileLanes l).filter (· ≤ l) with
  | [] => 0
  | k :: ks => ks.foldl (fun a j => x.parts.combine a (x.vA j)) (x.parts.single (x.vA k))

/-- VSCAN (R279). -/
def execVscan (f : RRR) (s : State) : Host.Outcome State Fault Refusal := vectorOp (.vscan f) Exe.scan s

/-- TRED's value (R197, R279). -/
def Exe.teamReduce (x : Exe) : Word :=
  let strands := (List.range x.launch.strands).map fun g => treeReduce x.parts.combine 5 (x.laneVals (32 * g) 32)
  (treeReduce x.parts.combine 5 strands).getD 0

/-- TRED (R279). -/
def execTred (f : RRR) (s : State) : Host.Outcome State Fault Refusal :=
  performPure (.tred f) noCheck (fun x u => writeScalar x x.parts.d x.teamReduce u) s

/-- BCAST (R280): the lane it reads need not be active. -/
def execBcast (f : RRR) (s : State) : Host.Outcome State Fault Refusal :=
  performPure (.bcast f)
    (fun x _ => if x.known x.parts.b && x.nlanes ≤ x.sB.toNat then some .general else none)
    (fun x u => writeEach x x.parts.d (fun _ => x.vA x.sB.toNat) u) s

/-- COMPACT (R281): it also writes lanes outside its mask. -/
def execCompact (f : RRR) (s : State) : Host.Outcome State Fault Refusal :=
  performPure (.compact f) noCheck
    (fun x u => writeVector x x.parts.d
      ((List.range (x.nlanes / x.team.part)).flatMap fun t =>
        let b := t * x.team.part
        let ls := x.tileLanes b
        (List.range ls.length).map fun j => (b + j, x.vA (ls.getD j 0))) u) s

end Sys2Proof.Machine
end

