-- ==== Sys2Proof/Machine/Winners.lean ====
section
/-! DEFINITION. Winner lists (R147 to R150, R293 to R299). -/

namespace Sys2Proof.Machine

open Sys2Proof

/-! ### Rows (R149, R150) -/

/-- The empty pattern: value −∞ low, index 0xFFFFFFFF high. -/
def emptyEntry : DWord := 0xFFFFFFFFFF800000

/-- Entry `e` of a row. -/
def WRow.entry (r : WRow) (e : Nat) : DWord := r.entries.read emptyEntry e

def statCount (w : Word) : Nat := (w.extractLsb' 0 5).toNat
def statK (w : Word) : Nat := (w.extractLsb' 5 5).toNat
def statNan (w : Word) : Bool := w.getLsbD 10
def statTie (w : Word) : Bool := w.getLsbD 11
def statInc (w : Word) : Bool := w.getLsbD 12

/-- A row status word. -/
def statWord (count k : Nat) (nan tie inc : Bool) : Word :=
  (0 : BitVec 19) ++ (BitVec.ofBool inc ++ (BitVec.ofBool tie ++ (BitVec.ofBool nan ++ (BitVec.ofNat 5 k ++
    BitVec.ofNat 5 count))))

/-- An FP32 word compared with another; a NaN compares with nothing. -/
def wcmp (a b : Word) : Option Ordering := (f32.decode a.toNat).cmp (f32.decode b.toNat)
def wnan (a : Word) : Bool := (f32.decode a.toNat).isNan

/-- Whether entry `a` stands strictly ahead of entry `b` (R147, R295): value descending, then index ascending. -/
def ahead (a b : DWord) : Bool :=
  match wcmp a.lo b.lo with
  | some .gt => true
  | some .eq => a.hi.ult b.hi
  | _ => false

/-- A row being updated: its entries in order, its limit, its flags and its refused maximum. -/
structure Row where
  entries : List DWord := []
  k : Nat := 0
  nan : Bool := false
  inc : Bool := false
  refused : Option Word := none
  deriving DecidableEq, Repr

def WRow.open (r : WRow) : Row :=
  { entries := (List.range (min 16 (statCount r.stat))).map r.entry, k := statK r.stat, nan := statNan r.stat,
    inc := statInc r.stat, refused := r.refused }

/-- TIE_AT_K (R148, R295). -/
def Row.tie (r : Row) : Bool :=
  r.entries.length == r.k && r.k != 0 && (match r.refused, r.entries.getLast? with
    | some v, some e => wcmp v e.lo == some .eq
    | _, _ => false)

def Row.close (r : Row) : WRow :=
  { entries := (List.range r.entries.length).foldl
      (fun t i => Tbl.write emptyEntry t i (r.entries.getD i emptyEntry)) [],
    stat := statWord r.entries.length r.k r.nan r.tie r.inc, refused := r.refused }

/-- Insert an entry by the order, after its equals. -/
def insertEntry (c : DWord) : List DWord → List DWord
  | [] => [c]
  | e :: t => if ahead c e then c :: e :: t else e :: insertEntry c t

/-- A value refused or displaced (R293, R295). -/
def Row.refuse (r : Row) (v : Word) : Row :=
  { r with refused := match r.refused with
    | none => some v
    | some o => if wcmp o v = some .lt then some v else some o }

/-- Offer one candidate (R295). -/
def Row.offer (r : Row) (c : DWord) : Row :=
  if wnan c.lo then { r with nan := true }
  else if c.hi = 0xFFFFFFFF then r
  else
    let es := insertEntry c r.entries
    match es.drop r.k with
    | [] => { r with entries := es }
    | out :: _ => { r with entries := es.take r.k }.refuse out.lo

/-! ### The lists of the executing party (R293, R294) -/

/-- The lists that an instruction acts on: the crew's, or the trailing copy's own. -/
def Exe.lists (x : Exe) (s : State) : Tbl (Tbl WRow) :=
  match x.p.kind with
  | .trail => (s.pair x.p).elim [] (·.wls)
  | _ => (s.crews.get? x.p.crew).elim [] (·.wls)

def setLists (x : Exe) (f : Tbl (Tbl WRow) → Tbl (Tbl WRow)) (s : State) : State :=
  match x.p.kind with
  | .trail => s.updPair x.p fun q => { q with wls := f q.wls }
  | _ => s.updCrew x.p.crew fun c => { c with wls := f c.wls }

/-- The list named in a field. -/
def wlOf (f : BitVec 7) : Nat := base f

/-- GENERAL for a list beyond WLISTS, or not in the state the instruction needs (R293). -/
def Exe.listCheck (x : Exe) (s : State) (f : BitVec 7) (allocated : Bool) : Option Cause :=
  if x.launch.wlists ≤ wlOf f || ((x.lists s).get? (wlOf f)).isSome != allocated then some .general else none

def Exe.row (x : Exe) (s : State) (n r : Nat) : WRow := (((x.lists s).get? n).getD []).read {} r

def setRow (x : Exe) (n r : Nat) (w : WRow) (s : State) : State :=
  setLists x (fun l => l.upd n fun rows => rows.write {} r w) s

/-- WLALLOC, WLFREE, WLCLR (R293). -/
def execWlalloc (f : RRS) (s : State) : Host.Outcome State Fault Refusal :=
  performPure (.wlalloc f) (fun x u => x.listCheck u x.parts.d false)
    (fun x u => setLists x (fun l => l.put (wlOf x.parts.d) []) u) s
def execWlfree (f : RRS) (s : State) : Host.Outcome State Fault Refusal :=
  performPure (.wlfree f) (fun x u => x.listCheck u x.parts.d true)
    (fun x u => setLists x (fun l => l.del (wlOf x.parts.d)) u) s
def execWlclr (f : RRS) (s : State) : Host.Outcome State Fault Refusal :=
  performPure (.wlclr f) (fun x u => x.listCheck u x.parts.d true)
    (fun x u => setLists x (fun l => l.put (wlOf x.parts.d) []) u) s

/-! ### WLINS, VTOPK, WLRD (R296 to R298) -/

/-- k, and the row of a lane. -/
def Exe.insK (x : Exe) : Nat := field x.sC.toNat 0 5
def Exe.insRow (x : Exe) (l : Nat) : Nat := field x.sC.toNat 8 8 + l / x.team.part

/-- The checks of WLINS. -/
def insCheck (x : Exe) (s : State) : Option Cause :=
  if x.parts.m.isNone then some .general
  else match x.listCheck s x.parts.d true with
  | some c => some c
  | none =>
    if !x.known x.parts.c then none
    else if x.insK = 0 || 16 < x.insK || (x.lanes.any fun l =>
        64 ≤ x.insRow l || (let w := (x.row s (wlOf x.parts.d) (x.insRow l)).stat
          statCount w != 0 && statK w != x.insK)) then some .general
    else none

/-- WLINS (R296). -/
def execWlins (f : RRR) (s : State) : Host.Outcome State Fault Refusal :=
  performPure (.wlins f) insCheck
    (fun x u => x.lanes.foldl (fun v l =>
      let n := wlOf x.parts.d
      let r := (x.row v n (x.insRow l)).open
      let r1 := if r.entries.isEmpty then { r with k := x.insK } else r
      setRow x n (x.insRow l) (r1.offer (Word.pair (x.v x.parts.a l) (x.v x.parts.b l))).close v) u) s

/-- The ranked candidates of a tile (R297). -/
def Exe.topk (x : Exe) (b : Nat) : List DWord :=
  ((x.tileLanes b).foldl (fun (r : Row) l => r.offer (Word.pair (x.v x.parts.a l) (x.v x.parts.b l)))
    { k := 64 }).entries

/-- The tiles with an active lane, by their base. -/
def Exe.tiles (x : Exe) : List Nat :=
  ((List.range (x.nlanes / x.team.part)).map (· * x.team.part)).filter fun b => !(x.tileLanes b).isEmpty

/-- VTOPK (R297): every lane of a tile is written. -/
def execVtopk (f : RRR) (s : State) : Host.Outcome State Fault Refusal :=
  performPure (.vtopk f) noCheck
    (fun x u =>
      let out := x.tiles.flatMap fun b =>
        let es := x.topk b
        (List.range x.team.part).map fun j => (b + j, es.getD j emptyEntry)
      let u1 := u.updTeam x.p fun t =>
        t.writeLanes (x.regNum .v x.parts.d + 1) (out.map fun e => (e.1, e.2.hi))
      writeVector x x.parts.d (out.map fun e => (e.1, e.2.lo)) u1) s

/-- WLRD's value (R298). -/
def Exe.wlrd (x : Exe) (s : State) (l : Nat) : Word :=
  let b := (x.vB l).toNat
  let r := x.row s (wlOf x.parts.a) (field b 4 6)
  let e := if field b 0 4 < statCount r.stat then r.entry (field b 0 4) else emptyEntry
  match x.parts.fx with | 0 => e.lo | 1 => e.hi | _ => r.stat

def execWlrd (f : RRR) (s : State) : Host.Outcome State Fault Refusal :=
  performPure (.wlrd f) (fun x u => x.listCheck u x.parts.a true)
    (fun x u => writeEach x x.parts.d (x.wlrd u) u) s

/-! ### Images (R299) -/

/-- The image of a list: 64 rows, then 64 status words. -/
def listImage (rows : Tbl WRow) : List Byte :=
  let r (i : Nat) : WRow := rows.read {} i
  ((List.range 64).flatMap fun i => (List.range 16).flatMap fun e => bytesOf 8 ((r i).entry e).toNat) ++
    (List.range 64).flatMap fun i => bytesOf 4 (r i).stat.toNat

/-- Row `i` of an image: its 16 entries and its status. -/
def imageRow (bs : List Byte) (i : Nat) : List DWord × Word :=
  ((List.range 16).map fun e => BitVec.ofNat 64 (le bs (128 * i + 8 * e) 8), BitVec.ofNat 32 (le bs (8192 + 4 * i) 4))

/-- Whether neighbours stand in the order of R295. -/
def ordered : List DWord → Bool
  | a :: b :: t => !ahead b a && ordered (b :: t)
  | _ => true

/-- The checks of one image row (R299). -/
def imageRowOk (r : List DWord × Word) : Bool :=
  let n := statCount r.2
  let k := statK r.2
  let live := r.1.take n
  n ≤ k && k ≤ 16 && r.2.extractLsb' 13 19 == 0 && live.all (fun e => !wnan e.lo && e.hi != 0xFFFFFFFF) &&
    ordered live && (r.1.drop n).all (· == emptyEntry)

/-- The row of an image as a list holds it; its refused maximum comes from TIE_AT_K (R299). -/
def imageToRow (r : List DWord × Word) : WRow :=
  let live := r.1.take (statCount r.2)
  let row : Row := { entries := live }
  { row.close with
    stat := r.2,
    refused := if statTie r.2 then (r.1[statK r.2 - 1]?).map DWord.lo else none }

/-- The union of entries, one per index, the larger value; whether two values differed (R299). -/
def unionEntries (es : List DWord) : List DWord × Bool :=
  es.foldl (fun (acc : List DWord × Bool) e =>
    match acc.1.find? fun o => o.hi == e.hi with
    | none => (acc.1 ++ [e], acc.2)
    | some o =>
      if wcmp o.lo e.lo = some .eq then acc
      else if wcmp o.lo e.lo = some .lt then (acc.1.map fun a => if a.hi = e.hi then e else a, true)
      else (acc.1, true)) ([], false)

/-- WLMERGE of one row (R299). -/
def mergeRow (w : WRow) (img : List DWord × Word) : WRow :=
  let r := w.open
  let live := img.1.take (statCount img.2)
  let (u, differ) := unionEntries (r.entries ++ live)
  let k := if r.entries.isEmpty then statK img.2 else r.k
  let r1 := u.foldl Row.offer { r with entries := [], k := k }
  let r2 := if statTie img.2 then (match img.1[statK img.2 - 1]? with | some e => r1.refuse e.lo | none => r1) else r1
  { r2 with nan := r.nan || statNan img.2, inc := r.inc || statInc img.2 || differ }.close

/-- The pieces of a list image in memory, checked in the order of R157 over all of them (R299): translation, alignment, then
the RAW format. -/
def Exe.imageAt (x : Exe) (s : State) (k : Access) : Res (List (DWord × Nat × Phys)) := do
  let p := x.pair x.parts.a
  let kind := if k = .load then 7 else 8
  match x.watch s kind 8448 (x.uniformLanes.map fun l => (l, p)) with
  | some t => .error (.trap t)
  | none => .ok ()
  let pass (check : Phys → Option Cause) : Res (List (DWord × Nat × Phys)) :=
    (rangePieces p 8448).mapM fun pc => (x.uniform s k pc.1 check).map fun y => (pc.1, pc.2, y)
  let _ ← pass fun _ => none
  let _ ← pass fun _ => if p.toNat % 8 ≠ 0 then some .align else none
  pass fun y => if y.fmt ≠ 0 then some .formatOp else none

/-- Read a list image, with the state after its fills. -/
def Exe.readImage (x : Exe) (s : State) : Res (List Byte × State) := do
  let ps ← x.imageAt s .load
  let s1 := s.commitFills x.agent (ps.map (·.2.2))
  let addrs := ps.flatMap fun pc => (List.range pc.2.1).map fun i => (bypasses false pc.2.2, x.loadAddr pc.2.2 + i)
  if addrs.any fun a => x.loadPoison s1 a.1 a.2 then .error .poison
  let s2 := addrs.foldl (fun u a => if a.1 then u else u.fillLine x.team.cluster a.2) s1
  .ok (addrs.map fun a => x.loadByte s2 a.1 a.2, s2)

/-- WLST (R299). -/
def execWlst (f : RRR) (s : State) : Host.Outcome State Fault Refusal :=
  perform (.wlst f) (fun x u => x.listCheck u x.parts.d true)
    (fun x u => do
      let ps ← x.imageAt u .store
      let u1 := u.commitFills x.agent (ps.map (·.2.2))
      let img := listImage (((x.lists u1).get? (wlOf x.parts.d)).getD [])
      let low := x.uniformLanes.headD 0
      let r := ps.foldl (fun (acc : List StoreBytes × List Byte) pc =>
        (acc.1 ++ [⟨low, pc.2.2, wholeBytes pc.2.2.addr (acc.2.take pc.2.1), none⟩], acc.2.drop pc.2.1)) ([], img)
      .ok (storeBytes x r.1 u1)) s

/-- WLLD (R299): the list is written when the load completes. -/
def execWlld (f : RRR) (s : State) : Host.Outcome State Fault Refusal :=
  perform (.wlld f) (fun x u => x.listCheck u x.parts.d true)
    (fun x u => do
      let (bs, u1) ← x.readImage u
      let rows := (List.range 64).map (imageRow bs)
      if !rows.all imageRowOk then trapNow x .general
      else
        let t := (List.range 64).foldl (fun (t : Tbl WRow) i => t.write {} i (imageToRow (imageRow bs i))) []
        .ok (u1.countLoad x.p { writes := [], list := some (wlOf x.parts.d, t) })) s

/-- WLMERGE (R299). -/
def execWlmerge (f : RRR) (s : State) : Host.Outcome State Fault Refusal :=
  perform (.wlmerge f) (fun x u => x.listCheck u x.parts.d true)
    (fun x u => do
      let (bs, u1) ← x.readImage u
      let n := wlOf x.parts.d
      let clash (i : Nat) : Bool :=
        let a := (x.row u1 n i).stat
        let b := (imageRow bs i).2
        statCount a != 0 && statCount b != 0 && statK a != statK b
      if (List.range 64).any fun i => !imageRowOk (imageRow bs i) || clash i then trapNow x .general
      else .ok ((List.range 64).foldl (fun v i => setRow x n i (mergeRow (x.row v n i) (imageRow bs i)) v) u1)) s

end Sys2Proof.Machine
end

