-- ==== Sys2Proof/Machine/Cupel.lean ====
section
/-! DEFINITION. What the Cupel engine computes (R138 to R148, R200): chunks, norm words, K-steps, DENSE, BIN and TOPK
loops. -/

namespace Sys2Proof.Machine

open Sys2Proof

/-! ### Chunks (R138, R139) -/

/-- The elements of a chunk: values, integers, a direction, or 512 bits. -/
inductive Chunk where
  | floats (vs : List FVal)
  | ints (vs : List Int)
  | dir (d : Dir)
  | bits (n : Nat)
  deriving DecidableEq, Repr

/-- A half-word of a chunk. -/
def halfAt (bs : List Byte) (i : Nat) : Nat := le bs (2 * i) 2

/-- An element with its chunk's E8M0 scale (R183), exact. -/
def scaledVal (scale : Nat) (v : FVal) : FVal :=
  if scale = 0xFF then .nan
  else match v with
  | .fin s m e => .fin s m (e + scale - 127)
  | v => v

/-- The chunk that bytes in a form hold: the elements in order, then the scale or the norm (R138; DEDUCED, log 17). -/
def chunkOf (form : Nat) (bs : List Byte) : Chunk :=
  let lanes := List.range 32
  let byte (i : Nat) : Nat := le bs i 1
  match form with
  | 0 => .floats (lanes.map fun i => f16.decode (halfAt bs i))
  | 1 => .floats (lanes.map fun i => bf16.decode (halfAt bs i))
  | 2 => .dir { norm := BitVec.ofNat 16 (halfAt bs 32), comps := lanes.map fun i => signed 16 (halfAt bs i) }
  | 3 => .floats (lanes.map fun i => scaledVal (byte 32) (e4m3.decode (byte i)))
  | 4 => .floats (lanes.map fun i => scaledVal (byte 32) (e5m2.decode (byte i)))
  | 7 => .ints (lanes.map fun i => signed 8 (byte i))
  | 8 => .ints (lanes.map fun i => signed 4 (byte (i / 2) >>> (4 * (i % 2))))
  | 9 => .ints (lanes.map fun i => tern5 (byte (i / 5)) (i % 5))
  | _ => .bits (natOf (bs.take 64))

/-- The norm word of a chunk (R139); +∞ for a form without one. -/
def Chunk.norm (c : Chunk) : Word :=
  let ru (v : FVal) : Word := BitVec.ofNat 32 (f32.encode .ru false v)
  match c with
  | .floats vs =>
    if vs.any FVal.isNan then 0x7FC00000
    else if vs.all FVal.finite then ru (sumVals (vs.map fun v => v.mul v)) else 0x7F800000
  | .dir d =>
    if d.norm = l16Nan then 0x7FC00000
    else if d.norm = l16Zero then 0
    else if d.norm = l16Inf then 0x7F800000
    else ru (dotVal (dotP d d) (2 * d.norm.toInt))
  | _ => 0x7F800000

/-- A column, or an A row: its chunks, the scales of its INT4 groups, and its norm words. -/
structure Col where
  chunks : List Chunk
  scales : List Nat := []
  norms : List Word := []
  deriving DecidableEq, Repr

/-- The chunks that bytes in a form hold. -/
def colOf (form s : Nat) (bs : List Byte) : Col :=
  { chunks := (List.range s).map fun i => chunkOf form ((bs.drop (chunkAt form i)).take (formChunk form)),
    scales := if form = 8 then (List.range (s / 4)).map fun g => le bs (chunkAt form (4 * g) + 64) 2 else [] }

/-- A column with the norm words that the engine forms (R137, R143). -/
def Col.withNorms (c : Col) (form : Nat) : Col :=
  { c with norms := if normed form then c.chunks.map Chunk.norm else [] }

/-! ### The K-step (R140) -/

/-- acc ← RNE(acc + p); an exact zero sum is +0. -/
def accumulate (acc : Word) (p : FVal) : Word :=
  let v := (f32.decode acc.toNat).add .rn p
  if v.isZero then 0 else fp32Bits v

/-- Set bits of a number of at most 512 bits. -/
def popcount (n : Nat) : Nat := ((List.range 512).filter n.testBit).length

/-- One K-step of a cell: the accumulator and the INT4 group sum after chunk `s`. -/
def kStep (pair : Nat) (and : Bool) (a b : Chunk) (scale s : Nat) (st : Word × Int) : Word × Int :=
  match a, b with
  | .floats xs, .floats ys => (accumulate st.1 (sumVals ((xs.zip ys).map fun p => p.1.mul p.2)), 0)
  | .dir x, .dir y => (accumulate st.1 (dotOf true x y), 0)
  | .ints xs, .ints ys =>
    let d := ((xs.zip ys).map fun p => p.1 * p.2).foldl (· + ·) 0
    if pair = 8 then
      let g := st.2 + d
      if s % 4 = 3 then
        (accumulate st.1 (f32.decode (fp32Bits ((bf16.decode scale).mul (ofInt g))).toNat), 0)
      else (st.1, g)
    else (st.1 + BitVec.ofInt 32 d, 0)
  | .bits x, .bits y => (st.1 + BitVec.ofNat 32 (popcount (if and then x &&& y else x ^^^ y)), 0)
  | _, _ => st

/-- Step `s` of a cell whose row and column are given. -/
def cellStep (pair : Nat) (and : Bool) (a b : Col) (s : Nat) (st : Word × Int) : Word × Int :=
  match a.chunks[s]?, b.chunks[s]? with
  | some x, some y => kStep pair and x y (b.scales.getD (s / 4) 0) s st
  | _, _ => st

/-- A cell after all steps of a loop, from the accumulator `acc`. -/
def cellRun (pair : Nat) (and : Bool) (a b : Col) (steps : Nat) (acc : Word) : Word :=
  ((List.range steps).foldl (fun st s => cellStep pair and a b s st) (acc, (0 : Int))).1

/-! ### The bound of a TOPK cell (R145) -/

def ruAdd (a b : Word) : Word := BitVec.ofNat 32 (f32.addBits .ru false a.toNat b.toNat)
def ruMul (a b : Word) : Word := BitVec.ofNat 32 (f32.mulBits .ru false a.toNat b.toNat)
def ruSqrt (a : Word) : Word := BitVec.ofNat 32 (f32.special .sqrt .ru false a.toNat)

/-- The suffix words of norm words: entry `s` bounds steps `s` and later; the last is 0. -/
def suffixWords : List Word → List Word
  | [] => [0]
  | n :: ns => let q := suffixWords ns; ruAdd n (q.headD 0) :: q

/-- Whether the cell is abandoned: U < θ. -/
def abandons (acc qa qb : Word) (left : Nat) (theta : Word) : Bool :=
  let b := ruSqrt (ruMul qa qb)
  let t := ruAdd (acc &&& 0x7FFFFFFF) b
  let e := ruMul (BitVec.ofNat 32 (f32.encode .rn false (ofInt left))) (ruAdd (ruMul t 0x34000000) 1)
  wcmp (ruAdd (ruAdd acc b) e) theta == some .lt

/-! ### TOPK (R143 to R148) -/

/-- A column in a slot: its number, its next step, its suffix words, and its live cells (row, accumulator, group
sum). -/
structure Slot where
  j : Nat
  s : Nat
  col : Col
  qb : List Word
  cells : List (Nat × Word × Int)
  deriving DecidableEq, Repr

/-- A round of the slots in progress: the next unstarted column, the abandoned cells, the cells that finished, how many
slots their columns leave free, and the slots that go on. -/
structure RoundAcc where
  next : Nat
  dross : Nat
  fin : List (Nat × Nat × Word) := []
  freed : Nat := 0
  active : List Slot := []
  deriving DecidableEq, Repr

/-- What a loop reads: its pair, its steps, its A rows, its columns. -/
structure LoopData where
  pair : Nat
  steps : Nat
  rows : List Col
  cols : Nat → Col
  count : Nat

/-- Column `j` entering a slot, with every live cell. -/
def LoopData.enter (d : LoopData) (j : Nat) : Slot :=
  { j := j, s := 0, col := d.cols j, qb := suffixWords (d.cols j).norms,
    cells := (List.range d.rows.length).map fun r => (r, 0, 0) }

/-- The turn of a slot in a round (R146): its cells are tested, with θ as it stood before the round, and step; when none
goes on, the next columns enter until one does. Cells that pass the last step finish. -/
def LoopData.turn (d : LoopData) (qas : List (List Word)) (thetas : List Word) : Nat → Slot → RoundAcc → RoundAcc
  | 0, _, acc => acc
  | fuel + 1, sl, acc =>
    let refill (acc : RoundAcc) : RoundAcc :=
      if acc.next < d.count then d.turn qas thetas fuel (d.enter acc.next) { acc with next := acc.next + 1 } else acc
    let keep := if normed (bForm d.pair) then sl.cells.filter fun c =>
        !abandons c.2.1 ((qas.getD c.1 []).getD sl.s 0) (sl.qb.getD sl.s 0) (d.steps - sl.s) (thetas.getD c.1 0)
      else sl.cells
    let acc1 := { acc with dross := acc.dross + (sl.cells.length - keep.length) }
    if keep.isEmpty then refill acc1
    else
      let cells := keep.map fun c => (c.1, cellStep d.pair false (d.rows.getD c.1 ⟨[], [], []⟩) sl.col sl.s c.2)
      if sl.s + 1 = d.steps then
        { acc1 with fin := acc1.fin ++ cells.map (fun c => (c.1, sl.j, c.2.1)), freed := acc1.freed + 1 }
      else { acc1 with active := acc1.active ++ [{ sl with s := sl.s + 1, cells := cells }] }

/-- θ of a row: the value of its last entry when it is full, else −∞. -/
def Row.theta (r : Row) : Word :=
  if r.entries.length = r.k ∧ r.k ≠ 0 then ((r.entries.getLast?).getD emptyEntry).lo else 0xFF800000

/-- A final value as it enters a list: the integer accumulators as RNE to FP32 (R341). -/
def finalValue (pair : Nat) (v : Word) : Word := if intPair pair then fp32Bits (ofInt v.toInt) else v

/-- Cells that finish on one clock, in ascending index. -/
def byIndex (fin : List (Nat × Nat × Word)) : List (Nat × Nat × Word) :=
  fin.foldl (fun l c =>
    let (a, b) := l.span fun e => e.2.1 ≤ c.2.1
    a ++ c :: b) []

/-- The rounds of a loop: one K-step of every slot each (DEDUCED, log 18); a slot whose column is done takes the next one
for the round after. -/
def LoopData.rounds (d : LoopData) (x : Nat) (qas : List (List Word)) :
    Nat → Nat → Nat → Nat → List Slot → List Row → Nat × Nat × List Row
  | 0, n, _, dross, _, rows => (n, dross, rows)
  | fuel + 1, n, next, dross, active, rows =>
    if active.isEmpty then (n, dross, rows)
    else
      let thetas := rows.map Row.theta
      let acc := active.foldl (fun acc sl => d.turn qas thetas (d.count + 2) sl acc)
        { next := next, dross := dross : RoundAcc }
      let rows1 := (byIndex acc.fin).foldl (fun rs c =>
        rs.modify c.1 fun r => r.offer (Word.pair (finalValue d.pair c.2.2) (BitVec.ofNat 32 (x + c.2.1)))) rows
      let more := (List.range (min acc.freed (d.count - acc.next))).map (acc.next + ·)
      d.rounds x qas fuel (n + 1) (acc.next + more.length) acc.dross (acc.active ++ more.map d.enter) rows1

/-- A TOPK loop over its columns from index base `x`: the rounds it took, the abandoned cells, and the rows. -/
def LoopData.topk (d : LoopData) (x : Nat) (rows : List Row) : Nat × Nat × List Row :=
  let first := (List.range (min 64 d.count)).map d.enter
  d.rounds x (d.rows.map fun r => suffixWords r.norms) (d.count * (d.steps + 1) + 1) 0 (min 64 d.count) 0 first rows

/-! ### The operands of an operation (R137, R338) -/

/-- The physical pieces of a plane range. -/
def State.planeSpans (s : State) (c : Crew) (scratch a len : Nat) : List (Nat × Nat) :=
  (List.range ((a % 65536 + len + 65535) / 65536)).filterMap fun i =>
    let lo := if i = 0 then a else (a / 65536 + i) * 65536
    let hi := min (a + len) ((a / 65536 + i + 1) * 65536)
    match s.planeByte c scratch lo with
    | .error _ => none
    | .ok pa => some (pa, hi - lo)

/-- The first fault of a plane range, with its address (R93, R137, R334). -/
def State.planeFault (s : State) (c : Crew) (scratch a len : Nat) : Option (Cause × Nat) :=
  (List.range ((a % 65536 + len + 65535) / 65536)).findSome? fun i =>
    let lo := if i = 0 then a else (a / 65536 + i) * 65536
    let hi := min (a + len) ((a / 65536 + i + 1) * 65536)
    match s.planeByte c scratch lo with
    | .error e => some (e, lo)
    | .ok _ => match s.planeByte c scratch (hi - 1) with
      | .error e => some (e, max lo (scratch * 1024))
      | .ok _ => none

/-- The A rows of an operation, from the bytes it read or popped. -/
def CupelOp.aRows (o : CupelOp) : List Col :=
  let form := aForm (blockPair o.block)
  let pitch := if blockAq o.block then 8 * rowEntries o.block else rowBytes o.block
  (List.range (blockM o.block)).map fun r => (colOf form (blockS o.block) (o.rows.drop (r * pitch))).withNorms form

/-- Column `j` of the weight buffer, with the norm words stored beside it (R139). -/
def Core.column (k : Core) (form steps off : Nat) : Col :=
  let bs := Tbl.readRun 0 k.weight off (columnBytes form steps)
  { colOf form steps bs with
    norms := if normed form then (List.range steps).map fun s => BitVec.ofNat 32 (le bs (columnData form steps + 4 * s) 4)
      else [] }

/-- A core's weight buffer as an operation sees it: a loop that came in an image keeps what it saw where its crew was
stopped (R154). -/
def Core.bufferOf (k : Core) (o : CupelOp) : Core := { k with weight := o.weight.getD k.weight }

/-- The address of a tile cell. -/
def cellKey (row col : Nat) : Nat := 64 * row + col

/-- A DENSE or BIN loop on the tile (R140, R141, R200). -/
def Core.dense (k : Core) (o : CupelOp) (and : Bool) : Tbl Word :=
  let pair := blockPair o.block
  let steps := blockS o.block
  let base := if blockZero o.block then [] else k.tile
  let rows := o.aRows
  (List.range 64).foldl (fun t j =>
    let c := (k.bufferOf o).column (bForm pair) steps (blockWord o.block 3 + j * blockWord o.block 4)
    (List.range (blockM o.block)).foldl (fun t r =>
      Tbl.write 0 t (cellKey r j) (cellRun pair and (rows.getD r ⟨[], [], []⟩) c steps (Tbl.read 0 t (cellKey r j)))) t) base

end Sys2Proof.Machine
end

