-- ==== Sys2Proof/Machine/Engines.lean ====
section
/-! DEFINITION. Issuing an engine operation (R329, R332), the copy engine with XCOPY and XRED (R330, R331, R334 to
R337, R194, R202), and the end of an operation (R125, R152, R330). -/

namespace Sys2Proof.Machine

open Sys2Proof

/-! ### Status words and their delivery -/

/-- The status word of a copy-engine operation (R330). -/
def copyWord (pos : Nat) (side : Bool) (code : Nat) : DWord :=
  BitVec.ofNat 32 pos ++ ((0 : BitVec 22) ++ (BitVec.ofBool side ++ ((0 : BitVec 1) ++ BitVec.ofNat 8 code)))

/-- The status word of a Cupel operation (R152). -/
def cupelWord (dross pos : Nat) (tie nan : Bool) (code : Nat) : DWord :=
  BitVec.ofNat 32 dross ++ (BitVec.ofNat 21 pos ++ (BitVec.ofBool tie ++ (BitVec.ofBool nan ++
    ((0 : BitVec 1) ++ BitVec.ofNat 8 code))))

/-- The status word of an operation is written: its quad's low pair, and its record; a record leaves the count when every
earlier one has (R222). -/
def Team.engineDone (t : Team) (quad op : Nat) (w : DWord) : Team :=
  let es := t.engines.map fun e => if e.op = op then { e with done := true } else e
  { t with th := (t.th.writeS quad w.lo).writeS (quad + 1) w.hi, engines := es.dropWhile (·.done) }

/-- Drop the issuing clusters' lines over the destination ranges, as the die of each reads them (R125, the join); their die
has seen the engine's writes as they were made. -/
def State.joinSpans (s : State) (p : Party) (sp : Nat → List (Nat × Nat)) : State :=
  let one (u : State) (p : Party) : State := match u.team? p with
    | none => u
    | some t => u.invalidate t.cluster (inSpans (sp (dieOfCluster t.cluster)))
  one (one s p) (asTrail p)

/-- Every cluster writes back and drops its L1, and every die sees memory as it is, as for a party that joins an operation of
the hub (R125; log 37). -/
def State.joinAll (s : State) : State := s.renewAll

/-- Write an operation's status word for its issuer, and push it to the team's copy-status queue (R330). -/
def State.writeStatus (s : State) (p : Party) (quad op : Nat) (w : DWord) (copy : Bool) : State :=
  let s1 := s.updCopies p fun t => t.engineDone quad op w
  if copy then s1.updTeam p fun t => ({ t with copyStatus := t.copyStatus ++ [w] } : Team).feedStatus else s1

/-! ### Issue (R329) -/

/-- Whether a queue holds the command role: 3 for the copy engine, 6 for the Cupel engine. -/
def commandCheck (x : Exe) (role : BitVec 3) : Option Cause :=
  if (x.team.queueOfRole role).isNone then some .queueBinding else none

/-- The engine counter is at its limit, or the command queue is full (R222, R329). An engine takes a command as it
arrives (R329), so the queue holds none of them. -/
def Exe.engineFull (x : Exe) (role : BitVec 3) : Bool :=
  63 ≤ (x.team.engines.filter (!·.stopped)).length || (match x.team.queueOfRole role with
    | none => false
    | some q => 32 ≤ (x.team.queue q).entries.length)

/-- The block of scalar registers from A. -/
def Exe.block (x : Exe) (n : Nat) : List Word := (List.range n).map (x.sAt x.parts.a)

/-- The fork (R125): the issuer's accesses are performed and the dirty bytes over the operation's ranges written
back. -/
def fork (x : Exe) (sp : List (Nat × Nat)) (s : State) : State :=
  (s.settleTeam x.p).writeBack x.team.cluster (inSpans sp)

/-- The physical pieces of a pointer range, as the issuer's cluster tags them. -/
def Exe.pieces (x : Exe) (s : State) (plane : Bool) (p : DWord) (len : Nat) : List (Nat × Nat) :=
  if plane then s.planeSpans x.crew x.launch.scratch p.lo.toNat len
  else s.spans x.agent (dieOfCore (coreOfCluster x.team.cluster)) p len

/-- The pieces of a range of elements: on pages with block scales, the whole tiles of 4 KiB that hold the blocks and their
scales (R103). -/
def Exe.elemPieces (x : Exe) (s : State) (p : DWord) (len : Nat) : List (Nat × Nat) :=
  if !((s.resolve x.agent p).any fun y => blockScaled y.fmt) then x.pieces s false p len
  else
    let o := p.toNat % 4096
    x.pieces s false (p - BitVec.ofNat 64 o) ((o + len + len / 16 + 4095) / 4096 * 4096)

/-- The promise is written and the operation enters the engine counter. -/
def issueRecord (x : Exe) (copy : Bool) (op : Nat) (promise : DWord) (s : State) : State :=
  let q := x.regNum .s x.parts.d
  setResult x (.scalar promise.lo) (s.updTeam x.p fun t =>
    { t with th := (t.th.writeS (q + 2) promise.lo).writeS (q + 3) promise.hi,
             engines := t.engines ++ [{ op := op, copy := copy, quad := q, promise := promise }] })

/-- The number of the next operation. -/
def State.takeOp (s : State) : Nat × State := (s.nextOp, { s with nextOp := s.nextOp + 1 })

/-- Count asynchronous stores of a launch on a core, up or down (R57). -/
def State.addStores (s : State) (core launch n : Nat) : State :=
  s.updCore core fun k => { k with track := k.track.upd launch fun e => { e with stores := e.stores + n } }
def State.subStores (s : State) (core launch n : Nat) : State :=
  (s.updCore core fun k => { k with track := k.track.upd launch fun e => { e with stores := e.stores - n } }).freeTrack
    core launch

/-- Whether the count of asynchronous stores has no room (R57). -/
def Exe.storesFull (x : Exe) (s : State) (n : Nat) : Bool :=
  match (s.core x.crew.core).track.get? x.crew.launch with
  | none => false
  | some e => 0xFFFFFFFF < e.stores + n

/-- A trap of a team-uniform instruction at an address (R306): every lane of exec carries the cause. -/
def Exe.uniformTrap (x : Exe) (c : Cause) (addr : DWord) : Stop :=
  .trap (x.laneTrap (x.uniformLanes.map fun l => ⟨l, c, addr, 0⟩))

/-- Units of 256 bytes. -/
def units (len : Nat) : Nat := (len + 255) / 256

/-! ### XCOPY (R334, R335) -/

/-- The participating teams. -/
def Exe.copyMask (x : Exe) : Nat := field x.sB.toNat 0 16

def xcopyCheck (x : Exe) (_ : State) : Option Cause :=
  match commandCheck x 3 with
  | some c => some c
  | none =>
    let len := (x.sAt x.parts.a 4).toNat
    if 2 ^ 28 < len || len % 4 ≠ 0 || field (x.sAt x.parts.a 5).toNat 2 14 ≠ 0 then some .general
    else if x.parts.lit.isNone && !x.known x.parts.b then none
    else if !x.copyMask.testBit x.p.team || 2 ^ x.launch.teams ≤ x.copyMask then some .general
    else none

/-- Plane ranges, then alignment, of both ends (R93, R157, R334). -/
def Exe.copyEnds (x : Exe) (s : State) (sl : Slice) : Option Stop :=
  let plane (on : Bool) (p : DWord) : Option Stop :=
    if on then (s.planeFault x.crew x.launch.scratch p.lo.toNat sl.len).map fun e =>
      x.uniformTrap e.1 (BitVec.ofNat 64 e.2)
    else none
  let align (p : DWord) : Option Stop := if p.toNat % 4 ≠ 0 then some (x.uniformTrap .align p) else none
  (plane sl.sp sl.src).or ((plane sl.dp sl.dst).or ((align sl.src).or (align sl.dst)))

/-- The tick at which an exchange phase lets a copy start (R65): none outside such a phase. -/
def Exe.exchangeTick (x : Exe) (s : State) (off : Nat) : Option DWord :=
  if x.launch.co && x.team.phase % 2 = 1 then
    (x.launch.channel.bind s.channels.get?).map fun c => c.epoch + BitVec.ofNat 64 off
  else none

/-- Merge a slice of a collective XCOPY into the copies of its round that share a team with it (R335). Where its slices
name different offsets of an exchange phase, the copy starts at the latest of their ticks: R65 does not say (DESIGN CHOICE,
log 39). -/
def mergeCopies (o : CopyOp) (cs : List CopyOp) : CopyOp :=
  cs.foldl (fun a c =>
    { a with slices := c.slices ++ a.slices, mask := c.mask ||| a.mask,
             startAt := match c.startAt, a.startAt with
               | some p, some q => some (later p q)
               | p, q => p.or q }) o

/-- The slices of a copy in ascending team order. -/
def sortSlices (sls : List Slice) : List Slice :=
  (List.range 16).filterMap fun k => sls.find? fun sl => sl.team == k

/-- XCOPY. -/
def execXcopy (f : RRR) (s : State) : Host.Outcome State Fault Refusal :=
  performMeet (.xcopy f) xcopyCheck (fun x u =>
    let b := x.block 6
    let (id, u1) := u.takeOp
    let sl : Slice :=
      { team := x.p.team, src := Word.pair (b.getD 0 0) (b.getD 1 0), dst := Word.pair (b.getD 2 0) (b.getD 3 0),
        len := blockWord b 4, off := field (blockWord b 5) 16 16, dp := (b.getD 5 0).getLsbD 1,
        sp := (b.getD 5 0).getLsbD 0, mask := x.copyMask, quad := x.regNum .s x.parts.d, opId := id, promise := 0,
        cluster := x.team.cluster }
    match x.copyEnds u sl with
    | some k => .error k
    | none =>
      if x.engineFull 3 || x.storesFull u (units sl.len) then .error (.hold .engine)
      else
        let solo := x.copyMask = 2 ^ x.p.team
        let members := ((List.range 16).filter x.copyMask.testBit).length
        let promise := later u.now (u.core x.crew.core).copyPromise +
          BitVec.ofNat 64 (u.copyTicks x.crew.ctx sl (sl.len * members))
        let u2 := fork x (x.pieces u1 sl.sp sl.src sl.len ++ x.pieces u1 sl.dp sl.dst sl.len) u1
        let u3 := (issueRecord x true id promise u2).addStores x.crew.core x.crew.launch (units sl.len)
        let op : CopyOp :=
          { crew := x.p.crew, ctx := x.crew.ctx, launch := x.crew.launch, slices := [{ sl with promise := promise }],
            mask := x.copyMask, coll := if solo then none else some x.team.collN,
            startAt := x.exchangeTick u sl.off }
        if solo then .ok (u3.acceptCopy op)
        else
          let mine (c : CopyOp) : Bool := c.coll == op.coll && (c.mask &&& op.mask) != 0
          let u4 := u3.updTeam x.p fun t => { t with collN := t.collN + 1 }
          let u5 := u4.updCrew x.p.crew fun c =>
            let m := mergeCopies op (c.copies.filter mine)
            { c with copies := (c.copies.filter fun c => !mine c) ++ [{ m with slices := sortSlices m.slices }] }
          .ok (u5.acceptReady x.p.crew)) s

/-! ### XRED (R336, R337) -/

def Exe.redKey (x : Exe) : Word := x.sAt x.parts.a 5

def xredCheck (x : Exe) (_ : State) : Option Cause :=
  match commandCheck x 3 with
  | some c => some c
  | none =>
    let len := (x.sAt x.parts.a 4).toNat
    let td := x.parts.td
    if len < 4 || 2 ^ 28 < len || len % 4 ≠ 0 || field (x.sAt x.parts.a 6).toNat 1 15 ≠ 0 then some .general
    else if x.parts.lit.isNone && !x.known x.parts.b then none
    else if x.sB = 1 then
      let n := field x.redKey.toNat 0 12
      if x.parts.fx ≠ 0 || !(td = 0 || td = 5 || td = 10 || td = 12) || n = 0 || 2048 < n ||
          field x.redKey.toNat 12 4 ≠ 0 then some .general else none
    else if x.sB = 0 then none else some .general

/-- XRED. -/
def execXred (f : RRR) (s : State) : Host.Outcome State Fault Refusal :=
  performMeet (.xred f) xredCheck (fun x u =>
    let b := x.block 7
    let (id, u1) := u.takeOp
    let sl : Slice :=
      { team := x.p.team, src := Word.pair (b.getD 0 0) (b.getD 1 0), dst := Word.pair (b.getD 2 0) (b.getD 3 0),
        len := blockWord b 4, off := field (blockWord b 6) 16 16, dp := false, sp := (b.getD 6 0).getLsbD 0,
        mask := 2 ^ x.p.team, quad := x.regNum .s x.parts.d, opId := id, promise := 0, cluster := x.team.cluster }
    match if sl.sp then u.planeFault x.crew x.launch.scratch sl.src.lo.toNat sl.len else none with
    | some e => .error (x.uniformTrap e.1 (BitVec.ofNat 64 e.2))
    | none =>
      if x.engineFull 3 || x.storesFull u (units sl.len) then .error (.hold .engine)
      else
        let promise := later u.now (u.core x.crew.core).copyPromise +
          BitVec.ofNat 64 (u.copyTicks x.crew.ctx sl sl.len)
        let u2 := fork x (x.pieces u1 sl.sp sl.src sl.len ++ x.pieces u1 false sl.dst sl.len) u1
        let u3 := (issueRecord x true id promise u2).addStores x.crew.core x.crew.launch (units sl.len)
        let op : CopyOp :=
          { crew := x.p.crew, ctx := x.crew.ctx, launch := x.crew.launch, slices := [{ sl with promise := promise }],
            mask := 2 ^ x.p.team, startAt := x.exchangeTick u sl.off,
            reduce := some (BitVec.ofNat 3 x.parts.fx, BitVec.ofNat 5 x.parts.td, x.sB == 1, x.redKey) }
        .ok (u3.acceptCopy op)) s

/-! ### Units -/

/-- The slice of unit `u` of a copy, and the unit's number in it. -/
def locateUnit : List Slice → Nat → Option (Slice × Nat)
  | [], _ => none
  | sl :: rest, u => if u < units sl.len then some (sl, u) else locateUnit rest (u - units sl.len)

/-- The units of an operation. -/
def CopyOp.total (o : CopyOp) : Nat := (o.slices.map fun sl => units sl.len).foldl (· + ·) 0

/-- Why a unit is not applied: a fault of one end (`true` for the destination) at an address, or page formats that do
not match. -/
inductive UnitStop where
  | fault (side : Bool) (x : XFault) (p : DWord)
  | format
  deriving DecidableEq, Repr

/-- Where a byte of a held page lies (R132). -/
def HeldPage.place (h : HeldPage) (p : DWord) : Phys :=
  { addr := h.addr + p.toNat % 65536, tier := h.tier, fmt := h.fmt, geom := h.geom, pm := h.pm, node := h.node, gen := 0,
    large := h.large }

/-- The place of a byte on one of the pages that an engine holds (R132). -/
def heldPlace (held : List HeldPage) (dst : Bool) (p : DWord) : Option Phys :=
  (held.find? fun h => h.dst == dst && h.page.toNat / 65536 == p.toNat / 65536).map (·.place p)

/-- The page on which an engine goes on from one pointer to another, with the place of the first (R132). -/
def holdPage (dst : Bool) (p q : DWord) (y : Phys) : List HeldPage :=
  if p.toNat / 65536 ≠ q.toNat / 65536 then []
  else [{ dst := dst, page := p - BitVec.ofNat 64 (p.toNat % 65536), addr := y.addr - p.toNat % 65536, tier := y.tier,
          fmt := y.fmt, geom := y.geom, pm := y.pm, node := y.node, large := y.large }]

/-- The pages on which an engine goes on after unit `k` of a slice (R132). -/
def keptPages (sl : Slice) (k : Nat) (bs : List (Phys × Phys)) : List HeldPage :=
  let n := 256 * k + bs.length
  match if n < sl.len then bs.getLast? else none with
  | none => []
  | some b =>
    let page (dst plane : Bool) (p : DWord) (y : Phys) : List HeldPage :=
      if plane then [] else holdPage dst (p + BitVec.ofNat 64 (n - 1)) (p + BitVec.ofNat 64 n) y
    page false sl.sp sl.src b.1 ++ page true sl.dp sl.dst b.2

/-- Where one byte of an operation's end lies (R93, R97, R132). -/
def State.endByte (s : State) (c : Crew) (scratch : Nat) (held : List HeldPage) (dst plane : Bool) (p : DWord) :
    Except XFault Phys :=
  if plane then match s.planeByte c scratch p.lo.toNat with
    | .error e => .error (.cause e 0)
    | .ok pa => .ok { addr := pa, tier := 0, fmt := 0, geom := 0, pm := false, node := s.node, gen := 0 }
  else match heldPlace held dst p with
    | some y => .ok y
    | none => s.translate (engineAgent c.ctx) (if dst then .store else .load) p

/-- The bytes of a unit, source and destination; `ok` says whether the formats of two pages may meet. -/
def State.unitBytes (s : State) (c : Crew) (scratch : Nat) (held : List HeldPage) (sl : Slice) (off : Nat)
    (ok : Phys → Phys → Bool) : Nat → Except UnitStop (List (Phys × Phys))
  | 0 => .ok []
  | n + 1 => do
    let q := BitVec.ofNat 64 off
    let a ← match s.endByte c scratch held false sl.sp (sl.src + q) with
      | .error x => .error (.fault false x (sl.src + q))
      | .ok y => .ok y
    let b ← match s.endByte c scratch held true sl.dp (sl.dst + q) with
      | .error x => .error (.fault true x (sl.dst + q))
      | .ok y => .ok y
    if !ok a b then .error .format
    let rest ← s.unitBytes c scratch held sl (off + 1) ok n
    .ok ((a, b) :: rest)

/-- Formats that an XCOPY lets meet (R335), and a destination that an XRED accepts (R336). -/
def copyFormats (a b : Phys) : Bool := a.fmt == 0 || b.fmt == 0 || (a.fmt == b.fmt && a.geom == b.geom)
def redFormat (td : Nat) : Nat := match td with | 6 => 0x0A | 10 => 0x11 | 12 => 0x13 | _ => 0x09
def CopyOp.formats (o : CopyOp) (a b : Phys) : Bool :=
  match o.reduce with
  | none => copyFormats a b
  | some (_, td, _, _) => b.fmt == 0 || b.fmt == redFormat td.toNat

/-- Unit `u` of an operation: its slice, and where its bytes lie. -/
def State.unitPlan (s : State) (o : CopyOp) (u : Nat) : Option (Slice × Nat × Except UnitStop (List (Phys × Phys))) :=
  match s.crews.get? o.crew, locateUnit o.slices u with
  | some c, some (sl, k) =>
    let scratch := (s.launches.get? o.launch).elim 0 (·.scratch)
    some (sl, k, s.unitBytes c scratch o.held sl (256 * k) o.formats (min 256 (sl.len - 256 * k)))
  | _, _ => none

/-- The translations of a unit are committed by an engine of a die (R104). -/
def State.commitUnit (s : State) (ctx die : Nat) (bs : List (Phys × Phys)) : State :=
  bs.foldl (fun u b => (u.commitFill (engineAgent ctx die) b.1).commitFill (engineAgent ctx die) b.2) s

/-- The bytes a unit reads, as a die sees them (R110, R123). -/
def State.unitData (s : State) (die : Nat) (bs : List (Phys × Phys)) : List Byte :=
  bs.map fun b => s.seenByte die (b.1.readAddr die)

/-- Move the bytes of a unit. -/
def State.moveUnit (s : State) (die : Nat) (bs : List (Phys × Phys)) : State :=
  (bs.zip (s.unitData die bs)).foldl (fun u p => u.engineWrite die p.1.2 p.2) s

/-! ### What a reducing copy makes of an element (R194, R199, R202) -/

/-- Bytes of an element. -/
def redBytes (td : Nat) : Nat := if td = 12 then 2 else 4

/-- One hop of HOPQ on an element (R194, R199, R202): `i` counts elements across the operation. -/
def hopElem (op : BitVec 3) (td : Nat) (key : Word) (i a b : Nat) : Nat :=
  let k0 : Word := (key.extractLsb' 0 16).setWidth 32
  let k1 : Word := (key.extractLsb' 16 16).setWidth 32
  let less (x y : Nat) : Bool := if td = 6 then decide (x < y) else decide (signed 32 x < signed 32 y)
  match op.toNat, td with
  | 0, 10 => f32.addBits .rn false a b
  | 0, 12 =>
    let x := f32.encode .rn false ((bf16.decode a).add .rn (bf16.decode b))
    let w := philox k0 k1 (BitVec.ofNat 32 (i / 4)) (BitVec.ofNat 32 (i / 2 ^ 34)) 0 0 (i % 4)
    bf16.encode (.sr w) false (f32.decode x)
  | 0, _ => (a + b) % 2 ^ 32
  | o, 10 => f32.minmax (o == 5) a b
  | o, 12 => bf16.minmax (o == 5) a b
  | 4, _ => if less b a then b else a
  | _, _ => if less a b then b else a

/-- The bytes an operation would leave of a unit (R373): the source's for a copy; what the ALU forms of each element for
HOPQ; nothing yet for ROOTQ, whose sums are delivered at the end. -/
def State.wouldBe (s : State) (die : Nat) (o : CopyOp) (first : Nat) (bs : List (Phys × Phys)) : List Byte :=
  let data := s.unitData die bs
  match o.reduce with
  | none => data
  | some (op, td, root, key) =>
    let old := bs.map fun b => s.readByte b.2.addr
    if root then old
    else
      let n := redBytes td.toNat
      (List.range (bs.length / n)).flatMap fun i =>
        bytesOf n (hopElem op td.toNat key (first + i) (le old (n * i) n) (le data (n * i) n))

/-- Leave the destination of the units from `u` on unspecified (R373): byte by byte the old value, or the one the
operation would have written. -/
def State.spoilUnits (s : State) (die : Nat) (o : CopyOp) (u : Nat) : State :=
  (List.range (o.total - u)).foldl (fun v i =>
    match v.unitPlan o (u + i) with
    | some (_, k, .ok bs) =>
      let (n, w) := v.takeFreeN bs.length
      let first := match o.reduce with | none => 0 | some r => 256 * k / redBytes r.2.1.toNat
      ((List.range bs.length).zip (bs.zip (w.wouldBe die o first bs))).foldl (fun w p =>
        if Config.freeBool (n + p.1) then w.engineWrite die p.2.1.2 p.2.2 else w) w
    | _ => v) s

/-! ### The end of a copy-engine operation (R330, R335) -/

/-- The destination of an operation, of every slice, is joined by its issuers, its status written, and the engine goes on. -/
def State.endCopy (s : State) (core : Nat) (o : CopyOp) (w : DWord) : State :=
  let s1 := s.updCore core fun k => { k with copies := k.copies.drop 1 }
  let g := engineAgent o.ctx
  let scratch := (s1.launches.get? o.launch).elim 0 (·.scratch)
  let sp (die : Nat) : List (Nat × Nat) := o.slices.flatMap fun sl =>
    if sl.dp then (s1.crews.get? o.crew).elim [] fun c => s1.planeSpans c scratch sl.dst.lo.toNat sl.len
    else s1.spans g die sl.dst sl.len
  let s2 := o.slices.foldl (fun u sl =>
    (u.joinSpans ⟨o.crew, sl.team, .team⟩ sp).writeStatus ⟨o.crew, sl.team, .team⟩ sl.quad sl.opId w true) s1
  o.slices.foldl (fun u sl => u.subStores (coreOfCluster sl.cluster) o.launch (units sl.len)) s2

/-- End an operation that stops short, with unspecified bytes for the units not applied. -/
def State.abortCopy (s : State) (core : Nat) (o : CopyOp) (side : Bool) (code : Nat) : State :=
  let s1 := (s.spoilUnits (dieOfCore core) o o.unit).endCopy core o (copyWord o.unit side code)
  if code = 5 then o.slices.foldl (fun u sl => u.haltFor .uncorrectable ⟨o.crew, sl.team, .team⟩) s1 else s1

/-- Replace the operation an engine performs. -/
def State.setHead (s : State) (core : Nat) (o : CopyOp) : State :=
  s.updCore core fun k => { k with copies := match k.copies with | [] => [] | _ :: rest => o :: rest }

/-- Whether a page is of POOL or PEER class (R335): by its leaf, or by the copy's end when nothing maps it. -/
def State.farPage (s : State) (o : CopyOp) (sl : Slice) (p : DWord) : Bool :=
  match s.resolve (engineAgent o.ctx) p with
  | some y => y.tier == 3 || y.node != s.node
  | none => (s.endRate o.ctx sl.sp sl.src).1 == 2

/-- The TRANSLATION trap that a team takes for a copy (R335): origin 2, with the address in every lane. -/
def engineTrap (c : Cause) (gen : Byte) (p : DWord) : Trap :=
  { cause := c, origin := 2, addr := (List.range 1024).map fun l => (l, p),
    gen := (List.range 1024).map fun l => (l, gen) }

/-- What a fault of one end makes of an operation (R335): a source page of POOL or PEER class leaves a resume record and
traps the slice's team; else the operation ends with FAULT. -/
def State.blockCopy (s : State) (core : Nat) (o : CopyOp) (sl : Slice) (side : Bool) (c : Cause) (gen : Byte) (p : DWord) :
    State :=
  if !side && s.farPage o sl p then
    (s.setHead core { o with resume := some (sl.team, p), since := some s.now, held := [] }).updTeam ⟨o.crew, sl.team, .team⟩
      fun t => { t with pending := t.pending ++ [engineTrap c gen p] }
  else s.abortCopy core o side 1

/-- An end that has no place makes an operation wait on a migrating leaf or a remote owner, or fault. -/
def State.faultCopy (s : State) (core : Nat) (o : CopyOp) (sl : Slice) (side : Bool) (x : XFault) (p : DWord) : State :=
  let wait (gen : Byte) : State :=
    s.setHead core { o with since := waitSince o.since o.remote x s.now, remote := x.isRemote, stuck := (side, gen, p) }
  match x with
  | .migrating g => wait g
  | .unreachable g => wait g
  | .cause c g => if c = .notMapped then s.blockCopy core o sl side c g p else s.abortCopy core o side 1

/-- The page on which an operation has waited in vain faults (R108, R109, R335). -/
def State.lateCopy (s : State) (core : Nat) (o : CopyOp) : State :=
  match locateUnit o.slices o.unit with
  | none => s
  | some (sl, _) =>
    s.blockCopy core o sl o.stuck.1 (if o.remote then .remoteUnreachable else .migrating) o.stuck.2.1 o.stuck.2.2

/-- One unit of a copy is charged to the issuer's cluster (R67). -/
def State.chargeUnit (s : State) (o : CopyOp) (sl : Slice) : State :=
  match s.team? ⟨o.crew, sl.team, .team⟩ with
  | none => s
  | some t => s.charge t.cluster 100

/-- Run the units of an XCOPY from the next one on (R335). -/
def State.runCopy (core : Nat) : Nat → CopyOp → State → State
  | 0, o, s => s.endCopy core o (copyWord o.unit false 0)
  | n + 1, o, s =>
    match s.unitPlan o o.unit with
    | none => s.endCopy core o (copyWord o.unit false 0)
    | some (sl, _, .error (.fault side x p)) => s.faultCopy core o sl side x p
    | some (_, _, .error .format) => s.abortCopy core o true 6
    | some (sl, k, .ok bs) =>
      let die := dieOfCore core
      if bs.any fun b => s.poisoned (b.1.readAddr die) then s.abortCopy core o false 5
      else
        let s1 := ((s.commitUnit o.ctx die bs).moveUnit die bs).chargeUnit o sl
        State.runCopy core n { o with unit := o.unit + 1, since := none, held := keptPages sl k bs } s1

/-- Destination bytes that are source bytes too, through synonyms: each may come back to its value before the copy
(R335). -/
def State.synonyms (s0 s : State) (die : Nat) (o : CopyOp) : State :=
  let bs := (List.range o.total).flatMap fun u => match s0.unitPlan o u with
    | some (_, _, .ok bs) => bs
    | _ => []
  let both := (bs.flatMap fun b => b.2.storeAddrs).filter fun a => bs.any fun b => b.1.readAddr die == a
  let (n, s1) := s.takeFreeN both.length
  ((List.range both.length).zip both).foldl (fun u p =>
    if Config.freeBool (n + p.1) then u.writeByte p.2 (s0.readByte p.2) else u) s1

/-- Whether two ends overlap as they are named (R335). -/
def namedOverlap (a : Slice) (b : Slice) : Bool :=
  let at' (plane : Bool) (p : DWord) : Nat := if plane then p.lo.toNat else va p
  a.sp == b.dp && a.len != 0 && b.len != 0 &&
    at' a.sp a.src < at' b.dp b.dst + b.len && at' b.dp b.dst < at' a.sp a.src + a.len

/-- The code with which a copy moves nothing, if there is one: MASK_MISMATCH, then OVERLAP. -/
def CopyOp.refused (o : CopyOp) : Option Nat :=
  if o.slices.any fun sl => o.slices.any fun t => t.mask != sl.mask then some 2
  else if o.slices.any fun a => o.slices.any fun b => namedOverlap a b then some 3
  else none

/-- Continue or complete the XCOPY that an engine performs. -/
def State.continueCopy (s : State) (core : Nat) (o : CopyOp) : State :=
  match o.refused with
  | some c => s.endCopy core o (copyWord 0 false c)
  | none =>
    let o' := { o with resume := none }
    match o.resume with
    | some (_, _) => s.abortCopy core o' false 1
    | none => s.synonyms (State.runCopy core o.total o' s) (dieOfCore core) o

/-! ### Reducing copies (R194, R202, R337) -/

/-- An element's contribution under ROOTQ (R202): q, or none for a NaN or an infinity. -/
def rootElem (td : Nat) (scale : Int) (x : Nat) : Option Int :=
  match td with
  | 10 | 12 =>
    match (if td = 10 then f32 else bf16).decode x with
    | .fin s m e => some (clamp (-(2 ^ 52 - 1)) (2 ^ 52 - 1) (((FVal.fin s m (e + scale)).round .rn).getD 0))
    | _ => none
  | _ => some (signed 32 x)

/-- The element that the root delivers. -/
def rootResult (td : Nat) (scale sum : Int) (special : Bool) : Nat :=
  match td with
  | 10 => if special then f32.nanBits else f32.encode .rn false (.fin (decide (sum < 0)) sum.natAbs (-scale))
  | 12 => if special then bf16.nanBits else bf16.encode .rn false (.fin (decide (sum < 0)) sum.natAbs (-scale))
  | _ => wrap 32 (clamp (-(2 ^ 31)) (2 ^ 31 - 1) sum)

/-- The key of the accumulators of one unit of a (group, DST) pair. -/
def redAccKey (group dst unit : Nat) : Nat := (group * 2 ^ 64 + dst) * 2 ^ 20 + unit

/-- Apply a unit of HOPQ at the bytes of its destination. -/
def State.hopUnit (s : State) (die : Nat) (op : BitVec 3) (td : Nat) (key : Word) (first : Nat) (dst : List Phys)
    (data : List Byte) : State :=
  let n := redBytes td
  (List.range (data.length / n)).foldl (fun u i =>
    let at' := (dst.drop (n * i)).take n
    let old := natOf (at'.map fun y => s.readByte y.addr)
    let v := hopElem op td key (first + i) old (le data (n * i) n)
    (at'.zip (bytesOf n v)).foldl (fun u p => u.engineWrite die p.1 p.2) u) s

/-- The bytes of a root's delivery, over the destination. -/
def State.deliverRoot (s : State) (die : Nat) (dst : List Phys) (data : List Byte) : State :=
  (dst.zip data).foldl (fun u p => u.engineWrite die p.1 p.2) s

/-- A contribution of one unit reaches the root; once all have arrived the sums are delivered and the accumulators
cleared. `op` is the contributing operation of this F7, if it is one. A root that is another node holds the contributions
of other nodes too: unless those of this F7 are all, the sums wait for its delivery (R337). -/
def State.rootUnit (s : State) (die td : Nat) (key : Word) (acc : Nat) (dst : List Phys) (data : List Byte)
    (op : Option Nat) : State :=
  let n := redBytes td
  let scale : Int := (key.extractLsb' 16 8).toInt
  let elems := (List.range (data.length / n)).map fun i => (i, rootElem td scale (le data (n * i) n))
  let a0 := s.reds.read {} acc
  let a1 : RedAcc := elems.foldl (fun a e => match e.2 with
    | some q => { a with sums := Tbl.write 0 a.sums e.1 (Tbl.read 0 a.sums e.1 + q) }
    | none => { a with specials := Tbl.write 0 a.specials e.1 1 }) a0
  let a2 := { a1 with count := a1.count + 1, waiting := match op with
    | some k => a1.waiting ++ [k]
    | none => a1.waiting, remotes := if op.isNone then a1.remotes + 1 else a1.remotes }
  if a2.count < field key.toNat 0 12 then
    { s with reds := s.reds.put acc { a2 with places := if dst.any (·.node != s.node) then dst else [] } }
  else
    let s1 := s.deliverRoot die dst (elems.flatMap fun e =>
      bytesOf n (rootResult td scale (Tbl.read 0 a2.sums e.1) (Tbl.read 0 a2.specials e.1 == 1)))
    (List.range a2.remotes).foldl (fun u _ => u.send .remoteDone) { s1 with reds := s1.reds.del acc }

/-- The number of an engine, and the window of units that a destination remembers of it (R337). -/
def engineNo (node core : Nat) : Nat := node * 65536 + core
def redWindow : Nat := 1048576

/-- What the duplicate filter makes of a unit: applied before within the window, older than the window, or new. -/
inductive Seen where
  | dup | old | new
  deriving DecidableEq, Repr

def State.seen (s : State) (engine transfer unit : Nat) : Seen :=
  let mine := s.redSeen.filter fun e => e.1 == engine
  if mine.contains (engine, transfer, unit) then .dup
  else match mine.head? with
    | some (_, t, u) =>
      if redWindow ≤ mine.length && (transfer < t || (transfer == t && unit < u)) then .old else .new
    | none => .new

/-- Remember a unit; the oldest of its engine beyond the window is forgotten. -/
def State.remember (s : State) (engine transfer unit : Nat) : State :=
  let mine := s.redSeen.filter fun e => e.1 == engine
  let kept := if mine.length < redWindow then s.redSeen
    else match mine.head? with
      | some e => s.redSeen.erase e
      | none => s.redSeen
  { s with redSeen := kept ++ [(engine, transfer, unit)] }

/-- The next unit of the XRED that an engine performs reaches its destination. -/
def State.ownUnit (s : State) (core : Nat) (o : CopyOp) (r : BitVec 3 × BitVec 5 × Bool × Word) :
    State :=
  match s.unitPlan o o.unit with
  | none => s
  | some (sl, _, .error (.fault side x p)) => s.faultCopy core o sl side x p
  | some (_, _, .error .format) => s.abortCopy core o true 6
  | some (sl, k, .ok bs) =>
    let die := dieOfCore core
    let e := engineNo s.node core
    let next := { o with unit := o.unit + 1, since := none, held := keptPages sl k bs }
    match s.seen e o.transfer o.unit with
    | .dup => s.setHead core next
    | .old => s.abortCopy core o false 8
    | .new =>
      if bs.any fun b => s.poisoned (b.1.readAddr die) || s.poisoned b.2.addr then s.abortCopy core o false 5
      else
        let td := r.2.1.toNat
        let s1 := ((s.commitUnit o.ctx die bs).chargeUnit o sl).setHead core next
        let data := s.unitData die bs
        let dst := bs.map (·.2)
        let s2 := s1.remember e o.transfer o.unit
        if r.2.2.1 then
          s2.rootUnit die td r.2.2.2 (redAccKey (field r.2.2.2.toNat 24 8)
            ((dst.head?.elim 0 (·.addr)) - 256 * k) k) dst data (some sl.opId)
        else s2.hopUnit die r.1 td r.2.2.2 (256 * k / redBytes td) dst data

/-- Whether a started operation can go on: not blocked on its team's handler, nor waiting on a leaf; a wait for an owner
ends once it answers, unless it has lasted too long. -/
def CopyOp.mayRun (o : CopyOp) (now : DWord) : Bool :=
  o.started && (match o.resume with
    | none => o.since.isNone || (o.remote && !overdue o.since true now)
    | some (t, _) => t == 16)

/-- Whether every sum that a ROOTQ contributed to has been delivered. -/
def State.delivered (s : State) (o : CopyOp) : Bool :=
  !s.reds.any fun e => o.slices.any fun sl => e.2.waiting.contains sl.opId

/-- REDUCE_UNIT_ARRIVAL (R337): a unit of an XRED of this F7, or of another F7, reaches its destination; or another node
delivers the sums of a ROOTQ to which this F7 contributed. -/
def execReduceUnitArrival (u : UnitSource) (s : State) : Host.Outcome State Fault Refusal :=
  match u with
  | .own core =>
    match (s.core core).copies with
    | o :: _ =>
      match o.reduce with
      | some r =>
        if o.mayRun s.now && !o.cancelled && o.resume.isNone && o.unit < o.total && !(r.2.2.1 && !s.mod.reduces) then
          .next (s.ownUnit core o r)
        else absent s
      | none => absent s
    | [] => absent s
  | .owner acc data =>
    match s.reds.get? acc with
    | none => absent s
    | some a => if a.places.isEmpty || a.places.length != data.length then absent s
      else .next { s.deliverRoot 12 a.places data with reds := s.reds.del acc }
  | .remote q =>
    let td := q.elem.toNat
    let e := engineNo q.node q.core
    let dst : List Phys := (List.range q.data.length).map fun i =>
      { addr := q.dest + i, tier := 0, fmt := 0, geom := 0, pm := false, node := s.node, gen := 0 }
    if !(td = 0 || td = 5 || td = 6 || td = 10 || td = 12) || !(q.op = 0 || q.op = 4 || q.op = 5) || !s.domainUp then
      absent s
    else if dst.any fun y => (s.tierOf y.addr).isNone then .next (s.send .remoteDenied)
    else match s.seen e q.transfer q.unit with
      | .dup => .next (s.send .remoteDone)
      | .old => .next (s.send .remoteReplay)
      | .new =>
        if dst.any fun y => s.poisoned y.addr then .next (s.send .remotePoison)
        else
          let s1 := s.remember e q.transfer q.unit
          if q.rootq then
            let off := q.firstElem * redBytes td
            .next (s1.rootUnit 12 td q.key (redAccKey (field q.key.toNat 24 8) (q.dest - off) (off / 256)) dst q.data none)
          else .next ((s1.hopUnit 12 q.op td q.key q.firstElem dst q.data).send .remoteDone)

/-! ### The copy engine's events -/

/-- Whether a launch is in an exchange phase (R65). -/
def State.exchangePhase (s : State) (launch : Nat) : Bool :=
  ((s.launches.get? launch).bind fun l => l.channel.bind s.channels.get?).any fun c => c.phase % 2 == 1

/-- Start the operation at the head of the engine's order (R329). -/
def State.startCopy (s : State) (core : Nat) (o : CopyOp) : State :=
  s.setHead core { o with started := true, exchange := s.exchangePhase o.launch }

/-- COPY_OPERATION_START (R329, R335). -/
def execCopyOperationStart (core : Nat) (s : State) : Host.Outcome State Fault Refusal :=
  match (s.core core).copies with
  | o :: _ => if !o.started && !o.cancelled && o.startAt.isNone then .next (s.startCopy core o) else absent s
  | [] => absent s

/-- EXCHANGE_COPY_START (R65): a copy of an exchange phase starts at E + o, or at once when that has passed. -/
def execExchangeCopyStart (core : Nat) (s : State) : Host.Outcome State Fault Refusal :=
  match (s.core core).copies with
  | o :: _ => match o.startAt with
    | some e => if !o.started && !o.cancelled && !(s.now.ult e) then .next (s.startCopy core o) else absent s
    | none => absent s
  | [] => absent s

/-- Continue the operation an engine performs: a copy moves its units; an XRED whose units have all arrived, and whose
sums are delivered, ends. -/
def State.driveCopy (s : State) (core : Nat) (o : CopyOp) : Option State :=
  match o.reduce with
  | none => some (s.continueCopy core o)
  | some r =>
    if r.2.2.1 && !s.mod.reduces then some (s.endCopy core o (copyWord 0 false 7))
    else match o.resume with
      | some _ => some (s.abortCopy core { o with resume := none } false 1)
      | none =>
        if o.unit < o.total then none
        else if s.delivered o then some (s.endCopy core o (copyWord o.unit false 0))
        else none

/-- COPY_COMPLETE (R330, R335). -/
def execCopyComplete (core : Nat) (s : State) : Host.Outcome State Fault Refusal :=
  match (s.core core).copies with
  | o :: _ =>
    if o.cancelled then .next (s.abortCopy core { o with resume := none } false 4)
    else if !o.mayRun s.now then absent s
    else match s.driveCopy core o with
      | some s' => .next s'
      | none => absent s
  | [] => absent s

/-- The tick against which the promise of an operation stands: that since which its copy is blocked, or its loop waits for
rows, while it is or does. -/
def State.promiseNow (s : State) (p : Party) (op : Nat) : DWord :=
  match s.crews.get? p.crew with
  | none => s.now
  | some c =>
    let k := s.core c.core
    let copy := k.copies.findSome? fun o => if o.resume.isSome && o.slices.any (·.opId == op) then o.since else none
    let loop := k.cupel.findSome? fun o => if o.hunger ≠ 0 && o.opId == op then o.since else none
    (copy.or loop).getD s.now

/-- PROMISE_MISSED (R166): the trap becomes pending, once per operation; the promise stands in its tpc until the boundary
that takes it. An operation that reduced service holds has no promise yet (R28); the ticks that a copy is blocked, or that a
loop hungers for rows, move its promise (R151, R335); and those of a crew that is stopped move when it is restored (R70). -/
def execPromiseMissed (p : Party) (quad : Nat) (s : State) : Host.Outcome State Fault Refusal :=
  match s.team? p with
  | none => absent s
  | some t =>
    match t.engines.find? fun e => e.quad == quad && !e.done && !e.missed && e.promise.ult (s.promiseNow p e.op) with
    | some e =>
      let held := (s.crews.get? p.crew).any fun c => (s.core c.core).cupel.any fun o => o.opId == e.op && o.held
      if p.kind == .team && !t.retired && !held && (s.crews.get? p.crew).any fun c => c.state == .resident then
        let mark (t : Team) : Team := { t with engines := t.engines.map fun o =>
          if o.op = e.op then { o with missed := true } else o }
        .next ((s.updCopies p mark).updTeam p fun t =>
          { t with pending := t.pending ++ [{ cause := .promise, info := BitVec.ofNat 32 quad, tpc := e.promise }] })
      else absent s
    | none => absent s

/-! ### QCFG, QSTAT, CSTAT (R332, R333, R343) -/

/-- Whether an operation of the team is outstanding on the copy engine, or on the Cupel engine. -/
def Team.outstanding (t : Team) (copy : Bool) : Nat := (t.engines.filter fun e => !e.done && e.copy == copy).length

def qcfgCheck (x : Exe) (_ : State) : Option Cause :=
  let q := base x.parts.d
  let k := x.team.queue q
  let role := k.role.toNat
  if !k.entries.isEmpty ||
      (3 ≤ x.parts.s && x.parts.s ≤ 6 && (List.range 16).any fun i => i != q && (x.team.queue i).role.toNat == x.parts.s) ||
      ((role = 3 || role = 4) && x.team.outstanding true ≠ 0) ||
      ((role = 5 || role = 6) && x.team.outstanding false ≠ 0) then some .general
  else none

/-- QCFG. -/
def execQcfg (f : RRS) (s : State) : Host.Outcome State Fault Refusal :=
  performPure (.qcfg f) qcfgCheck
    (fun x u => u.updTeam x.p fun t => t.setQueue (base x.parts.d) { role := BitVec.ofNat 3 x.parts.s }) s

/-- QSTAT. -/
def execQstat (f : RRS) (s : State) : Host.Outcome State Fault Refusal :=
  performPure (.qstat f) noCheck
    (fun x u =>
      let k := x.team.queue (base x.parts.a)
      writeScalar x x.parts.d (BitVec.ofNat 32 (k.entries.length + 256 * k.role.toNat)) u) s

/-- CSTAT. -/
def execCstat (f : RRS) (s : State) : Host.Outcome State Fault Refusal :=
  performPure (.cstat f) noCheck
    (fun x u => writeScalar x x.parts.d (match x.parts.s with
      | 0 => BitVec.ofNat 32 (x.team.outstanding false)
      | 1 => if (u.core x.crew.core).tileOwner = some (x.p.crew, x.p.team) || (x.crew.tile.any fun t => t.1 == x.p.team)
          then 1 else 0
      | _ => BitVec.ofNat 32 (x.team.outstanding true)) u) s

end Sys2Proof.Machine
end

