-- ==== Sys2Proof/Machine/CupelOps.lean ====
section
/-! DEFINITION. The Cupel instructions (R329, R338 to R342) and the Cupel engine's events (R135, R152, R155). -/

namespace Sys2Proof.Machine

open Sys2Proof

/-! ### Checks of a block (R338 to R341) -/

/-- Bytes of the weight buffer. -/
def bufferBytes : Nat := 2097152

/-- The reserved fields of sA and sA+3, and S against the A-row store (R137, R338). -/
def loopBad (b : List Word) : Bool :=
  let w := blockWord b 0
  field w 18 10 ≠ 0 || field w 6 2 ≠ 0 || field (blockWord b 3) 21 11 ≠ 0 ||
    stepLimit (aForm (blockPair b)) < blockS b

/-- A rows: popped with no address, or read with a pitch of at least a row (R338). -/
def rowsBad (b : List Word) : Bool :=
  if blockAq b then blockWord b 1 ≠ 0 || blockWord b 2 ≠ 0 else blockWord b 2 < rowBytes b

/-- Whether `n` columns of a form leave the buffer. -/
def columnsBad (b : List Word) (form n : Nat) : Bool :=
  bufferBytes < blockWord b 3 + (n - 1) * blockWord b 4 + columnBytes form (blockS b)

/-- The ILLEGAL_OPERAND conditions of MLOOP and CBIN (R340). -/
def denseCheck (bin : Bool) (x : Exe) (_ : State) : Option Cause :=
  let b := x.block 5
  let pair := blockPair b
  match commandCheck x 6 with
  | some c => some c
  | none =>
    if (if bin then pair ≠ 10 else 9 < pair) then some .cupelPair
    else if loopBad b || rowsBad b || columnsBad b (bForm pair) 64 then some .general
    else none

/-- The ILLEGAL_OPERAND conditions of CTOPK (R143, R341). -/
def ctopkCheck (x : Exe) (s : State) : Option Cause :=
  let b := x.block 11
  let pair := blockPair b
  let ctl := blockWord b 7
  let mem := ctl.testBit 8
  let n := blockWord b 5
  match commandCheck x 6 with
  | some c => some c
  | none =>
    if 9 < pair || (mem && (pair == 8 || pair == 9)) then some .cupelPair
    else if blockZero b || loopBad b || rowsBad b || n = 0 || 2 ^ 20 < n || 0xFFFFFFFE < blockWord b 6 + n - 1 ||
        field ctl 9 23 ≠ 0 || field ctl 5 3 ≠ 0 || field ctl 0 5 = 0 || 16 < field ctl 0 5 then some .general
    else if !mem && (blockWord b 8 ≠ 0 || blockWord b 9 ≠ 0 || blockWord b 10 ≠ 0) then some .general
    else if !mem && columnsBad b (bForm pair) n then some .general
    else x.listCheck s x.parts.b true

/-- The ILLEGAL_OPERAND conditions of WBLOAD (R339): `form` is numbered as the B side. -/
def wbloadCheck (x : Exe) (_ : State) : Option Cause :=
  let b := x.block 6
  let form := blockPair b
  let n := field (blockWord b 5) 0 16
  match commandCheck x 6 with
  | some c => some c
  | none =>
    if 10 < form || form = 5 || form = 6 then some .cupelPair
    else if field (blockWord b 0) 16 12 ≠ 0 || field (blockWord b 0) 0 8 ≠ 0 || field (blockWord b 3) 21 11 ≠ 0 ||
        stepLimit form < blockS b || n = 0 || blockWord b 3 % 4 ≠ 0 || blockWord b 4 % 4 ≠ 0 ||
        (form == 8 && blockS b % 4 ≠ 0) || columnsBad b form n then some .general
    else none

/-- The ILLEGAL_OPERAND conditions of CEPI (R342). -/
def cepiBad (x : Exe) : Option Cause :=
  let b := x.block 2
  match commandCheck x 6 with
  | some c => some c
  | none => if field (blockWord b 0) 6 26 ≠ 0 || blockWord b 1 % 8 ≠ 0 then some .general else none

/-! ### Issue (R135, R151) -/

/-- The A rows of a loop lie in the plane (R137): the protection trap of the first that does not. -/
def Exe.rowsFault (x : Exe) (s : State) (b : List Word) : Option Stop :=
  if blockAq b then none
  else ((List.range (blockM b)).findSome? fun r =>
    s.planeFault x.crew x.launch.scratch (blockWord b 1 + r * blockWord b 2) (rowBytes b)).map fun e =>
      x.uniformTrap e.1 (BitVec.ofNat 64 e.2)

/-- Whether reduced service holds a pair or form back (R28). -/
def State.holdsPair (s : State) (pair : Nat) : Bool :=
  s.mod.service == .reduced && !(pair == 0 || pair == 1 || pair == 7)

/-- The engine accepts an operation whose promise is T0 plus some ticks. -/
def issueCupel (x : Exe) (kind : CupelKind) (b : List Word) (ticks count : Nat) (sp : List (Nat × Nat)) (s : State) :
    Res State :=
  if x.engineFull 6 || x.storesFull s count then .error (.hold .engine)
  else
    let (id, s1) := s.takeOp
    let core := x.crew.core
    let promise := later s.now (s.core core).cupelPromise + BitVec.ofNat 64 ticks
    let held := s.holdsPair (blockPair b) && (match kind with | .epiMem | .epiReg .. => false | _ => true)
    let op : CupelOp :=
      { crew := x.p.crew, team := x.p.team, ctx := x.crew.ctx, launch := x.crew.launch, kind := kind, block := b,
        home := core, sat := x.parts.md.sat, quad := x.regNum .s x.parts.d, opId := id, ticks := ticks,
        promise := promise, held := held, since := if held then some s.now else none }
    .ok (((issueRecord x false id promise (fork x sp s1)).addStores core x.crew.launch count).updCore core fun k =>
      { k with cupel := k.cupel ++ [op], cupelPromise := promise })

/-- The ticks of a DENSE or BIN loop (R151). -/
def denseTicks (b : List Word) : Nat := 2 * (128 + 4 * blockS b + blockS b * stepClocks (blockPair b))

/-- MLOOP. -/
def execMloop (f : RRR) (s : State) : Host.Outcome State Fault Refusal :=
  performMeet (.mloop f) (denseCheck false) (fun x u =>
    let b := x.block 5
    match x.rowsFault u b with
    | some k => .error k
    | none => issueCupel x .dense b (denseTicks b) 0 [] u) s

/-- CBIN. -/
def execCbin (f : RRR) (s : State) : Host.Outcome State Fault Refusal :=
  performMeet (.cbin f) (denseCheck true) (fun x u =>
    let b := x.block 5
    match x.rowsFault u b with
    | some k => .error k
    | none => issueCupel x (.bin (x.parts.fx == 1)) b (denseTicks b) 0 [] u) s

/-- The key pointer of a TOPK loop that reads memory. -/
def keyPtr (b : List Word) : DWord := Word.pair (b.getD 8 0) (b.getD 9 0)

/-- The pages that hold the keys of a pair (R143; DEDUCED, log 17). -/
def keyFormat (pair fmt geom : Nat) : Bool :=
  match bForm pair with
  | 0 => fmt == 0x12 | 1 => fmt == 0x13 | 2 => fmt == 0x1B
  | 3 => fmt == 0x14 || (fmt == 0x17 && geom == 2)
  | 4 => fmt == 0x15 || (fmt == 0x18 && geom == 2)
  | 7 => fmt == 0x05
  | _ => false

/-- c′ of R151, and the bytes a chunk of keys takes in memory. -/
def State.topkClocks (s : State) (ctx : Nat) (b : List Word) : Nat :=
  let pair := blockPair b
  let c := stepClocks pair
  if !(blockWord b 7).testBit 8 then c
  else
    let fmt := (s.resolve (engineAgent ctx) (keyPtr b)).elim 0 (·.fmt)
    let bytes := if fmt = 0x14 || fmt = 0x15 then 32 else formChunk (bForm pair)
    let r := (s.endRate ctx false (keyPtr b)).1
    max c ((64 * bytes + r - 1) / r)

/-- The ranges a TOPK loop reads in memory. -/
def Exe.keyPieces (x : Exe) (s : State) (b : List Word) : List (Nat × Nat) :=
  if !(blockWord b 7).testBit 8 then []
  else (List.range (blockWord b 5)).flatMap fun j =>
    x.elemPieces s (keyPtr b + BitVec.ofNat 64 (j * blockWord b 10)) (columnData (bForm (blockPair b)) (blockS b))

/-- CTOPK. -/
def execCtopk (f : RRR) (s : State) : Host.Outcome State Fault Refusal :=
  performMeet (.ctopk f) ctopkCheck (fun x u =>
    let b := x.block 11
    match x.rowsFault u b with
    | some k => .error k
    | none =>
      issueCupel x (.topk (wlOf x.parts.b)) b
        (2 * (128 + 4 * blockS b + (blockWord b 5 + 63) / 64 * blockS b * u.topkClocks x.crew.ctx b)) 0
        (x.keyPieces u b) u) s

/-- The source of a WBLOAD, and the stride of its columns (R339). -/
def loadPtr (b : List Word) : DWord := Word.pair (b.getD 1 0) (b.getD 2 0)
def loadStride (b : List Word) : Int :=
  (blockWord b 4 : Int) - (if normed (blockPair b) then 4 * blockS b else 0 : Nat)

/-- The pointer of column `j` of a WBLOAD's source. -/
def loadColumn (b : List Word) (j : Nat) : DWord := loadPtr b + BitVec.ofInt 64 ((j : Int) * loadStride b)

/-- WBLOAD. -/
def execWbload (f : RRR) (s : State) : Host.Outcome State Fault Refusal :=
  performMeet (.wbload f) wbloadCheck (fun x u =>
    let b := x.block 6
    let n := field (blockWord b 5) 0 16
    let bytes := n * columnData (blockPair b) (blockS b)
    let r := (u.endRate x.crew.ctx false (loadPtr b)).1
    issueCupel x .wbload b (2 * (64 + (bytes + r - 1) / r)) 0
      ((List.range n).flatMap fun j => x.pieces u false (loadColumn b j) (columnData (blockPair b) (blockS b))) u) s

/-- The registers that a register epilogue writes (R342). -/
def Exe.epiRegs (x : Exe) (m : Nat) : Nat := (64 * m + x.nlanes - 1) / x.nlanes

/-- The row pointers of a memory epilogue, from the bytes of its table (R142). -/
def tablePtrs (m : Nat) (bs : List Byte) : List DWord := (List.range m).map fun r => BitVec.ofNat 64 (le bs (8 * r) 8)

/-- The row pointers of a memory epilogue, from its table in the plane. -/
def State.rowTable (s : State) (c : Crew) (scratch addr m : Nat) : Option (List DWord) :=
  (s.planeBytes c scratch addr (8 * m)).map (tablePtrs m)

/-- The row pointers of an accepted epilogue: those kept of scratch that its crew has given up, or those of the plane. -/
def State.rowPtrs (s : State) (c : Crew) (scratch : Nat) (o : CupelOp) : Option (List DWord) :=
  match o.kept with
  | some bs => some (tablePtrs o.m bs)
  | none => s.rowTable c scratch (blockWord o.block 1) o.m

/-- Whether a row's pointer names a remote page. -/
def State.remoteRow (s : State) (ctx : Nat) (p : DWord) : Bool :=
  p != 0 && (s.resolve (engineAgent ctx) p).any fun y => y.node != s.node

/-- CEPI: the registers of a register epilogue are checked first (R76), then the block. -/
def execCepi (f : RRR) (s : State) : Host.Outcome State Fault Refusal :=
  performMeet (.cepi f) noCheck (fun x u =>
    let b := x.block 2
    let m := blockM b
    let r := x.regNum .v x.parts.b
    let ticks := 2 * (64 + 16 * m)
    if x.parts.fx = 0 && x.launch.vregs < r + x.epiRegs m then
      trapNow x .allotBounds (BitVec.ofNat 32 (max r x.launch.vregs))
    else match cepiBad x with
    | some c => trapNow x c
    | none =>
      if x.parts.fx = 0 then
        (issueCupel x (.epiReg x.parts.td r) b ticks 0 [] u)
      else match u.planeFault x.crew x.launch.scratch (blockWord b 1) (8 * m) with
        | some e => .error (x.uniformTrap e.1 (BitVec.ofNat 64 e.2))
        | none =>
          let rows := (u.rowTable x.crew x.launch.scratch (blockWord b 1) m).getD []
          let far := if rows.any (u.remoteRow x.crew.ctx) then 3400 else 0
          issueCupel x .epiMem b (ticks + far) m ((rows.filter (· != 0)).flatMap fun p => x.elemPieces u p 512) u) s

/-! ### The end of a Cupel operation (R152) -/

/-- Remove the operation that the engine performs and write its status word; the next one, if it had been stopped while
it waited for rows, goes on with its feed (R137, R154). -/
def State.endCupel (s : State) (core : Nat) (o : CupelOp) (w : DWord) : State :=
  let s1 := ((s.updCore core fun k => { k with cupel := k.cupel.drop 1 }).writeStatus ⟨o.crew, o.team, .team⟩ o.quad
    o.opId w false).feedCupel core
  match o.kind with
  | .epiMem => s1.subStores o.home o.launch o.m
  | _ => s1

/-- The operation consumes an uncorrectable error (R155, R167): POISON, its list rows or tile unspecified, and its team
is halted. -/
def State.poisonCupel (s : State) (core : Nat) (o : CupelOp) (pos : Nat) : State :=
  ((s.spoil core o).endCupel core o (cupelWord 0 pos false false 5)).haltFor .uncorrectable
    ⟨o.crew, o.team, .team⟩

def State.setCupelHead (s : State) (core : Nat) (o : CupelOp) : State :=
  s.updCore core fun k => { k with cupel := match k.cupel with | [] => [] | _ :: rest => o :: rest }

/-- Charge the array's clocks to the issuer's cluster (R67). -/
def State.chargeArray (s : State) (o : CupelOp) (clocks : Nat) : State :=
  match s.team? ⟨o.crew, o.team, .team⟩ with
  | none => s
  | some t => s.charge t.cluster (1600 * clocks)

/-- The tile of an image comes back when an operation of its team runs (R154). -/
def State.retakeTile (s : State) (core : Nat) (o : CupelOp) : State :=
  match (s.crews.get? o.crew).bind (·.tile) with
  | some (t, int, cells) =>
    if t ≠ o.team then s
    else (s.updCore core fun k => { k with tileOwner := some (o.crew, t), tileInt := int, tile := cells }).updCrew o.crew
      fun c => { c with tile := none }
  | none => s

/-- The live rows of a loop's list, as they are. -/
def State.liveRows (s : State) (o : CupelOp) (wl : Nat) : List Row :=
  let lists : Tbl (Tbl WRow) := (s.crews.get? o.crew).elim [] (·.wls)
  (List.range (blockM o.block)).map fun r => (Tbl.read {} ((lists.get? wl).getD []) r).open

/-- Whether a row that is not empty was made for another k (R144), and the flags of rows. -/
def State.kMismatch (s : State) (o : CupelOp) (wl : Nat) : Bool :=
  (s.liveRows o wl).any fun r => !r.entries.isEmpty && r.k ≠ field (blockWord o.block 7) 0 5
def rowFlags (rs : List Row) : Bool × Bool := (rs.any Row.tie, rs.any (·.nan))

/-- The status word with which an operation ends before it has read or popped anything (R141, R144). -/
def State.cupelRefusal (s : State) (core : Nat) (o : CupelOp) : Option DWord :=
  match o.kind with
  | .dense | .bin _ =>
    if !blockZero o.block && (s.core core).tileOwner ≠ some (o.crew, o.team) then some (cupelWord 0 0 false false 3) else none
  | .topk wl =>
    let f := rowFlags (s.liveRows o wl)
    if s.kMismatch o wl then some (cupelWord 0 0 f.1 f.2 2) else none
  | _ => none

/-- The A rows that a loop has when it starts: none of those it pops; those kept of scratch that its crew has given up; or
those of the plane. None when a byte is poisoned. -/
def State.loopRows (s : State) (o : CupelOp) : Option (List Byte) :=
  if blockAq o.block then some []
  else match o.kept, s.crews.get? o.crew with
    | some bs, _ => some bs
    | none, some c => s.planeRows c ((s.launches.get? o.launch).elim 0 (·.scratch)) o
    | none, none => none

/-- CUPEL_OPERATION_START (R135, R137, R141, R144): a continuing loop whose issuer does not own the tile, and a loop whose
list was made for another k, end and change nothing; else the A rows are read, or begin to be popped, and a zeroing loop
takes the tile. -/
def execCupelOperationStart (core : Nat) (s0 : State) : Host.Outcome State Fault Refusal :=
  match (s0.core core).cupel with
  | [] => absent s0
  | o :: _ =>
    let s := s0.retakeTile core o
    if o.started || o.held || o.cancelled then absent s0
    else match s.cupelRefusal core o with
    | some w => .next (s.endCupel core o w)
    | none =>
      let o1 := { o with started := true }
      if !o.isLoop then .next (s.setCupelHead core o1)
      else match s.loopRows o with
        | none => .next (s.poisonCupel core o 0)
        | some rows =>
          let own := blockZero o.block && (match o.kind with | .topk _ => false | _ => true)
          let s1 := s.setCupelHead core { o1 with rows := rows }
          let s2 := if own then s1.updCore core fun k =>
              { k with tile := [], tileOwner := some (o.crew, o.team), tileInt := intPair (blockPair o.block) }
            else s1
          .next (s2.feedCupel core)

/-! ### Reading memory for the engine -/

/-- Why staging stops. -/
inductive StageStop where
  | fault | format | poison
  | wait (x : XFault)
  deriving DecidableEq, Repr

/-- A byte that the engine stages. -/
def State.stageByte (s : State) (ctx core : Nat) (held : List HeldPage) (ok : Phys → Bool) (p : DWord) :
    Except StageStop (Byte × Phys) :=
  match (heldPlace held false p).elim (s.translate (engineAgent ctx) .load p) .ok with
  | .error (.cause _ _) => .error .fault
  | .error x => .error (.wait x)
  | .ok y =>
    if !ok y then .error .format
    else
      let a := y.readAddr (dieOfCore core)
      if s.poisoned a then .error .poison else .ok (s.seenByte (dieOfCore core) a, y)

/-- Staged bytes at a list of pointers. -/
def State.stage (s : State) (ctx core : Nat) (held : List HeldPage) (ok : Phys → Bool) (ps : List DWord) :
    Except StageStop (List (Byte × Phys)) :=
  ps.mapM (s.stageByte ctx core held ok)

/-- The pointers of `n` bytes from a pointer. -/
def run (p : DWord) (n : Nat) : List DWord := (List.range n).map fun i => p + BitVec.ofNat 64 i

/-- The pointers of the chunks of a column of keys on pages of a format, in the form the cells take: elements, then the
scale or norm (R103, R143). -/
def keyRuns (form fmt steps : Nat) (p : DWord) : List DWord :=
  if fmt = 0x17 || fmt = 0x18 then
    (List.range steps).flatMap fun i =>
      let blk := p.toNat % 4096 / 32 + i
      let base := p - BitVec.ofNat 64 (p.toNat % 4096) + BitVec.ofNat 64 (4096 * (blk / 124))
      run (base + BitVec.ofNat 64 (32 * (blk % 124))) 32 ++ [base + BitVec.ofNat 64 (3968 + blk % 124)]
  else if fmt = 0x14 || fmt = 0x15 then run p (32 * steps)
  else run p (formChunk form * steps)

/-- Insert the scale 1 after each 32 elements of an unscaled FP8 column. -/
def unitScales (steps : Nat) (bs : List Byte) : List Byte :=
  (List.range steps).flatMap fun i => (bs.drop (32 * i)).take 32 ++ [127]

/-- One column of keys from memory: its translation, its alignment, its format (R101, R102, R143). -/
def State.stageKeys (s : State) (o : CupelOp) (core : Nat) (j : Nat) :
    Except StageStop (Col × List Phys) := do
  let pair := blockPair o.block
  let form := bForm pair
  let steps := blockS o.block
  let p := keyPtr o.block + BitVec.ofNat 64 (j * blockWord o.block 10)
  let first ← s.stageByte o.ctx core o.pages (fun _ => true) p
  let fmt := first.2.fmt
  if p.toNat % (if fmt = 0x1B then 2 else max 1 (fmtBits fmt / 8)) ≠ 0 then .error .fault
  if !keyFormat pair fmt first.2.geom then .error .format
  if (fmt = 0x17 || fmt = 0x18) && (p.toNat % 32 ≠ 0 || 3968 ≤ p.toNat % 4096) then .error .format
  let bs ← s.stage o.ctx core o.pages (fun y => y.fmt == fmt && y.geom == first.2.geom) (keyRuns form fmt steps p)
  let raw := bs.map (·.1)
  .ok ((colOf form steps (if fmt = 0x14 || fmt = 0x15 then unitScales steps raw else raw)).withNorms form,
       bs.map (·.2))

/-- Stage columns in ascending order until one stops. -/
def State.stageAll (s : State) (o : CupelOp) (core : Nat) : Nat → Nat → List Col × List Phys × Option StageStop
  | 0, _ => ([], [], none)
  | n + 1, j => match s.stageKeys o core j with
    | .error e => ([], [], some e)
    | .ok (c, ys) => let r := s.stageAll o core n (j + 1); (c :: r.1, ys ++ r.2.1, r.2.2)

/-! ### Completion -/

/-- Write the rows of a list that a loop leaves: the crew's, and what the pairs of its teams hold of it (R294). -/
def State.writeList (s : State) (crew wl : Nat) (rows : List (Nat × WRow)) : State :=
  let put (l : Tbl (Tbl WRow)) : Tbl (Tbl WRow) := l.upd wl fun t => rows.foldl (fun t r => Tbl.write {} t r.1 r.2) t
  { s.updCrew crew fun c => { c with wls := put c.wls } with
    pairs := s.pairs.map fun (q : Nat × Pair) =>
      if q.1 / 16 = crew then (q.1, { q.2 with wls := put q.2.wls, wlsCp := put q.2.wlsCp }) else q }

/-- A loop waits on a migrating leaf or a remote owner. -/
def State.waitCupel (s : State) (core : Nat) (o : CupelOp) (x : XFault) : State :=
  s.setCupelHead core { o with since := waitSince o.since o.remote x s.now, remote := x.isRemote }

/-- An operation has waited in vain: its page faults, at the column or the row where it stands (R108, R109, R142, R143). -/
def State.lateCupel (s : State) (core : Nat) (o : CupelOp) : State :=
  s.endCupel core o (match o.kind with
    | .topk wl => let f := rowFlags (s.liveRows o wl); cupelWord o.dross o.next f.1 f.2 1
    | _ => cupelWord 0 o.next false false 1)

/-- The page on which a loop goes on after the columns it has staged (R132). -/
def CupelOp.keyPages (o : CupelOp) (done : Nat) (ys : List Phys) : List HeldPage :=
  let column (j : Nat) : DWord := keyPtr o.block + BitVec.ofNat 64 (j * blockWord o.block 10)
  match ys.getLast? with
  | none => o.pages
  | some y => holdPage false ((keyRuns (bForm (blockPair o.block)) y.fmt (blockS o.block) (column (done - 1))).getLastD 0)
      (column done) y

/-- Complete a TOPK loop (R143 to R148). One that waits has offered the columns it has staged, and goes on with the next
(R147: successive loops over one list give the largest of the union). -/
def State.finishTopk (s : State) (core : Nat) (o : CupelOp) (wl : Nat) : State :=
  let b := o.block
  let k := field (blockWord b 7) 0 5
  let n := blockWord b 5 - o.next
  let rows := s.liveRows o wl
  if s.kMismatch o wl then s.endCupel core o (cupelWord 0 0 (rowFlags rows).1 (rowFlags rows).2 2)
  else
    let mem := (blockWord b 7).testBit 8
    let staged := if mem then s.stageAll o core n o.next else ([], [], none)
    match staged.2.2 with
    | some .poison => s.poisonCupel core o 0
    | e =>
      let done := if mem then staged.1.length else n
      let form := bForm (blockPair b)
      let d : LoopData :=
        { pair := blockPair b, steps := blockS b, rows := o.aRows, count := done,
          cols := fun j => if mem then staged.1.getD j ⟨[], [], []⟩
            else ((s.core core).bufferOf o).column form (blockS b) (blockWord b 3 + j * blockWord b 4) }
      let (rounds, dross, out) := d.topk (blockWord b 6 + o.next)
        (rows.map fun r => if r.entries.isEmpty then { r with k := k } else r)
      let s1 := ((s.commitFills (engineAgent o.ctx) staged.2.1).writeList o.crew wl
        ((List.range out.length).zip (out.map Row.close))).chargeArray o (rounds * stepClocks (blockPair b))
      let flags := rowFlags out
      let word (code : Nat) : DWord := cupelWord (o.dross + dross) (o.next + done) flags.1 flags.2 code
      match e with
      | some (.wait x) => s1.waitCupel core { o with
          next := o.next + done, dross := o.dross + dross, since := if done = 0 then o.since else none,
          pages := o.keyPages (o.next + done) staged.2.1 } x
      | none => s1.endCupel core o (word 0)
      | some .fault => s1.endCupel core o (word 1)
      | some _ => s1.endCupel core o (word 6)

/-- Complete a DENSE or BIN loop (R141): an issuer that does not own the tile loses it. -/
def State.finishDense (s : State) (core : Nat) (o : CupelOp) (and : Bool) : State :=
  if (s.core core).tileOwner ≠ some (o.crew, o.team) then s.endCupel core o (cupelWord 0 0 false false 3)
  else
    let s1 := s.updCore core fun k => { k with tile := k.dense o and, tileInt := intPair (blockPair o.block) }
    (s1.chargeArray o (blockS o.block * stepClocks (blockPair o.block))).endCupel core o (cupelWord 0 0 false false 0)

/-- The columns of a WBLOAD, from column `j` on, into the buffer (R139, R339), and into what the later loops of its crew
keep of another core's buffer (R154). -/
def State.loadColumns (core : Nat) (o : CupelOp) :
    Nat → List HeldPage → Nat → State → State × Option (StageStop × Nat × List HeldPage)
  | 0, _, _, s => (s, none)
  | n + 1, held, j, s =>
    let form := blockPair o.block
    let steps := blockS o.block
    let ps := run (loadColumn o.block j) (columnData form steps)
    match s.stage o.ctx core held (fun y => y.fmt == 0) ps with
    | .error e => (s, some (e, j, held))
    | .ok bs =>
      let held' := match bs.getLast? with
        | none => []
        | some b => holdPage false (ps.getLastD 0) (loadColumn o.block (j + 1)) b.2
      let raw := bs.map (·.1)
      let col := (colOf form steps raw).withNorms form
      let bytes := raw ++ col.norms.flatMap fun w => bytesOf 4 w.toNat
      let s1 := (s.commitFills (engineAgent o.ctx) (bs.map (·.2))).updCore core fun k =>
        let put (t : Tbl Byte) : Tbl Byte := Tbl.writeRun 0 t (blockWord o.block 3 + j * blockWord o.block 4) bytes
        { k with weight := put k.weight,
                 cupel := k.cupel.map fun q => if q.crew = o.crew then { q with weight := q.weight.map put } else q }
      State.loadColumns core o n held' (j + 1) s1

/-- Complete a WBLOAD; one that waits goes on from its column. -/
def State.finishLoad (s : State) (core : Nat) (o : CupelOp) : State :=
  let n := field (blockWord o.block 5) 0 16
  match State.loadColumns core o (n - o.next) o.pages o.next s with
  | (s1, none) => s1.endCupel core o (cupelWord 0 0 false false 0)
  | (s1, some (.wait r, j, held)) => s1.waitCupel core { o with next := j, pages := held, since := if j = o.next then o.since else none } r
  | (s1, some (.fault, j, _)) => s1.endCupel core o (cupelWord 0 j false false 1)
  | (s1, some (.format, _)) => s1.endCupel core o (cupelWord 0 0 false false 6)
  | (s1, some (.poison, _)) => s1.poisonCupel core o 0

/-! ### Epilogues (R142, R200, R342) -/

/-- A tile cell on pages of a format without block scales (R102, R142, R195): FP32 or INT32 bits to the element. -/
def cellElem (int sat : Bool) (fmt : Nat) (c : Word) : Nat :=
  let v := c.toInt
  let x := f32.decode c.toNat
  match pageInt fmt with
  | some (sg, w) => if int then intoInt sg w sat v else x.toInt .rn sg w
  | none =>
    let tern : Int := clamp (-1) 1 (if int then v else signed 32 (x.toInt .rn true 32))
    match fmt with
    | 0x0D => tern2Code tern
    | 0x0E => (tern + 1).toNat
    | 0x0F => if (if int then v == 0 else x.isZero) then 0 else 1
    | _ => match pageFloat fmt with
      | some f => f.encode .rn sat (if int then ofInt v else x)
      | none => c.toNat

/-- Why an epilogue's row is not written. -/
inductive RowStop where
  | fault | format
  | wait (x : XFault)
  deriving DecidableEq, Repr

/-- The translation of a byte of a row. -/
def State.rowByte (s : State) (ctx : Nat) (held : List HeldPage) (p : DWord) : Except RowStop Phys :=
  match (heldPlace held true p).elim (s.translate (engineAgent ctx) .store p) .ok with
  | .ok y => .ok y
  | .error (.cause _ _) => .error .fault
  | .error x => .error (.wait x)

/-- The bytes of one row of 64 elements stored at a pointer (R142): where each lies and what it takes. -/
def State.rowBytes (s : State) (ctx : Nat) (held : List HeldPage) (int sat : Bool) (p : DWord)
    (cells : List Word) : Except RowStop (List (Phys × List HomeByte)) := do
  let first ← s.rowByte ctx held p
  let fmt := first.fmt
  let geom := first.geom
  let place (o : Nat) : Except RowStop Phys := do
    let y ← s.rowByte ctx held (p + BitVec.ofNat 64 o)
    if y.fmt != fmt || y.geom != geom then .error .format
    .ok y
  let whole (o n : Nat) (v : Nat) : Except RowStop (List (Phys × List HomeByte)) :=
    (List.range n).mapM fun i => (place (o + i)).map fun y => (y, [{ addr := y.addr, bits := 0xFF, val := BitVec.ofNat 8 (v >>> (8 * i)) }])
  if fmt = 1 || fmt = 2 || fmt = 0x1B then .error .format
  else if fmt = 0 then
    if p.toNat % 4 ≠ 0 then .error .fault
    ((List.range 64).mapM fun e => whole (4 * e) 4 (cells.getD e 0).toNat).map List.flatten
  else if blockScaled fmt then
    let n := geomSize geom
    let bb := blockBytes fmt geom
    let per := blocksPer fmt geom
    let w := fmtBits fmt
    if n > 64 || p.toNat % 4096 % bb ≠ 0 || per * bb < p.toNat % 4096 + 64 * w / 8 then .error .format
    ((List.range (64 / n)).mapM fun k => do
      let vals := (List.range n).map fun i =>
        let c := cells.getD (n * k + i) 0
        if int then ofInt c.toInt else f32.decode c.toNat
      let (scale, codes) : Nat × List Nat := match pageFloat fmt with
        | some f => encodeBlock f vals
        | none => (0, [])
      let packed := (List.range n).foldl (fun a i => a + codes.getD i 0 <<< (w * i)) 0
      let data ← whole (bb * k) bb packed
      let j := p.toNat % 4096 / bb + k
      let sc ← place (per * bb + j - p.toNat % 4096)
      let last : Phys × List HomeByte := (sc, [{ addr := sc.addr, bits := 0xFF, val := BitVec.ofNat 8 scale }])
      .ok (data ++ [last])).map List.flatten
  else
    let w := fmtBits fmt
    if 8 ≤ w && p.toNat % (w / 8) ≠ 0 then .error .fault
    ((List.range 64).mapM fun e =>
      let v := cellElem int sat fmt (cells.getD e 0)
      let o := elemOffset fmt geom 1 e
      let i := elemSlot fmt geom e
      if fmt = 0x0E then (place o).map fun y =>
        [(y, [{ addr := y.addr, bits := 0xFF, val := BitVec.ofNat 8 v, digit := some i }])]
      else if w < 8 then (place o).map fun y =>
        [(y, [{ addr := y.addr, bits := BitVec.ofNat 8 ((2 ^ w - 1) <<< (w * i)), val := BitVec.ofNat 8 (v <<< (w * i)) }])]
      else whole o (w / 8) v).map List.flatten

/-- An engine of a die writes the bytes of a row at their homes. -/
def State.writeRow (s : State) (ctx die : Nat) (bs : List (Phys × List HomeByte)) : State :=
  bs.foldl (fun u b => (b.2.foldl (fun u h => u.partyWrite die b.1 h) u).commitFill (engineAgent ctx die) b.1) s

/-- The row that an epilogue stores, as words of the tile. -/
def Core.rowCells (k : Core) (r : Nat) : List Word := (List.range 64).map fun j => Tbl.read 0 k.tile (cellKey r j)

/-- Leave the rows of an epilogue from `r` on unspecified (R373): byte by byte the old value, or the one it would have
written. -/
def State.spoilRows (s : State) (core : Nat) (k : Core) (o : CupelOp) (ptrs : List DWord) (r : Nat) : State :=
  (List.range (o.m - r)).foldl (fun u i =>
    let p := ptrs.getD (r + i) 0
    if p = 0 then u
    else match u.rowBytes o.ctx [] k.tileInt o.sat p (k.rowCells (r + i)) with
      | .error _ => u
      | .ok bs =>
        let (n, v) := u.takeFreeN bs.length
        v.writeRow o.ctx (dieOfCore core) (((List.range bs.length).zip bs).filterMap fun b =>
          if Config.freeBool (n + b.1) then some b.2 else none)) s

/-- The page of a row at `p` on which an epilogue goes on with its next row at `q` (R132). -/
def rowPages (p q : DWord) (bs : List (Phys × List HomeByte)) : List HeldPage :=
  match bs.find? fun b => (p + BitVec.ofNat 64 (b.1.addr % 65536) - BitVec.ofNat 64 (p.toNat % 65536)).toNat / 65536 == q.toNat / 65536 with
  | none => []
  | some b => holdPage true (p + BitVec.ofNat 64 (b.1.addr % 65536) - BitVec.ofNat 64 (p.toNat % 65536)) q b.1

/-- The rows of a memory epilogue, from row `r` on. -/
def State.epiRows (core : Nat) (o : CupelOp) (ptrs : List DWord) :
    Nat → List HeldPage → Nat → State → State × Option (RowStop × Nat × List HeldPage)
  | 0, _, _, s => (s, none)
  | n + 1, held, r, s =>
    let p := ptrs.getD r 0
    if p = 0 then State.epiRows core o ptrs n held (r + 1) s
    else
      let k := s.core core
      match s.rowBytes o.ctx held k.tileInt o.sat p (k.rowCells r) with
      | .error e => (s, some (e, r, held))
      | .ok bs =>
        let sp (die : Nat) : List (Nat × Nat) := bs.map fun b => (b.1.readAddr die, 1)
        State.epiRows core o ptrs n (rowPages p (ptrs.getD (r + 1) 0) bs) (r + 1) ((s.joinSpans ⟨o.crew, o.team, .team⟩ sp).writeRow o.ctx (dieOfCore core) bs)

/-- Complete a memory epilogue; one that waits goes on from its row. -/
def State.finishEpiMem (s : State) (core : Nat) (o : CupelOp) : State :=
  match s.crews.get? o.crew with
  | none => s
  | some c =>
    let scratch := (s.launches.get? o.launch).elim 0 (·.scratch)
    match s.rowPtrs c scratch o with
    | none => s.poisonCupel core o o.next
    | some ptrs =>
      match State.epiRows core o ptrs (o.m - o.next) o.pages o.next s with
      | (s1, none) => s1.endCupel core o (cupelWord 0 0 false false 0)
      | (s1, some (.wait q, r, held)) => s1.waitCupel core { o with next := r, pages := held, since := if r = o.next then o.since else none } q
      | (s1, some (.fault, r, _)) => s1.endCupel core o (cupelWord 0 r false false 1)
      | (s1, some (.format, r, _)) => s1.endCupel core o (cupelWord 0 r false false 6)

/-- The registers that a register epilogue writes: value x goes to lane x mod L of register B + x / L (R342). -/
def Team.epiWrite (t : Team) (nlanes reg : Nat) (vals : List Word) : Team :=
  (List.range vals.length).foldl (fun u x => u.writeLanes (reg + x / nlanes) [(x % nlanes, vals.getD x 0)]) t

/-- A tile value as a register epilogue delivers it: converted once, and with .SAT an infinity as the largest finite value
(R191, R200, R342). -/
def epiValue (int : Bool) (td : Nat) (sat : Bool) (v : Word) : Word :=
  if !int && td = 10 && sat && (match f32.decode v.toNat with | .inf _ => true | _ => false) then
    BitVec.ofNat 32 (f32.encode .rn true (f32.decode v.toNat))
  else BitVec.ofNat 32 (convert (if int then 5 else 10) td .rn sat v.toNat)

/-- Complete a register epilogue. -/
def State.finishEpiReg (s : State) (core : Nat) (o : CupelOp) (td reg : Nat) : State :=
  let k := s.core core
  let nlanes := 32 * (s.launches.get? o.launch).elim 1 (·.strands)
  let vals := (List.range (64 * o.m)).map fun x => epiValue k.tileInt td o.sat (Tbl.read 0 k.tile x)
  (s.updCopies ⟨o.crew, o.team, .team⟩ fun t => t.epiWrite nlanes reg vals).endCupel core o
    (cupelWord 0 0 false false 0)

/-- Finish the operation that the engine performs. -/
def State.driveCupel (s : State) (core : Nat) (o : CupelOp) : State :=
  let lost := (s.core core).tileOwner ≠ some (o.crew, o.team)
  match o.kind with
  | .wbload => s.finishLoad core o
  | .dense => s.finishDense core o false
  | .bin and => s.finishDense core o and
  | .topk wl => s.finishTopk core o wl
  | .epiMem => if lost then s.endCupel core o (cupelWord 0 0 false false 3) else s.finishEpiMem core o
  | .epiReg td reg => if lost then s.endCupel core o (cupelWord 0 0 false false 3) else s.finishEpiReg core o td reg

/-- The tile of an operation's team: in its crew's image until the engine takes it back, or the core's while the team owns
it. -/
def State.tileCore (s : State) (core : Nat) (o : CupelOp) : Option Core :=
  let k := s.core core
  match (s.crews.get? o.crew).bind (·.tile) with
  | some (t, int, cells) => if t = o.team then some { k with tileInt := int, tile := cells } else none
  | none => if k.tileOwner = some (o.crew, o.team) then some k else none

/-- The operation of a halted team, or of a closed context, completes with CANCELLED: its list rows, its tile or its rows in
memory are unspecified within R373 (R155). -/
def State.cancelHead (s : State) (core : Nat) (o : CupelOp) : State :=
  let s1 := s.spoil core o
  let s2 := match o.kind, s1.crews.get? o.crew, s1.tileCore core o with
    | .epiMem, some c, some k =>
      s1.spoilRows core k o ((s1.rowPtrs c ((s1.launches.get? o.launch).elim 0 (·.scratch)) o).getD []) o.next
    | _, _, _ => s1
  s2.endCupel core o (cupelWord 0 0 false false 4)

/-- Whether a loop waits for rows that its retired team can push no more (log 17): it completes with CANCELLED. -/
def State.bereft (s : State) (o : CupelOp) : Bool :=
  o.started && o.hunger ≠ 0 && !(s.team? ⟨o.crew, o.team, .team⟩).any (!·.retired)

/-- CUPEL_COMPLETE (R152, R155). -/
def execCupelComplete (core : Nat) (s0 : State) : Host.Outcome State Fault Refusal :=
  match (s0.core core).cupel with
  | [] => absent s0
  | o :: _ =>
    let s := s0.retakeTile core o
    if o.cancelled || s0.bereft o then .next (s0.cancelHead core o)
    else if o.bad then .next (s.poisonCupel core o 0)
    else if !o.started || o.hunger ≠ 0 || (o.since.isSome && (!o.remote || overdue o.since true s.now)) then absent s0
    else .next (s.driveCupel core o)

end Sys2Proof.Machine
end

