-- ==== Sys2Proof/Machine/Client.lean ====
section
/-! DEFINITION. What the packet processors and the resident service do in a context's memory (R42, R48), the completion
record and the notifications (R49 to R51), responses (R31), and the end of a context's close (R36). -/

namespace Sys2Proof

/-- A malformed header, or a body shorter than its table. -/
def Request.malformed (r : Request) (len : Nat) : Bool :=
  r.status ≠ 0 || r.length.toNat ≠ r.body.length || 4080 < r.body.length || r.body.length < len

/-- Bytes of the body. -/
def Request.num (r : Request) (o n : Nat) : Nat := Machine.le r.body o n
def Request.ptr (r : Request) (o : Nat) : DWord := BitVec.ofNat 64 (r.num o 8)

end Sys2Proof

namespace Sys2Proof.Machine

open Sys2Proof

/-- A SHAKE256-512 digest (R22, R23, R25). -/
def digest64 (bs : List Byte) : List Byte := (List.range 64).map fun i => (Config.shake256 bs).getD i 0

/-! ### Accesses of a context -/

/-- A load or store of a context that no core makes (R42, R47), and an engine access of it (R48). -/
def plainAgent (ctx : Nat) : Agent := { ctx := ctx, core := none }

/-- The physical pieces of a range, or how the first faulting page fails. -/
def State.ctxPieces (s : State) (g : Agent) (k : Access) (p : DWord) (n : Nat) :
    Except (XFault × DWord) (List (Phys × Nat)) :=
  (rangePieces p n).mapM fun pc => match s.translate g k pc.1 with
    | .ok x => .ok (x, pc.2)
    | .error e => .error (e, pc.1)

/-- Read `n` bytes; the translations are committed (R104). A hub die reads copy 0 of a replicated page (R110). -/
def State.ctxRead (s : State) (g : Agent) (p : DWord) (n : Nat) : Except (XFault × DWord) (List Byte × State) :=
  match s.ctxPieces g .load p n with
  | .error e => .error e
  | .ok ps => .ok (ps.flatMap fun x => s.readBytes x.1.addr x.2, s.commitFills g (ps.map (·.1)))

/-- Write bytes at a translated piece; what the copies of a replicated page have still to take of earlier stores there comes
first (R124). -/
def State.writePiece (s : State) (x : Phys) (bs : List Byte) : State :=
  x.storeAddrs.foldl (fun u a => u.writeBytes a bs)
    (if x.pm then s.spreadAt fun a => x.addr ≤ a && a < x.addr + bs.length else s)

/-- Write bytes at translated pieces. -/
def State.writePieces : State → List (Phys × Nat) → List Byte → State
  | s, [], _ => s
  | s, x :: xs, bs => (s.writePiece x.1 (bs.take x.2)).writePieces xs (bs.drop x.2)

/-- Write bytes, when every page allows it. -/
def State.ctxWrite (s : State) (g : Agent) (p : DWord) (bs : List Byte) : Except (XFault × DWord) State :=
  match s.ctxPieces g .store p bs.length with
  | .error e => .error e
  | .ok ps => .ok ((s.commitFills g (ps.map (·.1))).writePieces ps bs)


/-- Whether a range lies in a valid region with W set (R38, R49). -/
def State.inWritable (s : State) (ctx : Nat) (p : DWord) (len : Nat) : Bool :=
  let q := p + BitVec.ofNat 64 (len - 1)
  let r := s.region ctx (rid p)
  canonical p && canonical q && rid q == rid p && regionV r && regionW r && regionBase r ≤ vpage p &&
    vpage q ≤ regionLimit r

/-- Why an access waits, when it does: for how long at most (R108, R109). -/
def XFault.patience : XFault → Option Nat
  | .migrating _ => some 34000
  | .unreachable _ => some 340000
  | .cause .. => none

/-- A write of the processors to a context: one that faults is skipped (R40); one that meets a migrating leaf or an owner
that does not answer waits, for no longer than it may, and later writes of the context wait behind it (R108, R109; log 31). -/
def State.postWrite (s : State) (w : PostedWrite) : State :=
  if s.posted.any fun o => o.ctx == w.ctx then { s with posted := s.posted ++ [w] }
  else if w.tried && overdue (some w.since) w.remote s.now then s
  else match s.ctxWrite (plainAgent w.ctx) w.at' w.bytes with
    | .ok s' => s'
    | .error (x, _) =>
      if x.patience.isNone then s
      else { s with posted := s.posted ++ [{ w with
        since := (waitSince (if w.tried then some w.since else none) w.remote x s.now).getD s.now,
        remote := x.isRemote, tried := true }] }

/-- A write that is due now. -/
def State.tryWrite (s : State) (ctx : Nat) (p : DWord) (bs : List Byte) : State :=
  s.postWrite { ctx := ctx, at' := p, bytes := bs, since := s.now, remote := false }

/-- The writes that wait are tried again, in order. -/
def State.repost (s : State) : State := s.posted.foldl State.postWrite { s with posted := [] }

/-! ### Packets (R44, R46, R48) -/

/-- A bit field of a packet, numbered as R44, R46 and R48 number it. -/
def Packet.num (p : Packet) : Nat := natOf p.bytes
def Packet.field (p : Packet) (lo n : Nat) : Nat := Machine.field p.num lo n
def Packet.flag (p : Packet) (i : Nat) : Bool := p.num.testBit i
def Packet.ptr (p : Packet) (lo : Nat) : DWord := BitVec.ofNat 64 (p.field lo 64)

def Packet.type (p : Packet) : Nat := p.field 0 8
def Packet.pri (p : Packet) : Nat := p.field 8 2
def Packet.b (p : Packet) : Bool := p.flag 10
def Packet.af (p : Packet) : Bool := p.flag 11
def Packet.rf (p : Packet) : Bool := p.flag 15
def Packet.fs (p : Packet) : Bool := p.flag 19
def Packet.co (p : Packet) : Bool := p.flag 20
def Packet.nt (p : Packet) : Bool := p.flag 21
def Packet.ig (p : Packet) : Bool := p.flag 22
def Packet.te (p : Packet) : Bool := p.flag 23
def Packet.ph (p : Packet) : Bool := p.flag 24
def Packet.tag (p : Packet) : Nat := p.field 32 32
def Packet.recordPtr (p : Packet) : DWord := p.ptr 64

/-- A packet's key in the table: its queue and its index. -/
def packetKey (queue index : Nat) : Nat := queue * 2 ^ 64 + index

/-- Write fields of the completion record, each at its offset, in order (R49, R50). -/
def State.record (s : State) (p : Packet) (ws : List (Nat × Nat × Nat)) : State :=
  if p.recordPtr = 0 then s
  else ws.foldl (fun u w =>
    u.tryWrite p.ctx (p.recordPtr + BitVec.ofNat 64 w.1) (bytesOf w.2.1 w.2.2)) s

/-- The 32 bytes of a notification (R51). -/
def notification (p : Packet) (state : Nat) (status : Nat) (now : DWord) : List Byte :=
  bytesOf 8 p.index ++ bytesOf 4 (p.queue + 65536 * p.ctx) ++ bytesOf 4 p.tag ++ bytesOf 4 state ++ bytesOf 4 status ++
    bytesOf 8 now.toNat

/-- Send a notification to the endpoint registered for the packet's context, if there is one (R51). -/
def State.notify (s : State) (p : Packet) (state status : Nat) : State :=
  match p.nt, (s.contexts.get? p.ctx).bind (·.notify) with
  | true, some e => s.send (.notification e (notification p state status s.now))
  | _, _ => s

/-! ### Requests and responses (R31 to R33) -/

/-- Whether an Ultra Ethernet port is up: requests, RDMA and notify writes arrive by them (R14). -/
def State.uecUp (s : State) : Bool := s.uec.any fun e => e.2 == .up

/-- Whether the resident service has cores to run on: service cores 4j to 4j + 3 follow hub die 12 + j (R8); in the recovery
state the boot ROM's own stage serves (R24). -/
def State.serviceRuns (s : State) : Bool :=
  s.mod.service == .recovery || [12, 13, 14, 15].any fun d => (s.die d).trained

/-- The header of a response. -/
def header (r : Request) (code status len : Nat) (ctx : BitVec 16) : List Byte :=
  bytesOf 2 code ++ bytesOf 2 status ++ bytesOf 2 len ++ bytesOf 2 ctx.toNat ++ bytesOf 8 r.reqid.toNat

/-- Answer a request. -/
def State.respond (s : State) (r : Request) (code status : Nat) (body : List Byte) : State :=
  s.send (.response r.client (header r code status body.length r.ctx) body)

/-- A request reaches the service, which runs; a send of a form that R14 refuses is turned away, and in the recovery state
READ_HALLMARK alone is served (R24, R33). -/
def State.hear (code : Nat) (r : Request) (s : State) (k : Host.Outcome State Fault Refusal) :
    Host.Outcome State Fault Refusal :=
  if s.mod.service = .off || !s.uecUp || !s.serviceRuns then absent s
  else if !r.form.taken then .next (s.send .rdmaRefused)
  else if s.mod.service = .recovery && code ≠ 0xC then .next (s.respond r code 6 [])
  else k

/-! ### The end of a close (R36) -/

/-- Whether a context still has packets before DONE, launches, or records to be written. -/
def State.busyContext (s : State) (ctx : Nat) : Bool :=
  (s.posted.any fun w => w.ctx == ctx) ||
    (s.packets.any fun e => e.2.ctx == ctx && e.2.state != .confirming) || s.launches.any fun e => e.2.ctx == ctx

/-- The snapshot is released when its owner goes (R170). -/
def State.dropSnapshot (s : State) (session : Nat) : State :=
  { s with snapshot := match s.snapshot with
    | some x => if x.owner = session then none else some x
    | none => none }

/-- What the engines hold of a context completes with CANCELLED (R155, R335): the operations that they have accepted, those
that an image carries, which the engines of the core that its crew left end, and the copies that wait for slices. -/
def State.cancelContext (s : State) (ctx : Nat) : State :=
  let copies (l : List CopyOp) : List CopyOp := l.map fun o => if o.ctx = ctx then { o with cancelled := true } else o
  let loops (l : List CupelOp) : List CupelOp := l.map fun o => if o.ctx = ctx then { o with cancelled := true } else o
  let s1 := (s.crews.filter fun c => c.2.ctx == ctx).foldl (fun u c =>
    (u.updCore c.2.core fun k => { k with cupel := k.cupel ++ c.2.cupel }).updCrew c.1 fun c =>
      { c with cupel := [], copies := copies c.copies }) s
  { s1 with cores := s1.cores.map fun e => (e.1, { e.2 with copies := copies e.2.copies, cupel := loops e.2.cupel }) }

/-- A context ends: every page is unmapped, its queues, sessions, nodes and exposures go, its frames come back, and the
close is answered with the energy total (R36, R68). -/
def State.endContext (s : State) (ctx : Nat) : State :=
  match s.contexts.get? ctx with
  | none => s
  | some c =>
    let s1 := ((s.sessions.filter fun e => e.2.ctx == ctx).foldl (fun u e => u.dropSnapshot e.1) s).cancelContext ctx
    let s2 : State := { s1 with
      contexts := s1.contexts.del ctx, queues := s1.queues.filter fun e => e.2.ctx != ctx,
      packets := s1.packets.filter fun e => e.2.ctx != ctx, nodes := s1.nodes.filter fun e => e.2.ctx != ctx,
      sessions := s1.sessions.filter fun e => e.2.ctx != ctx,
      exposures := s1.exposures.filter fun e => e.2.ctx != ctx,
      ingots := (s1.ingots.filter fun (i : Ingot) => i.ctx != ctx).map fun i =>
        { i with contexts := i.contexts.filter (· != ctx) },
      owners := s1.owners.filter fun e => e.2 != ctx, freeFrames := s1.freeFrames ++ c.frames,
      cores := s1.cores.map fun e => (e.1, { e.2 with tlb := e.2.tlb.filter fun t => t.ctx != ctx }) }
    let lost := s2.inbounds.filter fun o => (s2.exposures.get? o.handle.toNat).isNone
    let s3 := lost.foldl (fun u _ => u.send .rdmaError)
      { s2 with inbounds := s2.inbounds.filter fun o => (s2.exposures.get? o.handle.toNat).isSome }
    match c.closeReq with
    | none => s3
    | some r => s3.respond r 2 0 (bytesOf 8 c.energy.toNat)

/-- A closing context whose last packet has reached DONE ends (R36). -/
def State.closeCheck (s : State) (ctx : Nat) : State :=
  match (s.contexts.get? ctx).bind (·.closing) with
  | some _ => if s.busyContext ctx then s else s.endContext ctx
  | none => s

/-! ### DONE (R50) -/

/-- The packet's release: what its work wrote is made visible, and what its work observed (R45, R119, R121): teams write
their dirty lines back when they retire and hub copies write at the owner, so the clusters of the cores it used are left, and
the copies of replicated pages, which take every store that is pending (R124). -/
def State.releaseCores (s : State) (cores : List Nat) : State :=
  (cores.foldl (fun u c => [0, 1, 2, 3].foldl (fun u i => u.writeBack (4 * c + i) fun _ => true) u) s).spread fun _ => true

/-- The acquire of a packet: no cluster keeps a line that an earlier write may have changed, and every die sees memory as it
is (R45). -/
def State.acquireAll (s : State) : State := s.renewAll

/-- A packet reaches DONE, and CONFIRMED with it when it used no core. -/
def State.packetDone (s : State) (key : Nat) (status : Nat) (detail : DWord) (together : Bool) : State :=
  match s.packets.get? key with
  | none => s
  | some p =>
    let ws := [(8, 8, detail.toNat), (4, 4, status), (16, 8, s.now.toNat)] ++
      (if together then [(24, 8, s.now.toNat)] else []) ++ [(0, 4, if together then 2 else 1)]
    let s1 := (s.record p ws).notify p (if together then 2 else 1) status
    let s2 := { s1 with packets := if together then s1.packets.del key
      else s1.packets.put key { p with state := .confirming, status := BitVec.ofNat 32 status, detail := detail } }
    s2.closeCheck p.ctx

end Sys2Proof.Machine
end

