-- ==== Sys2Proof/Machine/Queues.lean ====
section
/-! DEFINITION. Pushes to and pops from the queue registers (R88 to R90, R223, R262). -/

namespace Sys2Proof.Machine

open Sys2Proof

/-- Whether a role makes a team, or a chaser, the producer by QPUSH or the consumer by QPOP (R88, R332). -/
def mayPush (role : BitVec 3) (ch : Bool) : Bool :=
  match role.toNat with | 1 => ch | 2 | 5 | 7 => !ch | _ => false
def mayPop (role : BitVec 3) (ch : Bool) : Bool :=
  match role.toNat with | 2 => ch | 1 | 4 | 7 => !ch | _ => false

/-- Whether an empty queue's producer can push nothing more (R89): a stopped chaser, or a copy engine with no operation
outstanding for the team. -/
def Team.starved (t : Team) (role : BitVec 3) : Bool :=
  match role.toNat with
  | 1 => t.chaser.run != .running
  | 4 => !t.engines.any fun e => e.copy && !e.done
  | _ => false

/-- The entries that move for a copy of a pair that is not the leading one come from what the leading copy popped, and
its pushes move nothing (R355). -/
def Exe.trails (x : Exe) : Bool := x.p.kind == .trail

/-- Take entries from a queue; a leading copy's pops go to both copies (R355). -/
def popQueue (x : Exe) (q n : Nat) (s : State) : List DWord × State :=
  match s.team? x.p with
  | none => ([], s)
  | some t =>
    let k := t.queue q
    let es := k.entries.take n
    let s1 := s.updTeam x.p fun t =>
      let u := t.setQueue q { k with entries := k.entries.drop n }
      if k.role = 4 then u.feedStatus else u
    (es, if x.trails || (x.pair? s).isNone then s1
      else s1.updPair x.p fun r =>
        let tq := r.trail.queue q
        { r with trail := r.trail.setQueue q { tq with entries := tq.entries ++ es },
                 popped := r.popped.put q (r.popped.read [] q ++ es) })

/-- The ranges of memory that the team's accepted loops still read (R90, R125). -/
def Exe.feedPieces (x : Exe) (s : State) : List (Nat × Nat) :=
  (s.core x.crew.core).cupel.flatMap fun o => match o.kind with
    | .topk _ => if o.crew = x.p.crew ∧ o.team = x.p.team then x.keyPieces s o.block else []
    | _ => []

/-- Append entries to a queue; a push to the A-row feed is a fork (R90, R125), and the engine that waits on it takes the
entries at once (R137). -/
def pushQueue (x : Exe) (q : Nat) (vals : List DWord) (s0 : State) : State :=
  if x.trails then s0
  else
    let s := if (x.team.queue q).role = 5 then fork x (x.feedPieces s0) s0 else s0
    let s1 := s.updTeam x.p fun t => let k := t.queue q
      t.setQueue q { k with entries := k.entries ++ vals }
    let s2 := if (x.pair? s).isNone then s1
      else s1.updPair x.p fun r => { r with pushed := r.pushed.put q (r.pushed.read 0 q + vals.length) }
    if (x.team.queue q).role = 5 then s2.feedCupel x.crew.core else s2

/-- Entries a queue of the executing party holds, and how many it has room for. -/
def Exe.held (x : Exe) (s : State) (q : Nat) : Nat :=
  match s.team? x.p with | none => 0 | some t => (t.queue q).entries.length
def Exe.room (x : Exe) (s : State) (q : Nat) : Nat := if x.trails then 64 else 32 - x.held s q

/-- The queue and the data field of QPUSH and QPOP. -/
def Exe.pushField (x : Exe) : Nat := base x.parts.d
def Exe.popField (x : Exe) : Nat := base x.parts.a

/-- QUEUE_BINDING of a push or pop (R88, R262). -/
def pushCheck (x : Exe) (_ : State) : Option Cause :=
  if mayPush (x.team.queue x.pushField).role x.ch then none else some .queueBinding
def popCheck (x : Exe) (_ : State) : Option Cause :=
  if mayPop (x.team.queue x.popField).role x.ch then none else some .queueBinding

/-- The lanes of a pass. -/
def Exe.passLanesOf (x : Exe) (strand : Nat) : List Nat := x.lanes.filter fun l => l / 32 == strand

/-- The passes still to move. -/
def Exe.passesLeft (x : Exe) : List Nat := x.passes.drop x.cl.moved

/-- Run the passes of a lane-distributed form in order; the first that cannot move holds the slot. -/
def runPasses (x : Exe) (move : Nat → State → Except Stop State) : List Nat → State → State × Option Stop
  | [], s => (s, none)
  | g :: gs, s => match move g s with
    | .error k => (s, some k)
    | .ok s1 => runPasses x move gs (s1.updClause x.p fun c => { c with moved := c.moved + 1 })

/-- Remember the entries that a lane-distributed form has moved, until it is complete. -/
def noteMoved (x : Exe) (es : List DWord) (s : State) : State := s.updClause x.p fun c => { c with taken := c.taken ++ es }

/-- The entries that the instruction has moved so far. -/
def Exe.movedSoFar (x : Exe) (s : State) : List DWord :=
  match s.team? x.p with
  | none => []
  | some t => ((t.thread x.p.kind).issue.map (·.taken)).getD []

/-- A push or pop that traps is not performed (R89, R223): what a lane-distributed pop has taken goes back to the front of
its queue, and what a push has put there and nothing has popped goes. -/
def unmove (x : Exe) (push : Bool) (q : Nat) (s : State) : State :=
  let es := x.movedSoFar s
  if es.isEmpty then s
  else
    let n := es.length
    let s1 := s.updClause x.p fun c => { c with moved := 0, taken := [] }
    if push then
      if x.trails then s1
      else
        let k := min n (x.held s1 q)
        let s2 := s1.updTeam x.p fun t => let u := t.queue q
          t.setQueue q { u with entries := u.entries.take (u.entries.length - k) }
        if (x.pair? s2).isNone then s2
        else s2.updPair x.p fun r => { r with pushed := r.pushed.put q (r.pushed.read 0 q - k) }
    else
      let s2 := s1.updTeam x.p fun t =>
        let u := t.queue q
        let all := es ++ u.entries
        { t.setQueue q { u with entries := all.take 32 } with copyStatus := all.drop 32 ++ t.copyStatus }
      if x.trails || (x.pair? s2).isNone then s2
      else s2.updPair x.p fun r =>
        let tq := r.trail.queue q
        let old := r.popped.read [] q
        { r with trail := r.trail.setQueue q { tq with entries := tq.entries.take (tq.entries.length - n) },
                 popped := r.popped.put q (old.take (old.length - n)) }

/-- Whether the leading copy took QUEUE_STARVED at this instruction: the trailing copy takes it there too (R371). -/
def Exe.starvedLead (x : Exe) (s : State) : Bool :=
  x.trails && (s.pair x.p).any fun q => (q.traps.drop q.trapsTaken).head?.any fun e =>
    e.1 ≤ q.trailDone && e.2.cause == .queueStarved && e.2.tpc == x.cl.hdr && e.2.pos == x.cl.pos

/-- A copy of a pair takes QUEUE_STARVED: the trailing copy is to take it, or has taken it. -/
def noteStarved (x : Exe) (s : State) : State :=
  if (x.pair? s).isNone then s
  else s.updPair x.p fun q =>
    if x.trails then { q with trapsTaken := q.trapsTaken + 1 }
    else { q with traps := q.traps ++ [(q.leadDone, x.trapOf .queueStarved)] }

/-- Push the entries of one move. -/
def pushMove (x : Exe) (vals : List DWord) (s : State) : Except Stop State :=
  if x.starvedLead s then .error (.trap (x.trapOf .queueStarved))
  else if x.room s x.pushField < vals.length then .error (.hold .queue) else .ok (pushQueue x x.pushField vals s)

/-- QPUSH (R262). -/
def execQpush (f : RRS) (s : State) : Host.Outcome State Fault Refusal :=
  performPasses (.qpush f) pushCheck
    (fun x u =>
      let a := x.parts.a
      if x.parts.s ≤ 1 then
        match pushMove x [if x.parts.s = 0 then (x.s a).setWidth 64 else x.pair a] u with
        | .ok v => (setResult x .none v, none)
        | .error (.trap t) => (noteStarved x u, some (.trap t))
        | .error k => (u, some k)
      else
        let r := runPasses x (fun g v =>
          let es := (x.passLanesOf g).map fun l => if x.parts.s = 2 then (x.v a l).setWidth 64 else x.vPair a l
          (pushMove x es v).map (noteMoved x es)) x.passesLeft u
        match r.2 with
        | none => (setResult x .none r.1, none)
        | some (.trap t) => (noteStarved x r.1, some (.trap t))
        | some k => (r.1, some k)) s

/-- Pop the entries of one move: on an empty queue whose producer is stopped, QUEUE_STARVED (R89). -/
def popMove (x : Exe) (n : Nat) (s : State) : Except Stop (List DWord × State) :=
  if x.starvedLead s then .error (.trap (x.trapOf .queueStarved))
  else if n ≤ x.held s x.popField then .ok (popQueue x x.popField n s)
  else if !x.trails && x.held s x.popField = 0 && x.team.starved (x.team.queue x.popField).role then
    .error (.trap (x.trapOf .queueStarved))
  else .error (.hold .queue)

/-- One pass of a lane-distributed pop takes its entries. -/
def popPass (x : Exe) (g : Nat) (s : State) : Except Stop State :=
  (popMove x (x.passLanesOf g).length s).map fun r => noteMoved x r.1 r.2

/-- The lanes of a pop that is complete receive their entries, and so does its latch. -/
def popLanes (x : Exe) (s : State) : State :=
  let es := x.lanes.zip (x.movedSoFar s)
  let lo := es.map fun e => (e.1, e.2.lo)
  let hi := es.map fun e => (e.1, e.2.hi)
  let r := x.regNum .v x.parts.d
  let s1 := if x.parts.w then s else s.updTeam x.p fun t =>
    let t1 := t.writeLanes r lo
    if x.parts.s = 3 then t1.writeLanes (r + 1) hi else t1
  setResult x (vectorLatch x r lo) s1

/-- QPOP (R262). -/
def execQpop (f : RRS) (s : State) : Host.Outcome State Fault Refusal :=
  performPasses (.qpop f) popCheck
    (fun x u =>
      if x.parts.s ≤ 1 then
        match popMove x 1 u with
        | .error (.trap t) => (noteStarved x u, some (.trap t))
        | .error k => (u, some k)
        | .ok (es, v) =>
          let e := es.getD 0 0
          (if x.parts.s = 0 then writeScalar x x.parts.d e.lo v else writePair x x.parts.d e v, none)
      else match runPasses x (popPass x) x.passesLeft u with
        | (v, none) => (popLanes x v, none)
        | (v, some (.trap t)) => (noteStarved x (unmove x false x.popField v), some (.trap t))
        | (v, some k) => (v, some k)) s

/-- The queue instruction at which a party holds its slot because its entry cannot move, and since when. -/
def State.queueHold (s : State) (p : Party) : Option (Instr × Exe × DWord) :=
  (s.standing? p).bind fun ix => match ix.2.cl.hold with
    | some (.queue, since) => some (ix.1, ix.2, since)
    | _ => none

/-- QUEUE_UNBLOCK (R89): the blocked push or pop proceeds, once it can. -/
def execQueueUnblock (p : Party) (s : State) : Host.Outcome State Fault Refusal :=
  match s.queueHold p with
  | none => absent s
  | some (i, x, _) =>
    let r := match i with
      | .qpush f => execQpush f { s with turn := some p }
      | .qpop f => execQpop f { s with turn := some p }
      | _ => absent s
    match r with
    | .next s' => match s'.queueHold p with
      | some (_, y, _) => if y.cl.pos = x.cl.pos && y.cl.moved = x.cl.moved then absent s else .next s'
      | none => .next s'
    | o => o

/-- QUEUE_STARVED_TIMEOUT (R223): a push or pop that has held the slot for 131,072 ticks traps. -/
def execQueueStarvedTimeout (p : Party) (s : State) : Host.Outcome State Fault Refusal :=
  match s.queueHold p with
  | none => absent s
  | some (i, x, since) =>
    if (s.now - since).toNat < 131072 then absent s
    else
      let push := match i with | .qpush _ => true | _ => false
      .next (takeTrap p x.cl.path (x.trapOf .queueStarved)
        (noteStarved x (unmove x push (if push then x.pushField else x.popField) s)))

end Sys2Proof.Machine
end

