-- ==== Sys2Proof/Machine/MemInstr.lean ====
section
/-! DEFINITION. Loads, stores and atomics (R306 to R312, R317 to R321), the key-value load (R111 to R113, R313), WAIT
(R248), and the events that complete them. -/

namespace Sys2Proof.Machine

open Sys2Proof

/-! ### Loads and stores (R308) -/

def execLd (f : MW) (s : State) : Host.Outcome State Fault Refusal :=
  perform (.ld f) windowCheck (fun x u => loadLanes x true (x.mwAccess u .load) u) s
def execSt (f : MW) (s : State) : Host.Outcome State Fault Refusal :=
  perform (.st f) windowCheck (fun x u => storeLanes x true (x.mwAccess u .store) u) s
def execLdg (f : RRR) (s : State) : Host.Outcome State Fault Refusal :=
  perform (.ldg f) noCheck (fun x u => loadLanes x true (x.ptrAccess u .load) u) s
def execStg (f : RRR) (s : State) : Host.Outcome State Fault Refusal :=
  perform (.stg f) noCheck (fun x u => storeLanes x true (x.ptrAccess u .store) u) s
def execStp (f : RRR) (s : State) : Host.Outcome State Fault Refusal :=
  perform (.stp f) noCheck (fun x u => storeLanes x false (x.planeAccess u) u) s

/-! ### Atomics (R317 to R321) -/

/-- The width of an atomic, and whether its minima and maxima are signed (R317). -/
def Parts.atomBits (p : Parts) : Nat := if wide p.td then 64 else 32
def Parts.atomSigned (p : Parts) : Bool := p.td == 0 || p.td == 5 || p.td == 7

/-- A data operand of a lane, `n` registers wide: vector registers, or scalar ones in a chaser (R87). -/
def Exe.dataAt (x : Exe) (f : BitVec 7) (n l : Nat) : Nat :=
  natOf ((List.range n).flatMap fun i =>
    bytesOf 4 (if x.ch then (if n = 1 then x.s f else x.sAt f i)
      else (if n = 1 then x.v f l else x.vAt f i l)).toNat)

/-- The comparand of a CAS, in D, and the operand of an atomic, the fourth (R318). -/
def Exe.dataD (x : Exe) (n l : Nat) : Nat :=
  if n = 1 then (if x.ch then x.sReg x.parts.d else x.vReg x.parts.d l).toNat else x.dataAt x.parts.d n l
def Exe.dataC (x : Exe) (n l : Nat) : Nat :=
  if n = 1 then (if x.ch then x.sC else x.vC l).toNat else x.dataAt x.parts.c n l

/-- The operation and operand of ATOM, by its FX. -/
def Exe.atomArg (x : Exe) (fx : Nat) (l : Nat) : AluOp × Nat :=
  (aluOp fx x.parts.td, x.dataC (x.parts.atomBits / 32) l)

/-- The comparand and new value of a compare-and-swap of `n` registers. -/
def Exe.casArg (x : Exe) (n l : Nat) : AluOp × Nat :=
  (.cas (x.dataD n l), x.dataC n l)

def execAtom (f : MW) (s : State) : Host.Outcome State Fault Refusal :=
  performMeet (.atom f) windowCheck (fun x u =>
    atomLanes x true x.parts.atomBits x.parts.atomSigned (x.atomArg x.parts.fx) (x.mwAccess u .atomic) u) s
def execCas (f : MW) (s : State) : Host.Outcome State Fault Refusal :=
  performMeet (.cas f) windowCheck (fun x u =>
    atomLanes x true x.parts.atomBits false (x.casArg (x.parts.atomBits / 32)) (x.mwAccess u .atomic) u) s
def execCas128 (f : MW) (s : State) : Host.Outcome State Fault Refusal :=
  performMeet (.cas128 f) windowCheck (fun x u =>
    atomLanes x true 128 false (x.casArg 4) (x.mwAccess u .atomic) u) s

/-- LDP: a load, or an atomic at the bank (R321). -/
def execLdp (f : RRR) (s : State) : Host.Outcome State Fault Refusal :=
  if (Parts.ofRRR f).fx = 0 || (Parts.ofRRR f).fx = 2 then
    perform (.ldp f) noCheck (fun x u => loadLanes x false (x.planeAccess u) u) s
  else performMeet (.ldp f) noCheck (fun x u =>
    if x.parts.fx = 7 then
      atomLanes x false x.parts.atomBits false (x.casArg (x.parts.atomBits / 32)) (x.planeAccess u) u
    else atomLanes x false x.parts.atomBits x.parts.atomSigned (x.atomArg (ldpAtomOp x.parts.fx)) (x.planeAccess u) u) s

/-! ### WAIT (R248) -/

/-- The checks of the word that WAIT names: alignment, then its format. -/
def waitWordCheck (y : Phys) : Option Cause :=
  if y.addr % 8 ≠ 0 then some .align
  else if y.fmt == 0 || y.fmt == 0xB || y.fmt == 0xC then none else some .formatOp

/-- WAIT: one read at the owner; when the condition does not hold, the team waits from the end of its clause. -/
def execWait (f : RRS) (s : State) : Host.Outcome State Fault Refusal :=
  perform (.wait f) noCheck (fun x u => do
    let p := x.pair x.parts.a
    match x.watch u 7 8 (x.uniformLanes.map fun l => (l, p)) with
    | some t => .error (.trap t)
    | none => .ok ()
    let y ← x.uniform u .load p waitWordCheck
    let u1 := u.commitFills x.agent [y]
    let a := x.loadAddr y
    if (List.range 8).any fun i => u1.poisoned (a + i) then .error .poison
    let v := BitVec.ofNat 64 (x.loadNat u1 true a 8)
    let c := x.pair x.parts.d
    if waitCond x.parts.s v c then .ok u1
    else .ok (onClause x (fun k => { k with waits := k.waits ++ [.word x.parts.s a c x.cl.path x.cl.hdr x.cl.pos
      ((x.cl.words.drop (x.cl.pos - 1)).take x.parts.words)] }) u1)) s

/-! ### KVLD (R111 to R113, R313) -/

/-- A KV descriptor (R111). -/
structure KvDesc where
  fmt : Nat
  rowb : Nat
  tiles : Nat
  heads : Nat
  seqs : Nat
  map : DWord
  deriving DecidableEq, Repr

/-- The fields of a descriptor, when every one is within its limits. -/
def kvDesc (v : Nat) : Option KvDesc :=
  let d : KvDesc := { fmt := field v 186 6, rowb := field v 160 16, tiles := field v 128 32, heads := field v 112 16,
                      seqs := field v 64 32, map := BitVec.ofNat 64 v }
  if field v 192 320 = 0 && field v 176 10 = 0 && field v 96 16 = 0 &&
      [0x05, 0x06, 0x11, 0x12, 0x13, 0x14, 0x15].contains d.fmt &&
      d.rowb % 16 = 0 && 16 ≤ d.rowb && d.rowb ≤ 4096 && 1 ≤ d.tiles && d.tiles ≤ 262144 &&
      1 ≤ d.heads && d.heads ≤ 1024 && 1 ≤ d.seqs && d.map.toNat % 16 = 0 then some d else none

/-- What a lane of KVLD asks for. -/
structure KvLane where
  lane : Nat
  seq : Nat
  head : Nat
  pos : Nat
  off : Nat
  deriving DecidableEq, Repr

def Exe.kvLanes (x : Exe) : List KvLane :=
  x.lanes.map fun l =>
    let v (i : Nat) : Nat := (x.vAt x.parts.b i l).toNat
    { lane := l, seq := v 0, head := v 1, pos := v 2, off := v 3 }

/-- Whether a lane lies within the descriptor's bounds (R113). -/
def KvDesc.within (d : KvDesc) (k : KvLane) : Bool :=
  k.seq < d.seqs && k.head < d.heads && k.pos < 64 * d.tiles && k.off < d.rowb

/-- The pointer of a lane's map entry (R112). -/
def KvDesc.entry (d : KvDesc) (k : KvLane) : DWord :=
  d.map + BitVec.ofNat 64 (16 * ((k.seq * d.heads + k.head) * d.tiles + k.pos / 64))

/-- Where the element lies and the status (R113). -/
def State.kvPlace (s : State) (d : KvDesc) (k : KvLane) (entry : Nat) : Nat × Option Nat :=
  let st := field entry 0 3
  let tile := field entry 61 44 * 256
  let last := tile + 64 * d.rowb - 1
  let within (lo hi : Nat) : Bool := [tile, last].all fun a => match s.tierOf a with
    | some t => lo ≤ t && t ≤ hi
    | none => false
  let at' := tile + k.pos % 64 * d.rowb + k.off
  match st with
  | 0 => (1, none)
  | 1 => if within 0 1 then (0, some at') else (4, none)
  | 2 => (2, none)
  | 3 => if within 2 2 then (3, some at') else (4, none)
  | _ => (4, none)

/-- KVLD (R313). The read of the row in the tile, at the physical place that its table entry gives, makes no check of the
phase: R65 does not name it (DESIGN CHOICE, log 39). -/
def execKvld (f : RRR) (s : State) : Host.Outcome State Fault Refusal :=
  perform (.kvld f) noCheck (fun x u => do
    let p := x.pair x.parts.a
    let da := x.lanes.map fun l => { x.byPointer u .load l p with lane := l }
    let dl := (okLanes da).filterMap fun e =>
      if p.toNat % 64 ≠ 0 then some (⟨e.1.lane, .align, p, e.2.gen⟩ : LaneFault)
      else if !rawLike e.2.fmt then some ⟨e.1.lane, .formatOp, p, e.2.gen⟩ else none
    x.watched u 7 64 da
    x.passLanes da dl
    match (okLanes da).head? with
    | none => .ok u
    | some (_, y) =>
      let u1 := u.commitFills x.agent [y]
      let by' := bypasses false y
      if (List.range 64).any fun i => x.loadPoison u1 by' (x.loadAddr y + i) then .error .poison
      let u2 := if by' then u1 else u1.fillLine x.team.cluster (x.loadAddr y)
      match kvDesc (x.loadNat u2 by' (x.loadAddr y) 64) with
      | none => trapNow x .kvDescriptor
      | some d =>
        let live := x.kvLanes.filter d.within
        let size := fmtBits d.fmt / 8
        let as := live.map fun k => { x.byPointer u2 .kvmap k.lane (d.entry k) with lane := k.lane }
        let skew (l : Nat) : Bool := x.kvLanes.any fun k => k.lane == l && k.off % size != 0
        let late := (okLanes as).filterMap (fun e =>
            if skew e.1.lane then some (⟨e.1.lane, .align, e.1.addr, e.2.gen⟩ : LaneFault)
            else if e.2.fmt ≠ 2 || !leafP e.2.leaf then some ⟨e.1.lane, .formatOp, e.1.addr, e.2.gen⟩ else none) ++
          (x.kvLanes.filter fun k => !d.within k && skew k.lane).map fun k => ⟨k.lane, .align, d.entry k, 0⟩
        x.watched u2 7 16 as
        x.passLanes as late
        let u3 := u2.commitFills x.agent ((okLanes as).map (·.2))
        if (okLanes as).any fun e => (List.range 16).any fun i => x.loadPoison u3 true (x.loadAddr e.2 + i) then .error .poison
        let place (k : KvLane) : Nat × Option Nat :=
          if !d.within k then (1, none)
          else match (okLanes as).find? fun e => e.1.lane == k.lane with
            | none => (1, none)
            | some e => u3.kvPlace d k (x.loadNat u3 true (x.loadAddr e.2) 16)
        let tier0 (a : Nat) : Bool := u3.tierOf a == some 0
        let spots := x.kvLanes.filterMap fun k => (place k).2
        if spots.any fun a => (List.range size).any fun i => x.loadPoison u3 (tier0 a) (a + i) then .error .poison
        let u4 := spots.foldl (fun v a => if tier0 a then v else v.fillLine x.team.cluster a) u3
        let vals := x.kvLanes.map fun k =>
          let r := place k
          let e := match r.2 with
            | none => 0
            | some a => elemDecode d.fmt (x.loadNat u4 (tier0 a) a size)
          (k.lane, e % 2 ^ 32 + r.1 * 2 ^ 32)
        .ok (loadInto x 2 vals u4)) s

/-! ### Completions (R222, R247, R248) -/

/-- LOAD_COMPLETE (R222, R312): the oldest load of a party writes its results. -/
def execLoadComplete (p : Party) (s : State) : Host.Outcome State Fault Refusal :=
  match s.team? p with
  | none => absent s
  | some t => match (t.thread p.kind).loads with
    | [] => absent s
    | ld :: _ => .next ((s.deliver p ld).updThread p fun th => { th with loads := th.loads.drop 1 })

/-- STORE_PERFORMED (R222, R312): the oldest store of a party is performed at its home. -/
def execStorePerformed (p : Party) (s : State) : Host.Outcome State Fault Refusal :=
  match s.team? p with
  | none => absent s
  | some t => match (t.thread p.kind).stores with
    | [] => absent s
    | st :: _ => .next ((s.performStore t.cluster st).updThread p fun th => { th with stores := th.stores.drop 1 })

/-- End the waits of a party that satisfy a test, if it has one. -/
def endWait (p : Party) (done : Wait → Bool) (s : State) : Host.Outcome State Fault Refusal :=
  match s.team? p with
  | none => absent s
  | some t =>
    if (t.thread p.kind).waits.any done then
      .next (s.updThread p fun th => { th with waits := th.waits.filter (!done ·) })
    else absent s

/-- SLEEP_EXPIRY (R247): the time base has reached the deadline. -/
def execSleepExpiry (p : Party) (s : State) : Host.Outcome State Fault Refusal :=
  endWait p (fun w => match w with | .sleep d => !s.now.ult d | _ => false) s

/-- The word at a place, as a party's cluster reads it when it bypasses L1. -/
def State.wordFor (s : State) (p : Party) (a : Nat) : DWord :=
  BitVec.ofNat 64 (natOf ((List.range 8).map fun i => match s.team? p with
    | some t => s.bypassByte t.cluster (a + i)
    | none => s.readByte (a + i)))

/-- WAIT_CONDITION_MET (R248): a read by the owner meets the condition, while the party may issue. -/
def execWaitConditionMet (p : Party) (s : State) : Host.Outcome State Fault Refusal :=
  if ((s.crews.get? p.crew).any fun c => c.state == .resident) && ((s.team? p).any fun t => !t.debugStopped) then
    endWait p
      (fun w => match w with
        | .word c a cmp _ _ _ _ => waitCond c (s.wordFor p a) cmp
        | _ => false) s
  else absent s

/-! ### Accesses of other nodes (R95, R109) -/

/-- Whether this node's service has opened a physical range, frame by frame, to the domain (R109). -/
def State.openedHere (s : State) (a n : Nat) : Bool :=
  (List.range ((a % 65536 + n + 65535) / 65536)).all fun i =>
    let frame := (a / 65536 + i) * 65536
    s.opened.any fun o => o.1 == s.node && decide (o.2.1 ≤ frame ∧ frame + 65536 ≤ o.2.1 + o.2.2)

/-- The width of another node's atomic, its operation at the ALU, and whether its minima and maxima are signed (R96). -/
def remoteBits : RemoteAtomic → Nat
  | .int wide _ _ => if wide then 64 else 32
  | .fadd | .bfadd => 32
  | .cas k _ => 32 * 2 ^ k.val
def remoteAlu (o : RemoteAtomic) : AluOp :=
  match o with
  | .int _ _ op => aluOp op.toNat 0
  | .fadd => .fadd
  | .bfadd => .bfadd
  | .cas _ c => .cas (c.toNat % 2 ^ remoteBits o)
def remoteSigned : RemoteAtomic → Bool
  | .int _ sg _ => sg
  | _ => false

/-- REMOTE_ACCESS (R95, R109): another node's access, performed at this node's physical address; with no fabric port up
none arrives. -/
def execRemoteAccess (a : RemoteOp) (s : State) : Host.Outcome State Fault Refusal :=
  let serve (addr n : Nat) (go : State) : State :=
    if !s.domainUp then s
    else if !s.openedHere addr n then s.send .remoteDenied
    else if (List.range n).any fun i => s.poisoned (addr + i) then s.send .remotePoison
    else go
  match a with
  | .read addr n => .next (serve addr n (s.send (.remoteData (s.readBytes addr n))))
  | .write addr data =>
    .next (if !s.domainUp then s
      else if s.openedHere addr data.length then (s.writeBytes addr data).send .remoteDone else s.send .remoteDenied)
  | .atomic addr op v =>
    let n := remoteBits op
    let old := s.readNat addr (n / 8)
    let new := (remoteAlu op).eval n (remoteSigned op) old (v.toNat % 2 ^ n)
    .next (serve addr (n / 8) ((s.writeBytes addr (bytesOf (n / 8) new)).send (.remoteData (bytesOf (n / 8) old))))

end Sys2Proof.Machine
end

