-- ==== Sys2Proof/Machine/Sync.lean ====
section
/-! DEFINITION. Windows and prefetch (R106, R314, R315), cache maintenance and pins (R233, R234, R316), acquire and
release (R117 to R120, R322), bindings (R118, R323), fences and SHOOT (R122, R128, R129, R324, R325), crew barriers
and GBAR (R326 to R328). -/

namespace Sys2Proof.Machine

open Sys2Proof

/-! ### Windows (R106, R314) -/

/-- The window named in a field. -/
def winOf (f : BitVec 7) : Nat := base f

/-- WMAP: the fill starts. -/
def execWmap (f : RRR) (s : State) : Host.Outcome State Fault Refusal :=
  performPure (.wmap f) noCheck
    (fun x u =>
      let p := x.pair x.parts.a
      u.updTeam x.p fun t => t.setWindow (winOf x.parts.d)
        { t.window (winOf x.parts.d) with
          state := .pending, limit := 0, vbase := p.extractLsb' 16 32, rid := p.extractLsb' 56 8, since := none }) s

/-- WINV. -/
def execWinv (f : RRS) (s : State) : Host.Outcome State Fault Refusal :=
  performPure (.winv f) noCheck
    (fun x u => u.updTeam x.p fun t => t.setWindow (winOf x.parts.d)
      { t.window (winOf x.parts.d) with state := .invalid, since := none }) s

/-- The leaves that a window covers after its first, with their addresses: at most `n` more (R106, step 3). -/
def State.followers (s : State) (first : BitVec 128) (at' : Nat) : Nat → Nat → List (BitVec 128 × Nat)
  | 0, _ => []
  | n + 1, k =>
    let a := at' + 16 * k
    if (at' / 65536) ≠ (a / 65536) then []
    else
      let e := s.readEntry a
      let plain (x : BitVec 128) : BitVec 128 :=
        x &&& ~~~((1#128 <<< 7) ||| (1#128 <<< 8) ||| (0xFF#128 <<< 120) ||| (0xFFFFFFFFF#128 <<< 68))
      if leafV e && s.leafOk 0 e && !leafMIG e && plain e == plain first && leafFrame e == leafFrame first + k then
        (e, a) :: s.followers first at' n (k + 1)
      else []

/-- The window that a completed fill leaves, and the leaves whose AC it sets. -/
def State.fillWindow (s : State) (g : Agent) (w : Window) : Except XFault (Window × List (BitVec 128 × Nat)) :=
  let p := w.pointer 0
  match s.regionFault g .load p with
  | some c => .error (.cause c 0)
  | none =>
    match s.walk g.ctx (va p) with
    | .error c => .error (.cause c 0)
    | .ok (e, a, large) =>
      match (leafFault g .load e).or (s.placeFault (leafNode e) (leafAddr e large (va p)) (leafGen e)) with
      | some f => .error f
      | none =>
        let r := s.region g.ctx (rid p)
        let room := min 4096 (regionLimit r - vpage p + 1)
        let inLarge := vpage p % 4096
        let more := if large then [] else s.followers e a (room - 1) 1
        let pages := if large then min room (4096 - inLarge) else more.length + 1
        let leaves := (e, a) :: more
        .ok ({ w with
          gen := leafGen e, node := BitVec.ofNat 11 (leafNode e), tier := BitVec.ofNat 2 (leafTier e),
          frame := BitVec.ofNat 36 (leafFrame e + if large then inLarge else 0), limit := BitVec.ofNat 13 pages,
          p := regionP r && leafP e, at' := regionA r && leafAT e, x := regionX r && leafX e,
          rd := regionRD r && leafRD e,
          w := regionW r && leaves.all fun l => leafW l.1 && leafD l.1,
          fmt := BitVec.ofNat 6 (leafFmt e), geom := BitVec.ofNat 4 (leafGeom e), pm := leafPM e,
          state := .valid, large := large, since := none }, leaves)

/-- Finish a window fill: a fault leaves LIMIT 0; a migrating leaf, or an owner that does not answer, keeps the window
PENDING (R106, R109). -/
def State.finishFill (s : State) (p : Party) (k : Nat) : Option State :=
  match s.crews.get? p.crew, s.team? p with
  | some c, some t =>
    let w := t.window k
    if w.state ≠ .pending then none
    else if overdue w.since w.remote s.now then
      some (s.updTeam p fun t => t.setWindow k { w with state := .valid, limit := 0, since := none })
    else match s.fillWindow (c.agent t p.kind) w with
      | .error (.migrating gen) =>
        some (s.updTeam p fun t => t.setWindow k { w with since := waitSince w.since w.remote (.migrating gen) s.now, remote := false })
      | .error (.unreachable gen) =>
        some (s.updTeam p fun t => t.setWindow k { w with since := waitSince w.since w.remote (.unreachable gen) s.now, remote := true })
      | .error _ => some (s.updTeam p fun t => t.setWindow k { w with state := .valid, limit := 0, since := none })
      | .ok (w', leaves) =>
        let g := c.agent t p.kind
        let s0 := (s.seeWalk g w.vbase.toNat).unview g.die fun a => leaves.any fun l => l.2 ≤ a && a < l.2 + 16
        let s1 := leaves.foldl (fun u l => if leafAC l.1 then u
          else u.writeBytes l.2 (bytesOf 16 (l.1 ||| (1#128 <<< 7)).toNat)) s0
        some (s1.updTeam p fun t => t.setWindow k w')
  | _, _ => none

/-- WINDOW_FILL_COMPLETE (R106). -/
def execWindowFillComplete (p : Party) (win : Nat) (s : State) : Host.Outcome State Fault Refusal :=
  match s.finishFill p win with
  | some s' => .next s'
  | none => absent s

/-- PREF (R315): a lane whose access would fault or bypass L1 does nothing. -/
def execPref (f : MW) (s : State) : Host.Outcome State Fault Refusal :=
  performPure (.pref f) (fun x _ => if x.ch && x.parts.win ≠ 0 then some .general else none)
    (fun x u =>
      if !x.ch && x.win.state = .invalid then u
      else
        let ok := (okLanes (x.byteAccess u .load)).filter fun e => !bypasses false e.2
        let u1 := u.commitFills x.agent (ok.map (·.2))
        if x.parts.fx = 1 then u1
        else ok.foldl (fun v e => v.fillLine x.team.cluster (x.loadAddr e.2)) u1) s

/-! ### Ranges of cache and code (R233, R234, R316) -/

/-- The physical pieces of a range whose pages allow an access. -/
def State.rangeSpans (s : State) (g : Agent) (die : Nat) (k : Access) (p : DWord) (len : Nat) : List (Nat × Nat) :=
  (rangePieces p len).filterMap fun pc => match s.translate g k pc.1 with
    | .ok y => some (y.readAddr die, pc.2)
    | .error _ => none

/-- The pieces an instruction's operands name. -/
def Exe.spans (x : Exe) (s : State) (k : Access) : List (Nat × Nat) :=
  s.rangeSpans x.agent (dieOfCore (coreOfCluster x.team.cluster)) k (x.pair x.parts.a) x.sB.toNat

/-- The lines of pieces, ascending within each. -/
def spanLines (sp : List (Nat × Nat)) : List Nat :=
  (sp.flatMap fun a => (List.range ((a.1 + a.2 + 127) / 128 - a.1 / 128)).map (a.1 / 128 + ·))

/-- CWB and CWB.ALL. -/
def execCwb (f : RRR) (s : State) : Host.Outcome State Fault Refusal :=
  performPure (.cwb f) noCheck
    (fun x u => u.writeBack x.team.cluster (if x.parts.fx = 1 then fun _ => true else inSpans (x.spans u .load))) s

/-- Drop code lines from a core and its clusters; a pinned line of the core is refilled at once (R234). -/
def State.dropCode (s : State) (core : Nat) (sel : Nat → Bool) : State :=
  let fresh (s : State) (t : Tbl (BitVec 1024)) (pins : Tbl (List Nat)) : Tbl (BitVec 1024) :=
    t.filterMap fun e =>
      if !sel e.1 then some e
      else if (pins.get? e.1).isSome then some (e.1, (s.homeLine (e.1 * 128)).data) else none
  let s1 := (s.updCore core fun k => { k with icache := fresh s k.icache k.pins }).unview (dieOfCore core) fun a =>
    sel (a / 128) && ((s.core core).pins.get? (a / 128)).isSome
  [0, 1, 2, 3].foldl (fun u i => u.updCluster (4 * core + i) fun k =>
    { k with icache := k.icache.filter fun e => !sel e.1 }) s1

/-- Whether a core lies in a scope around another (R2, R316, R128): team, crew and core, the die, the device. -/
def inScope (scope core other : Nat) : Bool :=
  if scope ≤ 2 then other == core else if scope = 3 then dieOfCore other == dieOfCore core else true

/-- CINV and CINV.I. -/
def execCinv (f : RRR) (s : State) : Host.Outcome State Fault Refusal :=
  performPure (.cinv f) noCheck
    (fun x u =>
      if x.parts.fx = 0 then u.invalidate x.team.cluster (inSpans (x.spans u .load))
      else
        ((List.range Config.cores).filter (inScope x.scope (coreOfCluster x.team.cluster))).foldl
          (fun v c => v.dropCode c (inSpans (u.rangeSpans x.agent (dieOfCore c) .fetch (x.pair x.parts.a) x.sB.toNat))) u) s

/-- Fill a line of code into a core's cache. -/
def State.fillCore (s : State) (core line : Nat) : State :=
  match (s.core core).icache.get? line with
  | some _ => s
  | none => (s.updCore core fun k => k.takeLine line (s.homeLine (line * 128)).data).unview (dieOfCore core) (· / 128 == line)

/-- Remember through which pages of a range a core fills its cache (R233). -/
def Exe.markCode (x : Exe) (s : State) : State :=
  let core := coreOfCluster x.team.cluster
  (rangePieces (x.pair x.parts.a) x.sB.toNat).foldl (fun u pc => match s.translate x.agent .fetch pc.1 with
    | .ok y => u.markPage core x.crew.ctx (vpage pc.1) y
    | .error _ => u) s

/-- IPREF. -/
def execIpref (f : RRR) (s : State) : Host.Outcome State Fault Refusal :=
  performPure (.ipref f) noCheck
    (fun x u => (spanLines (x.spans u .fetch)).foldl (fun v l => v.fillCore (coreOfCluster x.team.cluster) l)
      (x.markCode u)) s

/-- Pin a line for a launch, while there is room; whether it is newly pinned (R234). -/
def State.pinLine (s : State) (core launch line : Nat) : State × Bool :=
  let k := s.core core
  match k.pins.get? line with
  | some ls => (s.updCore core fun k => { k with pins := k.pins.put line (if ls.contains launch then ls else ls ++ [launch]) },
      false)
  | none =>
    if 2048 ≤ k.pins.length then (s, false)
    else ((s.fillCore core line).updCore core fun k => { k with pins := k.pins.put line [launch] }, true)

/-- IPIN: sd receives the lines newly pinned. -/
def execIpin (f : RRR) (s : State) : Host.Outcome State Fault Refusal :=
  performPure (.ipin f) noCheck
    (fun x u =>
      let r := (spanLines (x.spans u .fetch)).foldl (fun (acc : State × Nat) l =>
        let q := acc.1.pinLine (coreOfCluster x.team.cluster) x.crew.launch l
        (q.1, acc.2 + q.2.toNat)) (x.markCode u, 0)
      writeScalar x x.parts.d (BitVec.ofNat 32 r.2) r.1) s

/-- IUNPIN. -/
def execIunpin (f : RRR) (s : State) : Host.Outcome State Fault Refusal :=
  performPure (.iunpin f) noCheck
    (fun x u =>
      let sp := x.spans u .fetch
      u.updCore (coreOfCluster x.team.cluster) fun k => { k with pins := k.pins.filter fun e => !inSpans sp e.1 }) s

/-! ### ACQ and REL (R117, R120, R322) -/

/-- The faults of a sync object: those of an atomic (R96, R117). -/
def syncCheck (y : Phys) : Option Cause :=
  if y.addr % 8 ≠ 0 then some .align
  else if y.fmt == 0 || y.fmt == 0xB || y.fmt == 0xC then none else some .formatOp

/-- The object of ACQ or REL, checked. -/
def Exe.syncObj (x : Exe) (s : State) : Res Phys := do
  let p := x.pair x.parts.a
  match x.watch s 9 8 (x.uniformLanes.map fun l => (l, p)) with
  | some t => .error (.trap t)
  | none => .ok ()
  x.uniform s .atomic p syncCheck

/-- ACQ. -/
def execAcq (f : RRR) (s : State) : Host.Outcome State Fault Refusal :=
  performMeet (.acq f) noCheck (fun x u => do
    let y ← x.syncObj u
    let u0 := (u.commitFills x.agent [y]).evictLine x.team.cluster (y.addr / 128)
    let u1 := u0.unview x.agent.die fun a => y.addr ≤ a && a < y.addr + 8
    if (List.range 8).any fun i => u1.poisoned (y.addr + i) then .error .poison
    let v : DWord := BitVec.ofNat 64 (u1.readNat y.addr 8)
    let u2 := u1.acquireObj x.crew x.team (x.pair x.parts.a) x.scope
    let r := x.regNum .s x.parts.d
    .ok (setResult x (.scalar v.lo)
      (u2.countLoad x.p { writes := if x.parts.w then [] else [.scalar r v.lo, .scalar (r + 1) v.hi] }))) s

/-- The value that REL stores. -/
def Exe.relValue (x : Exe) : DWord :=
  match x.parts.lit with
  | some w => if x.parts.td = 7 then w.signExtend 64 else w.setWidth 64
  | none => x.pair x.parts.b

/-- The write of a REL at its owner, which the team's die sees (R115, R120); the object remembers the widest scope at which
it was released (R121). -/
def Exe.relWrite (x : Exe) (y : Phys) (s : State) : State :=
  let u := ((s.evictLine x.team.cluster (y.addr / 128)).writeBytes y.addr (bytesOf 8 x.relValue.toNat)).unview x.agent.die
    fun a => y.addr ≤ a && a < y.addr + 8
  { u with released := u.released.write 0 y.addr (max x.scope (u.released.read 0 y.addr)) }

/-- REL. -/
def execRel (f : RRR) (s : State) : Host.Outcome State Fault Refusal :=
  performMeet (.rel f) noCheck (fun x u => do
    let y ← x.syncObj u
    .ok (x.relWrite y ((u.commitFills x.agent [y]).releaseObj x.p x.crew x.team (x.pair x.parts.a)))) s

/-! ### BIND and UNBIND (R118, R323) -/

/-- Whether a binding's object is one that BIND and packets accept (R118). -/
def objOk (o : DWord) : Bool := (o.toNat % 8 == 0) && (canonical o || (barrierObj 0 ≤ o && o ≤ barrierObj 15))

/-- Whether a range's length is allowed and its last byte keeps the region identifier. -/
def rangeOk (b len : DWord) : Bool := len != 0 && len.toNat < 2 ^ 40 && rid (b + (len - 1)) == rid b

/-- The lowest empty own entry. -/
def Team.emptyOwn (t : Team) : Option Nat := (List.range 16).find? fun k => (t.ownBinding k).len == 0

def bindCheck (x : Exe) (_ : State) : Option Cause :=
  if x.parts.m.isNone then some .general
  else if !objOk (x.pair x.parts.a) || !rangeOk (x.pair x.parts.b) (x.pair x.parts.c) then some .general
  else if x.team.emptyOwn.isNone then some .bindFull else none

/-- BIND. -/
def execBind (f : RRR) (s : State) : Host.Outcome State Fault Refusal :=
  performPure (.bind f) bindCheck
    (fun x u =>
      let k := x.team.emptyOwn.getD 0
      writeScalar x x.parts.d (BitVec.ofNat 32 k) (u.updTeam x.p fun t => t.setOwn k
        { obj := x.pair x.parts.a, base := x.pair x.parts.b, len := (x.pair x.parts.c).setWidth 40 })) s

/-- UNBIND and UNBIND.ALL. -/
def execUnbind (f : RRS) (s : State) : Host.Outcome State Fault Refusal :=
  performPure (.unbind f) (fun x _ => if 16 < x.parts.s then some .general else none)
    (fun x u => u.updTeam x.p fun t => if x.parts.s = 16 then { t with own := [] } else t.setOwn x.parts.s {}) s

/-! ### Fences and SHOOT (R122, R128, R129, R324, R325) -/

/-- FENCE.SC. -/
def execFence (f : FZ) (s : State) : Host.Outcome State Fault Refusal :=
  performMeet (.fence f) noCheck (fun x u => .ok (u.fenceSC x.p x.team.cluster x.scope)) s

/-- FENCE.PT. -/
def execFencePt (f : FZ) (s : State) : Host.Outcome State Fault Refusal :=
  performMeet (.fencePt f) noCheck (fun x u => .ok (u.fencePT x.p x.agent.die)) s

/-- SHOOT: FENCE.PT, then the team waits until the SHOOT completes. -/
def execShoot (f : RRR) (s : State) : Host.Outcome State Fault Refusal :=
  performPure (.shoot f) noCheck
    (fun x u =>
      let u1 := u.fencePT x.p x.agent.die
      let n := x.sB.toNat
      if n = 0 then u1
      else onClause x (fun c => { c with waits := c.waits ++
        [.shoot x.crew.ctx (vpage (x.pair x.parts.a)) n x.scope] }) u1) s

/-- Whether a set of pages covers one, or the 256 MiB leaf that maps it (R127, R129). -/
def shotPage (page n : Nat) (large : Bool) (p : Nat) : Bool :=
  if large then page / 4096 ≤ p / 4096 && p / 4096 ≤ (page + n - 1) / 4096 else page ≤ p && p < page + n

/-- Whether a window derives from the pages of a SHOOT. -/
def Window.shot (w : Window) (page n : Nat) : Bool :=
  w.state == .valid && (if w.large then shotPage page n true w.vbase.toNat
    else w.vbase.toNat < page + n && page < w.vbase.toNat + w.limit.toNat)

/-- Drop what derives from pages of a context in the cores that `scope` selects (R129, R233, R234): TLB entries, windows
(LIMIT 0; those of every SAVED image, R70) and instruction lines with their pins; the accesses of the context's parties
are performed first. -/
def State.shootPages (s : State) (ctx page n : Nat) (scope : Nat → Bool) : State :=
  let parties := s.crews.flatMap fun c => if c.2.ctx ≠ ctx then [] else
    c.2.teams.flatMap fun t => [(⟨c.1, t.1, .team⟩ : Party), ⟨c.1, t.1, .chaser⟩, ⟨c.1, t.1, .trail⟩]
  let s1 := parties.foldl (fun u p => u.settleParty p) s
  let clear (t : Team) : Team := (List.range 8).foldl (fun t k =>
    if (t.window k).shot page n then t.setWindow k { t.window k with limit := 0 } else t) t
  let reached (core : Nat) (c : Crew) : Bool := c.ctx == ctx && (c.state == .saved || scope core)
  let s2 := { s1 with
    crews := s1.crews.map fun (c : Nat × Crew) => if reached c.2.core c.2 then
      (c.1, { c.2 with teams := c.2.teams.map fun (t : Nat × Team) => (t.1, clear t.2) }) else c,
    pairs := s1.pairs.map fun (q : Nat × Pair) =>
      let at' (core : Nat) (t : Team) : Team := if (s1.crews.get? (q.1 / 16)).any (reached core) then clear t else t
      let lead := (s1.crews.get? (q.1 / 16)).elim 0 (·.core)
      (q.1, { q.2 with trail := at' q.2.core q.2.trail, trailCp := at' q.2.core q.2.trailCp, leadCp := at' lead q.2.leadCp }) }
  (s2.cores.map (·.1)).foldl (fun u c =>
    if !scope c then u
    else
      let hit (ctx' : Nat) (large : Bool) (p : Nat) : Bool := ctx' == ctx && shotPage page n large p
      let sp := ((u.core c).code.filter fun e => hit e.ctx e.large e.page).map fun e => (e.addr, 65536)
      let v := u.updCore c fun k =>
        { k with tlb := k.tlb.filter (fun e => !hit e.ctx e.large e.page),
                 code := k.code.filter (fun e => !hit e.ctx e.large e.page),
                 pins := k.pins.filter fun e => !inSpans sp e.1 }
      v.dropCode c (inSpans sp)) s2

/-- Whether an engine in the scope works on one of the pages (R132). -/
def State.engineHolds (s : State) (ctx page n : Nat) (scope : Nat → Bool) : Bool :=
  let on (c : Nat) (hs : List HeldPage) : Bool := c == ctx && hs.any fun h => shotPage page n h.large (vpage h.page)
  (s.cores.any fun c => scope c.1 && ((c.2.copies.any fun o => on o.ctx o.held) || c.2.cupel.any fun o => on o.ctx o.pages)) ||
    -- the hub dies lie beyond every core: only a scope wider than a die holds them
    (scope Config.cores && s.packets.any fun p => on p.2.ctx p.2.held)

/-- SHOOT_COMPLETE (R129): once no engine works on the pages. -/
def execShootComplete (p : Party) (s : State) : Host.Outcome State Fault Refusal :=
  match s.team? p with
  | none => absent s
  | some t => match t.th.waits.find? (fun w => match w with | .shoot .. => true | _ => false) with
    | some (.shoot ctx page n scope) =>
      let sel := inScope scope (coreOfCluster t.cluster)
      if s.engineHolds ctx page n sel then absent s
      else .next ((s.shootPages ctx page n sel).updThread p fun th =>
        { th with waits := th.waits.filter (· ≠ .shoot ctx page n scope) })
    | _ => absent s

/-! ### Crew barriers and GBAR (R326 to R328) -/

/-- The barrier named in A. -/
def Exe.barNo (x : Exe) : Nat := base x.parts.a

/-- Whether the record is abandoned, and whether the team's bit is set in the round in progress. -/
def Exe.barGone (x : Exe) : Bool := (x.crew.bar x.barNo).abandoned
def Exe.barHere (x : Exe) : Bool := (x.crew.bar x.barNo).bitmap.getLsbD x.p.team

/-- An arrival by a team that has arrived (R327). -/
def arriveCheck (x : Exe) (_ : State) : Option Cause := if !x.barGone && x.barHere then some .general else none

/-- The register of the status, when it is written. -/
def Exe.statusReg (x : Exe) : Option Nat := if x.parts.w then none else some (x.regNum .s x.parts.d)

/-- Wait at the barrier from the end of the clause. -/
def barWait (x : Exe) (s : State) : State :=
  onClause x (fun c => { c with waits := c.waits ++ [.bar x.barNo x.statusReg] }) s

/-- The release that an arrival is, and the arrival (R126, R326). -/
def arrive (x : Exe) (s : State) : State :=
  (s.releaseObj x.p x.crew x.team (barrierObj x.barNo)).barArrive x.p.crew x.p.team x.barNo

/-- BAR. -/
def execBar (f : RRS) (s : State) : Host.Outcome State Fault Refusal :=
  performMeet (.bar f) arriveCheck (fun x u =>
    .ok (if x.barGone then writeScalar x x.parts.d 1 u else arrive x (barWait x u))) s

/-- BARA. -/
def execBara (f : RRS) (s : State) : Host.Outcome State Fault Refusal :=
  performMeet (.bara f) arriveCheck (fun x u =>
    .ok (if x.barGone then writeScalar x x.parts.d 1 u else writeScalar x x.parts.d 0 (arrive x u))) s

/-- BARW. -/
def execBarw (f : RRS) (s : State) : Host.Outcome State Fault Refusal :=
  performMeet (.barw f) noCheck (fun x u =>
    .ok (if x.barGone then writeScalar x x.parts.d 1 u
      else if x.barHere then barWait x u
      else writeScalar x x.parts.d 0 (u.acquireBar x.crew x.team x.barNo))) s

/-- Whether the launch's channel is abandoned (R168). -/
def State.treeGone (s : State) (l : Launch) : Bool :=
  (l.channel.bind s.channels.get?).any (·.abandoned)

/-- The team has executed GBAR or PHASE: its fence, its wait, and its crew's arrival when it is the last (R126, R328). -/
def joinTree (x : Exe) (k : TreeKind) (w : Wait) (s : State) : State :=
  let s1 := onClause x (fun c => { c with waits := c.waits ++ [w] }) (s.fenceSC x.p x.team.cluster 4)
  (s1.updCrew x.p.crew fun c => { c with tree := c.tree ++ [(x.p.team, k)] }).treeArrive x.p.crew

/-- GBAR. -/
def execGbar (f : FZ) (s : State) : Host.Outcome State Fault Refusal :=
  performMeet (.gbar f) (fun x _ => if x.launch.co then none else some .general) (fun x u =>
    .ok (if u.treeGone x.launch then writeScalar x x.parts.c 1 u
      else joinTree x .gbar (.gbar (x.regNum .s x.parts.c)) u)) s

end Sys2Proof.Machine
end

