-- ==== Sys2Proof/Machine/Launches.lean ====
section
/-! DEFINITION. The body of a LAUNCH packet (R46), its indirect parts (R47, R118), and the capacity of the device for a
crew's shape (R58). -/

namespace Sys2Proof.Machine

open Sys2Proof

/-! ### The LAUNCH body (R46) -/

def Packet.entry (p : Packet) : DWord := p.ptr 128
def Packet.args (p : Packet) : DWord := p.ptr 192
def Packet.gridX (p : Packet) : Nat := p.field 256 24
def Packet.gridY (p : Packet) : Nat := p.field 280 8
def Packet.gridZ (p : Packet) : Nat := p.field 288 8
def Packet.teams (p : Packet) : Nat := p.field 296 4 + 1
def Packet.stage (p : Packet) : Nat := p.field 300 4
def Packet.strands (p : Packet) : Nat := p.field 304 5 + 1
def Packet.vregs (p : Packet) : Nat := p.field 312 8 + 1
def Packet.sregs (p : Packet) : Nat := p.field 322 6 + 1
def Packet.scratch (p : Packet) : Nat := p.field 333 13
def Packet.wlists (p : Packet) : Nat := p.field 349 3
def Packet.bcnt (p : Packet) : Nat := p.field 356 4
def Packet.chaser (p : Packet) : DWord := p.ptr 384
def Packet.bindp (p : Packet) : DWord := p.ptr 448

/-- The malformations of a LAUNCH body: a rsv bit, a value above its limit, a GRID beside IG, or a crew of more than
4,096 lanes. -/
def Packet.launchBad (p : Packet) : Bool :=
  p.field 309 3 ≠ 0 || p.field 320 2 ≠ 0 || p.field 328 5 ≠ 0 || p.field 346 3 ≠ 0 || p.field 352 4 ≠ 0 ||
    p.field 360 24 ≠ 0 || 8 < p.bcnt || 4096 < p.scratch || (p.ig && p.field 256 40 ≠ 0) ||
    128 < p.teams * p.strands

/-- How a launch fails in its indirect parts (R47). -/
inductive Indirect where
  | fault (x : XFault) (p : DWord)
  | malformed
  deriving DecidableEq, Repr

/-- A binding descriptor, when it keeps R118. -/
def bindingOf (bs : List Byte) : Option Binding :=
  let len := le bs 16 8
  let b : Binding := { obj := BitVec.ofNat 64 (le bs 0 8), base := BitVec.ofNat 64 (le bs 8 8), len := BitVec.ofNat 40 len }
  if len < 2 ^ 40 && objOk b.obj && rangeOk b.base (BitVec.ofNat 64 len) then some b else none

/-- The bindings that a launch image gives. -/
def State.readBinds (s : State) (ctx : Nat) (p : Packet) : Except Indirect (List Binding × State) :=
  if p.bcnt = 0 then .ok ([], s)
  else match s.ctxRead (plainAgent ctx) p.bindp (24 * p.bcnt) with
    | .error e => .error (.fault e.1 e.2)
    | .ok (bs, s1) => match (chunks 24 p.bcnt bs).mapM bindingOf with
      | none => .error .malformed
      | some l => .ok (l, s1)

/-- The grid of a launch: from its body, or from the grid record at its arguments. -/
def State.readGrid (s : State) (ctx : Nat) (p : Packet) : Except Indirect ((Nat × Nat × Nat) × State) :=
  if !p.ig then .ok ((p.gridX, p.gridY, p.gridZ), s)
  else match s.ctxRead (plainAgent ctx) p.args 16 with
    | .error e => .error (.fault e.1 e.2)
    | .ok (bs, s1) => if le bs 12 4 ≠ 0 then .error .malformed else .ok ((le bs 0 4, le bs 4 4, le bs 8 4), s1)

/-! ### Capacity (R53, R58) -/

/-- Granules of a team: ceil(registers × strands × 128 / 2,048). -/
def teamGranules (vregs strands : Nat) : Nat := (vregs * strands * 128 + 2047) / 2048

/-- Crews of a shape that an empty core holds. -/
def crewsPerCore (teams strands vregs scratch wlists : Nat) : Nat :=
  let f := min 16 (192 / teamGranules vregs strands)
  let c := min 16 (4 * f / teams)
  let c1 := if scratch = 0 then c else min c (64 / ((scratch + 63) / 64))
  if wlists = 0 then c1 else min c1 (8 / wlists)

def Launch.perCore (l : Launch) : Nat := crewsPerCore l.teams l.strands l.vregs l.scratch l.wlists
def Packet.perCore (p : Packet) : Nat := crewsPerCore p.teams p.strands p.vregs p.scratch p.wlists

/-- Cores of a die that are not retired. -/
def State.liveCores (s : State) (die : Nat) : Nat :=
  ((List.range 32).filter fun i => !(s.core (32 * die + i)).retired).length

/-- The cores that the check of R58 counts: one per die is kept for assay. -/
def State.countedCores (s : State) : Nat :=
  ((List.range 12).map fun d =>
    let x := s.die d
    if x.retired || x.failed then 0 else s.liveCores d - 1).foldl (· + ·) 0

/-- A launch from its image: a packet's, or a node's template. -/
def launchOf (p : Packet) (src : LaunchSource) (prio proc : Nat) (grid : Nat × Nat × Nat) (binds : List Binding)
    (now : DWord) : Launch :=
  { source := src, ctx := p.ctx, prio := prio, te := p.te, co := p.co, af := p.af, entry := p.entry, args := p.args,
    chaser := p.chaser, gx := grid.1, gy := grid.2.1, gz := grid.2.2, stage := p.stage, teams := p.teams,
    strands := p.strands, vregs := p.vregs, sregs := p.sregs, scratch := p.scratch, wlists := p.wlists,
    binds := binds, total := grid.1 * grid.2.1 * grid.2.2, started := now, proc := proc }

/-- A fresh identifier. -/
def State.fresh (s : State) : Nat × State := (s.nextHandle, { s with nextHandle := s.nextHandle + 1 })

end Sys2Proof.Machine
end

