-- ==== Sys2Proof/Machine/Nodes.lean ====
section
/-! DEFINITION. The binner: graph nodes and their launches (R59 to R63), SPAWN (R344) and NODEFL (R345). -/

namespace Sys2Proof.Machine

open Sys2Proof

/-! ### The record queue (R60) -/

/-- A tile: 32 records for each strand. -/
def Node.tile (n : Node) : Nat := 32 * n.strands

/-- The oldest record whose slot is in use: a launch keeps those it took until it is done. -/
def Node.oldest (n : Node) : Nat := n.launches.foldl (fun a l => min a l.2) n.head

/-- Room for records. -/
def Node.room (n : Node) : Nat := n.capacity - (n.tail - n.oldest)

/-- Records that no launch has taken. -/
def Node.queued (n : Node) : Nat := n.tail - n.head

/-- The address of a record. -/
def Node.slot (n : Node) (i : Nat) : DWord := n.base + BitVec.ofNat 64 (i % n.capacity * n.recSize)

def State.updNode (s : State) (k : Nat) (f : Node → Node) : State := { s with nodes := s.nodes.upd k f }

/-- The first status other than OK among a node's launches is kept, with its detail (R49, R62). -/
def State.nodeStatus (s : State) (k status : Nat) (detail : DWord := 0) : State :=
  s.updNode k fun n =>
    if n.status = 0 then { n with status := BitVec.ofNat 32 status, detail := detail } else n

/-! ### Node launches (R61, R62) -/

/-- The template as a launch image of one team of T strands. -/
def Node.image (n : Node) : Packet := { queue := 0, index := 0, ctx := n.ctx, bytes := n.template }

/-- A node launch: the template's TEAMS, STRANDS, CO and GRID give way (R61). Its entry and its stage are those that the NODE
packet names, and a TE in either packet makes its team throttle-eligible (DEDUCED, log 20). -/
def Node.launch (n : Node) (k : Nat) (first count : Nat) (binds : List Binding) (now : DWord) : Launch :=
  { launchOf n.image (.node k) n.prio 0 (1, 1, 1) binds now with
    co := false, te := n.te || n.image.te, entry := n.key, stage := n.stage, teams := 1,
    strands := n.strands, tileBase := n.slot first, tileCount := count }

/-- One launch over consecutive records. One that cannot start leaves its status with the node. -/
def State.makeNodeLaunch (s : State) (k first count : Nat) : State :=
  match s.nodes.get? k with
  | none => s
  | some n =>
    let s1 := if n.image.af then s.acquireAll else s
    match s1.readBinds n.ctx n.image with
    | .error (.fault _ a) => s1.nodeStatus k 9 a
    | .error .malformed => s1.nodeStatus k 4
    | .ok (binds, s2) =>
      let l := n.launch k first count binds s.now
      if l.perCore = 0 then s2.nodeStatus k 3
      else
        let (id, s3) := s2.fresh
        ({ s3 with launches := s3.launches.put id l }).updNode k fun n => { n with launches := n.launches ++ [(id, first)] }

/-- Take `count` records: one launch, or two split at the ring's end. -/
def State.takeRecords (s : State) (k count : Nat) : State :=
  match s.nodes.get? k with
  | none => s
  | some n =>
    let first := n.head
    let left := n.capacity - first % n.capacity
    let s1 := s.updNode k fun n =>
      { n with head := n.head + count, deadline := if n.head + count = n.tail then none else n.deadline }
    if left < count then (s1.makeNodeLaunch k first left).makeNodeLaunch k (first + left) (count - left)
    else s1.makeNodeLaunch k first count

/-- An armed node launches its whole tiles. -/
def State.launchTiles (s : State) (k : Nat) : State :=
  match s.nodes.get? k with
  | none => s
  | some n =>
    if !n.armed then s
    else (List.range (n.queued / n.tile)).foldl (fun u _ => u.takeRecords k n.tile) s

/-- An armed node launches whatever is queued; an empty queue makes a zero-sized launch, which completes at once with
ZERO_GRID (R61, R62). A DISARMED node makes none (log 20). -/
def State.flushNode (s : State) (k : Nat) : State :=
  match s.nodes.get? k with
  | none => s
  | some n =>
    if !n.armed then s
    else if n.queued = 0 then (if n.image.af then s.acquireAll else s).nodeStatus k 1
    else s.takeRecords k n.queued

/-! ### SPAWN (R344) -/

/-- Append records at a node's tail, for a core's launch; the flush timer starts on an empty queue. -/
def State.append (s : State) (k core launch : Nat) (records : List (List Byte)) : State :=
  match s.nodes.get? k with
  | none => s
  | some n =>
    let s1 := ((List.range records.length).zip records).foldl (fun u r =>
      u.tryWrite n.ctx (n.slot (n.tail + r.1)) r.2) s
    let s2 := s1.updNode k fun n =>
      { n with tail := n.tail + records.length,
               deadline := if n.queued = 0 && n.timer ≠ 0 && !records.isEmpty then
                 some (s.now + BitVec.ofNat 64 n.timer) else n.deadline }
    let s3 := s2.updCore core fun c =>
      { c with track := c.track.upd launch fun e => { e with spawned := e.spawned + records.length } }
    s3.launchTiles k

/-- The records that wait for room and now have it: those of the SPAWN that came first are appended, and its team goes on, if
it is not retired meanwhile (R57, R60, R167). -/
def State.serveNext (s : State) (k : Nat) : Option State :=
  (s.nodes.get? k).bind fun n =>
    (n.backlog.find? fun b => b.records.length ≤ n.room).map fun b =>
      ((s.updNode k fun n => { n with backlog := n.backlog.erase b }).updCopies ⟨b.crew, b.team, .team⟩ fun t =>
        t.dropWaits (· == .spawn k)).append k b.core b.launch b.records

/-- Serve at most some of the SPAWNs that wait for a node. -/
def State.serveSome (k : Nat) : Nat → State → State
  | 0, s => s
  | n + 1, s => match s.serveNext k with
    | none => s
    | some u => State.serveSome k n u

/-- Every SPAWN that waits for a node, whenever its queue may have room. -/
def State.serveSpawns (s : State) (k : Nat) : State :=
  s.serveSome k ((s.nodes.get? k).elim 0 (·.backlog.length))

/-- The records of a context that wait for room go, with what they count for (R36, R57). -/
def State.dropBacklog (s : State) (ctx : Nat) : State :=
  (s.nodes.filter fun n => n.2.ctx == ctx).foldl (fun u n =>
    n.2.backlog.foldl (fun v b => v.subStores b.core b.launch b.records.length)
      (u.updNode n.1 fun n => { n with backlog := [] })) s

def nodeCheck (x : Exe) (s : State) : Option Cause := if (x.node s).isNone then some .general else none

/-- A lane's record: the bytes of v(B) on, in register and byte order. -/
def Exe.record (x : Exe) (size l : Nat) : List Byte :=
  ((List.range ((size + 3) / 4)).flatMap fun i => bytesOf 4 (x.vAt x.parts.b i l).toNat).take size

/-- The places of the records that a SPAWN appends, as the issuer's cluster tags them (R60, R125). -/
def Exe.ringPieces (x : Exe) (s : State) (n : Node) : List (Nat × Nat) :=
  (List.range x.lanes.length).flatMap fun i => x.pieces s false (n.slot (n.tail + i)) n.recSize

/-- SPAWN: the fork of R125 comes first; the records are appended, or wait for room. -/
def execSpawn (f : RRR) (s : State) : Host.Outcome State Fault Refusal :=
  performMeet (.spawn f) nodeCheck (fun x u =>
    match x.node u with
    | none => .error (.trap (x.trapOf .general))
    | some k =>
      match u.nodes.get? k with
      | none => .error (.trap (x.trapOf .general))
      | some n =>
        let r := x.regNum .v x.parts.b
        let w := (n.recSize + 3) / 4
        if x.launch.vregs < r + w then .error (.trap (x.trapOf .allotBounds (BitVec.ofNat 32 (max r x.launch.vregs))))
        else if x.storesFull u x.lanes.length then .error (.hold .engine)
        else
          let u1 := fork x (x.ringPieces u n) u
          let y := u1.refresh x
          let rs := y.lanes.map (y.record n.recSize)
          let core := coreOfCluster x.team.cluster
          let u2 := u1.addStores core x.crew.launch rs.length
          .ok (if rs.length ≤ n.room then (u2.append k core x.crew.launch rs).serveSpawns k
            else onClause x (fun c => { c with waits := c.waits ++ [.spawn k] }) (u2.updNode k fun n =>
              { n with backlog := n.backlog ++ [⟨x.p.crew, x.p.team, core, x.crew.launch, rs⟩] }))) s

/-- NODEFL; the leading copy of a pair alone flushes (log 19). -/
def execNodefl (f : RRR) (s : State) : Host.Outcome State Fault Refusal :=
  performPure (.nodefl f) nodeCheck (fun x u => match x.node u with
    | none => u
    | some k => if x.p.kind = .trail then u else (u.flushNode k).serveSpawns k) s

/-- FLUSH_TIMER (R61): it acts once it has expired and the node is armed. -/
def execFlushTimer (node : Nat) (s : State) : Host.Outcome State Fault Refusal :=
  match s.nodes.get? node with
  | none => absent s
  | some n => match n.deadline with
    | none => absent s
    | some t =>
      if !n.armed || s.now.ult t then absent s
      else .next ((s.updNode node fun n => { n with deadline := none }).flushNode node |>.serveSpawns node)

end Sys2Proof.Machine
end

