-- ==== Sys2Proof/Machine/Packets.lean ====
section
/-! DEFINITION. The packet processors (R37 to R52): fetching from a ring, starting packets in ring order, what each packet
does, and how a launch drains and its packet completes. -/

namespace Sys2Proof.Machine

open Sys2Proof

/-! ### Queues (R40, R41) -/

def State.updQueue (s : State) (q : Nat) (f : UQueue → UQueue) : State := { s with queues := s.queues.upd q f }
def State.updPacket (s : State) (k : Nat) (f : Packet → Packet) : State := { s with packets := s.packets.upd k f }

/-- The 16 bytes of the status block. -/
def UQueue.status16 (u : UQueue) : List Byte :=
  bytesOf 8 u.ri.toNat ++ bytesOf 4 u.state.code ++ bytesOf 2 u.cause.toNat ++ bytesOf 2 u.err.toNat

/-- A status write; one that faults is skipped. -/
def State.showQueue (s : State) (q : Nat) : State :=
  match s.queues.get? q with
  | none => s
  | some u => s.tryWrite u.ctx u.status u.status16

/-- An active queue stops with a cause. -/
def State.stopQueue (s : State) (q : Nat) (cause : BitVec 16) : State :=
  (s.updQueue q fun u =>
    { u with state := if u.state = .active then .stopped else u.state, cause := cause, since := none,
             reread := none }).showQueue q

/-! ### The checks of a packet (R44, R46, R48) -/

def scopeBad (on : Bool) (scope : Nat) : Bool := if on then scope != 4 && scope != 5 else scope != 0

/-- Malformations that do not depend on the body. -/
def Packet.headBad (p : Packet) : Bool :=
  5 < p.type || p.field 25 7 ≠ 0 || (p.type != 1 && (p.ig || p.co)) || (p.type != 1 && p.type != 2 && (p.te || p.fs)) ||
    scopeBad p.af (p.field 12 3) || scopeBad p.rf (p.field 16 3)

/-- Whether a number is a power of two. -/
def powerOfTwo (n : Nat) : Bool := n != 0 && (n &&& (n - 1)) == 0

/-- The NODE body. -/
def Packet.key (p : Packet) : DWord := p.ptr 128
def Packet.op (p : Packet) : Nat := p.field 192 8
def Packet.nodeSize (p : Packet) : Nat := p.field 200 8
def Packet.nodeStrands (p : Packet) : Nat := p.field 208 8
def Packet.nodeStage (p : Packet) : Nat := p.field 216 4
def Packet.nodeTimer (p : Packet) : Nat := p.field 224 32
def Packet.nodeBase (p : Packet) : DWord := p.ptr 256
def Packet.nodeCapacity (p : Packet) : Nat := p.field 320 32
def Packet.nodeTemplate (p : Packet) : DWord := p.ptr 384

def Packet.nodeBad (p : Packet) : Bool :=
  2 < p.op || p.field 220 4 ≠ 0 || p.field 352 32 ≠ 0 || p.field 448 64 ≠ 0 ||
    (p.op == 0 && (p.nodeSize = 0 || 32 < p.nodeSize || p.nodeStrands = 0 || 32 < p.nodeStrands ||
      !powerOfTwo p.nodeCapacity || p.nodeCapacity < 32 * p.nodeStrands))

/-- The SIGNAL, WAIT and COPY bodies. -/
def Packet.word (p : Packet) : DWord := p.ptr 128
def Packet.operand (p : Packet) : DWord := p.ptr 256
def Packet.timeout (p : Packet) : DWord := p.ptr 320
def Packet.src (p : Packet) : DWord := p.ptr 128
def Packet.dst (p : Packet) : DWord := p.ptr 192
def Packet.len (p : Packet) : Nat := p.field 256 64

/-- Every malformation that the 64 bytes show. -/
def Packet.bad (p : Packet) : Bool :=
  p.headBad || (match p.type with
    | 0 => p.field 128 384 ≠ 0
    | 1 => p.launchBad
    | 2 => p.nodeBad
    | 3 => p.word.toNat % 8 ≠ 0 || 2 < p.op || p.field 200 56 ≠ 0 || p.field 320 192 ≠ 0
    | 4 => p.word.toNat % 8 ≠ 0 || 3 < p.op || p.field 200 56 ≠ 0 || p.field 384 128 ≠ 0
    | _ => 2 ^ 40 < p.len || p.field 320 192 ≠ 0)

/-! ### Fetch (R42, R49, R52, R173) -/

/-- Whether a packet is on its way to DONE. -/
def Packet.inFlight (p : Packet) : Bool := p.state != .confirming

/-- The packets of a processor that satisfy a test. -/
def State.procPackets (s : State) (proc : Nat) (f : Packet → Bool) : Nat :=
  (s.packets.filter fun e => f e.2 && (s.queues.get? e.2.queue).any fun u => u.proc == proc).length

/-- The copy that the processors of a context keep of a packet (R173). -/
def Context.copyOf (c : Context) (q i : Nat) : Option (List Byte) :=
  (c.kept.find? fun e => e.1 == q && e.2.1 == i).map (·.2.2)

/-- Whether the store of kept copies has no room for packet `i`. -/
def Context.keptFull (c : Context) (q i : Nat) : Bool :=
  c.sealedGen ≠ 0 && 65536 ≤ c.kept.length && (c.copyOf q i).isNone

/-- RECORD lies where R49 lets it. -/
def State.recordOk (s : State) (p : Packet) : Bool :=
  p.recordPtr == 0 || (p.recordPtr.toNat % 32 == 0 && s.inWritable p.ctx p.recordPtr 32)

/-- A packet is fetched: RI rises, its copy is kept, PENDING is written, and it is in flight. -/
def State.takePacket (s : State) (p : Packet) : State :=
  let s1 := (s.updQueue p.queue fun u => { u with ri := u.ri + 1, since := none, reread := none }).showQueue p.queue
  let s2 := s1.updContext p.ctx fun c =>
    if c.sealedGen ≠ 0 && (c.copyOf p.queue p.index).isNone then
      { c with kept := c.kept ++ [(p.queue, p.index, p.bytes)] } else c
  let s3 := s2.record p [(0, 4, 0)]
  { s3 with packets := s3.packets.put (packetKey p.queue p.index) p }

/-- A packet found malformed: its record and its notification, and the queue stops on it (R49, R51). -/
def State.refusePacket (s : State) (p : Packet) : State :=
  let t := s.now.toNat
  ((s.record p [(8, 8, 0), (4, 4, 4), (16, 8, t), (24, 8, t), (0, 4, 2)]).notify p 2 4).stopQueue p.queue 1

/-- The bytes of slot RI: a kept copy while a rerun fetches again, else the ring. -/
def State.slotBytes (s : State) (q : Nat) (u : UQueue) (c : Context) : Except (XFault × DWord) (List Byte × State) :=
  match c.copyOf q u.ri.toNat with
  | some bs => .ok (bs, s)
  | none => s.ctxRead (plainAgent u.ctx) (u.ring + BitVec.ofNat 64 (64 * (u.ri.toNat % 2 ^ u.n))) 64

/-- Read slot RI and act on it. None while the read waits. -/
def State.fetchSlot (s : State) (q : Nat) (u : UQueue) (c : Context) : Option State :=
  if overdue u.since u.remote s.now then some (s.stopQueue q 5)
  else match s.slotBytes q u c with
  | .error (x, _) => match x.patience with
    | none => some (s.stopQueue q 5)
    | some k =>
      if !goesOn u.since u.remote x then some (s.updQueue q fun u => { u with since := some s.now, remote := x.isRemote })
      else if u.since.any fun a => k ≤ (s.now - a).toNat then some (s.stopQueue q 5)
      else none
  | .ok (bs, s1) =>
    let i := u.ri.toNat
    let p : Packet := { queue := q, index := i, ctx := u.ctx, bytes := bs }
    if p.ph ≠ (i / 2 ^ u.n % 2 == 1) then
      some (s1.updQueue q fun u => { u with reread := some (s.now + 1700), since := none })
    else if !s.recordOk p then some (s1.stopQueue q 4)
    else if p.bad then some (s1.refusePacket p)
    else some (s1.takePacket p)

/-- Whether a processor's table of packets between DONE and CONFIRMED is full (R52). -/
def State.confirmFull (s : State) (q : Nat) : Bool :=
  (s.queues.get? q).any fun u =>
    Config.packetsUnconfirmed ≤ s.procPackets u.proc fun p => !p.inFlight

/-- Whether a packet processor's hub die is trained: die 12 + j carries processors 8j to 8j + 7 (R8, R27). -/
def State.procRuns (s : State) (proc : Nat) : Bool := (s.die (12 + proc / 8)).trained

/-- Whether the processor may read slot RI now (R8, R41, R52, R173). -/
def State.mayFetch (s : State) (q : Nat) (u : UQueue) (c : Context) : Bool :=
  s.procRuns u.proc && u.state = .active && c.closing.isNone && u.ri.toNat < u.wi.toNat &&
    s.procPackets u.proc Packet.inFlight < Config.packetsInFlight &&
    !s.confirmFull q && !c.keptFull q u.ri.toNat

/-- Fetch by an active queue; `again` says that PH did not match before. -/
def State.fetch (s : State) (q : Nat) (again : Bool) : Option State :=
  match s.queues.get? q with
  | none => none
  | some u => match s.contexts.get? u.ctx with
    | none => none
    | some c =>
      if u.reread.isSome ≠ again || (u.reread.any fun t => s.now.ult t) then none
      else if u.state = .active && c.closing.isNone && 2 ^ u.n < u.wi.toNat - u.ri.toNat then some (s.stopQueue q 2)
      else if s.mayFetch q u c then s.fetchSlot q u c
      else none

/-- PACKET_FETCH (R42). -/
def execPacketFetch (queue : Nat) (s : State) : Host.Outcome State Fault Refusal :=
  match s.fetch queue false with
  | some s' => .next s'
  | none => absent s

/-- SLOT_REREAD (R42): 1 µs after a read that found the slot unwritten. -/
def execSlotReread (queue : Nat) (s : State) : Host.Outcome State Fault Refusal :=
  match s.fetch queue true with
  | some s' => .next s'
  | none => absent s

/-! ### Starting a packet (R43, R45, R52) -/

/-- The earlier packets of a ring. -/
def State.earlier (s : State) (p : Packet) : List Packet :=
  (s.packets.filter fun e => e.2.queue == p.queue && e.2.index < p.index).map (·.2)

/-- Whether a fetched packet may start: RI + 1 is written (R42), and it stands in ring order, behind no WAIT, with B behind nothing short of DONE, and with FS
not before full service (R28). -/
def State.mayStart (s : State) (p : Packet) : Bool :=
  let before := s.earlier p
  (s.queues.get? p.queue).any (fun u => !u.held && !s.posted.any fun w => w.ctx == u.ctx && w.at' == u.status) &&
    (before.all fun e => e.state != .fetched && (!e.inFlight || e.type != 4)) &&
    (!p.b || before.all fun e => !e.inFlight) &&
    (!p.fs || s.mod.service == .full || s.mod.service == .degraded)

/-- The indirect parts of a launch. -/
def State.readIndirect (s : State) (p : Packet) :
    Except Indirect ((Nat × Nat × Nat) × List Binding × State) :=
  match s.readGrid p.ctx p with
  | .error e => .error e
  | .ok (g, s1) => match s1.readBinds p.ctx p with
    | .error e => .error e
    | .ok (b, s2) => .ok (g, b, s2)

/-- Whether the access of a packet that waits has waited in vain. -/
def Packet.inVain (p : Packet) (late : Bool) (now : DWord) : Bool := late || overdue p.since p.remote now

/-- An access of a packet waits, from now on unless it did for the same reason. -/
def State.keepWaiting (s : State) (k : Nat) (p : Packet) (x : XFault) (a : DWord) (f : Packet → Packet) : Option State :=
  if goesOn p.since p.remote x then none
  else some (s.updPacket k fun q => { f q with since := some s.now, remote := x.isRemote, stuck := a })

/-- The launch's indirect parts are read after the acquire (R47); none while a read waits. `late` says that the wait has
run out. -/
def State.settleParts (s : State) (k : Nat) (p : Packet) (late : Bool) : Option State :=
  let fault (a : DWord) : State := s.updPacket k fun p => { p with state := .settle, status := 9, detail := a }
  if p.inVain late s.now then some (fault p.stuck)
  else match s.readIndirect p with
  | .ok (g, b, s1) => some (s1.updPacket k fun p => { p with state := .settle, grid := some g, binds := b, since := none })
  | .error .malformed => some (s.updPacket k fun p => { p with state := .settle, status := 4 })
  | .error (.fault x a) => match x.patience with
    | none => some (fault a)
    | some _ => s.keepWaiting k p x a fun p => { p with state := .acquire }

/-- PACKET_ACQUIRE (R45, R52). -/
def execPacketAcquire (queue index : Nat) (s : State) : Host.Outcome State Fault Refusal :=
  let k := packetKey queue index
  match s.packets.get? k with
  | none => absent s
  | some p =>
    if p.state = .fetched && s.mayStart p then
      let s1 := if p.af then s.acquireAll else s
      if p.type = 1 then .next ((s1.settleParts k p false).getD s1)
      else .next (s1.updPacket k fun p => { p with state := .settle })
    else if p.state = .acquire then
      match s.settleParts k p false with
      | some s' => .next s'
      | none => absent s
    else absent s

/-- A packet of a type that is settled and starts its action. -/
def State.settled (s : State) (queue index type : Nat) : Option Packet :=
  match s.packets.get? (packetKey queue index) with
  | some p => if p.state = .settle && p.type = type then some p else none
  | none => none

/-- A packet of a type whose action runs. -/
def State.running (s : State) (queue index type : Nat) : Option Packet :=
  match s.packets.get? (packetKey queue index) with
  | some p => if p.state = .running && p.type = type then some p else none
  | none => none

/-! ### LAUNCH (R47, R58) -/

/-- How a launch's settling ends, when no crew starts: its status. -/
def State.settleStatus (s : State) (p : Packet) (g : Nat × Nat × Nat) : Option Nat :=
  let total := g.1 * g.2.1 * g.2.2
  if p.status ≠ 0 then some p.status.toNat
  else if total = 0 then some 1
  else if 2 ^ 32 < total then some 2
  else if p.perCore = 0 || (p.co && p.perCore * s.countedCores < total) then some 3
  else none

/-- LAUNCH_SETTLE. -/
def execLaunchSettle (queue index : Nat) (s : State) : Host.Outcome State Fault Refusal :=
  let k := packetKey queue index
  match s.settled queue index 1, s.queues.get? queue with
  | some p, some u =>
    let g := p.grid.getD (0, 0, 0)
    match s.settleStatus p g with
    | some st => .next (s.packetDone k st p.detail true)
    | none =>
      let (id, s1) := s.fresh
      let l := launchOf p (.packet queue index) (min p.pri u.cap) u.proc g p.binds s.now
      .next (({ s1 with launches := s1.launches.put id l }).updPacket k fun p =>
        { p with state := .running, launch := some id })
  | _, _ => absent s

/-! ### NOP and SIGNAL (R48) -/

/-- NOP_PACKET. -/
def execNopPacket (queue index : Nat) (s : State) : Host.Outcome State Fault Refusal :=
  match s.settled queue index 0 with
  | some _ => .next (s.packetDone (packetKey queue index) 0 0 true)
  | none => absent s

/-- Whether a page's format and propagation mode let a signal word lie there. -/
def signalPage (y : Phys) (atomic : Bool) : Bool :=
  (y.fmt == 0 || y.fmt == 0xB || y.fmt == 0xC) && !(atomic && y.pm)

/-- What SIGNAL stores. -/
def signalValue (op : Nat) (old x : DWord) : DWord := match op with | 0 => x | 1 => old + x | _ => old - x

/-- Perform a SIGNAL; an access that waits keeps it in RUNNING. -/
def State.signal (s : State) (k : Nat) (p : Packet) (late : Bool) : Option State :=
  let g := engineAgent p.ctx
  let fail : State := s.packetDone k 9 p.word true
  if p.inVain late s.now then some fail
  else match s.translate g .atomic p.word with
  | .error x => match x.patience with
    | none => some fail
    | some _ => s.keepWaiting k p x p.word fun p => { p with state := .running }
  | .ok y =>
    if !signalPage y true || s.poisoned y.addr then some fail
    else
      let v := signalValue p.op (BitVec.ofNat 64 (s.readNat y.addr 8)) p.operand
      some (((s.commitFill g y).writeBytes y.addr (bytesOf 8 v.toNat)).packetDone k 0 0 true)

/-- A SIGNAL of an operation that is to be performed. -/
def State.signalDue (s : State) (queue index op : Nat) : Option State :=
  match (s.settled queue index 3).or (s.running queue index 3) with
  | none => none
  | some p => if p.op = op then s.signal (packetKey queue index) p false else none

/-- SIGNAL_SET. -/
def execSignalSet (queue index : Nat) (s : State) : Host.Outcome State Fault Refusal :=
  match s.signalDue queue index 0 with
  | some s' => .next s'
  | none => absent s

/-- SIGNAL_ADD. -/
def execSignalAdd (queue index : Nat) (s : State) : Host.Outcome State Fault Refusal :=
  match s.signalDue queue index 1 with
  | some s' => .next s'
  | none => absent s

/-- SIGNAL_SUB. -/
def execSignalSub (queue index : Nat) (s : State) : Host.Outcome State Fault Refusal :=
  match s.signalDue queue index 2 with
  | some s' => .next s'
  | none => absent s

/-! ### WAIT (R41, R48) -/

/-- The tick at which a timeout that begins now ends: none for 0, and none when the time base never reaches it. -/
def State.timeoutAt (s : State) (t : DWord) : Option DWord :=
  if t = 0 || 2 ^ 64 ≤ s.now.toNat + t.toNat then none else some (s.now + t)

/-- WAIT_PACKET: the watch begins; its timeout runs from now. -/
def execWaitPacket (queue index : Nat) (s : State) : Host.Outcome State Fault Refusal :=
  match s.settled queue index 4 with
  | none => absent s
  | some p => .next (s.updPacket (packetKey queue index) fun p' =>
      { p' with state := .running, deadline := s.timeoutAt p.timeout })

/-- Read a WAIT's word once more; none while it does not meet the condition. A word that is read at last waits on no leaf or
owner any more. -/
def State.watch (s : State) (k : Nat) (p : Packet) (late : Bool) : Option State :=
  let g := engineAgent p.ctx
  let fail : State := s.packetDone k 9 p.word true
  if p.inVain late s.now then some fail
  else match s.translate g .load p.word with
  | .error x => match x.patience with
    | none => some fail
    | some _ => s.keepWaiting k p x p.word id
  | .ok y =>
    let a := y.readAddr 12
    if !signalPage y false || s.poisoned a then some fail
    else if waitCond p.op (BitVec.ofNat 64 (s.readNat a 8)) p.operand then
      some ((s.commitFill g y).packetDone k 0 0 true)
    else if p.since.isSome then some (s.updPacket k fun p => { p with since := none })
    else none

/-- WAIT_PACKET_MET: the word meets the condition, or its access fails. -/
def execWaitPacketMet (queue index : Nat) (s : State) : Host.Outcome State Fault Refusal :=
  match s.running queue index 4 with
  | none => absent s
  | some p => match s.watch (packetKey queue index) p false with
    | some s' => .next s'
    | none => absent s

/-- WAIT_TIMEOUT: the WAIT completes, the queue stops, and what was fetched behind it stays held. -/
def execWaitTimeout (queue index : Nat) (s : State) : Host.Outcome State Fault Refusal :=
  match s.running queue index 4 with
  | none => absent s
  | some p => match p.deadline with
    | none => absent s
    | some t =>
      if s.now.ult t then absent s
      else
        let s1 := s.updQueue queue fun u => { u with held := u.held || u.state != QState.destroyed }
        let s2 := match s1.queues.get? queue with
          | some u => if u.state = QState.active then s1.stopQueue queue 3 else s1
          | none => s1
        .next (s2.packetDone (packetKey queue index) 7 0 true)

/-! ### COPY (R48) -/

/-- The whole range as a slice, for the hub copy engine. -/
def Packet.slice (p : Packet) : Slice :=
  { team := 0, src := p.src, dst := p.dst, len := p.len, off := 0, dp := false, sp := false, mask := 1, quad := 0,
    opId := 0, promise := 0, cluster := 0 }

/-- The bytes of unit `u` of a COPY. -/
def State.hubUnit (s : State) (p : Packet) (u : Nat) : Except UnitStop (List (Phys × Phys)) :=
  s.unitBytes { ctx := p.ctx, launch := 0, lin := 0 } 0 p.held p.slice (256 * u) (fun _ _ => true)
    (min 256 (p.len - 256 * u))

/-- Bytes that a COPY leaves unspecified (R373). -/
def State.spoilHub (s : State) (p : Packet) : State :=
  (List.range (units p.len - p.unit)).foldl (fun v i => match v.hubUnit p (p.unit + i) with
    | .ok bs =>
      let (n, w) := v.takeFreeN bs.length
      ((List.range bs.length).zip (bs.zip (w.unitData 12 bs))).foldl (fun w e =>
        if Config.freeBool (n + e.1) then w.engineWrite 12 e.2.1.2 e.2.2 else w) w
    | .error _ => v) s

/-- Run the units of a COPY from the next one on: a fault completes it with FAULT, naming the address. -/
def State.runHub (k : Nat) (late : Bool) : Nat → Packet → State → State
  | 0, _, s => s.joinAll.packetDone k 0 0 true
  | n + 1, p, s =>
    if p.inVain late s.now then (s.spoilHub p).joinAll.packetDone k 9 p.stuck true
    else match s.hubUnit p p.unit with
    | .ok bs =>
      match bs.zip (List.range bs.length) |>.find? fun b => s.poisoned (b.1.1.readAddr 12) with
      | some b => (s.spoilHub p).joinAll.packetDone k 9 (p.src + BitVec.ofNat 64 (256 * p.unit + b.2)) true
      | none => State.runHub k late n { p with unit := p.unit + 1, since := none, held := keptPages p.slice p.unit bs }
        ((s.commitUnit p.ctx 12 bs).moveUnit 12 bs)
    | .error .format => s.joinAll.packetDone k 9 p.src true
    | .error (.fault _ x a) =>
      if x.patience.isSome then s.updPacket k fun _ =>
        { p with since := waitSince p.since p.remote x s.now, remote := x.isRemote, stuck := a }
      else (s.spoilHub p).joinAll.packetDone k 9 a true

/-- COPY_PACKET: length 0 completes at once, overlapping ranges with OVERLAP; else the copy starts. -/
def execCopyPacket (queue index : Nat) (s : State) : Host.Outcome State Fault Refusal :=
  let k := packetKey queue index
  match s.settled queue index 5 with
  | none => absent s
  | some p =>
    if p.len = 0 then .next (s.packetDone k 0 0 true)
    else if namedOverlap p.slice p.slice then .next (s.packetDone k 8 0 true)
    else .next (s.updPacket k fun p => { p with state := .running })

/-- COPY_PACKET_DONE. -/
def execCopyPacketDone (queue index : Nat) (s : State) : Host.Outcome State Fault Refusal :=
  match s.running queue index 5 with
  | none => absent s
  | some p => .next (State.runHub (packetKey queue index) false (units p.len - p.unit) p s)

/-! ### NODE (R48, R59, R61) -/

/-- A template image that no launch can be made from. -/
def Packet.templateBad (p : Packet) : Bool :=
  p.headBad || p.type != 1 || p.field 309 3 ≠ 0 || p.field 320 2 ≠ 0 || p.field 328 5 ≠ 0 || p.field 346 3 ≠ 0 ||
    p.field 352 4 ≠ 0 || p.field 360 24 ≠ 0 || 8 < p.bcnt || 4096 < p.scratch

/-- The node that a DEFINE creates. -/
def Packet.node (p : Packet) (template : List Byte) (cap : Nat) : Node :=
  let img : Packet := { p with bytes := template }
  { ctx := p.ctx, key := p.key, te := p.te, recSize := p.nodeSize, strands := p.nodeStrands, stage := p.nodeStage,
    timer := p.nodeTimer, base := p.nodeBase, capacity := p.nodeCapacity, template := template, prio := min img.pri cap }

/-- DEFINE: the node is created DISARMED. None while the template's read waits. R48 gives no status for a template whose
read faults, nor for one that is malformed: FAULT with the address, and PACKET_MALFORMED (DESIGN CHOICE, log 20). -/
def State.define (s : State) (k : Nat) (p : Packet) (cap : Nat) (late : Bool) : Option State :=
  if p.inVain late s.now then some (s.packetDone k 9 p.stuck true)
  else if (s.findNode p.ctx p.key).isSome then some (s.packetDone k 4 0 true)
  else if 4096 ≤ s.nodes.length then some (s.packetDone k 3 0 true)
  else match s.ctxRead (plainAgent p.ctx) p.nodeTemplate 64 with
    | .error (x, a) =>
      if x.patience.isSome then s.keepWaiting k p x a fun p => { p with state := .running }
      else some (s.packetDone k 9 a true)
    | .ok (bs, s1) =>
      if ({ p with bytes := bs } : Packet).templateBad then some (s1.packetDone k 4 0 true)
      else
        let (id, s2) := s1.fresh
        some (({ s2 with nodes := s2.nodes.put id (p.node bs cap) }).packetDone k 0 0 true)

/-- NODE_DEFINE. -/
def execNodeDefine (queue index : Nat) (s : State) : Host.Outcome State Fault Refusal :=
  match (s.settled queue index 2).or (s.running queue index 2), s.queues.get? queue with
  | some p, some u =>
    if p.op ≠ 0 then absent s
    else match s.define (packetKey queue index) p u.cap false with
      | some s' => .next s'
      | none => absent s
  | _, _ => absent s

/-- NODE_ARM; a key that names no node completes with PACKET_MALFORMED (log 20). -/
def execNodeArm (queue index : Nat) (s : State) : Host.Outcome State Fault Refusal :=
  let k := packetKey queue index
  match s.settled queue index 2 with
  | none => absent s
  | some p =>
    if p.op ≠ 1 then absent s
    else match s.findNode p.ctx p.key with
      | none => .next (s.packetDone k 4 0 true)
      | some n => .next (((s.updNode n fun n => { n with armed := true }).launchTiles n |>.serveSpawns n).packetDone k 0 0 true)

/-- NODE_DISARM: what is queued is launched, and the node is disarmed. -/
def execNodeDisarm (queue index : Nat) (s : State) : Host.Outcome State Fault Refusal :=
  let k := packetKey queue index
  match s.settled queue index 2 with
  | none => absent s
  | some p =>
    if p.op ≠ 2 then absent s
    else match s.findNode p.ctx p.key with
      | none => .next (s.packetDone k 4 0 true)
      | some n =>
        .next ((((s.flushNode n).updNode n fun n => { n with armed := false }).serveSpawns n).updPacket k fun p =>
          { p with state := .running })

/-- NODE_DISARM_DRAINED: the node's queue is drained and its launches are DONE. -/
def execNodeDisarmDrained (queue index : Nat) (s : State) : Host.Outcome State Fault Refusal :=
  let k := packetKey queue index
  match s.running queue index 2 with
  | none => absent s
  | some p => match s.findNode p.ctx p.key with
    | none => absent s
    | some id => match s.nodes.get? id with
      | none => absent s
      | some n =>
        if p.op ≠ 2 || n.queued ≠ 0 || !n.launches.isEmpty then absent s
        else .next ((s.updNode id fun n => { n with status := 0, detail := 0 }).packetDone k n.status.toNat n.detail true)

/-! ### The end of a launch (R49, R50, R56, R171) -/

/-- STATUS and DETAIL of a drained launch. -/
def Launch.outcome (l : Launch) : Nat × DWord :=
  if l.closed then (6, 0)
  else match l.halt with
    | some (_, lin, team) => (5, BitVec.ofNat 64 (lin + team * 2 ^ 32))
    | none => (0, 0)

/-- Whether every dispatcher reports a launch drained: no crew of it unclaimed or on its way, and no tracking entry. -/
def State.drained (s : State) (id : Nat) (l : Launch) : Bool :=
  (l.next == l.total || l.closed) && (s.crews.all fun c => c.2.launch != id || c.2.state == .retired) &&
    s.cores.all fun k => (k.2.track.get? id).isNone

/-- A confirming packet becomes TAINTED (R50). -/
def State.taintPacket (s : State) (k : Nat) : State :=
  match s.packets.get? k with
  | none => s
  | some p =>
    let s1 := (s.record p [(0, 4, 3)]).notify p 3 p.status.toNat
    { s1 with packets := s1.packets.del k }

/-- The launch is gone: its channel is free, its crews' records go. -/
def State.dropLaunch (s : State) (id : Nat) : State :=
  { s with launches := s.launches.del id, channels := s.channels.filter fun c => c.2.launch != id,
           crews := s.crews.filter fun c => c.2.launch != id }

/-- Whether a drained launch waits for an entry of that table: one that used a core is confirmed later. -/
def State.awaitsEntry (s : State) (l : Launch) : Bool :=
  match l.source with
  | .packet q _ => !l.cores.isEmpty && s.confirmFull q
  | .node _ => false

/-- LAUNCH_DRAINED; a processor whose confirming table is full lets the packet reach DONE when an entry frees. -/
def execLaunchDrained (launch : Nat) (s : State) : Host.Outcome State Fault Refusal :=
  match s.launches.get? launch with
  | none => absent s
  | some l =>
    if !s.drained launch l || s.awaitsEntry l then absent s
    else
      let s1 := (s.releaseCores l.cores).dropLaunch launch
      let (st, detail) := l.outcome
      match l.source with
      | .node n =>
        let s2 := (if st = 0 then s1 else s1.nodeStatus n st detail).updNode n fun n =>
          { n with launches := n.launches.filter fun e => e.1 != launch }
        .next ((s2.serveSpawns n).closeCheck l.ctx)
      | .packet q i =>
        let k := packetKey q i
        let used := l.cores.map fun c => (c, l.placed.getD 0)
        let s2 := (s1.updPacket k fun p => { p with cores := used }).packetDone k st detail l.cores.isEmpty
        .next (if l.tainted then s2.taintPacket k else s2)

/-- PACKET_CONFIRMED: every core of the launch has passed an assay that began after its first crew was placed. -/
def execPacketConfirmed (queue index : Nat) (s : State) : Host.Outcome State Fault Refusal :=
  let k := packetKey queue index
  match s.packets.get? k with
  | none => absent s
  | some p =>
    if p.state = .confirming && p.cores.all fun c => c.2.ult (s.core c.1).lastPass then
      let s1 := (s.record p [(24, 8, s.now.toNat), (0, 4, 2)]).notify p 2 p.status.toNat
      .next { s1 with packets := s1.packets.del k }
    else absent s

end Sys2Proof.Machine
end

