-- ==== Sys2Proof/Machine/Crews.lean ====
section
/-! DEFINITION. The dispatchers: placing crews (R53 to R58), migration and the image (R69, R70, R91, R154, R169), the
acknowledgement of stores (R57), and the trailing copy of a touchstone pair (R355). -/

namespace Sys2Proof.Machine

open Sys2Proof

/-! ### The books of a core (R53) -/

/-- Whether a crew occupies its core. -/
def Crew.placed (c : Crew) : Bool :=
  c.state == .claimed || c.state == .loading || c.state == .resident || c.state == .stopping

/-- What is free on a core: crew records, slots and granules by cluster, scratch granules, winner lists. -/
structure Books where
  crews : Nat
  clusters : List (Nat × Nat)
  scratch : Nat
  wlists : Nat
  deriving DecidableEq, Repr

/-- The crews on a core, with their launches. -/
def State.onCore (s : State) (core : Nat) : List (Crew × Launch) :=
  s.crews.filterMap fun e =>
    if e.2.core = core && e.2.placed then (s.launches.get? e.2.launch).map fun l => (e.2, l) else none

/-- Granules that a slot's party takes. -/
def State.slotGranules (s : State) (p : Party) : Nat :=
  match s.launchOf? p.crew with
  | none => 0
  | some l => teamGranules l.vregs l.strands

def State.books (s : State) (core : Nat) : Books :=
  let cs := s.onCore core
  { crews := 16 - cs.length,
    clusters := [0, 1, 2, 3].map fun i =>
      let k := s.cluster (4 * core + i)
      (16 - k.slots.length, 192 - (k.slots.map fun e => s.slotGranules e.2).foldl (· + ·) 0),
    scratch := 64 - (cs.map fun c => c.1.granules.length).foldl (· + ·) 0,
    wlists := 8 - (cs.map fun c => c.2.wlists).foldl (· + ·) 0 }

/-- Whether the core has, or can take, a tracking entry for a launch (R57). -/
def State.trackable (s : State) (core launch : Nat) : Bool :=
  ((s.core core).track.get? launch).isSome || (s.core core).track.length < 16

/-- The cluster for a team (R55): among those with a free slot, the one with the most free granules. -/
def bestCluster (cl : List (Nat × Nat)) : Option Nat :=
  (List.range cl.length).foldl (fun b i =>
    let x := cl.getD i (0, 0)
    if x.1 = 0 then b
    else match b with
      | none => some i
      | some j => if (cl.getD j (0, 0)).2 < x.2 then some i else b) none

/-- Put `n` teams of `g` granules each on the clusters of a core. -/
def placeTeams (g : Nat) : Nat → List (Nat × Nat) → Option (List Nat × List (Nat × Nat))
  | 0, cl => some ([], cl)
  | n + 1, cl => match bestCluster cl with
    | none => none
    | some i =>
      let x := cl.getD i (0, 0)
      if x.2 < g then none
      else match placeTeams g n (cl.set i (x.1 - 1, x.2 - g)) with
        | none => none
        | some (is, cl') => some (i :: is, cl')

/-- Put one crew of a launch on a core: the clusters of its teams, and what is left. -/
def Books.fit (b : Books) (l : Launch) : Option (List Nat × Books) :=
  let sc := (l.scratch + 63) / 64
  if b.crews = 0 || b.scratch < sc || b.wlists < l.wlists then none
  else match placeTeams (teamGranules l.vregs l.strands) l.teams b.clusters with
    | none => none
    | some (is, cl) =>
      some (is, { crews := b.crews - 1, clusters := cl, scratch := b.scratch - sc, wlists := b.wlists - l.wlists })

/-- How many crews of a launch fit at once, up to `fuel`. -/
def Books.count (l : Launch) : Nat → Books → Nat
  | 0, _ => 0
  | n + 1, b => match b.fit l with
    | none => 0
    | some (_, b') => Books.count l n b' + 1

/-- Whether a dispatcher places crews on a core: its die is trained and in service, and neither is retired nor under
assay (R22, R27, R171). -/
def State.openCore (s : State) (core : Nat) : Bool :=
  let d := s.die (dieOfCore core)
  core < Config.cores && d.trained && !d.failed && !d.retired && !(s.core core).retired &&
    !(d.assay.any fun a => a.1 == core)

/-- The crews whose trailing copies hold a slot of a core (R174). -/
def State.trailsOn (s : State) (core : Nat) : List Nat :=
  [0, 1, 2, 3].flatMap fun i => ((s.cluster (4 * core + i)).slots.filter fun e => e.2.kind == .trail).map (·.2.crew)

/-- Whether crews, or trailing copies, are on a core. -/
def State.occupied (s : State) (core : Nat) : Bool := !(s.onCore core).isEmpty || !(s.trailsOn core).isEmpty

/-- How many more cores of a die may take crews: one of those not retired is kept for assay (R58, R171). What comes back
(`back`) from a core under assay may take the one that was kept; what is new leaves it that one. -/
def State.roomOf (s : State) (back : Bool) (die : Nat) : Nat :=
  let assayed (k : Nat) : Bool := (s.die die).assay.any fun a => a.1 == k
  let live := ((List.range 32).map (32 * die + ·)).filter fun k => !(s.core k).retired && !(back && assayed k)
  live.length - (live.filter s.occupied).length - (if back && (s.die die).assay.isSome then 0 else 1)

/-- Whether a core may take crews: an open one that has some already, or that need not be kept. -/
def State.takesCrews (s : State) (back : Bool) (core : Nat) : Bool :=
  s.openCore core && (s.occupied core || 0 < s.roomOf back (dieOfCore core))

/-- Whether a crew of a launch, a new one or one that comes back, fits a core. -/
def State.fitsCore (s : State) (back : Bool) (id : Nat) (l : Launch) (core : Nat) : Bool :=
  s.takesCrews back core && s.trackable core id && ((s.books core).fit l).isSome

/-- How many crews of a launch a die can take at this moment. -/
def State.dieHolds (s : State) (id : Nat) (l : Launch) (die : Nat) : Nat :=
  let cores := ((List.range 32).map (32 * die + ·)).filter fun c => s.openCore c && s.trackable c id
  let count (c : Nat) : Nat := Books.count l 16 (s.books c)
  let fresh := ((cores.filter (!s.occupied ·)).map count).filter (· != 0)
  (((cores.filter s.occupied).map count) ++ fresh.take (s.roomOf false die)).foldl (· + ·) 0

/-- Whether a cooperative grid can be reserved at this moment, channel included (R58, R64). -/
def State.gridFits (s : State) (id : Nat) (l : Launch) : Bool :=
  (l.channel.isSome || s.channels.length < 16) &&
  l.total - l.next ≤ ((List.range 12).map (s.dieHolds id l)).foldl (· + ·) 0

/-! ### The order of launches (R54) -/

def Launch.pending (l : Launch) : Bool := l.next < l.total && !l.closed

/-- Priority, then arrival, then the processor. -/
def Launch.before (a b : Nat × Launch) : Bool :=
  let x := a.2
  let y := b.2
  if x.prio ≠ y.prio then y.prio < x.prio
  else if x.started ≠ y.started then x.started.ult y.started
  else if x.proc ≠ y.proc then x.proc < y.proc
  else a.1 < b.1

/-- The pending launches ahead of one. -/
def State.ahead (s : State) (e : Nat × Launch) : List (Nat × Launch) :=
  s.launches.filter fun m => m.1 != e.1 && m.2.pending && Launch.before m e

/-- Whether a cooperative launch that stands first of its priority holds back a launch (R54). -/
def State.heldBack (s : State) (e : Nat × Launch) : Bool :=
  s.launches.any fun m => m.1 != e.1 && m.2.pending && m.2.co && e.2.prio ≤ m.2.prio &&
    !(s.ahead m).any fun o => o.2.prio == m.2.prio

/-- Whether a launch has a crew that fits a core of a die. -/
def State.fitsDie (s : State) (e : Nat × Launch) (die : Nat) : Bool :=
  (!e.2.co || s.gridFits e.1 e.2) && (List.range 32).any fun i => s.fitsCore false e.1 e.2 (32 * die + i)

/-- Whether records that a node launch may read are still to be written (R63): a launch of that node waits for them. -/
def State.recordsDue (s : State) (l : Launch) : Bool :=
  match l.source with
  | .node _ => s.posted.any fun w => w.ctx == l.ctx
  | .packet .. => false

/-- Whether the dispatcher of a core's die may place the next crew of a launch there: no crew is SAVED (R69), no
cooperative launch holds it back, and no launch ahead has a crew that fits the die. -/
def State.mayPlace (s : State) (e : Nat × Launch) (core : Nat) : Bool :=
  e.2.pending && !s.recordsDue e.2 && s.fitsCore false e.1 e.2 core && (!e.2.co || s.gridFits e.1 e.2) &&
    (s.crews.all fun c => c.2.state != .saved) && !s.heldBack e &&
    (s.ahead e).all fun m => !s.fitsDie m (dieOfCore core)

/-! ### Placing a crew (R55, R56, R74) -/

/-- The launched lanes of a team (R61, R74). -/
def Launch.lanes (l : Launch) : Mask :=
  match l.source with
  | .node _ => Mask.upTo (min l.tileCount (32 * l.strands))
  | .packet .. => Mask.upTo (32 * l.strands)

/-- A team at its start (R74). -/
def Launch.team (l : Launch) (k cluster slot : Nat) : Team :=
  let args (th : Thread) : Thread := (th.writeS 0 l.args.lo).writeS 1 l.args.hi
  { th := args {}, launched := l.lanes, paths := [{ pc := l.entry, mask := l.lanes }],
    chaser := { th := (args {}).writeS 2 (BitVec.ofNat 32 k), pc := l.chaser }, cluster := cluster, slot := slot }

/-- The lowest free slot of a cluster. -/
def Cluster.freeSlot (k : Cluster) : Nat := ((List.range 16).find? fun i => (k.slots.get? i).isNone).getD 0

/-- Give the teams of a crew their slots, in order, in clusters of a core. -/
def State.takeSlots (s : State) (crew core : Nat) : Nat → List Nat → List (Nat × Nat) × State
  | _, [] => ([], s)
  | t, i :: is =>
    let k := 4 * core + i
    let slot := (s.cluster k).freeSlot
    let s1 := s.updCluster k fun c => { c with slots := c.slots.put slot { crew := crew, team := t, kind := .team } }
    let (r, s2) := s1.takeSlots crew core (t + 1) is
    ((k, slot) :: r, s2)

/-- The lowest free scratch granules of a core. -/
def State.takeGranules (s : State) (core n : Nat) : List Nat :=
  let used := (s.onCore core).flatMap fun c => c.1.granules
  ((List.range 64).filter fun g => !used.contains g).take n

/-- Bytes of memory that the spec leaves unspecified: free values (R74, R373). -/
def State.scramble (s : State) (a n : Nat) : State :=
  let (k, s1) := s.takeFreeN n
  { s1 with mem := s1.mem.filter (·.1 < a) ++
      ((List.range n).map fun i => (a + i, Config.freeByte (k + i))).filter (fun e => e.2 != memDefault) ++
      s1.mem.filter (a + n ≤ ·.1) }

/-- A crew takes its scratch frames: they are owned by its context (R93). -/
def State.ownGranules (s : State) (core ctx : Nat) (gs : List Nat) : State :=
  gs.foldl (fun u g => u.setOwner (granuleAddr core g / 65536) ctx) s

/-- A launch uses a core from now on (R171). -/
def Core.use (k : Core) (launch : Nat) (now : DWord) : Core :=
  { k with launches := if k.launches.any fun e => e.1 == launch then k.launches else k.launches ++ [(launch, now)] }

/-- A launch has used a core (R171): it is confirmed once the core has passed assay (R50). -/
def State.useCore (s : State) (launch core : Nat) : State :=
  s.updLaunch launch fun l => { l with cores := if l.cores.contains core then l.cores else l.cores ++ [core] }

/-- A core hosts a launch: its tracking entry, and the note of its use for assay (R57, R171). -/
def State.host (s : State) (core launch : Nat) : State :=
  s.updCore core fun k => { k.use launch s.now with
    track := if (k.track.get? launch).isSome then k.track else k.track.put launch {} }

/-- The lowest free channel of the tree (R64). -/
def State.freeChannel (s : State) : Nat := ((List.range 16).find? fun i => (s.channels.get? i).isNone).getD 0

/-- A cooperative launch takes its channel with its first crew. -/
def State.takeChannel (s : State) (id : Nat) (l : Launch) : State :=
  if !l.co || l.channel.isSome then s
  else
    let ch := s.freeChannel
    ({ s with channels := s.channels.put ch { launch := id } }).updLaunch id fun l => { l with channel := some ch }

/-- A core drops every unpinned line of its instruction caches and its clusters' (R233). -/
def State.dropUnpinned (s : State) (core : Nat) : State :=
  let pinned (e : Nat × BitVec 1024) : Bool := ((s.core core).pins.get? e.1).isSome
  [0, 1, 2, 3].foldl (fun u i => u.updCluster (4 * core + i) fun k => { k with icache := k.icache.filter pinned })
    (s.updCore core fun k => { k with icache := k.icache.filter pinned })

/-- A node launch's records are visible to its crew: no cluster of the crew's core keeps a line over them, and the core's
die sees them as they are (R63). -/
def State.showRecords (s : State) (core : Nat) (l : Launch) : State :=
  match l.source with
  | .node k =>
    let sp := s.spans (plainAgent l.ctx) (dieOfCore core) l.tileBase (l.tileCount * (s.nodes.get? k).elim 0 (·.recSize))
    ([0, 1, 2, 3].foldl (fun u i => u.invalidate (4 * core + i) (inSpans sp)) s).unview (dieOfCore core) fun a => inSpans sp (a / 128)
  | _ => s

/-- Reserve a core for the next crew of a launch, in the clusters given. -/
def State.placeCrew (s : State) (id : Nat) (l : Launch) (core : Nat) (is : List Nat) : State :=
  let (crew, s1) := ((s.showRecords core l).takeChannel id l).fresh
  let gs := s1.takeGranules core ((l.scratch + 63) / 64)
  let (slots, s2) := s1.takeSlots crew core 0 is
  let teams := (List.range slots.length).map fun k =>
    let x := slots.getD k (0, 0)
    (k, l.team k x.1 x.2)
  let c : Crew :=
    { ctx := l.ctx, launch := id, lin := l.next, x := l.next % l.gx, y := l.next / l.gx % l.gy,
      z := l.next / (l.gx * l.gy), core := core, state := if l.co then .claimed else .loading, teams := teams,
      granules := gs }
  let s3 := gs.foldl (fun u g => u.scramble (granuleAddr core g) 65536)
    (((if l.af && !l.cores.contains core then s2.dropUnpinned core else s2).ownGranules core l.ctx gs).host core id)
  let s4 := (({ s3 with crews := s3.crews.put crew c }).useCore id core).updLaunch id fun l =>
    { l with next := l.next + 1, placed := l.placed.or (some s.now) }
  if l.co && l.next + 1 = l.total then
    { s4 with crews := s4.crews.map fun e =>
        if e.2.launch = id && e.2.state = .claimed then (e.1, { e.2 with state := .loading }) else e }
  else s4

/-- Reserve cores for the next `n` crews of a launch, each the first that fits. -/
def State.placeGrid (id : Nat) : Nat → State → Option State
  | 0, s => some s
  | n + 1, s => match s.launches.get? id with
    | none => none
    | some l => match (List.range Config.cores).find? (s.fitsCore false id l) with
      | none => none
      | some core => match (s.books core).fit l with
        | none => none
        | some (is, _) => State.placeGrid id n (s.placeCrew id l core is)

/-- CREW_PLACE (R54 to R58): a dispatcher claims the next index of a launch and reserves a core for it; a cooperative grid
is reserved whole at that moment, and its crews then load. -/
def execCrewPlace (launch core : Nat) (s : State) : Host.Outcome State Fault Refusal :=
  match s.launches.get? launch with
  | none => absent s
  | some l =>
    if !s.mayPlace (launch, l) core then absent s
    else match (s.books core).fit l with
      | none => absent s
      | some (is, _) =>
        let s1 := s.placeCrew launch l core is
        if !l.co then .next s1
        else match s1.placeGrid launch (l.total - l.next - 1) with
          | none => absent s
          | some t => .next t

/-- CREW_LOADED (R56): every team slot is initialised, and the chasers start where the launch names one. -/
def execCrewLoaded (crew : Nat) (s : State) : Host.Outcome State Fault Refusal :=
  match s.crews.get? crew with
  | none => absent s
  | some c =>
    if c.state ≠ .loading then absent s
    else
      let runs := (s.launches.get? c.launch).any fun l => l.chaser != 0
      .next (s.updCrew crew fun c => { c with
        state := .resident,
        teams := if runs then c.teams.map fun t => (t.1, { t.2 with chaser := { t.2.chaser with run := .running } })
          else c.teams })

/-! ### Acknowledgements (R57) -/

/-- OUTSTANDING_ACK: the owner has performed a SPAWN record, or a remote signal. The units of copies and the rows of
epilogues are acknowledged as their operation completes. -/
def execOutstandingAck (core launch : Nat) (signal : Bool) (s : State) : Host.Outcome State Fault Refusal :=
  match (s.core core).track.get? launch with
  | none => absent s
  | some e =>
    let set (e : Track) : State :=
      (s.updCore core fun k => { k with track := k.track.put launch e }).freeTrack core launch
    if signal then
      (if e.signals = 0 then absent s else .next (set { e with signals := e.signals - 1 }))
    else if e.spawned = 0 then absent s
    else .next (set { e with stores := e.stores - 1, spawned := e.spawned - 1 })

/-! ### The image (R69, R91, R169) -/

/-- The pairs of a crew. -/
def State.pairsOf (s : State) (crew : Nat) : List (Nat × Pair) := s.pairs.filter fun e => e.1 / 16 == crew

/-- The copies of a crew on its core. -/
def State.copiesOf (s : State) (crew : Nat) (c : Crew) : List CopyOp := (s.core c.core).copies.filter fun o => o.crew == crew

/-- Whether a thread stands where a stop finds it: at a clause boundary, or blocked in a push or pop (R91). -/
def Thread.stopped (th : Thread) : Bool :=
  match th.issue with
  | none => true
  | some c => match c.hold with
    | some (.queue, _) => true
    | _ => false

/-- Whether a team, or a trailing copy, stands where a stop finds it, no clause of it still to be resumed by TRET. -/
def Team.atRest (t : Team) : Bool := t.th.stopped && (!t.resuming || t.halted || t.retired)

/-- Whether an access of a thread waits in the walker, or for a remote owner, and is so in flight (R108, R109, R169). -/
def Thread.walking (th : Thread) : Bool :=
  match th.issue with
  | none => false
  | some c => match c.hold with
    | some (.migrating _, _) | some (.remote _, _) => true
    | _ => false

/-- Whether a crew can be sealed: its teams and their trailing copies can stop, no access of a chaser waits, and every copy
whose slices have all arrived is complete or blocked on a fault (R69, R91, R169). -/
def State.sealable (s : State) (crew : Nat) (c : Crew) : Bool :=
  (c.teams.all fun t => t.2.atRest && !t.2.chaser.th.walking) && ((s.pairsOf crew).all fun q => q.2.trail.atRest) &&
    (s.copiesOf crew c).all fun o => o.resume.isSome

/-- A team, or a trailing copy, stops: a push or pop that blocks it and its WAITs are left to be repeated (R91), what is aimed
at it is complete, and it performs a FENCE.SC (R134). -/
def State.restTeam (s : State) (p : Party) : State :=
  match s.team? p with
  | none => s
  | some t => (((s.restQueue p).updThread p Thread.interrupt).settleParty p).renew t.cluster fun _ => true

/-- Everything aimed at the teams of a crew is complete, and their stores are performed (R69). -/
def State.settleCrew (s : State) (crew : Nat) (c : Crew) : State :=
  c.teams.foldl (fun u t =>
    let p (k : PartyKind) : Party := { crew := crew, team := t.1, kind := k }
    (((u.restChaser (p .chaser)).updThread (p .chaser) Thread.interrupt).restTeam (p .trail)).restTeam (p .team)) s

/-- Whether the tile of a core belongs to a crew. -/
def Core.tileOf (k : Core) (crew : Nat) : Option (Nat × Bool × Tbl Word) :=
  match k.tileOwner with
  | some (c, t) => if c = crew then some (t, k.tileInt, k.tile) else none
  | none => none

/-- A team as an image carries it: bypass latches never enter one (R74). -/
def Team.sealed (t : Team) : Team := { t with resumeAt := t.resumeAt.map fun r => { r with latches := [] } }

/-- The image of a settled crew: its record, with its scratch, its tile, its Cupel operations, and its blocked copies
beside those that wait for slices. -/
def State.image (s : State) (crew : Nat) (c : Crew) (scratch : Nat) : Crew :=
  let k := s.core c.core
  { c with
    image := true, teams := c.teams.map fun t => (t.1, t.2.sealed), tile := (k.tileOf crew).or c.tile, copies := c.copies ++ s.copiesOf crew c,
    cupel := (k.cupel.filter fun o => o.crew == crew).map fun o => { o with weight := some (o.weight.getD k.weight), pages := [] },
    scratch := (List.range (1024 * scratch)).foldl (fun t i => Tbl.write 0 t i (s.readByte (c.scratchAddr i))) [] }

/-- What a sealed crew leaves on its core. -/
def State.leaveCore (s : State) (crew : Nat) (c : Crew) : State :=
  let s1 := s.updCore c.core fun k => { k with
    copies := k.copies.filter fun o => o.crew != crew, cupel := k.cupel.filter fun o => o.crew != crew,
    tileOwner := if (k.tileOf crew).isSome then none else k.tileOwner }
  let s2 := (s1.freeCrew crew .saved).freeTrack c.core c.launch
  (s2.pairsOf crew).foldl (fun u q =>
    let v := (u.updCluster q.2.trail.cluster fun k => { k with slots := k.slots.filter fun e => e.2.crew != crew }).restartScan
      q.2.core
    { v with pairs := v.pairs.upd q.1 fun r => { r with trail := r.trail.sealed } }) s2

/-- The scratch of a crew's launch, in KiB. -/
def State.scratchOf (s : State) (c : Crew) : Nat := (s.launches.get? c.launch).elim 0 (·.scratch)

/-- The crew that a die has in migration. -/
def State.migrating (s : State) (die : Nat) : Option Nat :=
  (s.die die).migrating.filter fun c => (s.crews.get? c).any fun x => x.state == .stopping || x.state == .saved

/-- The cases in which a dispatcher migrates the crews of a core (R69): its hot-spot sensor has read above 100 °C for 1,700
ticks, it is drained for assay, or its die is retired. -/
def State.mustLeave (s : State) (core : Nat) : Bool :=
  let d := s.die (dieOfCore core)
  d.retired || (d.assay.any fun a => a.1 == core) || (s.core core).hot.any fun t => 1700 ≤ (s.now - t).toNat

/-- MIGRATION_TRIGGER (R69): a crew of a hot core (its own or that of a trailing copy of it), of a core that is drained
for assay, or of a retired die is selected, and stops issuing at its clause boundaries. -/
def execMigrationTrigger (core crew : Nat) (s : State) : Host.Outcome State Fault Refusal :=
  match s.crews.get? crew with
  | none => absent s
  | some c =>
    if c.state ≠ .resident || (c.core ≠ core && !(s.trailsOn core).contains crew) || !s.mustLeave core ||
        (s.migrating (dieOfCore core)).isSome then absent s
    else .next ((s.updCrew crew fun c => { c with state := .stopping, stoppedAt := s.now }).updDie (dieOfCore core)
      fun d => { d with migrating := some crew })

/-- IMAGE_SEALED (R56, R169). -/
def execImageSealed (crew : Nat) (s : State) : Host.Outcome State Fault Refusal :=
  match s.crews.get? crew with
  | none => absent s
  | some c =>
    if c.state ≠ .stopping || !s.sealable crew c then absent s
    else
      let s1 := (s.settleCrew crew c).keepSources crew
      match s1.crews.get? crew with
      | none => absent s
      | some c1 =>
        let img := s1.image crew c1 (s1.scratchOf c1)
        .next ((s1.leaveCore crew c1).updCrew crew fun _ => { img with state := .saved, granules := [] })

/-! ### Restoring an image (R69, R70) -/

/-- Whether a team of an image waits on a SHOOT (R129, R169). -/
def Crew.shooting (c : Crew) : Bool :=
  c.teams.any fun t => t.2.allWaits.any fun w => match w with | .shoot .. => true | _ => false

/-- A core for the trailing copy of a pair, with its cluster: any but the leading team's own (R174, R355). -/
def State.trailHome (s : State) (back : Bool) (l : Launch) (avoid core : Nat) : Option Nat :=
  let g := teamGranules l.vregs l.strands
  if core = avoid || !s.takesCrews back core then none
  else
    let cl := (s.books core).clusters
    match bestCluster cl with
    | none => none
    | some i => if (cl.getD i (0, 0)).2 < g then none else some (4 * core + i)

/-- Give a trailing copy a slot in a cluster, whose core its launch then uses (R171). -/
def State.seatTrail (s : State) (p : Party) (cluster : Nat) : State :=
  let slot := (s.cluster cluster).freeSlot
  let launch := (s.crews.get? p.crew).elim 0 (·.launch)
  (((s.updCore (coreOfCluster cluster) fun k => k.use launch s.now).useCore launch (coreOfCluster cluster)).updCluster cluster fun k =>
    { k with slots := k.slots.put slot (asTrail p) }).updPair p fun q =>
    { q with core := coreOfCluster cluster, trail := { q.trail with cluster := cluster, slot := slot } }

/-- Seat every trailing copy of a crew, on the first core with room. -/
def State.seatPairs (s : State) (l : Launch) (core : Nat) (qs : List (Nat × Pair)) : Option State :=
  qs.foldl (fun u q => u.bind fun u =>
    ((List.range Config.cores).findSome? (u.trailHome true l core)).map fun k =>
      (u.seatTrail { crew := q.1 / 16, team := q.1 % 16, kind := .team } k).renew k fun _ => true) (some s)

/-- The deadline of a SLEEP in progress moves by `d` (R247). -/
def Wait.rebase (w : Wait) (d : DWord) : Wait :=
  match w with
  | .sleep t => .sleep (t + d)
  | w => w

/-- Every promise that a team, or a copy of it, holds moves by `d`, and so do the deadlines of its SLEEP and its
chaser's (R70, R247); its paths and its chaser come back by no falling through (R221). -/
def Team.rebase (t : Team) (d : DWord) : Team :=
  { t with engines := t.engines.map fun e => if e.done then e else { e with promise := e.promise + d, stopped := true },
           th := { t.th with waits := t.th.waits.map (·.rebase d) },
           paths := t.paths.map fun p => { p with seq := false },
           chaser := { t.chaser with seq := false,
                                     th := { t.chaser.th with waits := t.chaser.th.waits.map (·.rebase d) } } }

def CopyOp.rebase (o : CopyOp) (d : DWord) : CopyOp :=
  { o with promise := o.promise + d, since := o.since.map (· + d),
           slices := o.slices.map fun sl => { sl with promise := sl.promise + d } }

/-- The engines of the new core take the crew's operations after those they have accepted (R154, R335). -/
def Core.takeOps (k : Core) (cupel : List CupelOp) (copies : List CopyOp) : Core :=
  { k with
    cupel := k.cupel ++ cupel, cupelPromise := cupel.foldl (fun p o => later p o.promise) k.cupelPromise,
    copies := k.copies ++ copies, copyPromise := copies.foldl (fun p o => later p o.promise) k.copyPromise }

/-- Put an image back on a core, in the clusters given, `d` ticks after its crew was stopped. Its tile stays with the crew
until the engine reaches an operation of its team (R154). -/
def State.restore (s : State) (crew : Nat) (img : Crew) (l : Launch) (core : Nat) (is : List Nat) (d : DWord) :
    State :=
  let gs := s.takeGranules core ((l.scratch + 63) / 64)
  let live := img.teams.map (·.1)
  let (slots, s1) := s.takeSlots crew core 0 is
  let teams := img.teams.map fun t =>
    let x := slots.getD t.1 (0, 0)
    (t.1, { t.2.rebase d with cluster := x.1, slot := x.2 })
  let c : Crew := { img with
    core := core, state := .resident, granules := gs, teams := teams, image := false, scratch := [], cupel := [],
    copies := (img.copies.filter (·.resume.isNone)).map (·.rebase d) }
  let s2 := ((s1.ownGranules core img.ctx gs).host core img.launch).useCore img.launch core
  let s3 := (List.range (1024 * l.scratch)).foldl (fun u i => u.writeByte (c.scratchAddr i) (img.scratch.read 0 i))
    { s2 with crews := s2.crews.put crew c }
  let s4 := s3.updCore core fun k =>
    (k.takeOps (img.cupel.map fun o => { o with promise := o.promise + d, since := o.since.map (· + d) })
      ((img.copies.filter (·.resume.isSome)).map (·.rebase d)))
  let s5 := slots.foldl (fun u x => u.renew x.1 fun _ => true) s4
  live.foldl (fun u t => { u with pairs := u.pairs.upd (pairKey crew t) fun q => q.each (Team.rebase · d) }) s5

/-- CREW_RESTORE (R69, R70): a core with room takes a SAVED crew, and issue resumes. -/
def execCrewRestore (crew core : Nat) (s : State) : Host.Outcome State Fault Refusal :=
  match s.crews.get? crew with
  | none => absent s
  | some c => match s.launches.get? c.launch with
    | none => absent s
    | some l =>
      if c.state ≠ .saved || c.shooting || !s.fitsCore true c.launch l core then absent s
      else match (s.books core).fit l with
        | none => absent s
        | some (is, _) => match (s.restore crew c l core is (s.now - c.stoppedAt)).seatPairs l core (s.pairsOf crew) with
          | none => absent s
          | some s' => .next s'

/-! ### TRAILING_COPY_PLACE (R174, R355) -/

/-- The trailing copy as it starts: the leading team's registers and state, with queues that receive what it pops. -/
def Team.trailing (t : Team) : Team :=
  { t with role := .trailing, pending := [], copyStatus := [], chaser := {},
           queues := (List.range 16).map fun q => { t.queue q with entries := [] } }

/-- TRAILING_COPY_PLACE: another core has room, and the team that waits at TSBEGIN goes on as the leading copy. The
stores it made before are visible to both copies. -/
def execTrailingCopyPlace (p : Party) (core : Nat) (s : State) : Host.Outcome State Fault Refusal :=
  match s.crews.get? p.crew, s.team? (asLead p), s.launchOf? p.crew with
  | some c, some t, some l =>
    if c.state ≠ .resident || !t.th.waits.contains .tsPlace then absent s
    else match s.trailHome false l c.core core with
      | none => absent s
      | some k =>
        let lead := asLead p
        let s1 := ((s.settleParty lead).writeBack t.cluster fun _ => true).renew k fun _ => true
        let s2 := s1.updTeam lead fun u => { u.dropWaits (· == .tsPlace) with role := .leading, tsRetry := 0 }
        match s2.team? lead with
        | none => absent s
        | some u =>
          let q : Pair := { trail := u.trailing, core := core, leadCp := u, trailCp := u.trailing }
          let s3 := ({ s2 with pairs := s2.pairs.put (pairKey p.crew p.team) q }).seatTrail lead k
          .next (s3.checkpoint lead)
  | _, _, _ => absent s

end Sys2Proof.Machine
end

