-- ==== Sys2Proof/Machine/Ingot.lean ====
section
/-! DEFINITION. Ingots (R172), and the rerun from the latest sealed one (R173). -/

namespace Sys2Proof.Machine

open Sys2Proof

/-! ### Leaves -/

/-- The valid entries of a table of `n` entries, with their number and place. -/
def State.entries (s : State) (table n : Nat) : List (Nat × BitVec 128 × Nat) :=
  (List.range n).filterMap fun i =>
    let a := table + 16 * i
    let e := s.readEntry a
    if leafV e then some (i, e, a) else none

/-- Every leaf of a context: its page (VA bits 47:16), image and place, and whether it maps 256 MiB (R98). -/
def State.leaves (s : State) (ctx : Nat) : List (Nat × BitVec 128 × Nat × Bool) :=
  match s.contexts.get? ctx with
  | none => []
  | some c => (s.entries c.root 256).flatMap fun e2 =>
    (s.entries (nextTable e2.2.1) 4096).flatMap fun e1 =>
      let top := (e2.1 * 4096 + e1.1) * 4096
      if leafL e1.2.1 then [(top, e1.2.1, e1.2.2, true)]
      else (s.entries (nextTable e1.2.1) 4096).map fun e0 => (top + e0.1, e0.2.1, e0.2.2, false)

/-- The dirty leaves of tiers 0 to 2 of this F7. -/
def State.dirtyLeaves (s : State) (ctx : Nat) : List (Nat × BitVec 128 × Nat × Bool) :=
  (s.leaves ctx).filter fun l => leafD l.2.1 && leafTier l.2.1 ≤ 2 && leafNode l.2.1 == s.node

/-- The 64 KiB frames of a leaf. -/
def leafFrames (l : Nat × BitVec 128 × Nat × Bool) : List Nat :=
  (List.range (if l.2.2.2 then 4096 else 1)).map fun i => (leafFrame l.2.1 + i) * 65536

/-- The listed bytes of a frame, by offset. -/
def State.frameBytes (s : State) (a : Nat) : Tbl Byte :=
  (s.mem.filter fun e => decide (a ≤ e.1) && decide (e.1 < a + 65536)).map fun e => (e.1 - a, e.2)

/-! ### Writing an ingot (R172) -/

/-- The contexts of a scope, and its crews. -/
def State.scopeContexts (s : State) (scope : Nat) : List Nat :=
  if scope = 0 then s.contexts.keys else s.contexts.keys.filter (· == scope)
def inScopeOf (scope ctx : Nat) : Bool := scope == 0 || ctx == scope

def State.scopeCrews (s : State) (scope : Nat) : Tbl Crew :=
  s.crews.filter fun c => inScopeOf scope c.2.ctx && c.2.state == .resident

/-- The cores of a scope: those that hold its crews, or every one in service for the device. -/
def State.scopeCores (s : State) (scope : Nat) : List Nat :=
  (List.range Config.cores).filter fun k =>
    if scope = 0 then s.openCore k
    else s.crews.any fun c => c.2.ctx == scope && c.2.core == k && c.2.placed

/-- The header of an ingot, queue entries included (R172). -/
def Ingot.header (i : Ingot) : List Byte :=
  bytesOf 8 1 ++ bytesOf 8 i.gen ++ bytesOf 8 i.ctx ++ bytesOf 8 i.tick.toNat ++ bytesOf 8 i.chunks ++
    digest64 (Config.laterStage 1) ++ bytesOf 8 i.queues.length ++
    i.queues.flatMap fun q => bytesOf 2 q.1 ++ bytesOf 1 q.2.1 ++ bytesOf 5 0 ++ bytesOf 8 q.2.2.toNat

/-- Where the chunks begin, where a chunk lies, and where the trailer does. -/
def Ingot.body (i : Ingot) : Nat := i.pool + 0x70 + 16 * i.queues.length
def Ingot.chunkAt (i : Ingot) (k : Nat) : Nat := i.body + 65544 * k
def Ingot.trailer (i : Ingot) : Nat := i.chunkAt i.chunks
def Ingot.size (i : Ingot) : Nat := i.trailer + 16 - i.pool

/-- A chunk's CRC is written behind it. -/
def State.sealChunk (s : State) (a : Nat) : State :=
  s.writeBytes (a + 65536) (bytesOf 8 (crc64 (s.readBytes a 65536)))

/-- Write the chunks: the images, in a form the F7 keeps to itself (R169), then the pages. -/
def State.writeChunks (s : State) (i : Ingot) : State :=
  let n := i.chunks - i.pages.length
  let s1 := (List.range n).foldl (fun u k => (u.scramble (i.chunkAt k) 65536).sealChunk (i.chunkAt k)) s
  (List.range i.pages.length).foldl (fun u k =>
    let a := i.chunkAt (n + k)
    let p := (i.pages.getD k (0, [])).2
    (u.writeBytes a ((List.range 65536).map fun o => Tbl.read memDefault p o)).sealChunk a) s1

/-- Clear D on the leaves written, with one SHOOT (R172, step 2). -/
def State.clearDirty (s : State) (ctx : Nat) (ls : List (Nat × BitVec 128 × Nat × Bool)) : State :=
  ls.foldl (fun u l =>
    (u.writeBytes l.2.2.1 (bytesOf 16 (l.2.1 &&& ~~~(1#128 <<< 8)).toNat)).shootPages ctx l.1
      (if l.2.2.2 then 4096 else 1) fun _ => true) s

/-- The generation after a scope's previous sealed ingot. -/
def State.nextGen (s : State) (scope : Nat) : Nat :=
  (s.ingots.filter fun i => i.ctx == scope && i.sealed).foldl (fun a i => max a i.gen) 0 + 1

/-- What step 1 and step 2 hold of a scope. How many chunks its images take is not stated: a free value. -/
def State.gatherIngot (s : State) (scope pool : Nat) : Ingot × State :=
  let crews := s.scopeCrews scope
  let s1 := crews.foldl (fun u c => u.settleCrew c.1 c.2) s
  let images : Tbl Crew := crews.filterMap fun c => (s1.crews.get? c.1).map fun k =>
    (c.1, { s1.image c.1 k (s1.scratchOf k) with state := .saved, stoppedAt := s.now, granules := [] })
  let pages := (s1.scopeContexts scope).flatMap fun x => (s1.dirtyLeaves x).flatMap fun l =>
    (leafFrames l).map fun a => (a, s1.frameBytes a)
  let (n, s2) := s1.takeFree
  let extra := if crews.isEmpty then 0 else ((Config.freeDWord n).setWidth 32 : Word).toNat + 1
  ({ ctx := scope, gen := s.nextGen scope, tick := s.now, pool := pool, chunks := extra + pages.length,
     queues := (s.queues.filter fun q => inScopeOf scope q.2.ctx).map fun q => (q.1, q.2.ctx, q.2.ri),
     pages := pages, crews := images,
     pairs := s1.pairs.filter fun q => (images.get? (q.1 / 16)).isSome,
     launches := s1.launches.filter fun l => inScopeOf scope l.2.ctx,
     packets := s1.packets.filter fun p => inScopeOf scope p.2.ctx,
     nodes := s1.nodes.filter fun n => inScopeOf scope n.2.ctx,
     channels := s1.channels.filter fun c => (s1.launches.get? c.2.launch).any fun l => inScopeOf scope l.ctx,
     cores := s1.scopeCores scope, contexts := s1.scopeContexts scope }, s2)

/-- The fields of a REQUEST_INGOT body (R34). -/
structure IngotBody where
  pool : Nat
  len : Nat
  scope : Nat
  deriving DecidableEq, Repr

/-- Whether a physical address lies on a persistent-memory device of the CXL pool (R12, R13). -/
def State.persistentAt (s : State) (pa : Nat) : Bool :=
  s.tierOf pa == some 3 && (s.cxl.read {} (pa / 0x1000000000000 - 1)).kind == 3

/-- The body, when it is well formed: 64 KiB aligned pool space in tier 3, on a persistent device, and the device's scope
from the operator alone. A POOL in tier 3 on a device that is not persistent memory is no well-formed body: R34 gives no
status for it (DESIGN CHOICE, log 23). -/
def State.ingotBody (s : State) (r : Request) : Option IngotBody :=
  let b : IngotBody := { pool := le r.body 0 8, len := le r.body 8 8, scope := le r.body 16 1 }
  if r.malformed 24 || 255 < r.ctx.toNat || le r.body 17 7 ≠ 0 || 1 < b.scope ||
      b.pool % 65536 ≠ 0 || !s.persistentAt b.pool || (b.scope == 1) ≠ (r.ctx == 0) ||
      (b.scope == 1 && r.client ≠ s.mod.operator) then none
  else some b

/-- REQUEST_INGOT (R172): handled once every crew of the scope stands where its image can be sealed. The spec does not order
its answers: a malformed body comes first, then a context that is not there, one that is closing, and reduced service
(R28; DESIGN CHOICE, log 23). -/
def execRequestIngot (r : Request) (rate : Nat) (s : State) : Host.Outcome State Fault Refusal :=
  s.hear 0xD r <|
  match s.ingotBody r with
  | none => .next (s.respond r 0xD 1 [])
  | some b =>
    let scope := r.ctx.toNat
    if scope ≠ 0 && (s.contexts.get? scope).isNone then .next (s.respond r 0xD 2 [])
    else if scope ≠ 0 && ((s.contexts.get? scope).bind (·.closing)).isSome then .next (s.respond r 0xD 4 [])
    else if s.mod.service = .reduced then .next (s.respond r 0xD 5 [])
    else if !(s.scopeCrews scope).all fun c => s.sealable c.1 c.2 then absent s
    else
      let (i, s1) := s.gatherIngot scope b.pool
      if b.len < i.size || !s.persistentAt (b.pool + i.size - 1) then .next (s.respond r 0xD 3 [])
      else
        let dirty := (s1.scopeContexts scope).map fun x => (x, s1.dirtyLeaves x)
        let s2 := (s1.writeBytes b.pool i.header).writeChunks i
        let s3 := dirty.foldl (fun u d => u.clearDirty d.1 d.2) s2
        let s4 := { s3 with ingots := (s3.ingots.filter fun (j : Ingot) => j.ctx != scope || j.sealed) ++ [i] }
        .next (s4.respond r 0xD 0 (bytesOf 8 i.gen ++ bytesOf 8 i.chunks ++ bytesOf 8 rate))

/-- The kept copies that a seal lets go: those of packets below the RI it recorded (R173). -/
def Ingot.prune (i : Ingot) (c : Context) : Context :=
  { c with sealedGen := i.gen, kept := c.kept.filter fun e =>
      !(i.queues.any fun q => q.1 == e.1 && e.2.1 < q.2.2.toNat) }

/-- INGOT_SEAL (R172): every chunk has been flushed with Global Persistent Flush (R12), and every core of the scope has
passed an assay that began after step 1: the trailer is written. -/
def execIngotSeal (scope : Nat) (s : State) : Host.Outcome State Fault Refusal :=
  match s.ingots.find? fun i => i.ctx == scope && !i.sealed with
  | none => absent s
  | some i =>
    if !i.flushed || !(i.cores.all fun k => i.tick.ult (s.core k).lastPass) then absent s
    else
      let s1 := s.writeBytes i.trailer (bytesOf 8 i.gen)
      let s2 := s1.writeBytes (i.trailer + 8) (bytesOf 8 (crc64 (s1.readBytes i.pool (i.trailer + 8 - i.pool))))
      let s3 := i.contexts.foldl (fun u c => u.updContext c i.prune) s2
      .next { s3 with ingots := s3.ingots.map fun j => if j = i then { j with sealed := true } else j }

/-! ### Rerun (R173) -/

/-- Whether a sealed ingot's CRCs and its two generation fields check, as the pool holds it now. -/
def State.ingotChecks (s : State) (i : Ingot) : Bool :=
  s.readNat (i.pool + 8) 8 == i.gen && s.readNat i.trailer 8 == i.gen &&
    s.readNat (i.trailer + 8) 8 == crc64 (s.readBytes i.pool (i.trailer + 8 - i.pool)) &&
    (List.range i.chunks).all fun k =>
      s.readNat (i.chunkAt k + 65536) 8 == crc64 (s.readBytes (i.chunkAt k) 65536)

/-- The latest sealed ingot of a context, or of the device, that checks. -/
def State.lastIngot (s : State) (ctx : Nat) : Option Ingot :=
  (s.ingots.filter fun i => i.sealed && i.contexts.contains ctx && s.ingotChecks i).foldl (fun b i => match b with
    | none => some i
    | some j => if j.tick.ult i.tick then some i else some j) none

/-- The crews of a context are halted and everything of its launches goes. -/
def State.clearWork (s : State) (ctx : Nat) : State :=
  let crews := s.crews.filter fun c => c.2.ctx == ctx
  let mine (k : Nat) : Bool := crews.any fun c => c.1 == k
  let old (l : Nat) : Bool := (s.launches.get? l).any fun x => x.ctx == ctx
  let s1 := crews.foldl (fun u c => c.2.teams.foldl (fun u t =>
    ((u.dropClause ⟨c.1, t.1, .team⟩).dropClause ⟨c.1, t.1, .trail⟩).dropClause ⟨c.1, t.1, .chaser⟩) u) s
  let s2 := crews.foldl (fun u c => if c.2.placed then u.freeCrew c.1 .retired else u) s1
  { s2 with
    crews := s2.crews.filter fun c => c.2.ctx != ctx, pairs := s2.pairs.filter fun q => !mine (q.1 / 16),
    launches := s2.launches.filter fun l => l.2.ctx != ctx, channels := s2.channels.filter fun c => !old c.2.launch,
    packets := s2.packets.filter fun p => p.2.ctx != ctx, nodes := s2.nodes.filter fun n => n.2.ctx != ctx,
    clusters := s2.clusters.map fun k => (k.1, { k.2 with slots := k.2.slots.filter fun e => !mine e.2.crew }),
    cores := s2.cores.map fun k => (k.1, { k.2 with
      track := k.2.track.filter fun t => !old t.1, copies := k.2.copies.filter fun o => o.ctx != ctx,
      cupel := k.2.cupel.filter fun o => o.ctx != ctx, launches := k.2.launches.filter fun l => !old l.1,
      tileOwner := k.2.tileOwner.filter fun o => !mine o.1 }) }

/-- The bytes of a frame come back. -/
def State.writeFrame (s : State) (a : Nat) (bs : Tbl Byte) : State :=
  s.writeBytes a ((List.range 65536).map fun o => Tbl.read memDefault bs o)

/-- Two tables of disjoint keys, joined. -/
def Tbl.join {α : Type} (a b : Tbl α) : Tbl α := b.foldl (fun t e => t.put e.1 e.2) a

/-- A context goes back to an ingot: its pages, its crews as images that dispatchers restore, its launches, packets,
nodes and channels, and the RI of each of its queues. -/
def State.goBack (s : State) (ctx : Nat) (i : Ingot) : State :=
  let s1 := i.pages.foldl (fun u p => u.writeFrame p.1 p.2) (s.clearWork ctx)
  let launches := i.launches.filter fun l => l.2.ctx == ctx
  let crews := i.crews.filter fun c => c.2.ctx == ctx
  let s2 := { s1 with
    crews := Tbl.join s1.crews crews, launches := Tbl.join s1.launches launches,
    pairs := Tbl.join s1.pairs (i.pairs.filter fun q => crews.any fun c => c.1 == q.1 / 16),
    packets := Tbl.join s1.packets (i.packets.filter fun p => p.2.ctx == ctx),
    nodes := Tbl.join s1.nodes (i.nodes.filter fun n => n.2.ctx == ctx),
    channels := Tbl.join s1.channels (i.channels.filter fun c => launches.any fun l => l.1 == c.2.launch) }
  (i.queues.filter fun q => q.2.1 == ctx).foldl (fun u q => (u.updQueue q.1 fun x => { x with ri := q.2.2 }).showQueue q.1) s2

/-- Launches of a context are tainted: with a sealed ingot, it is rerun from it (R173). -/
def State.rerun (s : State) (ctx : Nat) : State :=
  match s.lastIngot ctx with
  | none => s
  | some i => s.goBack ctx i

end Sys2Proof.Machine
end

