-- ==== Sys2Proof/Machine/Assay.lean ====
section
/-! DEFINITION. Assay (R171), margin plans and the retirement of cores and dies (R22, R26), and the capacity check that
follows a retirement (R58). -/

namespace Sys2Proof.Machine

open Sys2Proof

/-- A plan-history entry is appended; DIGEST is that of the die's margin table after the event (R26). -/
def State.planned (s : State) (die reason core : Nat) : State :=
  let e : PlanEntry := { tick := s.now, die := die, reason := reason, core := core,
                         digest := digest64 ((s.die die).newTable.getD (s.die die).table) }
  { s with mod := { s.mod with plan := s.mod.plan ++ [e] } }

/-! ### The check of R58 again -/

/-- A waiting launch that no longer fits completes with CAPACITY. -/
def State.overflow (s : State) (id : Nat) (l : Launch) : State :=
  let s1 := { s with launches := s.launches.del id }
  match l.source with
  | .packet q i => s1.packetDone (packetKey q i) 3 0 true
  | .node n => s1.nodeStatus n 3

/-- The cooperative launches that wait are checked against the new count of cores. -/
def State.recheck (s : State) : State :=
  (s.launches.filter fun e => e.2.co && e.2.pending).foldl (fun u e =>
    if e.2.perCore * u.countedCores < e.2.total then u.overflow e.1 e.2 else u) s

/-! ### Assay (R171) -/

/-- The core of the die's next pass: from `assayNext` on, in ascending mesh position, retired ones skipped. -/
def State.assayCore (s : State) (die : Nat) : Option Nat :=
  ((List.range 32).map fun i => 32 * die + ((s.die die).assayNext + i) % 32).find? fun k => !(s.core k).retired

/-- Whether a die takes part in the F7's work. -/
def State.dieWorks (s : State) (die : Nat) : Bool :=
  let d := s.die die
  die < 12 && d.trained && !d.failed && !d.retired

/-- ASSAY_START: a pass begins; its core takes no more crews, and those on it migrate. -/
def execAssayStart (die : Nat) (s : State) : Host.Outcome State Fault Refusal :=
  let d := s.die die
  if !s.dieWorks die || d.assay.isSome || s.now.ult d.assayTick then absent s
  else match s.assayCore die with
    | none => absent s
    | some k => .next (s.updDie die fun d =>
        { d with assay := some (k, s.now, s.now), assayNext := (k + 1) % 32,
                 assayTick := d.assayTick + BitVec.ofNat 64 Config.assayPeriod })

/-- A launch is tainted: at once when it is DONE, else once it drains (R50, R171). -/
def State.taintLaunch (s : State) (id : Nat) : State :=
  let done := s.packets.filter fun p => p.2.launch == some id && p.2.state == .confirming
  done.foldl (fun u p => u.taintPacket p.1) (s.updLaunch id fun l => { l with tainted := true })

/-- The contexts of launches. -/
def State.contextsOf (s : State) (ids : List Nat) : List Nat :=
  s.contexts.keys.filter fun c =>
    (s.launches.any fun l => ids.contains l.1 && l.2.ctx == c) ||
      s.packets.any fun p => p.2.ctx == c && p.2.launch.any ids.contains

/-- A core fails its pass: it is retired, and what used it since its previous passed pass is tainted and rerun. -/
def State.retireCore (s : State) (core : Nat) : State :=
  let ids := ((s.core core).launches.map (·.1)).eraseDups
  let ctxs := s.contextsOf ids
  let s1 := (s.updCore core fun k => { k with retired := true, launches := [] }).planned (dieOfCore core) 4 core
  let s2 := (ids.foldl State.taintLaunch s1).recheck
  ctxs.foldl State.rerun s2

/-- A core passes: it returns to placement. -/
def State.passCore (s : State) (core : Nat) (began : DWord) : State :=
  s.updCore core fun k => { k with lastPass := began, launches := [] }

/-- ASSAY_RESULT: the crews and trailing copies have left, and the scan has run for 680,000 ticks. -/
def execAssayResult (die : Nat) (pass : Bool) (s : State) : Host.Outcome State Fault Refusal :=
  match (s.die die).assay with
  | none => absent s
  | some (core, began, scan) =>
    if !(s.onCore core).isEmpty || !(s.trailsOn core).isEmpty || (s.now - scan).toNat < Config.assayScan then absent s
    else
      let s1 := s.updDie die fun d => { d with assay := none }
      .next (if pass then s1.passCore core began else s1.retireCore core)

/-! ### Margin plans (R22) -/

/-- The resident service runs once all four hub dies have booted (R23). -/
def State.booted (s : State) : Bool := s.mod.good && !s.mod.held && s.mod.hubUp == 0xF

/-- The REASON code of a re-plan (R26). -/
def reasonCode : ReplanReason → Nat
  | .daily => 0 | .temperature => 1 | .leakage => 2 | .bringUp => 5

/-- 24 hours, in ticks. -/
def dayTicks : Nat := 24 * 3600 * 1700000000

/-- Whether a re-plan of a die is called for: 24 hours have passed since the last, the junction reads above 105 °C, or the
leakage is more than 20% above its value at the last plan. The plan of bring-up is a die's first. -/
def State.replanDue (s : State) (die : Nat) (r : Replan) : Bool :=
  let d := s.die die
  let planned := s.mod.plan.any fun e => e.die == die && e.reason != 4
  match r.reason with
  | .bringUp => !planned
  | .daily => planned && dayTicks ≤ (s.now - d.planTick).toNat
  | .temperature => planned && 105 < r.temp
  | .leakage => planned && 120 * d.planLeak < 100 * r.leak

/-- REPLAN: with the readings of the junction temperature in °C and the leakage, a new table waits for the die's next token
turn; with no point that meets 850 MHz the die is retired. -/
def execReplan (die : Nat) (reason : Replan) (table : List Byte) (found : Bool) (s : State) :
    Host.Outcome State Fault Refusal :=
  if !s.booted || 16 ≤ die || (s.die die).retired || !s.replanDue die reason then absent s
  else
    let s1 := s.updDie die fun d => { d with planTick := s.now, planLeak := reason.leak }
    if found then .next ((s1.updDie die fun d => { d with newTable := some table }).planned die (reasonCode reason.reason) 0xFFFF)
    else .next (((s1.updDie die fun d => { d with retired := true }).planned die 3 0xFFFF).recheck)

end Sys2Proof.Machine
end

