-- ==== Sys2Proof/Machine/Board.lean ====
section
/-! DEFINITION. The board controller (R29, R30), boot and bring-up (R10, R23, R24, R27, R28), the grain ring (R20 to R22),
and the power and energy events of a cluster (R67, R68). -/

namespace Sys2Proof.Machine

open Sys2Proof

/-! ### The board controller (R29, R30) -/

def State.reply (s : State) (b : BoardReply) : State :=
  { s with mod := { s.mod with replies := s.mod.replies ++ [b] } }

/-- What stays when the package loses power, or its hub dies are put into reset: the board's and the flash's own state,
memory as far as `keep` says, the sealed ingots, and what has left the F7. The records of BOOT_FAIL and DUPLICATE_NODE are
those of the boot in progress and go with it (R24, R29, R30; log 21). -/
def State.standby (s : State) (keep : Nat → Bool) : State :=
  { State.reset with
    now := s.now, cxl := s.cxl, mem := s.mem.filter fun e => keep e.1,
    poison := s.poison.filter fun e => match e with | .word a => keep (8 * a) | _ => false,
    ingots := (s.ingots.filter fun (i : Ingot) => i.sealed).map fun i => { i with contexts := [] },
    reachable := s.reachable, opened := s.opened, sent := s.sent, agenda := s.agenda, focus := s.focus,
    freeCount := s.freeCount, nextOp := s.nextOp, nextHandle := s.nextHandle,
    mod := { slotA := s.mod.slotA, slotB := s.mod.slotB, firstB := s.mod.firstB, rollback := s.mod.rollback,
             configOk := s.mod.configOk, node := s.mod.node, operator := s.mod.operator, links := s.mod.links,
             limits := s.mod.limits, replies := s.mod.replies,
             powered := s.mod.powered, held := s.mod.held } }

/-- POWER_ON: module power-good sequencing is released, and a HOLD ends. -/
def execPowerOn (s : State) : Host.Outcome State Fault Refusal :=
  .next ({ s with mod := { s.mod with powered := true, held := false } }.reply .done)

/-- Tier 3 of this F7, and memory of other nodes: what the package's power does not hold. A write that a persistent device has
taken is durable with Global Persistent Flush (R12): no device buffers it. -/
def outsidePackage (a : Nat) : Bool := decide (0x1000000000000 ≤ a)

/-- POWER_OFF: the package is without power at once. -/
def execPowerOff (s : State) : Host.Outcome State Fault Refusal :=
  .next (({ s with mod := { s.mod with powered := false } }.standby outsidePackage).reply .done)

/-- HOLD: every hub die is in reset until POWER_ON. -/
def execHold (s : State) : Host.Outcome State Fault Refusal :=
  .next (({ s with mod := { s.mod with held := true } }.standby fun _ => true).reply .done)

/-- SENSORS. -/
def execSensors (temps : List (BitVec 16)) (rails : List (BitVec 32)) (power : Word) (s : State) :
    Host.Outcome State Fault Refusal :=
  .next (s.reply (.sensors temps rails power))

/-- The state field of the hallmark (R25); before the module offers service the spec states none. -/
def Service.state : Service → Option Nat
  | .off => none | .recovery => some 0 | .reduced => some 1 | .full => some 2 | .degraded => some 3

/-- STATUS. -/
def execStatus (s : State) : Host.Outcome State Fault Refusal :=
  let (n, s1) := s.takeFree
  .next (s1.reply (.status (s.mod.service.state.getD (Config.freeByte n).toNat) s.mod.bootFail s.mod.duplicate))

/-- SELECT_SLOT: the slot tried first at the next boot. -/
def execSelectSlot (slotB : Bool) (s : State) : Host.Outcome State Fault Refusal :=
  .next ({ s with mod := { s.mod with firstB := slotB } }.reply .done)

/-- SNAP_PIN (R170). -/
def execSnapPin (s : State) : Host.Outcome State Fault Refusal := .next ((s.trigger .pin).reply .done)

/-- The command codes of R29. -/
def boardCodes : List Byte := [0x01, 0x02, 0x10, 0x11, 0x20, 0x21, 0x30]

/-- BOARD_COMMAND_UNKNOWN: a NACK, and nothing else. -/
def execBoardCommandUnknown (code : Byte) (s : State) : Host.Outcome State Fault Refusal :=
  if boardCodes.contains code then absent s else .next (s.reply .nack)

/-! ### Boot (R10, R23, R24) -/

/-- The first check of an image slot that fails (R23). A version equal to the counter passes, and a boot leaves the counter as
it is (DESIGN CHOICE, log 3). -/
def FlashSlot.check (f : FlashSlot) (rollback : Nat) : Option BootCheck :=
  if !f.digestOk then some .digest
  else if !f.signatureOk then some .signature
  else if f.version < rollback then some .version
  else none

/-- The selected slot, and the other. -/
def Module.firstSlot (m : Module) : FlashSlot := if m.firstB then m.slotB else m.slotA
def Module.otherSlot (m : Module) : FlashSlot := if m.firstB then m.slotA else m.slotB

/-- The check that keeps a hub die in reset: both slots fail, and the other one's failure is the last (R23). -/
def Module.bootCheck (m : Module) : Option BootCheck :=
  match m.firstSlot.check m.rollback with
  | none => none
  | some _ => m.otherSlot.check m.rollback

/-- The slot that boots, when no check keeps the hub dies in reset: whether it is slot B. -/
def Module.bootSlot (m : Module) : Bool := if (m.firstSlot.check m.rollback).isNone then m.firstB else !m.firstB

/-- What the stages measure, each the next before it hands over, from the image that boots on (R23). -/
def Module.measured (m : Module) : List (List Byte) :=
  let slot := if m.bootSlot then m.slotB else m.slotA
  [digest64 (Config.firstStage slot.image), digest64 (Config.laterStage 0), digest64 (Config.laterStage 1),
    digest64 (Config.laterStage 2)]

/-- What the boot ROMs leave: every hub die up, or each in reset with its BOOT_FAIL record; a configuration image whose
signature fails leads to recovery. -/
def Module.boot (m : Module) : Module :=
  match m.bootCheck with
  | some c => { m with good := true, hubUp := 0, bootFail := [12, 13, 14, 15].map fun d => (d, c), bootedB := none,
                       measures := [] }
  | none => { m with good := true, hubUp := 0xF, bootFail := [], service := if m.configOk then .off else .recovery,
                     bootedB := some m.bootSlot, measures := m.measured }

/-- The Ultra Ethernet ports by which the recovery state serves the hallmark request (R24). -/
def recoveryPorts (m : Module) : Tbl LinkState :=
  if m.service = .recovery then (List.range 8).map fun k => (k, .up) else []

/-- POWER_GOOD: the time base starts at zero, and the hub dies boot. One counter is the time base of every die: the skew of
at most 1 tick that R10 allows is 0 (DESIGN CHOICE, log 35). -/
def execPowerGood (s : State) : Host.Outcome State Fault Refusal :=
  if !s.mod.powered || s.mod.held || s.mod.good then absent s
  else .next { s with now := 0, mod := s.mod.boot, uec := recoveryPorts s.mod.boot }

/-! ### Bring-up (R27, R28) -/

/-- The clusters of a die start with the fill rate of its floor. -/
def State.startClusters (s : State) (die : Nat) : State :=
  let f := fillRate (s.die die).grains (s.hz die)
  (clustersOf die).foldl (fun u k => u.updCluster k fun c =>
    { c with fill := f, target := f, changed := s.now, fillTick := s.now }) s

/-- The clock rates of the compute dies change with the service: their fill rates move to the new values. -/
def State.reclock (s : State) (v : Service) : State :=
  let dies := (List.range 12).filter fun d => (s.die d).trained
  let s1 := dies.foldl (fun u d => (clustersOf d).foldl State.settlePower u) s
  let s2 := { s1 with mod := { s1.mod with service := v } }
  dies.foldl (fun u d => u.setGrains d (u.die d).grains) s2

/-- Operations that reduced service held go on: the promise of each counts from its release, after those ahead of it in the
sequencer (R28, R151). The operations from the first held one on, in order, with the promise before them. -/
def releaseOps (now : DWord) : DWord → List CupelOp → List CupelOp
  | _, [] => []
  | q, o :: os =>
    let p := later now q + BitVec.ofNat 64 o.ticks
    { o with held := false, since := none, promise := p } :: releaseOps now p os

/-- The sequencer of a core releases what it held, and its teams' records take the new promises. -/
def State.releaseCupel (s : State) (core : Nat) : State :=
  let k := s.core core
  let before := k.cupel.takeWhile fun o => !o.held
  let after := releaseOps s.now ((before.getLast?.map (·.promise)).getD 0) (k.cupel.dropWhile fun o => !o.held)
  let s1 := s.updCore core fun k =>
    { k with cupel := before ++ after, cupelPromise := (after.getLast?.map (·.promise)).getD k.cupelPromise }
  after.foldl (fun u o => u.updCopies ⟨o.crew, o.team, .team⟩ fun t => t.setPromise o.opId o.promise) s1

/-- An operation held in the image of a SAVED crew is released with the others. The ticks that it was held do not count: its
promise is that of a release at the stop, which the restore moves later by the ticks of the stop (R28, R70). -/
def State.releaseImage (s : State) (crew : Nat) : State :=
  match s.crews.get? crew with
  | none => s
  | some c =>
    let before := c.cupel.takeWhile fun o => !o.held
    let after := releaseOps c.stoppedAt ((before.getLast?.map (·.promise)).getD 0) (c.cupel.dropWhile fun o => !o.held)
    after.foldl (fun u o => u.updCopies ⟨crew, o.team, .team⟩ fun t => t.setPromise o.opId o.promise)
      (s.updCrew crew fun c => { c with cupel := before ++ after })

/-- Full service: what reduced service held back is released. -/
def State.fullService (s : State) (v : Service) : State :=
  let held := (s.cores.filter fun e => e.2.cupel.any fun (o : CupelOp) => o.held).map (·.1)
  let s1 := held.foldl State.releaseCupel (s.reclock v)
  ((s1.crews.filter fun e => e.2.cupel.any fun (o : CupelOp) => o.held).map (·.1)).foldl State.releaseImage s1

/-- Whether every hub die is trained, and whether every die is. -/
def State.hubsTrained (s : State) : Bool := [12, 13, 14, 15].all fun d => (s.die d).trained
def State.allTrained (s : State) : Bool := (List.range 16).all fun d => (s.die d).trained

/-- The service that the trained dies allow. -/
def State.offer (s : State) : State :=
  if s.allTrained then s.fullService .full
  else if s.mod.service = .off && s.hubsTrained && (s.die 0).trained then s.reclock .reduced
  else s

/-- The ports of a hub die come up with it (R8). -/
def State.linkUp (s : State) (die : Nat) : State :=
  if die < 12 then s
  else { s with uec := ((s.uec.put (2 * (die - 12)) .up).put (2 * (die - 12) + 1) .up) }

/-- DIE_TRAINED: the hub dies first, then compute die 0, then the others. -/
def execDieTrained (die : Nat) (s : State) : Host.Outcome State Fault Refusal :=
  let d := s.die die
  if !s.booted || s.mod.service = .recovery || 16 ≤ die || d.trained || d.failed ||
      (die < 12 && !s.hubsTrained) || (0 < die && die < 12 && !(s.die 0).trained) then absent s
  else
    let s1 := s.updDie die fun d =>
      { d with trained := true, assayTick := s.now + BitVec.ofNat 64 Config.assayPeriod }
    .next ((if die < 12 then s1.startClusters die else s1.linkUp die).offer)

/-- Six minutes, in ticks. -/
def sixMinutes : Nat := 612000000000

/-- FULL_SERVICE_DEADLINE: dies that are not trained by now are left out, and full service is declared degraded. -/
def execFullServiceDeadline (s : State) : Host.Outcome State Fault Refusal :=
  if !s.booted || s.now.toNat < sixMinutes || s.allTrained || !(s.mod.service = .off || s.mod.service = .reduced) then
    absent s
  else
    let s1 := (List.range 16).foldl (fun u d => u.updDie d fun x => { x with failed := !x.trained }) s
    .next ((s1.fullService .degraded).recheck)

/-! ### The grain ring (R20 to R22) -/

/-- What a die's holding and the token's count become at a turn: unused grains above the floor go back first, then the die
takes toward its request. -/
def turn (die holding count used request : Nat) : Nat × Nat :=
  let back := holding - max used (Config.floorGrains die)
  let h := holding - back
  let c := count + back
  let room := match Config.capGrains die with | some k => k - h | none => c
  let take := min (min (request - h) room) c
  (h + take, c - take)

/-- A round of 1,700 ticks begins at die 0, no sooner than the last one ended. -/
def State.roundDue (s : State) : Bool :=
  s.token.die ≠ 0 || (match s.token.round with | none => true | some t => 1700 ≤ (s.now - t).toNat)

/-- TOKEN_TURN: the token reaches a die, which uses `used` grains and asks for `request`; a new margin table takes
effect. -/
def execTokenTurn (used request : Nat) (s : State) : Host.Outcome State Fault Refusal :=
  if !s.mod.good || !s.roundDue then absent s
  else
    let die := s.token.die
    let d := s.die die
    let (h, c) := turn die d.grains s.token.count used request
    let table := d.newTable.getD d.table
    let s1 := if die < 12 then (clustersOf die).foldl State.settlePower s else s
    let s2 := s1.updDie die fun d =>
      { d with table := table, newTable := none, tokenSeen := s.now, dropped := false }
    let s3 := if h = d.grains && table = d.table then s2 else s2.setGrains die h
    .next { s3 with token := { die := (die + 1) % 16, count := c,
                               round := if die = 0 then some s.now else s.token.round } }

/-- TOKEN_LOSS: a die that has not seen the token for 2 µs drops to its floor. -/
def execTokenLoss (die : Nat) (s : State) : Host.Outcome State Fault Refusal :=
  let d := s.die die
  if !s.mod.good || 16 ≤ die || d.dropped || (s.now - d.tokenSeen).toNat < 3400 then absent s
  else .next ((s.setGrains die (Config.floorGrains die)).updDie die fun d => { d with dropped := true })

/-- TOKEN_REBUILD: once every die has dropped to its floor, at die 12 with the full pool. -/
def execTokenRebuild (s : State) : Host.Outcome State Fault Refusal :=
  if s.mod.good && (List.range 16).all fun d => (s.die d).dropped then
    .next { s with token := { s.token with die := 12, count := Config.poolGrains } }
  else absent s

/-! ### Power and energy of a cluster (R67, R68) -/

/-- The next step of a change of holding, when one is still to come. -/
def Cluster.nextStep (c : Cluster) (now : DWord) : Option Nat :=
  let k := (now - c.changed).toNat / 100
  if 17 ≤ k || c.fill = c.target then none else some (c.changed.toNat + 100 * (k + 1))

/-- FILL_RATE_STEP: the tick comes at which a cluster's fill rate takes its next step (log 4). -/
def execFillRateStep (cluster : Nat) (s : State) : Host.Outcome State Fault Refusal :=
  match (s.cluster cluster).nextStep s.now with
  | none => absent s
  | some t => .next ((s.elapse (t - s.now.toNat)).settlePower cluster)

/-- The tick from which a slot's team, which is throttle-eligible, has been withheld without a break. -/
def State.withheldSince (s : State) (p : Party) : Option DWord :=
  match s.team? p, s.launchOf? p.crew with
  | some t, some l => if l.te then t.withheld else none
  | _, _ => none

/-- THROTTLE_LIMIT: a team withheld for 170,000 ticks is taken with h = 0 for its next clause. -/
def execThrottleLimit (cluster slot : Nat) (s : State) : Host.Outcome State Fault Refusal :=
  match (s.cluster cluster).slots.get? slot with
  | none => absent s
  | some p => match s.withheldSince p with
    | none => absent s
    | some t =>
      if (s.now - t).toNat < 170000 then absent s
      else .next (s.updTeam p fun u => { u with throttlePass := true })

/-- ENERGY_SAMPLE: the next multiple of 100 ticks comes, and the slots that each context occupies are sampled (log 4). -/
def execEnergySample (s : State) : Host.Outcome State Fault Refusal :=
  if s.mod.good then .next (s.elapse (100 - s.now.toNat % 100)) else absent s

/-- ENERGY_DIVIDE: the energy measured in a cluster over the oldest window that waits, in nJ, is divided; a window in which
no context held a slot charges none. -/
def execEnergyDivide (cluster measured : Nat) (s : State) : Host.Outcome State Fault Refusal :=
  match (s.cluster cluster).due with
  | [] => .next s
  | t :: rest => .next ((s.shareEnergy t measured).updCluster cluster fun c => { c with due := rest })

end Sys2Proof.Machine
end

