-- ==== Sys2Proof/Machine/Control.lean ====
section
/-! DEFINITION. Control instructions (R238 to R250) and mask instructions (R251 to R255). -/

namespace Sys2Proof.Machine

open Sys2Proof

/-! ### Targets (R238) -/

/-- The offset of BO: OFF21 or the literal. -/
def Exe.off21 (x : Exe) : Int := match x.parts.lit with | some w => w.toInt | none => x.parts.imm.toInt

/-- The offset of BC: OFF11 or the literal. -/
def Exe.off11 (x : Exe) : Int := match x.parts.lit with | some w => w.toInt | none => (x.parts.imm.setWidth 11).toInt

/-- The target T of an offset, and the next header N. -/
def Exe.target (x : Exe) (off : Int) : DWord := branchTarget x.cl.hdr x.cl.pos off
def Exe.nextPc (x : Exe) : DWord := nextHeader x.cl.hdr x.cl.words.length

/-- Control goes to a pointer when the clause ends. -/
def goTo (x : Exe) (t : DWord) (s : State) : State := onClause x (fun c => { c with target := some t }) s

/-- BRA (R239). -/
def execBra (f : BO) (s : State) : Host.Outcome State Fault Refusal :=
  performPure (.bra f) noCheck (fun x u => goTo x (x.target x.off21) u) s

/-- BRC (R239). -/
def execBrc (f : BC) (s : State) : Host.Outcome State Fault Refusal :=
  performPure (.brc f) noCheck
    (fun x u => if zeroCond x.parts.c3.toNat (x.s x.parts.a) then goTo x (x.target x.off11) u else u) s

/-- JOFF of BRM, in bits 23:14 (R240). -/
def Parts.joff (p : Parts) : Nat := p.a.toNat * 8 + p.c3.toNat

/-- BRM (R240, R81): the lanes of its effective mask are taken; with none it has no effect (R79, R236). -/
def execBrm (f : BC) (s : State) : Host.Outcome State Fault Refusal :=
  performPure (.brm f) (fun x _ => if x.parts.joff = 0 then some .general else none)
    (fun x u =>
      let t := x.target x.off11
      if x.exec &&& ~~~x.eff = 0 then goTo x t u
      else u.updTeam x.p fun m => m.split x.cl.path (branchTarget x.cl.hdr x.cl.pos x.parts.joff) t x.eff) s

/-- JOIN (R81, R241). -/
def execJoin (f : FZ) (s : State) : Host.Outcome State Fault Refusal :=
  performPure (.join f) noCheck (fun x u => u.updTeam x.p fun t => t.join x.cl.path x.cl.hdr) s

/-- The link pair, and its write. -/
def Exe.link (x : Exe) : DWord := Word.pair (x.th.readS x.linkReg) (x.th.readS (x.linkReg + 1))
def setLink (x : Exe) (v : DWord) (s : State) : State :=
  s.updThread x.p fun th => (th.writeS x.linkReg v.lo).writeS (x.linkReg + 1) v.hi

/-- CALL (R243). -/
def execCall (f : BO) (s : State) : Host.Outcome State Fault Refusal :=
  performPure (.call f) noCheck (fun x u => goTo x (x.target x.off21) (setLink x x.nextPc u)) s

/-- RET (R243). -/
def execRet (f : FZ) (s : State) : Host.Outcome State Fault Refusal :=
  performPure (.ret f) noCheck (fun x u => goTo x x.link u) s

/-- JMPI and JMPI.LINK (R243): the pair is read before the link is written. -/
def execJmpi (f : RRR) (s : State) : Host.Outcome State Fault Refusal :=
  performPure (.jmpi f) noCheck
    (fun x u => goTo x (x.pair x.parts.a) (if x.parts.fx = 1 then setLink x x.nextPc u else u)) s

/-- LOOP (R244). With W = 1 the decrement goes to the latch alone. -/
def execLoop (f : BC) (s : State) : Host.Outcome State Fault Refusal :=
  performPure (.loop f) noCheck
    (fun x u =>
      let v := x.s x.parts.a - BitVec.ofNat 32 (x.parts.c3.toNat + 1)
      let u1 := writeScalar x x.parts.a v u
      if zeroCond 4 v then goTo x (x.target x.off11) u1 else u1) s

/-- EXIT (R82, R245). In the handler it halts the team (R242); in a chaser it stops the chaser (R87). The EXIT that
retires the team is a meeting point of a touchstone pair, since no copy goes on after it (R175; DEDUCED, log 14). -/
def execExit (f : FZ) (s : State) : Host.Outcome State Fault Refusal :=
  let body (x : Exe) (u : State) : State :=
    if x.ch then onClause x (fun c => { c with stops := true }) u
    else if x.team.handler then u.haltFor .doubleTrap x.p
    else u.updTeam x.p fun t => t.exitLanes (u.afterJoin x.agent t.cluster) x.cl.path x.eff
  match s.issuer? (.exit f) with
  | some x =>
    if x.launch.strands ≠ 0 && (x.team.launched &&& ~~~(x.team.exited ||| x.eff)) = 0 && !x.team.handler then
      performMeet (.exit f) noCheck (fun x u => .ok (body x u)) s
    else performPure (.exit f) noCheck body s
  | none => performPure (.exit f) noCheck body s

/-- YIELD (R246): it acts when the clause ends. -/
def execYield (f : FZ) (s : State) : Host.Outcome State Fault Refusal :=
  performPure (.yield f) noCheck (fun x u => onClause x (fun c => { c with yields := true }) u) s

/-- NOP (R246). -/
def execNop (f : FZ) (s : State) : Host.Outcome State Fault Refusal :=
  performPure (.nop f) noCheck (fun _ u => u) s

/-- The deadline of SLEEP, when it waits at all (R247). -/
def Exe.deadline (x : Exe) : Option DWord :=
  if x.parts.fx = 1 then
    let d := x.pair x.parts.d
    if x.now.ult d then some d else none
  else match x.parts.lit with
    | some w => if w = 0 then none else some (x.now + w.setWidth 64)
    | none => let n := (x.parts.imm.setWidth 14).toInt
      if n ≤ 0 then none else some (x.now + BitVec.ofInt 64 n)

/-- SLEEP (R247): the wait begins when the clause ends. -/
def execSleep (f : RI) (s : State) : Host.Outcome State Fault Refusal :=
  performPure (.sleep f) noCheck
    (fun x u => match x.deadline with
      | some d => onClause x (fun c => { c with waits := c.waits ++ [.sleep d] }) u
      | none => u) s

/-! ### Partition, index and special registers (R249, R250) -/

/-- PART (R86, R249). -/
def execPart (f : RI) (s : State) : Host.Outcome State Fault Refusal :=
  performPure (.part f) (fun x _ => if 0 ≤ x.immInt && partOk x.immInt.toNat then none else some .partValue)
    (fun x u => u.updTeam x.p fun t => { t with part := x.immInt.toNat }) s

/-- SETIX and SETIX.ADD (R249). -/
def execSetix (f : RI) (s : State) : Host.Outcome State Fault Refusal :=
  performPure (.setix f) (fun x _ => if 1 < x.parts.d.toNat then some .general else none)
    (fun x u => u.updTeam x.p fun t =>
      if x.parts.d = 0 then
        { t with xv := (if x.parts.fx = 1 then t.xv else 0) + BitVec.ofInt 8 x.immInt }
      else { t with xs := (if x.parts.fx = 1 then t.xs else 0) + BitVec.ofInt 6 x.immInt }) s

/-- SRD (R73, R250). A read of timelo latches timehi. -/
def execSrd (f : RRS) (s : State) : Host.Outcome State Fault Refusal :=
  performPure (.srd f) noCheck
    (fun x u =>
      if specialPerLane x.parts.s then writeEach x x.parts.d (x.specialLane x.parts.s) u
      else
        let u1 := if x.parts.s = 0x14 then u.updTeam x.p fun t => { t with timehi := x.now.hi } else u
        writeScalar x x.parts.d (x.specialReg u x.parts.s) u1) s

/-- SWR (R73, R250). -/
def execSwr (f : RRS) (s : State) : Host.Outcome State Fault Refusal :=
  performPure (.swr f)
    (fun x _ =>
      if !specialWritable x.parts.s then some .roSpecial
      else if x.parts.s = 0x10 && x.known x.parts.a && !partOk (x.s x.parts.a).toNat then some .partValue
      else none)
    (fun x u => u.updTeam x.p fun t => t.writeSpecial x.parts.s (x.s x.parts.a)) s

/-! ### Mask registers (R251 to R255) -/

/-- The lanes of the team that satisfy a test. -/
def Exe.lanesWhere (x : Exe) (f : Nat → Bool) : Mask := Mask.ofList (x.allLanes.filter f)

/-- The mask of MSET (R252). -/
def Exe.msetMask (x : Exe) : Mask :=
  match x.parts.s with
  | 0 => 0
  | 1 => x.team.launched
  | 2 => x.exec
  | 3 => let v := x.s x.parts.a
    x.lanesWhere fun l => v.getLsbD (l % 32)
  | 4 => x.lanesWhere fun l => l % x.team.part == 0
  | _ => x.lanesWhere fun l => l % x.team.part == x.team.part - 1

/-- MSET (R252). -/
def execMset (f : RRS) (s : State) : Host.Outcome State Fault Refusal :=
  performPure (.mset f) noCheck (fun x u => writeMask x x.parts.d x.msetMask u) s

/-- MAND, MOR, MXOR (R253). -/
def execMand (f : RRR) (s : State) : Host.Outcome State Fault Refusal :=
  performPure (.mand f) noCheck (fun x u => writeMask x x.parts.d (x.m x.parts.a &&& x.m x.parts.b) u) s
def execMor (f : RRR) (s : State) : Host.Outcome State Fault Refusal :=
  performPure (.mor f) noCheck (fun x u => writeMask x x.parts.d (x.m x.parts.a ||| x.m x.parts.b) u) s
def execMxor (f : RRR) (s : State) : Host.Outcome State Fault Refusal :=
  performPure (.mxor f) noCheck (fun x u => writeMask x x.parts.d (x.m x.parts.a ^^^ x.m x.parts.b) u) s

/-- MNOT (R253): over the launched lanes. -/
def execMnot (f : RRR) (s : State) : Host.Outcome State Fault Refusal :=
  performPure (.mnot f) noCheck (fun x u => writeMask x x.parts.d (~~~(x.m x.parts.a) &&& x.team.launched) u) s

/-- MMOV (R253). -/
def execMmov (f : RRR) (s : State) : Host.Outcome State Fault Refusal :=
  performPure (.mmov f) noCheck (fun x u => writeMask x x.parts.d (x.m x.parts.a) u) s

/-- MPOP and MPOP.EXEC (R254). -/
def execMpop (f : RRR) (s : State) : Host.Outcome State Fault Refusal :=
  performPure (.mpop f) noCheck
    (fun x u =>
      let m := if x.parts.fx = 1 then x.m x.parts.a &&& x.exec else x.m x.parts.a
      writeScalar x x.parts.d (BitVec.ofNat 32 (maskCount m x.nlanes)) u) s

/-- MFIND (R254). -/
def execMfind (f : RRR) (s : State) : Host.Outcome State Fault Refusal :=
  performPure (.mfind f) noCheck
    (fun x u => writeScalar x x.parts.d
      (match maskFind (x.m x.parts.a) x.nlanes x.sB.toNat with
       | some l => BitVec.ofNat 32 l
       | none => 0xFFFFFFFF) u) s

/-- MANY (R254). -/
def execMany (f : RRR) (s : State) : Host.Outcome State Fault Refusal :=
  performPure (.many f) noCheck
    (fun x u => writeScalar x x.parts.d (if x.m x.parts.a &&& x.exec = 0 then 0 else 1) u) s

/-- MALL (R254). -/
def execMall (f : RRR) (s : State) : Host.Outcome State Fault Refusal :=
  performPure (.mall f) noCheck
    (fun x u => writeScalar x x.parts.d (if x.m x.parts.a &&& x.exec = x.exec then 1 else 0) u) s

/-- The mask that MEXEC would leave to the path (R77, R255). -/
def Exe.newExec (x : Exe) : Mask :=
  let a := x.m x.parts.a
  let m := match x.parts.fx with | 0 => a | 1 => x.exec &&& a | _ => x.exec &&& ~~~a
  match x.team.path? x.cl.path with
  | none => 0
  | some p => m &&& x.team.settable p

/-- Whether the issuing path has a join record. -/
def Exe.joined (x : Exe) : Bool := ((x.team.path? x.cl.path).bind (·.join)).isSome

/-- MEXEC (R77, R80, R255). A path that it removes issues nothing more: its clause ends there (DEDUCED, log 15). -/
def execMexec (f : RRR) (s : State) : Host.Outcome State Fault Refusal :=
  performPure (.mexec f) (fun x _ => if x.newExec = 0 && !x.joined then some .general else none)
    (fun x u =>
      if x.newExec = 0 then
        (u.updTeam x.p fun t => t.removePath (u.afterJoin x.agent t.cluster) x.cl.path).updClause x.p fun c =>
          { c with words := c.words.take (c.pos - 1 + x.parts.words) }
      else u.updTeam x.p fun t => t.updPath x.cl.path fun q => { q with mask := x.newExec }) s

end Sys2Proof.Machine
end

