-- ==== Sys2Proof/Machine/Items.lean ====
section
/-! DEFINITION. The items of state that TRLD, TRST and a debug session reach (R164, R165, R351, R352). -/

namespace Sys2Proof.Machine

open Sys2Proof

/-! ### Images -/

/-- A path entry by index (R80, R165): those of the table from 0, those of the overflow area from 8. -/
def Team.pathAt (t : Team) (i : Nat) : Option Path :=
  if i < 8 then t.tablePaths[i]? else (t.paths.filter (·.folded))[i - 8]?

/-- A join record by index, in the same way. -/
def Team.joinAt (t : Team) (i : Nat) : Option JoinRec :=
  if i < 8 then (t.joins.filter fun j => !j.folded)[i]? else (t.joins.filter (·.folded))[i - 8]?

/-- VALID, and a low bit (R351). -/
def validByte (low : Bool) : Byte := 0x80 ||| (BitVec.ofBool low).setWidth 8

/-- The 160 bytes of a path entry (R351). -/
def Path.image (p : Path) : List Byte :=
  bytesOf 8 p.pc.toNat ++ bytesOf 128 p.mask.toNat ++ bytesOf 2 p.age.toNat ++ [validByte p.folded, 0] ++
    bytesOf 4 p.creation.toNat ++ bytesOf 2 (p.join.getD 0xFFFF) ++ bytesOf 14 0

/-- The 144 bytes of a join record (R351). -/
def JoinRec.image (j : JoinRec) : List Byte :=
  bytesOf 2 j.id ++ bytesOf 2 (j.outer.getD 0xFFFF) ++ [BitVec.ofNat 8 j.pending, validByte false] ++ bytesOf 2 0 ++
    bytesOf 8 j.j.toNat ++ bytesOf 128 j.mask.toNat

/-- The 8 bytes of a barrier record (R165). -/
def Bar.image (b : Bar) : List Byte := bytesOf 8 (b.count % 256 + 256 * b.phase.toNat + 65536 * b.bitmap.toNat)

/-- The 24 bytes of a binding (R118). -/
def Binding.image (b : Binding) : List Byte :=
  bytesOf 8 b.obj.toNat ++ bytesOf 8 b.base.toNat ++ bytesOf 8 b.len.toNat

/-- The chaser's PC: its header, and where in the clause it resumes. -/
def Chaser.runCode (c : Chaser) : Nat := match c.run with | .stopped => 0 | .running => 1 | .faulted => 2

/-- A saved latch (R165); a vector value shows its lane 0. -/
def Latch.image : Latch → List Byte
  | .none => bytesOf 8 0
  | .scalar v => bytesOf 8 (2 ^ 32 + v.toNat)
  | .vector t => bytesOf 8 (2 ^ 32 + (Tbl.read 0 t 0).toNat)

/-- The bytes of an item, when the class and the index name one (R165). The chaser of a pair is the leading copy's. -/
def State.itemBytes (s : State) (p : Party) (cls idx : Nat) : Option (List Byte) :=
  match s.crews.get? p.crew, s.team? p, s.team? (asLead p), s.launchOf? p.crew with
  | some c, some t, some lead, some l =>
    match cls with
    | 0 => if 1031 < idx then none else some ((t.pathAt idx).elim (bytesOf 160 0) Path.image)
    | 1 => if 1031 < idx then none else some ((t.joinAt idx).elim (bytesOf 144 0) JoinRec.image)
    | 2 => if 15 < idx then none else some (c.bar idx).image
    | 3 => if 7 < idx then none else some (bytesOf 16 (t.window idx).image.toNat)
    | 4 => if 23 < idx then none
      else some (if idx < 16 then t.ownBinding idx else l.binds.getD (idx - 16) {}).image
    | 5 => if 511 < idx then none
      else some (bytesOf 8 ((t.queue (idx / 32)).entries.getD (idx % 32) 0).toNat)
    | 6 =>
      if idx < 32 then some (bytesOf 4 (lead.chaser.th.readS idx).toNat)
      else if idx = 32 then some (bytesOf 8 lead.chaser.pc.toNat)
      else if idx = 33 then some (bytesOf 4 lead.chaser.runCode)
      else none
    | 7 => if 3 < idx then none else some (t.frame.latches.getD idx .none).image
    | 8 => if 7 < idx then none
      else some (bytesOf 128 (if idx < 4 then t.bpReg idx else t.wpReg (idx - 4)).mask.toNat)
    | _ => none
  | _, _, _, _ => none

/-- Eight bytes of an item at an offset; an item of 4 bytes takes offset 0 alone (R352). -/
def State.readItem (s : State) (p : Party) (cls idx off : Nat) : Option DWord :=
  match s.itemBytes p cls idx with
  | none => none
  | some bs => if off % 8 ≠ 0 || bs.length ≤ off then none else some (BitVec.ofNat 64 (le bs off 8))

/-! ### Writes -/

/-- 64 bits of a mask replaced, from bit `8 * off`. -/
def putWord (m : Mask) (off : Nat) (v : DWord) : Mask :=
  (m &&& ~~~((0xFFFFFFFFFFFFFFFF : Mask) <<< (8 * off))) ||| (v.setWidth 1024 <<< (8 * off))

/-- Write a path entry (R165, R351): lanes not launched, or exited, are cleared, and an empty mask removes the path. -/
def Team.writePath (after : DWord → DWord) (t : Team) (p : Path) (off : Nat) (v : DWord) : Team :=
  if off = 0 then t.updPath p.creation fun q => { q with pc := v, seq := false }
  else if off < 136 then
    let m := putWord p.mask (off - 8) v &&& t.launched &&& ~~~t.exited
    let u := t.updPath p.creation fun q => { q with mask := m }
    if m = 0 then u.removePath after p.creation else u
  else if off = 136 then t.updPath p.creation fun q => { q with age := v.setWidth 16 }
  else t

/-- Write a join record: PENDING is 1 to 8. -/
def Team.writeJoin (t : Team) (j : JoinRec) (off : Nat) (v : DWord) : Option Team :=
  if off = 0 then
    let n := field v.toNat 32 8
    if n = 0 || 8 < n then none else some (t.updJoin j.id fun r => { r with pending := n })
  else if off = 8 then some (t.updJoin j.id fun r => { r with j := v })
  else some (t.updJoin j.id fun r => { r with mask := putWord r.mask (off - 16) v })

/-- The barrier record that 8 bytes give: its count is the bitmap's population, and no more than the teams (R165). -/
def Bar.ofImage (b : Bar) (teams : Nat) (v : DWord) : Option Bar :=
  let n := field v.toNat 0 8
  let bm : BitVec 16 := v.extractLsb' 16 16
  if n ≠ ((List.range 16).filter bm.toNat.testBit).length || teams < n then none
  else some { b with count := n, phase := v.getLsbD 8, bitmap := bm }

/-- An own binding with 8 of its bytes replaced, when it keeps R118's rules; LEN 0 empties it. -/
def Binding.put (b : Binding) (off : Nat) (v : DWord) : Option Binding :=
  let b' : Binding := if off = 0 then { b with obj := v } else if off = 8 then { b with base := v }
    else { b with len := v.setWidth 40 }
  if off = 16 && v.extractLsb' 40 24 != 0 then none
  else if b'.len = 0 then some b'
  else if objOk b'.obj && rangeOk b'.base (b'.len.setWidth 64) then some b' else none

/-- Whether a pointer is a canonical pointer to a clause header for the chaser of a party. -/
def State.headerAt (s : State) (c : Crew) (t : Team) (p : DWord) : Bool :=
  canonical p && p.toNat % 4 == 0 && (match s.fetchWords (c.agent t .chaser) t.cluster p 1 with
    | .ok [(h, _)] => hdrSig h
    | _ => false)

/-- Write 8 bytes of an item (R165, R351, R352): none where TRST raises TRST_VALUE. A trailing copy of a pair writes
its own state alone; what the crew and the chaser hold is written by the leading one. -/
def State.writeItem (s : State) (p : Party) (cls idx off : Nat) (v : DWord) : Option State :=
  match s.readItem p cls idx off, s.crews.get? p.crew, s.team? p, s.launchOf? p.crew with
  | some _, some c, some t, some l =>
    let own (u : Team) : Option State := some (s.setTeam p u)
    let after := s.afterJoin (c.agent t p.kind) t.cluster
    match cls with
    | 0 => match t.pathAt idx with
      | none => none
      | some q => own (t.writePath after q off v)
    | 1 => match t.joinAt idx with
      | none => none
      | some j => match t.writeJoin j off v with
        | none => none
        | some u => own u
    | 2 => match (c.bar idx).ofImage l.teams v with
      | none => none
      | some b => some (if p.kind = .trail then s else s.updCrew p.crew fun c => c.setBar idx b)
    | 3 =>
      if off = 8 then some s
      else if v.extractLsb' 0 2 ≠ 0 then none
      else own (t.setWindow idx { t.window idx with state := .invalid, since := none })
    | 4 => if 16 ≤ idx then none else match (t.ownBinding idx).put off v with
      | none => none
      | some b => own (t.setOwn idx b)
    | 6 =>
      let lead (f : Chaser → Chaser) : Option State :=
        some (if p.kind = .trail then s else s.updTeam p fun u => { u with chaser := f u.chaser })
      if idx < 32 then lead fun k => { k with th := k.th.writeS idx v.lo }
      else if idx = 32 then
        (if s.headerAt c t v then lead fun k => { k with pc := v, resumePos := 0, seq := false, th := { k.th with later := [], again := [] } }
         else none)
      else none
    | 7 =>
      let k : Latch := if v.getLsbD 32 then .scalar v.lo else .none
      own { t with frame := { t.frame with
        latches := (List.range 4).map fun i => if i = idx then k else t.frame.latches.getD i .none } }
    | 8 =>
      let put (r : DebugReg) : DebugReg := { r with mask := putWord r.mask off v }
      own (if idx < 4 then { t with bp := t.bp.write {} idx (put (t.bpReg idx)) }
        else { t with wp := t.wp.write {} (idx - 4) (put (t.wpReg (idx - 4))) })
    | _ => none
  | _, _, _, _ => none

end Sys2Proof.Machine
end

