-- ==== Sys2Proof/Machine/Links.lean ====
section
/-! DEFINITION. The fabric ports (R15, R16), the domain (R17, R18), CXL devices (R12), and inbound RDMA with the notify
registers (R14, R34, R38, R39). -/

namespace Sys2Proof.Machine

open Sys2Proof

/-! ### Flits (R15) -/

def State.updPort (s : State) (k : Nat) (f : FabricPort → FabricPort) : State :=
  { s with ports := s.ports.put k (f (s.port k)) }

/-- The fields of a flit. -/
def flitVc (f : List Byte) : Nat := le f 0 1
def flitType (f : List Byte) : Nat := le f 1 1
def flitSeq (f : List Byte) : Nat := le f 2 2
def flitAck (f : List Byte) : Nat := le f 4 2
def flitCredit (f : List Byte) : Nat := le f 6 2
def flitPayload (f : List Byte) : List Byte := (f.drop 8).take 240
def flitCrc (f : List Byte) : Nat := le f 248 8

/-- A flit is corrupt when its crc fails, or when a rsv value stands in it. -/
def flitCorrupt (f : List Byte) : Bool :=
  f.length ≠ 256 || flitCrc f ≠ crc64 (f.take 248) || 3 < flitVc f || 3 < flitType f || 4096 ≤ flitSeq f ||
    4096 ≤ flitAck f

/-- A flit of its fields. -/
def mkFlit (vc type seq ack credit : Nat) (payload : List Byte) : List Byte :=
  let body := bytesOf 1 vc ++ bytesOf 1 type ++ bytesOf 2 seq ++ bytesOf 2 ack ++ bytesOf 2 credit ++ payload
  body ++ bytesOf 8 (crc64 body)

/-- Send a flit by a port. -/
def FabricPort.transmit (p : FabricPort) (f : List Byte) : FabricPort := { p with sent := p.sent ++ [f] }

/-- Whether a port carries flits: one that carries load-store traffic, or one that DUPLICATE_NODE isolates from it
(R17). -/
def FabricPort.up (p : FabricPort) : Bool := p.live || (p.state == .isolated && !p.retraining)

/-- The sequence number of the last flit received intact. -/
def FabricPort.lastIntact (p : FabricPort) : BitVec 12 := p.rxNext - 1

/-- Ask for a replay from the first lost flit on: the request names it by the ACK it carries. Its payload is open. -/
def State.askReplay (s : State) (k : Nat) : State :=
  let (n, s1) := s.takeFreeN 240
  let payload := (List.range 240).map fun i => Config.freeByte (n + i)
  s1.updPort k fun p =>
    { p with skipping := true }.transmit (mkFlit 0 2 p.txSeq.toNat p.lastIntact.toNat 0 payload)

/-! ### Replay (R16) -/

/-- The flits of the replay buffer from a number on. -/
def FabricPort.from (p : FabricPort) (seq : BitVec 12) : List (BitVec 12 × List Byte) :=
  p.replay.dropWhile fun e => e.1 != seq

/-- Resend from a flit in order; when it is the eighth replay of the same flit in a row, the port retrains. -/
def FabricPort.resend (p : FabricPort) (seq : BitVec 12) : FabricPort :=
  let n := if p.lastReplay = some seq then p.replays + 1 else 1
  { p with sent := p.sent ++ (p.from seq).map (·.2), lastReplay := some seq, replays := if n = 8 then 0 else n,
           retraining := n == 8 }

/-- Send a payload in the next data flit; the flit is kept for replay. Of credits the spec gives the field alone: every flit
sends credit 0, and no flit is held back for want of credit (DESIGN CHOICE, log 33). -/
def FabricPort.dataOut (p : FabricPort) (vc : Nat) (payload : List Byte) : FabricPort :=
  let g := mkFlit vc 0 p.txSeq.toNat p.lastIntact.toNat 0 payload
  { p with txSeq := p.txSeq + 1, replay := p.replay ++ [(p.txSeq, g)] }.transmit g

/-- Send what waits, in order, while the replay buffer of 512 flits has room. -/
def FabricPort.pump : Nat → FabricPort → FabricPort
  | 0, p => p
  | n + 1, p => match p.backlog with
    | [] => p
    | b :: bs =>
      if Config.replayFlits ≤ p.replay.length || !p.live then p
      else FabricPort.pump n ({ p with backlog := bs }.dataOut b.1 b.2)

/-- Payloads, each on its virtual channel, join what a port has to send. -/
def FabricPort.carry (p : FabricPort) (bs : List (Nat × List Byte)) : FabricPort :=
  let q := { p with backlog := p.backlog ++ bs }
  FabricPort.pump q.backlog.length q

/-- Drop from the replay buffer what the partner has received; what waited takes its place. -/
def FabricPort.acked (p : FabricPort) (ack : BitVec 12) : FabricPort :=
  if p.replay.any fun e => e.1 == ack then
    let n := (p.replay.findIdx fun e => e.1 == ack) + 1
    { p with replay := p.replay.drop n }.carry []
  else p

/-- What an intact flit tells a port besides its payload. -/
def FabricPort.note (p : FabricPort) (f : List Byte) : FabricPort :=
  { p.acked (BitVec.ofNat 12 (flitAck f)) with ack := BitVec.ofNat 12 (flitAck f),
                                               credit := p.credit + BitVec.ofNat 16 (flitCredit f) }

/-- The transaction layer hands a port a payload of 240 bytes (log 33): a port that carries load-store traffic sends it, or
keeps it until its replay buffer has room. -/
def State.transact (s : State) (port vc : Nat) (payload : List Byte) : State :=
  if 64 ≤ port || 4 ≤ vc || payload.length ≠ 240 || !(s.port port).live then s
  else s.updPort port fun p => p.carry [(vc, payload)]

/-- An intact data flit: the one that is due goes to the transaction layer; any other one is discarded, and a gap asks
for a replay. -/
def State.dataFlit (s : State) (k : Nat) (f : List Byte) : State :=
  let p := s.port k
  let seq := BitVec.ofNat 12 (flitSeq f)
  if seq = p.rxNext then
    s.updPort k fun p => { p.note f with received := p.received ++ [flitPayload f], rxNext := p.rxNext + 1, skipping := false }
  else if p.skipping then s
  else if (seq - p.rxNext).toNat < 2048 then s.askReplay k
  else s.updPort k fun p => p.note f

/-- FLIT_RECEIVE. Every corrupt flit asks for a replay from the first lost one on, the replayed one included (R16). An isolated
port takes no data flit (R17). -/
def execFlitReceive (port : Nat) (flit : List Byte) (s : State) : Host.Outcome State Fault Refusal :=
  let p := s.port port
  if 64 ≤ port || !p.up then absent s
  else if flitCorrupt flit then .next (s.askReplay port)
  else match flitType flit with
    | 0 => .next (if p.live then s.dataFlit port flit else s)
    | 1 => .next (if p.skipping then s else s.updPort port fun p => p.note flit)
    | 2 => .next (s.updPort port fun p => (p.note flit).resend (BitVec.ofNat 12 (flitAck flit) + 1))
    | _ => .next (s.updPort port fun p => { p.note flit with retraining := true })

/-- REPLAY_REQUEST: the partner names the first flit it lost. -/
def execReplayRequest (port : Nat) (seq : BitVec 12) (s : State) : Host.Outcome State Fault Refusal :=
  if 64 ≤ port || !(s.port port).up then absent s
  else .next (s.updPort port fun p => p.resend seq)

/-- Another port that is up and reaches the same neighbour. -/
def State.otherPort (s : State) (port : Nat) : Option Nat :=
  (List.range 64).find? fun k => k != port && (s.port k).live && s.neighbour k == s.neighbour port

/-- A port is taken down: its traffic moves to a port that reaches the same neighbour; with none left the neighbour cannot
be reached. The loss is logged. -/
def State.takeDown (s : State) (port : Nat) : State :=
  let lost := ((s.port port).replay.map fun e => (flitVc e.2, flitPayload e.2)) ++ (s.port port).backlog
  let s1 := s.updPort port fun p => { p with state := .takenDown, retraining := false, replay := [], backlog := [] }
  let s2 := { s1 with mod := { s1.mod with lossLog := s1.mod.lossLog ++ [port] } }
  match s2.otherPort port with
  | some k => s2.updPort k fun p => p.carry lost
  | none => { s2 with reachable := s2.reachable.filter fun n => n != (s.neighbour port).toNat }

/-- RETRAIN_COMPLETE. A port that was waiting for a replay waits for it no more: the next gap asks again. -/
def execRetrainComplete (port : Nat) (ok : Bool) (s : State) : Host.Outcome State Fault Refusal :=
  if !(s.port port).retraining then absent s
  else if ok then .next (s.updPort port fun p =>
    let st : LinkState := if p.state = .isolated then .isolated else .retrained
    { p with state := st, retraining := false, skipping := false, replays := 0, lastReplay := none }.carry [])
  else .next (s.takeDown port)

/-- Whether the hub die that carries a fabric port, or a CXL port, is trained (R8). -/
def State.portHub (s : State) (k : Nat) : Bool := (s.die (12 + k / 16)).trained
def State.cxlHub (s : State) (k : Nat) : Bool := (s.die (12 + k)).trained

/-- DOMAIN_JOIN (R17, R18): the ports of the trained hub dies come up, or a duplicate node number isolates them; else the
service learns whether the switches reduce. -/
def execDomainJoin (reduces duplicate : Bool) (s : State) : Host.Outcome State Fault Refusal :=
  if !s.booted || s.mod.service = .recovery || s.mod.joined || s.mod.duplicate then absent s
  else
    let st : LinkState := if duplicate then .isolated else .up
    let s1 := ((List.range 64).filter s.portHub).foldl (fun u k => u.updPort k fun p => { p with state := st }) s
    .next { s1 with mod := { s1.mod with joined := !duplicate, duplicate := duplicate, reduces := !duplicate && reduces } }

/-! ### CXL devices (R12) -/

/-- The device kind of R26. -/
def cxlCode : CxlKind → Nat
  | .type3Single => 1 | .type3Multi => 2 | .persistent => 3 | .unsupported => 4

/-- CXL_DEVICE_DISCOVERED: the port of a trained hub die trains to 64 GT/s, or to 32 GT/s when the device is `slow`. A
supported device is the port's part of the pool; another one stays unmapped, and the refusal is recorded. -/
def execCxlDeviceDiscovered (port : Nat) (kind : CxlDevice) (capacity : Nat) (s : State) :
    Host.Outcome State Fault Refusal :=
  if 4 ≤ port || !s.booted || !s.cxlHub port then absent s
  else .next { s with cxl := s.cxl.put port (match kind.kind with
    | .unsupported => { state := .refused, kind := 4, capacity := 0 }
    | k => { state := .up, kind := cxlCode k, capacity := capacity, rate := Config.cxlRate kind.slow }) }

/-! ### Inbound RDMA (R14, R34) -/

/-- The pointer that an offset under a handle names, when the range lies in what EXPOSE opened and its flag allows it. -/
def State.exposed (s : State) (handle offset n : Nat) (write : Bool) : Option (Nat × DWord) :=
  match s.exposures.get? handle with
  | none => none
  | some e =>
    if e.len < offset + n || !(if write then e.write else e.read) then none
    else some (e.ctx, e.base + BitVec.ofNat 64 offset)

/-- Perform an inbound operation, which is an engine access of the context (R35), as one access, or answer it with the
transport's access error; poisoned memory is answered so too (log 22). An operation that meets a migrating leaf or an owner
that does not answer has to wait. -/
def State.rdma (s : State) (o : InboundOp) : Except XFault State :=
  match s.exposed o.handle.toNat o.offset o.len o.write.isSome with
  | none => .ok (s.send .rdmaError)
  | some (ctx, p) =>
    let g := engineAgent ctx
    match s.ctxPieces g (if o.write.isSome then .store else .load) p o.len with
    | .error (x, _) => if x.patience.isSome then .error x else .ok (s.send .rdmaError)
    | .ok ps =>
      let s1 := s.commitFills g (ps.map (·.1))
      match o.write with
      | some data => .ok ((s1.writePieces ps data).send .rdmaDone)
      | none =>
        if ps.any fun x => (List.range x.2).any fun i => s.poisoned (x.1.addr + i) then .ok (s.send .rdmaError)
        else .ok (s1.send (.rdmaData (ps.flatMap fun x => s.readBytes x.1.addr x.2)))

/-- An inbound operation arrives: one of a refused form performs nothing, and one that has to wait is kept. -/
def State.takeRdma (s : State) (form : UecForm) (o : InboundOp) : State :=
  if !form.taken then s.send .rdmaRefused
  else match s.rdma o with
    | .ok s' => s'
    | .error x => { s with inbounds := s.inbounds ++ [{ o with remote := x.isRemote }] }

/-- INBOUND_RDMA_WRITE. -/
def execInboundRdmaWrite (handle : RdmaKey) (offset : Nat) (data : List Byte) (s : State) :
    Host.Outcome State Fault Refusal :=
  if !s.uecUp then absent s
  else .next (s.takeRdma handle.form
    { handle := handle.handle, offset := offset, write := some data, len := data.length, since := s.now, remote := false })

/-! ### Notify registers (R38, R39) -/

/-- The queue of a notify handle. -/
def State.notifyQueue (s : State) (handle : Nat) : Option (Nat × UQueue) :=
  s.queues.find? fun e => e.2.handle == handle && e.2.state != .destroyed

/-- A read under a notify handle returns WI, or the bytes of it that are named (R39). -/
def State.readNotify (s : State) (u : UQueue) (offset length : Nat) : State :=
  if offset < u.addr || u.addr + 8 < offset + length then s.send .rdmaError
  else s.send (.rdmaData (((bytesOf 8 u.wi.toNat).drop (offset - u.addr)).take length))

/-- INBOUND_RDMA_READ. -/
def execInboundRdmaRead (handle : RdmaKey) (offset length : Nat) (s : State) :
    Host.Outcome State Fault Refusal :=
  if !s.uecUp then absent s
  else match s.notifyQueue handle.handle.toNat, handle.form.taken with
    | some (_, u), true => .next (s.readNotify u offset length)
    | _, _ => .next (s.takeRdma handle.form
        { handle := handle.handle, offset := offset, write := none, len := length, since := s.now, remote := false })

/-- An active queue whose ring is overrun stops (R41). -/
def State.checkOverrun (s : State) (q : Nat) : State :=
  match s.queues.get? q with
  | none => s
  | some u =>
    if u.state = .active && 2 ^ u.n < u.wi.toNat - u.ri.toNat then s.stopQueue q 2 else s

/-- A notify write is dropped and counted, up to 0xFFFF. -/
def UQueue.dropWrite (u : UQueue) : UQueue := { u with err := if u.err = 0xFFFF then u.err else u.err + 1 }

/-- NOTIFY_WRITE: an RDMA write under a notify handle. -/
def execNotifyWrite (handle : NotifyKey) (addr : DWord) (data : List Byte) (s : State) :
    Host.Outcome State Fault Refusal :=
  if !s.uecUp then absent s
  else if !handle.form.taken then .next (s.send .rdmaRefused)
  else match s.notifyQueue handle.handle.toNat with
  | none => .next (s.send .rdmaError)
  | some (q, u) =>
    if addr.toNat < u.addr || u.addr + 8 < addr.toNat + data.length then .next (s.send .rdmaError)
    else if addr.toNat ≠ u.addr || data.length ≠ 8 then
      .next (((s.updQueue q UQueue.dropWrite).showQueue q).send .rdmaDone)
    else
      let x := BitVec.ofNat 64 (le data 0 8)
      .next (((s.updQueue q fun u => { u with wi := if u.wi.ult x then x else u.wi }).checkOverrun q).send .rdmaDone)

end Sys2Proof.Machine
end

