-- ==== Sys2Proof/Machine/Service.lean ====
section
/-! DEFINITION. The resident service's requests that make and change contexts, regions, mappings and queues (R31 to R41,
R131), the hallmark (R25, R26), and the end of a close (R36). -/

namespace Sys2Proof.Machine

open Sys2Proof

/-! ### Serving a request (R31 to R33) -/

/-- Serve a request that names a context: the header and the body are well formed, and the context is there and not
closing. A malformed request is BAD_REQUEST whatever its context does (log 23). -/
def State.serve (code : Nat) (r : Request) (len : Nat) (bad : Bool) (act : Context → State → State)
    (s : State) : Host.Outcome State Fault Refusal :=
  s.hear code r <|
    if r.malformed len || bad || r.ctx = 0 || 255 < r.ctx.toNat then .next (s.respond r code 1 [])
    else match s.contexts.get? r.ctx.toNat with
      | none => .next (s.respond r code 2 [])
      | some c => if c.closing.isSome then .next (s.respond r code 4 []) else .next (act c s)

/-- Whether a pointer range lies in one valid region of a context (R34). -/
def State.inRegion (s : State) (ctx : Nat) (p : DWord) (len : Nat) : Bool :=
  let e := s.region ctx (rid p)
  canonical p && 0 < len && va p + len ≤ 2 ^ 48 && regionV e && regionBase e ≤ vpage p &&
    (va p + len - 1) / 65536 ≤ regionLimit e

/-! ### Frames (log 23) -/

/-- The parts of a tier from which the service takes frames: a key, the base, and how many frames there are. In the plane
they lie below the scratch pools (R53). The stack and the plane slices of a die that is not trained, or left out, are parts
like any other (DESIGN CHOICE, log 23). -/
def State.segments (s : State) (tier : Nat) : List (Nat × Nat × Nat) :=
  match tier with
  | 0 => (List.range Config.cores).map fun c => (c, c * 0x800000, 32)
  | 1 => (List.range 12).map fun d => (1000 + d, 0x10000000000 + d * 0x1000000000, 64 * 10 ^ 9 / 65536)
  | 2 => [(2000, 0x20000000000, 2048 * 10 ^ 9 / 65536)]
  | _ => (List.range 4).map fun j => (3000 + j, (j + 1) * 0x1000000000000, (s.cxl.read {} j).capacity / 65536)

/-- Round up. -/
def alignUp (x a : Nat) : Nat := (x + a - 1) / a * a

/-- Whether frames have no hole: a frame lies on the channels of two hub dies, and the next one on those of the others. -/
def State.whole (s : State) (a n : Nat) : Bool :=
  (List.range (2 * min n 2)).all fun i => (s.tierOf (a + 32768 * i)).isSome

/-- Take `n` consecutive frames of a part, the first that have no hole. -/
def State.takeIn (s : State) (seg : Nat × Nat × Nat) (n align : Nat) : Option (Nat × State) :=
  let o := alignUp (s.nextFrame.read 0 seg.1) align
  ([o, o + align].find? fun o => o + n ≤ seg.2.2 && s.whole (seg.2.1 + 65536 * o) n).map fun o =>
    (seg.2.1 + 65536 * o, { s with nextFrame := s.nextFrame.write 0 seg.1 (o + n) })

/-- Take `n` consecutive frames of a tier; a single one is taken first from those that came back. -/
def State.takeFrames (s : State) (tier n align : Nat) : Option (Nat × State) :=
  match if n = 1 then s.freeFrames.find? (fun a => s.tierOf a == some tier) else none with
  | some a => some (a, { s with freeFrames := s.freeFrames.erase a })
  | none => (s.segments tier).findSome? fun g => s.takeIn g n align

/-- Take frames at one offset of every NCS stack, for a replicated page (R110). -/
def State.takeReplicas (s : State) (n align : Nat) : Option (Nat × State) :=
  let o := alignUp ((List.range 12).foldl (fun a d => max a (s.nextFrame.read 0 (1000 + d))) 0) align
  if 64 * 10 ^ 9 / 65536 < o + n then none
  else some (0x10000000000 + 65536 * o,
    { s with nextFrame := (List.range 12).foldl (fun t d => Tbl.write 0 t (1000 + d) (o + n)) s.nextFrame })

/-- A frame is empty: it lists nothing. -/
def State.zeroFrame (s : State) (a : Nat) : State :=
  { s with mem := s.mem.filter fun e => decide (e.1 < a) || decide (a + 65536 ≤ e.1) }

/-- A context holds frames until it ends. -/
def State.holdFrames (s : State) (ctx : Nat) (fs : List Nat) : State :=
  s.updContext ctx fun c => { c with frames := c.frames ++ fs }

/-- A context gives frames back, those that the service took for it. -/
def State.dropFrames (s : State) (ctx : Nat) (fs : List Nat) : State :=
  let mine := (s.contexts.get? ctx).elim [] fun c => c.frames.filter fs.contains
  { s.updContext ctx fun c => { c with frames := c.frames.filter fun a => !fs.contains a } with
    freeFrames := s.freeFrames ++ mine }

/-! ### Tables and leaves (R98 to R101) -/

/-- A frame for a page table, empty. -/
def State.takeTable (s : State) (ctx : Nat) : Option (Nat × State) :=
  (s.takeFrames 2 1 1).map fun x => (x.1, (x.2.zeroFrame x.1).holdFrames ctx [x.1])

/-- A non-leaf entry. -/
def tableEntry (a : Nat) : BitVec 128 := BitVec.ofNat 128 (a / 4096 * 2 ^ 64 + 1)

def State.writeEntry (s : State) (a : Nat) (e : BitVec 128) : State := s.writeBytes a (bytesOf 16 e.toNat)

/-- The address of the level-1 entry of a page (VA bits 47:16), when its table is there. -/
def State.slot1 (s : State) (ctx page : Nat) : Option Nat :=
  (s.contexts.get? ctx).bind fun c =>
    let e := s.readEntry (c.root + 16 * (page / 2 ^ 24 % 256))
    if leafV e && s.tableOk 2 e then some (nextTable e + 16 * (page / 4096 % 4096)) else none

/-- The same, with a table made where none is. -/
def State.makeSlot1 (s : State) (ctx page : Nat) : Option (Nat × State) :=
  match s.slot1 ctx page with
  | some a => some (a, s)
  | none => (s.contexts.get? ctx).bind fun c => (s.takeTable ctx).map fun x =>
    (x.1 + 16 * (page / 4096 % 4096), x.2.writeEntry (c.root + 16 * (page / 2 ^ 24 % 256)) (tableEntry x.1))

/-- The address of the level-0 entry of a page, with the tables made where none are. -/
def State.makeSlot0 (s : State) (ctx page : Nat) : Option (Nat × State) :=
  (s.makeSlot1 ctx page).bind fun x =>
    let e := x.2.readEntry x.1
    if leafV e && x.2.tableOk 1 e then some (nextTable e + 16 * (page % 4096), x.2)
    else (x.2.takeTable ctx).map fun y => (y.1 + 16 * (page % 4096), y.2.writeEntry x.1 (tableEntry y.1))

/-- A 256 MiB leaf becomes a table of 4,096 leaves with the same attributes and consecutive frames (R34). -/
def State.splitLeaf (s : State) (ctx slot : Nat) : Option State :=
  let e := s.readEntry slot
  (s.takeTable ctx).map fun x =>
    ((List.range 4096).foldl (fun u i =>
      u.writeEntry (x.1 + 16 * i) (e + BitVec.ofNat 128 (i * 2 ^ 68))) x.2).writeEntry slot (tableEntry x.1)

/-! ### Unmapping (R34, R131) -/

/-- What a leaf maps is no longer the context's: plane frames lose their owner (R93), frames of the service come back. -/
def State.letGo (s : State) (ctx : Nat) (l : Nat × BitVec 128 × Nat × Bool) : State :=
  if leafNode l.2.1 ≠ s.node then s
  else
    let one := leafFrames l
    let all := if leafPM l.2.1 then one.flatMap fun a => (List.range 12).map fun d => a + d * 0x1000000000 else one
    let own := s.crews.flatMap fun c => c.2.granules.map (granuleAddr c.2.core ·)
    let s1 := one.foldl (fun u a =>
      if u.tierOf a = some 0 && u.owner a = ctx && !own.contains a then u.setOwner (a / 65536) 0 else u) s
    s1.dropFrames ctx all

/-- The leaves of one 256 MiB span that map a page of a range. -/
def State.spanLeaves (s : State) (slot top lo hi : Nat) : List (Nat × BitVec 128 × Nat × Bool) :=
  let e := s.readEntry slot
  if !leafV e then []
  else if leafL e then [(top, e, slot, true)]
  else if !s.tableOk 1 e then []
  else (s.entries (nextTable e) 4096).filterMap fun x =>
    if lo ≤ top + x.1 && top + x.1 < hi then some (top + x.1, x.2.1, x.2.2, false) else none

/-- Unmap the pages [lo, hi) that lie in one 256 MiB span. -/
def State.unmapSpan (s : State) (ctx top lo hi : Nat) : Option State :=
  match s.slot1 ctx top with
  | none => some s
  | some slot =>
    let e := s.readEntry slot
    let part := leafV e && leafL e && !(lo ≤ top && top + 4096 ≤ hi)
    (if part then s.splitLeaf ctx slot else some s).map fun u =>
      (u.spanLeaves slot top lo hi).foldl (fun w l => (w.writeEntry l.2.2.1 0).letGo ctx l) u

/-- Unmap a range of pages; the SHOOT over it completes first, so that every access through the old leaves is performed.
None when no frame is free for a table. -/
def State.unmapPages (s : State) (ctx page n : Nat) : Option State :=
  let s1 := s.shootPages ctx page n fun _ => true
  (List.range ((page + n + 4095) / 4096 - page / 4096)).foldl (fun u i => u.bind fun u =>
    u.unmapSpan ctx ((page / 4096 + i) * 4096) page (page + n)) (some s1)

/-- UNMAP; its SHOOT waits for the pages that an engine works on (R129, R132). -/
def execUnmap (r : Request) (s : State) : Host.Outcome State Fault Refusal :=
  let p := r.ptr 0
  let n := r.num 8 8
  if s.engineHolds r.ctx.toNat (vpage p) n fun _ => true then absent s
  else s.serve 5 r 16 (p.toNat % 65536 ≠ 0) fun _ u =>
    if !u.inRegion r.ctx.toNat p (65536 * n) then u.respond r 5 1 []
    else match u.unmapPages r.ctx.toNat (vpage p) n with
      | none => u.respond r 5 3 []
      | some v => v.respond r 5 0 []

/-! ### MAP (R34) -/

/-- The fields of a MAP body. -/
structure MapBody where
  va : DWord
  count : Nat
  tier : Nat
  fmt : Nat
  geom : Nat
  flags : Nat
  node : Nat
  gen : Nat
  frame : Nat
  deriving DecidableEq, Repr

def mapBody (r : Request) : MapBody :=
  { va := r.ptr 0, count := r.num 8 8, tier := r.num 16 1, fmt := r.num 17 1, geom := r.num 18 1, flags := r.num 19 1,
    node := r.num 20 2, gen := r.num 22 1, frame := r.num 24 8 }

def MapBody.large (m : MapBody) : Bool := m.flags.testBit 6
def MapBody.pm (m : MapBody) : Bool := m.flags.testBit 5
def MapBody.align (m : MapBody) : Nat := if m.large then 4096 else 1
def MapBody.pages (m : MapBody) : Nat := m.count * m.align

/-- A field out of range, or a rsv bit. -/
def MapBody.bad (m : MapBody) (r : Request) : Bool :=
  m.va.toNat % (65536 * m.align) ≠ 0 || m.count = 0 || 2 ^ 32 ≤ m.count || 3 < m.tier || 63 < m.fmt || 15 < m.geom ||
    m.flags.testBit 7 || 2047 < m.node || r.num 23 1 ≠ 0 || m.frame % 65536 ≠ 0 || 2 ^ 52 ≤ m.frame

/-- The leaf at one of the frames. -/
def MapBody.leaf (m : MapBody) (frame : Nat) : BitVec 128 :=
  let f (i : Nat) : Nat := if m.flags.testBit i then 1 else 0
  BitVec.ofNat 128 (3 + f 0 * 4 + f 1 * 8 + f 2 * 16 + f 3 * 32 + f 4 * 64 + f 5 * 512 + m.fmt * 2 ^ 58 + m.geom * 2 ^ 64 +
    frame / 65536 * 2 ^ 68 + m.tier * 2 ^ 104 + m.node * 2 ^ 109 + m.gen * 2 ^ 120)

/-- Whether a leaf at a frame passes the checks of R101. -/
def MapBody.leafOk (m : MapBody) (s : State) (frame : Nat) : Bool :=
  s.leafOk (if m.large then 1 else 0) (m.leaf frame)

/-- The frames of the leaves. -/
def MapBody.at (m : MapBody) (first : Nat) : List Nat :=
  (List.range m.count).map fun i => first + 65536 * m.align * i

/-- The first frame: the client's, or one that the service takes. -/
def MapBody.frames (m : MapBody) (s : State) (ctx : Nat) : Option (Nat × State) :=
  if m.frame ≠ 0 then some (m.frame, s)
  else
    (if m.pm then s.takeReplicas m.pages m.align else s.takeFrames m.tier m.pages m.align).map fun x =>
      let run := (List.range m.pages).map fun i => x.1 + 65536 * i
      (x.1, x.2.holdFrames ctx
        (if m.pm then run.flatMap fun a => (List.range 12).map fun d => a + d * 0x1000000000 else run))

/-- The pages of a range that are live, with their bytes' global address (R131). -/
def State.livePages (s : State) (ctx page n : Nat) : List (Nat × Nat) :=
  (List.range n).filterMap fun i => match s.walk ctx ((page + i) * 65536) with
    | .ok (e, _, large) =>
      some (page + i, globalAddr s.node (leafNode e) (leafAddr e large ((page + i) * 65536)))
    | .error _ => none

/-- Write the leaves of a map. -/
def MapBody.write (m : MapBody) (ctx : Nat) (first : Nat) (s : State) : Option State :=
  (List.range m.count).foldl (fun u i => u.bind fun u =>
    let page := vpage m.va + m.align * i
    (if m.large then u.makeSlot1 ctx page else u.makeSlot0 ctx page).map fun x =>
      x.2.writeEntry x.1 (m.leaf (first + 65536 * m.align * i))) (some s)

/-- A plane frame is owned by the context that maps it (R93). -/
def State.claim (s : State) (ctx a : Nat) : State :=
  if s.tierOf a = some 0 && s.owner a = 0 then s.setOwner (a / 65536) ctx else s

/-- Map the leaves; a live range is moved as R131 states: what it held is copied to the new frames. -/
def MapBody.apply (m : MapBody) (ctx : Nat) (s : State) : Option (Nat × State) :=
  let page := vpage m.va
  let s0 := s.shootPages ctx page m.pages fun _ => true
  let old := (s0.livePages ctx page m.pages).map fun o => (o.1, s0.readBytes o.2 65536)
  (m.frames s0 ctx).bind fun x => (x.2.unmapPages ctx page m.pages).bind fun u =>
    (m.write ctx x.1 u).map fun v =>
      let there (k : Nat) : List Nat :=
        let a := globalAddr s.node m.node (x.1 + 65536 * (k - page))
        if m.pm then (List.range 12).map fun d => a + d * 0x1000000000 else [a]
      let v1 := old.foldl (fun w o => (there o.1).foldl (fun w a => w.writeBytes a o.2) w) v
      (x.1, if m.node = s.node then
        (List.range m.pages).foldl (fun w i => w.claim ctx (x.1 + 65536 * i)) v1 else v1)

/-- MAP; the SHOOT of a live range waits for the pages that an engine works on (R129, R132). The spec does not say what a
body asks for whose FRAME is 0 and whose NODE is not the F7's own (the service allocates no frame there): the model answers
it BAD_REQUEST (DESIGN CHOICE, log 23). -/
def execMap (r : Request) (s : State) : Host.Outcome State Fault Refusal :=
  let m := mapBody r
  if s.engineHolds r.ctx.toNat (vpage m.va) m.pages fun _ => true then absent s
  else s.serve 4 r 32 (m.bad r) fun _ u =>
    let ctx := r.ctx.toNat
    if !u.inRegion ctx m.va (65536 * m.pages) || (m.frame = 0 && m.node ≠ u.node) ||
        (m.frame ≠ 0 && !(m.at m.frame).all (m.leafOk u)) then u.respond r 4 1 []
    else match m.frames u ctx with
      | none => u.respond r 4 3 []
      | some x =>
        if !(m.at x.1).all (m.leafOk u) then u.respond r 4 1 []
        else match m.apply ctx u with
          | none => u.respond r 4 3 []
          | some y => y.2.respond r 4 0 (bytesOf 8 y.1)

/-! ### Contexts (R34 to R36) -/

/-- The lowest context number that is not in use. -/
def State.freeContext (s : State) : Option Nat :=
  ((List.range (min 255 s.mod.limits.contexts)).map (· + 1)).find? fun k => (s.contexts.get? k).isNone

/-- Take `n` frames of tier 2, one at a time. -/
def State.takeEach (s : State) : Nat → Option (List Nat × State)
  | 0 => some ([], s)
  | n + 1 => (s.takeFrames 2 1 1).bind fun x => (x.2.takeEach n).map fun y => (x.1 :: y.1, y.2)

/-- The bytes of the pool page: the count, and the frames' addresses bits 51:16. -/
def poolPage (fs : List Nat) : List Byte := bytesOf 8 fs.length ++ fs.flatMap fun a => bytesOf 8 (a / 65536)

/-- Reserve a pool and map its privileged RAW page. -/
def State.makePool (s : State) (ctx n : Nat) (va : DWord) : Option State :=
  if n = 0 then some s
  else (s.takeEach n).bind fun x => (x.2.takeFrames 2 1 1).bind fun y =>
    let m : MapBody := { va := va, count := 1, tier := 2, fmt := 0, geom := 0, flags := 0x1B, node := s.node, gen := 0,
                         frame := y.1 }
    (m.write ctx y.1 ((y.2.zeroFrame y.1).holdFrames ctx (y.1 :: x.1))).map fun u => u.writeBytes y.1 (poolPage x.1)

/-- OPEN_CONTEXT: every region entry starts with V = 0. -/
def execOpenContext (r : Request) (s : State) : Host.Outcome State Fault Refusal :=
  let h := r.ptr 0
  let pool := r.num 8 8
  let va := r.ptr 16
  s.hear 1 r <|
  if r.malformed 24 || r.ctx ≠ 0 || h.toNat % 4 ≠ 0 || !canonical h || 8191 < pool || va.toNat % 65536 ≠ 0 ||
      !canonical va || (pool = 0 && va ≠ 0) then .next (s.respond r 1 1 [])
  else match s.freeContext with
    | none => .next (s.respond r 1 3 [])
    | some k =>
      match (s.takeFrames 2 1 1).bind fun x =>
          (({ x.2.zeroFrame x.1 with contexts := s.contexts.put k { handler := h, root := x.1, frames := [x.1] } } : State)
            ).makePool k pool va with
      | none => .next (s.respond r 1 3 [])
      | some u => .next (u.respond { r with ctx := BitVec.ofNat 16 k } 1 0 [])

/-- SET_REGION: what the old entry let through is performed, and the SHOOT over the region completes, once no engine works
on its pages. -/
def execSetRegion (r : Request) (s : State) : Host.Outcome State Fault Refusal :=
  let e : BitVec 128 := BitVec.ofNat 128 (r.num 8 16)
  let bad := r.num 1 7 ≠ 0 || e.extractLsb' 96 32 ≠ 0 || e.extractLsb' 8 24 ≠ 0 || e.getLsbD 6 ||
    regionLimit e < regionBase e
  let old := s.region r.ctx.toNat (r.num 0 1)
  let waits (x : BitVec 128) : Bool :=
    regionV x && s.engineHolds r.ctx.toNat (regionBase x) (regionLimit x - regionBase x + 1) fun _ => true
  if waits old || waits e then absent s
  else s.serve 3 r 24 bad fun c u =>
    let ctx := r.ctx.toNat
    let id := r.num 0 1
    let shoot (x : BitVec 128) (w : State) : State :=
      if regionV x then w.shootPages ctx (regionBase x) (regionLimit x - regionBase x + 1) fun _ => true else w
    let u1 := shoot e (shoot (c.regions.read 0 id) u)
    (u1.updContext ctx fun c => { c with regions := c.regions.write 0 id e }).respond r 3 0 []

/-- CLOSE_CONTEXT: fetch stops; the close goes on when the last packet reaches DONE, or when the grace period ends. -/
def execCloseContext (r : Request) (s : State) : Host.Outcome State Fault Refusal :=
  let grace := r.num 0 8
  s.serve 2 r 8 (10000000 < grace) fun _ u =>
    (u.updContext r.ctx.toNat fun c =>
      { c with closing := some (u.now + BitVec.ofNat 64 (1700 * grace)), closeReq := some r }).closeCheck r.ctx.toNat

/-- Every team of a crew is halted. -/
def State.haltCrew (s : State) (crew : Nat) : State :=
  match s.crews.get? crew with
  | none => s
  | some c => c.teams.foldl (fun u t => if t.2.retired then u else u.haltTeam ⟨crew, t.1, .team⟩) s

/-- A packet short of DONE, whose launch does not run, ends with CONTEXT_CLOSED. -/
def State.closePacket (s : State) (k : Nat) : State :=
  match s.packets.get? k with
  | none => s
  | some p =>
    if p.state = .confirming || p.launch.isSome then s
    else (if p.state = .running && p.type = 5 then s.spoilHub p else s).packetDone k 6 0 true

/-- Whether a launch still has teams that a close halts: crews not placed yet, or not retired. -/
def State.unfinished (s : State) (id : Nat) (l : Launch) : Bool :=
  l.next < l.total || s.crews.any fun c => c.2.launch == id && c.2.state != .retired

/-- CLOSE_GRACE_EXPIRY (R36): launches whose teams the close halts end with CONTEXT_CLOSED, the others as they would. -/
def execCloseGraceExpiry (ctx : Nat) (s : State) : Host.Outcome State Fault Refusal :=
  match (s.contexts.get? ctx).bind (·.closing) with
  | none => absent s
  | some t =>
    if s.now.ult t then absent s
    else
      let s1 := { s with launches := s.launches.map fun (l : Nat × Launch) =>
        if l.2.ctx = ctx then (l.1, { l.2 with closed := l.2.closed || s.unfinished l.1 l.2, next := l.2.total }) else l }
      let crews := (s1.crews.filter fun (c : Nat × Crew) => c.2.ctx == ctx).map (·.1)
      let s2 := crews.foldl State.haltCrew ((s1.cancelContext ctx).dropBacklog ctx)
      let mine := (s2.packets.filter fun (p : Nat × Packet) => p.2.ctx == ctx).map (·.1)
      .next ((mine.foldl State.closePacket s2).closeCheck ctx)

/-- EXPOSE. -/
def execExpose (r : Request) (s : State) : Host.Outcome State Fault Refusal :=
  let p := r.ptr 0
  let n := r.num 8 8
  let flags := r.num 16 1
  s.serve 6 r 24 (n = 0 || 2 ^ 40 < n || 3 < flags || r.num 17 7 ≠ 0) fun _ u =>
    if !u.inRegion r.ctx.toNat p n then u.respond r 6 1 []
    else
      let (h, u1) := u.fresh
      ({ u1 with exposures := u1.exposures.put h { ctx := r.ctx.toNat, base := p, len := n, read := flags.testBit 0,
                                                     write := flags.testBit 1 } }).respond r 6 0
        (bytesOf 4 h ++ bytesOf 4 0)

/-- REGISTER_NOTIFY. -/
def execRegisterNotify (r : Request) (s : State) : Host.Outcome State Fault Refusal :=
  let e := r.body.take 16
  s.serve 0xE r 16 false fun _ u =>
    (u.updContext r.ctx.toNat fun c => { c with notify := if e.all (· == 0) then none else some e }).respond r 0xE 0 []

/-- SERVICE_REQUEST_UNKNOWN: any other code. -/
def execServiceRequestUnknown (code : BitVec 16) (r : Request) (s : State) : Host.Outcome State Fault Refusal :=
  if 1 ≤ code.toNat && code.toNat ≤ 0xE then absent s
  else s.hear code.toNat r (.next (s.respond r code.toNat 1 []))

/-! ### Queues (R37 to R41) -/

/-- A queue that a context may still name. -/
def State.queueOf (s : State) (ctx q : Nat) : Option UQueue :=
  (s.queues.get? q).filter fun u => u.ctx == ctx

/-- The lowest number that no queue, and no packet of a destroyed one, uses. -/
def State.freeQueue (s : State) : Option Nat :=
  (List.range (min 4096 s.mod.limits.queues)).find? fun q => match s.queues.get? q with
    | none => true
    | some u => u.state == QState.destroyed && !s.packets.any fun p => p.2.queue == q

/-- The packet processor to which the service binds a queue: the processors of the trained hub dies in turn (R8, R38). -/
def State.procFor (s : State) (q : Nat) : Nat :=
  let ps := (List.range 32).filter s.procRuns
  ps.getD (q % ps.length) 0

/-- CREATE_QUEUE; the notify register's address means nothing else to the client: a free value (R38). -/
def execCreateQueue (r : Request) (s : State) : Host.Outcome State Fault Refusal :=
  let ring := r.ptr 0
  let st := r.ptr 8
  let n := r.num 16 1
  let cap := r.num 17 1
  let bad := n = 0 || 16 < n || 3 < cap || r.num 18 6 ≠ 0 || st.toNat % 16 ≠ 0 || ring.toNat % (min (64 * 2 ^ n) 65536) ≠ 0
  s.serve 7 r 24 bad fun _ u =>
    let ctx := r.ctx.toNat
    if !u.inWritable ctx ring (64 * 2 ^ n) || !u.inWritable ctx st 16 then u.respond r 7 1 []
    else match u.freeQueue with
      | none => u.respond r 7 3 []
      | some q =>
        let (h, u1) := u.fresh
        let (k, u2) := u1.takeFree
        let addr := (Config.freeDWord k &&& 0x7FFFFFFFFFFFFFF8).toNat
        let x : UQueue := { ctx := ctx, ring := ring, status := st, n := n, cap := cap, proc := u2.procFor q, handle := h, addr := addr }
        ({ u2 with queues := u2.queues.put q x }).respond r 7 0 (bytesOf 4 q ++ bytesOf 4 h ++ bytesOf 8 addr)

/-- DESTROY_QUEUE: fetch stops, and the packets in flight run to completion, held ones too. -/
def execDestroyQueue (r : Request) (s : State) : Host.Outcome State Fault Refusal :=
  let q := r.num 0 4
  s.serve 8 r 8 (r.num 4 4 ≠ 0) fun _ u =>
    match u.queueOf r.ctx.toNat q with
    | none => u.respond r 8 2 []
    | some x =>
      if x.state = .destroyed then
        u.respond r 8 (if u.packets.any fun p => p.2.queue == q && p.2.inFlight then 4 else 2) []
      else
        ((u.updQueue q fun x => { x with state := .destroyed, held := false, reread := none, since := none }).showQueue q
          ).respond r 8 0 []

/-- RESUME_QUEUE: held packets are released in ring order, and packet RI is read again. -/
def execResumeQueue (r : Request) (s : State) : Host.Outcome State Fault Refusal :=
  let q := r.num 0 4
  let flags := r.num 4 4
  let wi := r.ptr 8
  s.serve 9 r 16 (1 < flags) fun _ u =>
    match u.queueOf r.ctx.toNat q with
    | none => u.respond r 9 2 []
    | some x =>
      match x.state with
      | .active => u.respond r 9 1 []
      | .destroyed => u.respond r 9 2 []
      | .stopped =>
        if flags = 1 && (wi.toNat < x.ri.toNat || x.ri.toNat + 2 ^ x.n < wi.toNat) then u.respond r 9 1 []
        else
          (((u.updQueue q fun x => { x with state := .active, cause := 0, held := false, reread := none, since := none,
                                            wi := if flags = 1 then wi else x.wi }).showQueue q).checkOverrun q).respond r 9 0 []

/-! ### The hallmark (R25, R26) -/

/-- The bytes of a plan-history entry. -/
def PlanEntry.bytes (e : PlanEntry) : List Byte :=
  bytesOf 8 e.tick.toNat ++ bytesOf 1 e.die ++ bytesOf 1 e.reason ++ bytesOf 2 e.core ++ bytesOf 4 0 ++
    (List.range 64).map fun i => e.digest.getD i 0

/-- The STATE code of a link. -/
def LinkState.code : LinkState → Nat
  | .up => 0 | .down => 1 | .retrained => 2 | .takenDown => 3 | .isolated => 4 | .refused => 5

/-- The 16 bytes of a link-inventory entry; RATE is 0 when the port is not up. -/
def linkEntry (port kind : Nat) (st : LinkState) (trained peer : Nat) : List Byte :=
  let rate := if st == .up || st == .retrained then trained else 0
  bytesOf 2 port ++ bytesOf 1 kind ++ bytesOf 1 st.code ++ bytesOf 4 rate ++ bytesOf 4 peer ++ bytesOf 4 0

/-- The link inventory: the CXL ports, the Ultra Ethernet ports, the fabric ports. -/
def State.inventory (s : State) : List (List Byte) :=
  ((List.range 4).map fun k => let c := (s.cxl.get? k).getD {}; linkEntry k 0 c.state c.rate c.kind) ++
    ((List.range 8).map fun k => linkEntry k 1 ((s.uec.get? k).getD .down) Config.uecRate 0) ++
    (List.range 64).map fun k => linkEntry k 2 (s.port k).state Config.fabricRate (s.neighbour k).toNat

/-- The dies in service. -/
def State.dieMap (s : State) : Nat :=
  ((List.range 16).filter fun d => let x := s.die d; x.trained && !x.failed && !x.retired).foldl (fun a d => a + 2 ^ d) 0

/-- The hallmark over a nonce. The bytes of the current margin plan are the tables in effect of the sixteen dies, in die
order; a table that waits for its token turn is not among them (DESIGN CHOICE, log 3). -/
def State.hallmark (s : State) (nonce : List Byte) : List Byte :=
  let meas (i : Nat) : List Byte := (List.range 64).map fun j => (s.mod.measures.getD i []).getD j 0
  let body := bytesOf 8 1 ++ nonce ++ bytesOf 8 s.now.toNat ++ bytesOf 4 (s.mod.service.state.getD 0) ++
    bytesOf 4 s.dieMap ++ (meas 0 ++ meas 1 ++ meas 2 ++ meas 3) ++
    digest64 ((List.range 16).flatMap fun d => (s.die d).table) ++ bytesOf 4 s.mod.plan.length ++
    bytesOf 4 s.inventory.length ++ s.mod.plan.flatMap PlanEntry.bytes ++ s.inventory.flatten
  body ++ (List.range 114).map fun i => (Config.ed448Sign body).getD i 0

/-- A long response goes out in order, at most 4,080 bytes a time (R34). -/
def State.respondLong (s : State) (r : Request) (code : Nat) (bs : List Byte) : State :=
  (chunks 4080 (bs.length / 4080 + 1) bs).foldl (fun u c => u.respond r code 0 c) s

/-- READ_HALLMARK; it is served in recovery too (R24). -/
def execReadHallmark (r : Request) (s : State) : Host.Outcome State Fault Refusal :=
  s.hear 0xC r <|
  if r.malformed 32 || r.ctx ≠ 0 then .next (s.respond r 0xC 1 [])
  else .next (s.respondLong r 0xC (s.hallmark (r.body.take 32)))

end Sys2Proof.Machine
end

