-- ==== Sys2Proof/Machine/Debug.lean ====
section
/-! DEFINITION. Debug sessions (R164) and the device snapshot (R170). -/

namespace Sys2Proof.Machine

open Sys2Proof

/-! ### Sessions -/

/-- The lowest session number that is free, of 16 (R33). -/
def State.freeSession (s : State) : Option Nat :=
  ((List.range (min 16 s.mod.limits.sessions)).map (· + 1)).find? fun k => (s.sessions.get? k).isNone

/-- ATTACH_DEBUG: an empty body opens a session; an operation value of no operation is refused. -/
def execAttachDebug (r : Request) (s : State) : Host.Outcome State Fault Refusal :=
  let op := r.num 8 4
  if s.mod.service ≠ .recovery && !r.body.isEmpty && 1 ≤ op && op ≤ 7 then absent s
  else s.serve 0xA r 0 (!r.body.isEmpty) fun _ u =>
    match u.freeSession with
    | none => u.respond r 0xA 3 []
    | some k => ({ u with sessions := u.sessions.put k { ctx := r.ctx.toNat } }).respond r 0xA 0 (bytesOf 8 k)

/-! ### The operation body -/

def debugHandle (r : Request) : Nat := r.num 0 8
def debugItem (r : Request) : Nat := r.num 32 4
def debugOffset (r : Request) : Nat := r.num 36 4
def debugData (r : Request) : DWord := r.ptr 40

/-- Fields that an operation does not use, and rsv, are zero. -/
def debugBad (r : Request) (op : Nat) : Bool :=
  let zero (o n : Nat) : Bool := r.num o n == 0
  r.num 8 4 ≠ op || !zero 29 3 ||
    (match op with
     | 1 | 2 | 3 => !zero 32 16
     | 4 => !zero 40 8 || 2 ^ 20 ≤ debugItem r
     | 5 => 2 ^ 20 ≤ debugItem r
     | 6 => !zero 12 17 || !zero 36 12 || 15 < debugItem r
     | _ => !zero 12 36)

/-- The session of a request, in its context. -/
def State.session? (s : State) (r : Request) : Option Session :=
  (s.sessions.get? (debugHandle r)).filter fun x => x.ctx == r.ctx.toNat

/-- The team that a request names: of the launch of a packet, by crew index. -/
def State.debugTeam (s : State) (r : Request) : Option (Party × Team) :=
  match s.launches.find? fun l => l.2.ctx == r.ctx.toNat && l.2.source == .packet (r.num 12 4) (r.num 16 8) with
  | none => none
  | some l => match s.crews.find? fun c => c.2.launch == l.1 && c.2.lin == r.num 24 4 with
    | none => none
    | some c =>
      let p : Party := { crew := c.1, team := r.num 28 1, kind := .team }
      match s.team? p with
      | none => none
      | some t => if t.retired then none else some (p, t)

/-- Serve an operation on a team; the request is a trigger of its session (R170). -/
def State.serveDebug (op : Nat) (r : Request) (act : Party → Team → State → Option (List Byte × State))
    (status : Party → Team → State → Nat) (s : State) : Host.Outcome State Fault Refusal :=
  s.serve 0xA r 48 (debugBad r op) fun _ u =>
    match u.session? r with
    | none => u.respond r 0xA 2 []
    | some _ => match u.debugTeam r with
      | none => u.respond r 0xA 2 []
      | some (p, t) =>
        if status p t u ≠ 0 then u.respond r 0xA (status p t u) []
        else match act p t u with
          | none => u.respond r 0xA 1 []
          | some (bs, v) => (v.trigger (.debug (debugHandle r))).respond r 0xA 0 bs

/-- No status but OK. -/
def anyTeam (_ : Party) (_ : Team) (_ : State) : Nat := 0

/-- A READ or WRITE of a team that is not in DEBUG_STOP is answered BUSY. -/
def stoppedTeam (_ : Party) (t : Team) (_ : State) : Nat := if t.debugStopped then 0 else 4

/-! ### STOP, RELEASE, STEP -/

/-- DEBUG_STOP: the team stops at its next clause boundary, or in the push or pop that blocks it (R91). -/
def execDebugStop (r : Request) (s : State) : Host.Outcome State Fault Refusal :=
  s.serveDebug 1 r (fun p _ u => some ([],
    ((u.updTeam p fun t => { t with stopReq := true, session := some (debugHandle r) }).restQueue p).debugRest p)) anyTeam

/-- A team is released as TRET would resume it: barrier records that the session filled complete (R165). -/
def State.debugRelease (s : State) (p : Party) (f : Team → Team) : State :=
  (List.range 16).foldl (fun u k => u.barComplete p.crew k) (s.updTeam p fun t => f t.debugRelease)

/-- DEBUG_RELEASE. -/
def execDebugRelease (r : Request) (s : State) : Host.Outcome State Fault Refusal :=
  s.serveDebug 2 r (fun p _ u => some ([], u.debugRelease p id)) anyTeam

/-- The trailing copy of a team is armed, or disarmed, where the leading one was (R371), and so are the checkpoints. -/
def State.armPair (s : State) (p : Party) (on : Bool) : State :=
  { s with pairs := s.pairs.upd (pairKey p.crew p.team) fun q =>
      ({ q with leadCp := q.leadCp.arm on, trailCp := q.trailCp.arm on, arms := q.arms ++ [(q.leadDone, on)] } : Pair).armDue }

/-- DEBUG_STEP: STEP and DBG are set, and the team is released. -/
def execDebugStep (r : Request) (s : State) : Host.Outcome State Fault Refusal :=
  s.serveDebug 3 r (fun p _ u => some ([], (u.debugRelease p fun t =>
    { t.arm true with session := some (debugHandle r) }).armPair p true)) anyTeam

/-! ### READ and WRITE -/

/-- A team as its special registers see it, on the path that R83 chooses. -/
def State.view (s : State) (p : Party) (t : Team) : Option Exe :=
  match s.crews.get? p.crew, s.launchOf? p.crew with
  | some c, some l =>
    some { p := p, launch := l, crew := c, team := t, th := t.th,
           cl := { hdr := 0, path := (t.choose.map (·.creation)).getD 0, words := [], pos := 0 },
           parts := {}, eff := 0, exec := 0, ch := false, now := s.now }
  | _, _ => none

/-- Bits of a mask in a strand. -/
def strandBits (m : Mask) (k : Nat) : Word := m.extractLsb' (32 * k) 32
def putStrand (m : Mask) (k : Nat) (v : Word) : Mask :=
  (m &&& ~~~((0xFFFFFFFF : Mask) <<< (32 * k))) ||| (v.setWidth 1024 <<< (32 * k))

/-- A register of a team: its kind, its number, and the lane, strand or span group. -/
def State.debugReg (s : State) (p : Party) (t : Team) (kind n off : Nat) : Option Word :=
  match s.view p t with
  | none => none
  | some x =>
    match kind with
    | 0 => if n < x.launch.vregs && off < 32 * x.launch.strands then some (t.readV n off) else none
    | 1 => if n < x.launch.sregs && off = 0 then some (t.th.readS n) else none
    | 2 => if n < 8 && off < x.launch.strands then some (strandBits (t.readM n) off) else none
    | 3 => if n < min 32 x.launch.vregs && off * t.span < x.launch.strands then
        some ((t.readN n (t.span * off)).setWidth 32) else none
    | 4 => if !specialAssigned n || off ≠ 0 then none
      else some (if specialPerLane n then x.specialLane n 0 else x.specialReg s n)
    | _ => none

/-- Write a register of a team, under the checks of the instruction that writes it. -/
def Team.setDebugReg (t : Team) (kind n off : Nat) (v : Word) : Option Team :=
  match kind with
  | 0 => some (t.writeLanes n [(off, v)])
  | 1 => some { t with th := t.th.writeS n v }
  | 2 => some { t with m := t.m.write 0 n (putStrand (t.readM n) off v) }
  | 3 => some (t.writeN n (t.groupStrands off) (v.setWidth 16))
  | _ =>
    if !specialWritable n || (n = 0x10 && !partOk v.toNat) then none else some (t.writeSpecial n v)

/-- The kind and the number of a register item. -/
def debugKind (r : Request) : Nat := debugItem r / 4096 % 16
def debugNumber (r : Request) : Nat := debugItem r % 4096

/-- What a READ returns. -/
def State.debugValue (s : State) (r : Request) (p : Party) (t : Team) : Option (List Byte) :=
  let cls := debugItem r / 65536
  if cls = 0xF then
    (s.debugReg p t (debugKind r) (debugNumber r) (debugOffset r)).map fun v => bytesOf 8 v.toNat
  else (s.readItem p cls (debugItem r % 65536) (debugOffset r)).map fun v => bytesOf 8 v.toNat

/-- What a WRITE leaves; none where its checks fail. -/
def State.debugPut (s : State) (r : Request) (p : Party) (t : Team) : Option State :=
  let cls := debugItem r / 65536
  if cls = 0xF then
    match s.debugReg p t (debugKind r) (debugNumber r) (debugOffset r) with
    | none => none
    | some _ => (t.setDebugReg (debugKind r) (debugNumber r) (debugOffset r) (debugData r).lo).map (s.setTeam p)
  else s.writeItem p cls (debugItem r % 65536) (debugOffset r) (debugData r)

/-- DEBUG_READ. -/
def execDebugRead (r : Request) (s : State) : Host.Outcome State Fault Refusal :=
  s.serveDebug 4 r (fun p t u => (u.debugValue r p t).map fun bs => (bs, u)) stoppedTeam

/-- DEBUG_WRITE. -/
def execDebugWrite (r : Request) (s : State) : Host.Outcome State Fault Refusal :=
  s.serveDebug 5 r (fun p t u => (u.debugPut r p t).map fun v => ([], v)) stoppedTeam

/-! ### The snapshot (R170) -/

/-- ARM_SNAP. -/
def execArmSnap (r : Request) (s : State) : Host.Outcome State Fault Refusal :=
  s.serve 0xA r 48 (debugBad r 6) fun _ u =>
    match u.session? r with
    | none => u.respond r 0xA 2 []
    | some x =>
      let k := debugHandle r
      ({ u.trigger (.debug k) with
          sessions := u.sessions.put k { x with mask := BitVec.ofNat 4 (debugItem r) } }).respond r 0xA 0 []

/-- What the owning context sees of a snapshot: entries of other contexts read as zero (R170). Its format is not stated:
each entry stands as its numbers, 8 bytes each (log 24). -/
def Snapshot.bytes (x : Snapshot) (ctx : Nat) : List Byte :=
  let n (k : Nat) : List Byte := bytesOf 8 k
  let own (c : Nat) (ks : List Nat) : List Byte := (if c = ctx then ks else ks.map fun _ => 0).flatMap n
  n x.tick.toNat ++
    x.clusters.flatMap (fun c => n c.1 ++ n c.2.1 ++ n (wrap 64 c.2.2)) ++
    x.slots.flatMap (fun e => own e.ctx [e.cluster, e.slot, e.pc.toNat, e.paths, e.waits]) ++
    x.cupel.flatMap (fun e => own e.2.1 [e.1, e.2.2.1, e.2.2.2.1, e.2.2.2.2.1, e.2.2.2.2.2]) ++
    x.copy.flatMap (fun e => own e.2.1 [e.1, e.2.2.1, e.2.2.2.1, e.2.2.2.2.toNat]) ++
    x.queues.flatMap (fun e => own e.2.1 [e.1, e.2.2.1.toNat, e.2.2.2.1.toNat, e.2.2.2.2.1, e.2.2.2.2.2]) ++
    x.crews.flatMap (fun e => own e.2.1 [e.1, e.2.2.1, e.2.2.2.toNat]) ++
    x.ports.flatMap (fun e => n e.1 ++ n e.2.1 ++ n e.2.2.1 ++ n e.2.2.2) ++
    (List.range (2 * memChannels)).flatMap fun i => n (Config.freeDWord (x.channels + i)).toNat

/-- READ_SNAP: the owner reads the frozen snapshot and re-arms the device; another session finds it BUSY. -/
def execReadSnap (r : Request) (s : State) : Host.Outcome State Fault Refusal :=
  s.serve 0xA r 48 (debugBad r 7) fun _ u =>
    match u.session? r, u.snapshot with
    | none, _ => u.respond r 0xA 2 []
    | some _, none => u.respond r 0xA 2 []
    | some _, some x =>
      if x.owner ≠ debugHandle r then u.respond r 0xA 4 []
      else { u with snapshot := none }.respondLong r 0xA (x.bytes r.ctx.toNat)

/-- SNAP_TRIGGER: a trigger that reaches the device's blocks (R170). -/
def execSnapTrigger (source : SnapSource) (s : State) : Host.Outcome State Fault Refusal := .next (s.trigger source)

/-- SNAPSHOT_TIMEOUT: frozen for 17,000,000,000 ticks, the snapshot is released unread. -/
def execSnapshotTimeout (s : State) : Host.Outcome State Fault Refusal :=
  match s.snapshot with
  | none => absent s
  | some x =>
    if (s.now - x.tick).toNat < 17000000000 then absent s else .next { s with snapshot := none }

/-! ### DETACH_DEBUG -/

/-- The teams of a context that a session stopped, or is to stop. -/
def State.stoppedBy (s : State) (ctx session : Nat) : List Party :=
  s.crews.flatMap fun c => if c.2.ctx ≠ ctx then [] else c.2.teams.filterMap fun t =>
    if t.2.session = some session && (t.2.debugStopped || t.2.stopReq) then some ⟨c.1, t.1, .team⟩ else none

/-- Every team that a session stopped is released, with DBG and STEP clear. -/
def State.releaseAll (s : State) (ctx session : Nat) : State :=
  (s.stoppedBy ctx session).foldl (fun u p => (u.debugRelease p (Team.arm · false)).armPair p false) s

/-- DETACH_DEBUG: the session ends, its snapshot is released, and so is every team it stopped. -/
def execDetachDebug (r : Request) (s : State) : Host.Outcome State Fault Refusal :=
  s.serve 0xB r 8 false fun _ u =>
    match u.session? r with
    | none => u.respond r 0xB 2 []
    | some x =>
      let k := debugHandle r
      let u1 := (u.dropSnapshot k).releaseAll x.ctx k
      ({ u1 with sessions := u1.sessions.del k }).respond r 0xB 0 []

end Sys2Proof.Machine
end

