-- ==== Sys2Proof/Machine/Issue.lean ====
section
/-! DEFINITION. The clause boundary and the issue of a clause (R66, R67, R83, R84, R157, R219, R223, R232): which team
of a cluster issues, the traps of the boundary, the header's wait fields, and the power allowance. -/

namespace Sys2Proof.Machine

open Sys2Proof

/-! ### The cost of a clause (R67) -/

/-- The weight of an instruction's class, in pJ, by its primary opcode and type. -/
def opWeight (op td : Nat) : Nat :=
  if op ≤ 0x3F ∨ 0xE0 ≤ op then 20
  else if op ≤ 0x5F ∨ (0x80 ≤ op ∧ op ≤ 0x8F) then 120
  else if op ≤ 0x7F then
    if td = 9 ∨ (0x6C ≤ op ∧ op ≤ 0x73) then 400 else if 11 ≤ td ∧ td ≤ 14 then 200 else 180
  else if op ≤ 0xBF then 220
  else 300

/-- The strands a mask touches. -/
def strandsOf (m : Mask) : Nat := ((List.range 32).filter fun g => m.extractLsb' (32 * g) 32 != 0).length

/-- Whether an instruction is swept in passes, one for each strand of its mask (R78); BRM, EXIT and SRD take one pass (R236). -/
def sweeps (i : Instr) (p : Parts) : Bool :=
  match i with
  | .brm _ | .exit _ | .srd _ => false
  | _ => perLane i p

/-- What the instructions of a clause cost from a list of words on: each one's weight times its passes, which its
effective mask at issue gives. -/
def wordsCost (t : Team) (exec : Mask) (ch : Bool) : Nat → List Word → Nat
  | 0, _ => 0
  | _, [] => 0
  | fuel + 1, w :: rest =>
    let op := (w.extractLsb' 24 8).toNat
    let here := match decode (w :: rest) with
      | .error _ => opWeight op 0
      | .ok (i, _) =>
        let p := (partsOf i).getD {}
        opWeight op p.td * (if !ch && sweeps i p then max 1 (strandsOf (effMask i p t exec)) else 1)
    here + wordsCost t exec ch fuel (rest.drop (wordCount w - 1))

/-! ### The header's wait fields (R223) -/

/-- The instructions of a clause, in order; a word that decodes to none is left out. -/
def clauseDecoded : Nat → List Word → List Instr
  | 0, _ => []
  | _, [] => []
  | fuel + 1, w :: rest =>
    (match decode (w :: rest) with | .ok (i, _) => [i] | .error _ => []) ++
      clauseDecoded fuel (rest.drop (wordCount w - 1))

/-- Whether the queues that an instruction pops or pushes allow its clause to be ready. -/
def Team.queueReady (t : Team) (ch : Bool) (i : Instr) : Bool :=
  match i with
  | .qpop f =>
    let q := t.queue (base f.a)
    !mayPop q.role ch || !q.entries.isEmpty || (!ch && t.starved q.role)
  | .qpush f =>
    let q := t.queue (base f.d)
    !mayPush q.role ch || decide (q.entries.length < 32)
  | _ => true

/-- Whether a queue's producer is the issuing party (R88). -/
def Team.produces (t : Team) (ch : Bool) (k : Nat) : Bool := mayPush (t.queue k).role ch

/-- A threshold of a header: 15 asks for nothing. -/
def atMost (n field : Nat) : Bool := field == 15 || decide (n ≤ field)

/-- The engine operations that count: those from the first unfinished one on (R222). -/
def Team.engineCount (t : Team) : Nat := ((t.engines.filter (!·.stopped)).dropWhile (·.done)).length

/-- The stores of a leading copy that stand in the compare buffer, not performed yet (R175, R222). -/
def State.buffered (s : State) (p : Party) : Nat :=
  match p.kind with
  | .team => (s.pairs.get? (pairKey p.crew p.team)).elim 0 fun q => (q.buf.filter (·.first)).length
  | _ => 0

/-- Whether the wait fields of a header, and the queues its clause names, let it issue (R223), with `held` stores more than
the thread's own. -/
def Team.headerMet (t : Team) (k : PartyKind) (hdr : Word) (ws : List Word) (held : Nat) : Bool :=
  let ch := k == .chaser
  let th := t.thread k
  atMost th.loads.length (hdrWL hdr) && atMost (min 63 (th.stores.length + held)) (hdrWS hdr) &&
    (ch || atMost t.engineCount (hdrWE hdr)) &&
    (ch || !hdrWT hdr || (List.range 8).all fun w => (t.window w).state != .pending) &&
    (!hdrWQ hdr || (List.range 16).all fun q => !t.produces ch q || (t.queue q).entries.isEmpty) &&
    (k == .trail || (clauseDecoded 16 ws).all (t.queueReady ch))

/-! ### Asynchronous traps (R157) -/

/-- The promise that expired first, then the lower register. -/
def firstPromise (ts : List Trap) : Option Trap :=
  ts.foldl (fun best t => match best with
    | none => some t
    | some b => if t.tpc.ult b.tpc || (t.tpc == b.tpc && t.info.ult b.info) then some t else some b) none

/-- The asynchronous trap that a boundary takes: TOUCHSTONE, a chaser's fault, an engine's fault, PROMISE_MISSED. In the
handler they all wait (R157, R158). -/
def Team.asyncTrap (t : Team) : Option Trap :=
  if t.handler then none
  else (((t.pending.find? (·.cause == .mismatch)).or (t.pending.find? (·.origin == 1))).or
    (t.pending.find? (·.origin == 2))).or (firstPromise (t.pending.filter (·.cause == .promise)))

/-- The asynchronous trap of a party: the trailing copy takes those that the leading one took, where it took them. -/
def State.asyncTrap (s : State) (p : Party) (t : Team) : Option Trap :=
  match p.kind with
  | .trail => (s.pair p).bind fun q => match q.traps.drop q.trapsTaken with
    | (n, tr) :: _ => if n ≤ q.trailDone && tr.cause != .queueStarved then some tr else none
    | [] => none
  | _ => t.asyncTrap

/-- What a trap that is taken is no longer: pending, or due to the trailing copy. -/
def State.tookAsync (s : State) (p : Party) (tr : Trap) : State :=
  match p.kind with
  | .trail => s.updPair p fun q => { q with trapsTaken := q.trapsTaken + 1 }
  | _ =>
    let s1 := s.updTeam p fun t => { t with pending := t.pending.erase tr }
    if tr.cause = .mismatch then s1 else s1.updPair p fun q => { q with traps := q.traps ++ [(q.leadDone, tr)] }

/-- SLEEP ends and WAIT is interrupted, to be issued again after TRET (R247, R248). -/
def Team.wake (t : Team) : Team := { t with th := { t.th.interrupt with waits := [] } }

/-! ### Readiness (R66) -/

def Wait.isFetch : Wait → Bool
  | .fetch .. | .fetchRemote .. => true
  | _ => false

/-- A thread whose fetch waits, as it fetches once more. -/
def Thread.refetch (th : Thread) : Thread := { th with waits := th.waits.filter (!·.isFetch) }

/-- The trap of a fetch that has waited longer than it may (R108, R109). -/
def Thread.fetchOver (th : Thread) (now : DWord) : Option Trap :=
  th.waits.findSome? fun w => match w with
    | .fetch a tr => if overdue (some a) false now then some tr else none
    | .fetchRemote a tr => if overdue (some a) true now then some tr else none
    | _ => none

/-- Whether every wait of a thread is over, but for the fetch that is tried again; an asynchronous trap ends SLEEP and
WAIT. -/
def waitsOver (async : Bool) (now : DWord) (ws : List Wait) : Bool :=
  ws.all fun w => match w with
    | .sleep d => async || !(now.ult d)
    | .word .. => async
    | w => w.isFetch

/-- Whether the touchstone pair lets a copy issue (R174 to R176): a stalled leading copy waits, and the trailing copy
never runs ahead of the leading one, nor while a rollback's trap is pending or handled. -/
def State.pairLets (s : State) (p : Party) : Bool :=
  match s.pair p with
  | none => true
  | some q => match p.kind with
    | .trail => match s.team? (asLead p) with
      | none => false
      | some t => t.counted && !(t.pending.any (·.cause == .mismatch)) &&
          (decide (0 < q.slack) || t.meeting.isSome || (q.traps.drop q.trapsTaken).any fun e => decide (e.1 ≤ q.trailDone))
    | _ => !q.stalled || (match s.team? p with | some t => !t.counted || t.asyncTrap.isSome | none => false)

/-- Whether a team stands at a boundary from which it may go on. -/
def State.boundary (s : State) (p : Party) (c : Crew) (t : Team) : Bool :=
  (c.state == .resident || (c.state == .stopping && t.resuming)) && !t.halted && !t.retired && !t.debugStopped &&
    t.th.issue.isNone && waitsOver (!t.resumeAt.any Resume.mid && (s.asyncTrap p t).isSome) s.now t.th.waits && s.pairLets p

/-! ### The boundary of a team (R157, R219, R232) -/

/-- What a party does at its boundary: it is not ready; it acts without issuing; or it issues a clause of some cost. -/
inductive Plan where
  | no
  | act (s : State)
  | go (cost : Nat) (s : State)
  deriving DecidableEq, Repr

/-- A trap at a boundary whose resumption had not begun: the frame keeps the latches that TRET was to restore. -/
def Team.carry (t : Team) : Team :=
  match t.resumeAt with
  | none => t
  | some r => { t with resumeAt := none, th := { t.th with latches := r.latches } }

/-- Take an asynchronous trap, STEP or BREAKPOINT at the boundary of a path: TRET issues the clause there (R156, R161). -/
def State.boundaryTrap (s : State) (p : Party) (t : Team) (q : Path) (tr : Trap) : State :=
  takeTrap p q.creation { tr with tpc := q.pc, pos := 0, retry := true } (s.updTeam p fun _ => t.carry)

/-- A fault of a fetch (R232): every lane of the path carries the cause and the first faulting word. -/
def fetchTrap (q : Path) (c : Cause) (gen : Byte) (a : DWord) : Trap :=
  let ls := q.mask.lanes 1024
  { cause := c, mask := q.mask, tpc := q.pc, addr := ls.map fun l => (l, a), gen := ls.map fun l => (l, gen) }

/-- The breakpoint that a clause about to issue matches (R162, R163). -/
def Team.breakpoint (t : Team) (q : Path) : Option Trap :=
  if t.handler || t.stepctl.getLsbD 2 then none
  else ([0, 1, 2, 3] : List (Fin 4)).findSome? fun k =>
    let b := t.bpReg k.val
    if b.val.getLsbD 0 && (b.val.extractLsb' 16 48).toNat == va q.pc && q.mask &&& b.mask != 0 then
      some { cause := .breakpoint k, mask := q.mask &&& b.mask, tpc := q.pc }
    else none

/-- The clause that issues, at a position; one that was interrupted goes on with what its instructions have asked for. -/
def startClause (parked : Option Clause) (hdr : DWord) (path : Word) (ws : List Word) (pos : Nat) (skip : Bool) : Clause :=
  match parked with
  | none => { hdr := hdr, path := path, words := ws, pos := pos, skip := skip }
  | some k => { k with path := path, words := ws.take k.words.length, pos := pos, skip := k.skip || skip, hold := none, meet := none,
                       moved := if k.pos = pos then k.moved else 0, taken := if k.pos = pos then k.taken else [] }

/-- A thread begins a clause; `rest` are the interrupted clauses that it leaves. -/
def Thread.start (th : Thread) (c : Clause) (rest : List Clause) (ls : List Latch) : Thread :=
  { th with issue := some c, later := rest, latches := ls, waits := [] }

/-- Begin a clause: the fetch fills its caches, and the thread holds it. -/
def State.begin (s : State) (g : Agent) (cl : Nat) (p : Party) (fills : List Phys) (c : Clause) (rest : List Clause)
    (ls : List Latch) : State :=
  { (s.fillFetched g cl c.hdr fills).updThread p fun th => th.start c rest ls with turn := some p }

/-- Where an interrupted clause resumes: its position, or none past its end (R159). -/
def Resume.at (r : Resume) (ws : List Word) : Option Nat :=
  let pos := if r.retry then max 1 r.pos
    else if r.pos = 0 then 1 else r.pos + wordCount ((ws.drop (r.pos - 1)).headD 0)
  if ws.length < pos then none else some pos

/-- The clause boundary of a path: BREAKPOINT, then the fetch and its faults, ILLEGAL_CLAUSE, the wait fields, and the
issue. A clause that is resumed past its last word ends at once. A clause that resumes in its middle ages the other paths
again, as each issue does: R83 does not say (DESIGN CHOICE, log 39). -/
def State.planPath (s : State) (p : Party) (c : Crew) (waiting : Bool) (late : Option Trap) (t : Team) (q : Path) : Plan :=
  let g := c.agent t p.kind
  let fresh := !t.resumeAt.any Resume.mid
  let bp := if fresh then t.breakpoint q else none
  let stop (tr : Trap) : Plan := .act (s.boundaryTrap p t q tr)
  let fault (tr : Trap) : Plan := .act (takeTrap p q.creation tr (s.updTeam p fun _ => { t with resumeAt := none }))
  let wait (w : Wait) : Plan :=
    if waiting then .no else .act (s.updTeam p fun _ => { t with th := { t.th with waits := t.th.waits ++ [w] } })
  match late.filter fun tr => tr.tpc == q.pc with
  | some tr => (match bp with | some b => stop b | none => fault tr)
  | none =>
  match s.fetchClause g t.cluster q.pc q.seq with
  | .fault x a =>
    match bp with
    | some b => stop b
    | none => match x with
      | .cause k gen => fault (fetchTrap q k gen a)
      | .migrating gen => wait (.fetch s.now (fetchTrap q .migrating gen a))
      | .unreachable gen => wait (.fetchRemote s.now (fetchTrap q .remoteUnreachable gen a))
  | .illegal k => match bp with
    | some b => stop b
    | none => fault { cause := k, mask := q.mask, tpc := q.pc }
  | .ok hdr ws fills =>
    let (parked, rest) := if fresh then (none, if t.handler then t.th.later else []) else t.th.parked q.pc
    let ws' := match parked with | none => ws | some k => ws.take k.words.length
    let start (u : Team) (pos : Nat) (ls : List Latch) : State :=
      ({ s.updTeam p fun _ => { u with resumeAt := none, throttlePass := false, withheld := none } with turn := s.turn }).begin
        g t.cluster p fills (startClause parked q.pc q.creation ws pos (t.stepctl.getLsbD 2 && !t.handler)) rest ls
    let go (pos : Nat) (ls : List Latch) : Plan :=
      .go (wordsCost t q.mask false 16 (ws'.drop (pos - 1))) (start (t.agePaths q.creation) pos ls)
    let issue (ls : List Latch) : Plan :=
      if !t.headerMet p.kind hdr ws (s.buffered p) then
        -- a leading copy that waits for its own buffered stores stalls, so that the epoch ends (R175, R222; log 19)
        (if t.headerMet p.kind hdr ws 0 then
          .act { s with pairs := s.pairs.upd (pairKey p.crew p.team) fun q => { q with stalled := true } } else .no)
      else match bp with | some b => stop b | none => go 1 ls
    match t.resumeAt with
    | none => issue []
    | some r =>
      if fresh then issue r.latches
      else match r.at ws' with
        | some pos => go pos r.latches
        | none => .act ((start t (ws'.length + 1) r.latches).endClause p)

/-- A WAIT that was interrupted is issued again, alone, on its path (R248). -/
def State.planAgain (s : State) (p : Party) (t : Team) (k : Clause) (ks : List Clause) : Plan :=
  let u : Team := { t with th := { t.th with again := ks } }
  match t.path? k.path with
  | none => .act (s.updTeam p fun _ => u)
  | some q =>
    let c := { k with target := some q.pc, again := some q.seq }
    .go (wordsCost t q.mask false 16 (k.words.drop (k.pos - 1)))
      { s.updTeam p fun _ => { u with th := u.th.start c u.th.later [], throttlePass := false, withheld := none } with
        turn := some p }

/-- The clause boundary of a team or of a trailing copy (R157): asynchronous traps, STEP, the WAITs to be issued again, then
its path's. Within a clause that is to be resumed no boundary trap is taken (R161). -/
def State.planTeam (s : State) (p : Party) (c : Crew) (t0 : Team) : Plan :=
  let t1 : Team := { t0 with th := t0.th.refetch }
  let t := if t1.resumeAt.isSome then t1 else t1.exchange
  match t.choose with
  | none => .no
  | some q =>
    let mid := t.resumeAt.any Resume.mid
    match if mid then none else s.asyncTrap p t with
    | some tr =>
      .act ((s.tookAsync p tr).boundaryTrap p { t.wake with pending := t.pending.erase tr } q { tr with mask := q.mask })
    | none =>
      if !mid && t.stepDue && !t.handler then .act (s.boundaryTrap p { t with stepDue := false } q { cause := .step, mask := q.mask })
      else match t.th.again with
        | k :: ks => s.planAgain p t k ks
        | [] => s.planPath p c (t0.th.waits.any Wait.isFetch) (t0.th.fetchOver s.now) t q

/-- What a slot's party plans; a chaser's party is planned elsewhere. -/
def State.plan (s : State) (p : Party) : Plan :=
  match s.crews.get? p.crew, s.team? p with
  | some c, some t => if s.boundary p c t then s.planTeam p c t else .no
  | _, _ => .no

/-! ### The choice of a cluster (R66, R67) -/

/-- A ready team: its slot, its priority, the largest age of its runnable paths, whether its last clause yielded, what
it asks of the allowance, and its plan. -/
structure Cand where
  slot : Nat
  p : Party
  prio : Nat
  age : Nat
  yielded : Bool
  need : Option Int
  plan : Plan
  deriving DecidableEq, Repr

/-- The headroom h of a team (R67). -/
def headroom (l : Launch) (t : Team) (now : DWord) : Nat :=
  let long := match t.withheld with | some a => decide (170000 ≤ (now - a).toNat) | none => false
  if !l.te || t.throttlePass || long then 0 else (4 - l.prio) * 8192

/-- The ready teams of a cluster. -/
def State.cands (s : State) (cl : Nat) : List Cand :=
  (s.cluster cl).slots.filterMap fun (e : Nat × Party) =>
    match s.team? e.2, s.launchOf? e.2.crew with
    | some t, some l =>
      let mk (need : Option Int) (pl : Plan) : Option Cand := some
        { slot := e.1, p := e.2, prio := l.prio, yielded := t.yielded, need := need, plan := pl,
          age := ((t.exchange.runnable.map fun q => q.age.toNat).max?).getD 0 }
      match s.plan e.2 with
      | .no => none
      | .act u => mk none (.act u)
      | .go cost u => mk (some (cost + headroom l t s.now : Nat)) (.go cost u)
    | _, _ => none

/-- The largest of some numbers. -/
def greatest (ns : List Nat) : Nat := (ns.max?).getD 0

/-- The team that R66 picks: highest priority, then largest age, then the first at or after the pointer. -/
def pickCand (pointer : Nat) (cs : List Cand) : Option Cand :=
  let c1 := cs.filter fun c => c.prio == greatest (cs.map (·.prio))
  let c2 := c1.filter fun c => c.age == greatest (c1.map (·.age))
  (c2.find? fun c => pointer ≤ c.slot).or c2.head?

/-- Mark since when the teams of a cluster are withheld, without a break (R67). -/
def State.markWithheld (s : State) (cl : Nat) (held : List Party) : State :=
  (s.cluster cl).slots.foldl (fun u (e : Nat × Party) => u.updTeam e.2 fun t =>
    { t with withheld := if held.contains e.2 then t.withheld.or (some s.now) else none }) s

/-- The round-robin pointer moves past a slot, and a YIELD of the cluster's teams has had its effect (R66, R246). -/
def State.passPointer (s : State) (cl slot : Nat) : State :=
  (s.cluster cl).slots.foldl (fun u (e : Nat × Party) => u.updTeam e.2 fun t => { t with yielded := false })
    (s.updCluster cl fun k => { k with pointer := (slot + 1) % 16 })

/-- The cluster chooses a team and issues its clause, or issues nothing (R66). The plans are made in the state in which the
teams that are withheld are marked, so that they hold the marks. -/
def State.issueTeam (s0 : State) (cl : Nat) : State :=
  let s1 := s0.settlePower cl
  let a := (s1.cluster cl).allowance
  let tooDear (c : Cand) : Bool := match c.need with | some n => decide (a < n) | none => false
  let s := s1.markWithheld cl (((s1.cands cl).filter tooDear).map (·.p))
  let ready := (s.cands cl).filter fun c => !tooDear c
  let rest := ready.filter fun c => !c.yielded
  match pickCand (s.cluster cl).pointer (if rest.isEmpty then ready else rest) with
  | none => s
  | some c => match c.plan with
    | .no => s
    | .act u => u.passPointer cl c.slot
    | .go cost u => ((u.charge cl cost).passPointer cl c.slot).updCluster cl fun k => { k with holder := some c.p }

/-! ### Chasers (R87) -/

/-- The boundary of a chaser: its clause is fetched for the team's context, and a fault stops it. -/
def State.planChaser (s0 : State) (p : Party) (c : Crew) (t : Team) : Plan :=
  let waiting := t.chaser.th.waits.any Wait.isFetch
  let s := s0.updThread p Thread.refetch
  let k := t.chaser
  let g := c.agent t .chaser
  let fault (tr : Trap) : Plan := .act (takeTrap p 0 tr s)
  let one (x : Cause) (gen : Byte) (a : DWord) : Trap :=
    { cause := x, mask := 1, tpc := k.pc, addr := [(0, a)], gen := [(0, gen)] }
  let wait (w : Wait) : Plan := if waiting then .no else .act (s.updThread p fun th => { th with waits := th.waits ++ [w] })
  match t.chaser.th.fetchOver s.now with
  | some tr => fault tr
  | none =>
  match s.fetchClause g t.cluster k.pc k.seq with
  | .fault (.cause x gen) a => fault (one x gen a)
  | .fault (.migrating gen) a => wait (.fetch s.now (one .migrating gen a))
  | .fault (.unreachable gen) a => wait (.fetchRemote s.now (one .remoteUnreachable gen a))
  | .illegal x => fault { cause := x, mask := 1, tpc := k.pc }
  | .ok hdr ws fills =>
    let pos := if ws.length < k.resumePos then 1 else max 1 k.resumePos
    let (parked, rest) := if k.resumePos = 0 then (none, []) else k.th.parked k.pc
    if k.resumePos = 0 && !t.headerMet .chaser hdr ws 0 then .no
    else .go (wordsCost t 1 true 16 (ws.drop (pos - 1)))
      ((s.updTeam p fun u => { u with chaser := { u.chaser with resumePos := 0 } }).begin g t.cluster p fills
        (startClause parked k.pc 0 ws pos false) rest k.th.latches)

/-- A chaser's WAIT that was interrupted is issued again, alone (R248). -/
def State.chaserAgain (s : State) (p : Party) (k : Clause) (ks : List Clause) : Plan :=
  .go (wordsCost {} 1 true 16 (k.words.drop (k.pos - 1)))
    { s.updTeam p fun t =>
        let c := { k with target := some t.chaser.pc, again := some t.chaser.seq }
        { t with chaser := { t.chaser with th := { t.chaser.th with again := ks }.start c t.chaser.th.later [] } } with
      turn := some p }

/-- What the chaser of a slot plans. -/
def State.planSlotChaser (s : State) (cl slot : Nat) : Option (Party × Plan) :=
  match (s.cluster cl).slots.get? slot with
  | none => none
  | some q =>
    if q.kind == .trail then none else
    let p : Party := { q with kind := .chaser }
    match s.crews.get? p.crew, s.team? p with
    | some c, some t =>
      if c.state == .resident && !t.retired && !t.halted && !t.debugStopped && t.chaser.run == .running && t.chaser.th.issue.isNone &&
          waitsOver false s.now t.chaser.th.waits then
        some (p, match t.chaser.th.again with
          | k :: ks => s.chaserAgain p k ks
          | [] => s.planChaser p c t)
      else none
    | _, _ => none

/-- Whether a plan has something to do. -/
def Plan.ready (pl : Plan) : Bool := match pl with | .no => false | _ => true

/-- A chaser that yielded stands back while another chaser of its cluster is ready (R246). -/
def State.standsBack (s : State) (cl slot : Nat) (p : Party) : Bool :=
  (match s.team? p with | some t => t.chaser.yielded | none => false) &&
    (List.range 16).any fun k => k != slot && ((s.planSlotChaser cl k).any fun x => x.2.ready)

/-- The yields of a cluster's chasers have had their effect. -/
def State.endYields (s : State) (cl : Nat) : State :=
  (s.cluster cl).slots.foldl (fun u (e : Nat × Party) =>
    u.updTeam e.2 fun t => { t with chaser := { t.chaser with yielded := false } }) s

/-- The slot whose chaser the scalar access pipeline takes next: the first, from its round-robin pointer in slot order, with
something to do, but for one that stands back (R71, R246). -/
def State.chaserTurn (s : State) (cl : Nat) : Option Nat :=
  ((List.range 16).map fun i => ((s.cluster cl).chaserNext + i) % 16).find? fun k =>
    (s.planSlotChaser cl k).any fun x => x.2.ready && !s.standsBack cl k x.1

/-- The pipeline has taken a slot's chaser: its pointer moves past the slot, and the yields have had their effect. -/
def State.passSlot (s : State) (cl slot : Nat) : State :=
  (s.updCluster cl fun k => { k with chaserNext := (slot + 1) % 16 }).endYields cl

/-- CLAUSE_ISSUE (R66, R87): the cluster issues a clause of one of its teams, or, for a slot whose turn it is, the scalar
access pipeline issues one of the slot's chaser. -/
def execClauseIssue (cluster : Nat) (chaser : Option Nat) (s : State) : Host.Outcome State Fault Refusal :=
  match chaser with
  | none =>
    if (s.cluster cluster).holder.isSome then absent s else .next (s.issueTeam cluster)
  | some slot =>
    if s.chaserTurn cluster ≠ some slot then absent s
    else match s.planSlotChaser cluster slot with
      | some (_, .act u) => .next (u.passSlot cluster slot)
      | some (_, .go cost u) => .next ((u.charge cluster cost).passSlot cluster slot)
      | _ => absent s

end Sys2Proof.Machine
end

