-- ==== Sys2Proof/Machine/Selection.lean ====
section
/-! DEFINITION. Sparse intersection, gate packing, gate weights and softmax accumulation (R300 to R304). -/

namespace Sys2Proof.Machine

open Sys2Proof

/-- The largest of some words, unsigned. -/
def maxU (ws : List Word) : Word := ws.foldl (fun a b => if a.ult b then b else a) 0

/-- SSECT's word (R300). -/
def Exe.ssect (x : Exe) (l : Nat) : Word :=
  let ls := x.tileLanes l
  let a := x.v x.parts.a l
  let as := ls.map (x.v x.parts.a)
  let bs := ls.map (x.v x.parts.b)
  let hit := ls.find? fun k => x.v x.parts.b k == a
  let pos := match hit with | some k => k % x.team.part | none => 0
  let adva := (as.filter fun v => !(maxU bs).ult v).length
  let advb := (bs.filter fun v => !(maxU as).ult v).length
  BitVec.ofNat 32 ((if hit.isSome then 2 ^ 31 else 0) + pos * 2 ^ 16 + adva * 2 ^ 8 + advb)

def execSsect (f : RRR) (s : State) : Host.Outcome State Fault Refusal := vectorOp (.ssect f) Exe.ssect s

/-- The score key of PKSI (R301). -/
def scoreKey (v : Word) : Word :=
  if wnan v then 0 else if v.getLsbD 31 then ~~~v else v ^^^ 0x80000000

def execPksi (f : RRR) (s : State) : Host.Outcome State Fault Refusal :=
  performPure (.pksi f) noCheck
    (fun x u => writeEachPair x x.parts.d
      (fun l => Word.pair (0xFFFFFFFF - x.v x.parts.b l) (scoreKey (x.v x.parts.a l))) u) s

/-- UNPKSI's value (R301). -/
def unpackKey (fx : Nat) (k : DWord) : Word :=
  if fx = 1 then 0xFFFFFFFF - k.lo
  else if k.hi = 0 then 0x7FC00000
  else if k.hi.getLsbD 31 then k.hi ^^^ 0x80000000
  else ~~~k.hi

def execUnpksi (f : RRR) (s : State) : Host.Outcome State Fault Refusal :=
  vectorOp (.unpksi f) (fun x l => unpackKey x.parts.fx (x.vPair x.parts.a l)) s

/-! ### GWNORM (R302) -/

/-- The quotient of two values, the divisor finite and not zero. -/
def FVal.div (a b : FVal) : FVal :=
  match a, b with
  | .fin s m e, .fin s' m' e' =>
    if m = 0 then .fin (s != s') 0 0
    else match ratio (s != s') m m' with
      | .fin n k q => .fin n k (q + e - e')
      | v => v
  | .inf s, .fin s' _ _ => .inf (s != s')
  | .fin s _ _, .inf s' => .fin (s != s') 0 0
  | _, _ => .nan

/-- Whether an FP32 word is a normal number. -/
def isNormal (w : Word) : Bool := field w.toNat 23 8 != 0 && field w.toNat 23 8 != 255

/-- The tile sum that GWNORM divides by. -/
def Exe.tileSum (x : Exe) (l : Nat) : Word :=
  let add (a b : Word) : Word := BitVec.ofNat 32 (f32.addBits .rn false a.toNat b.toNat)
  let b := x.tileBase l
  (treeReduce add 5 ((List.range x.team.part).map fun j =>
    if x.eff.lane (b + j) then some (x.vA (b + j)) else none)).getD 0

/-- The weight of a lane. -/
def Exe.weight (x : Exe) (l : Nat) : Word :=
  let t := x.tileSum l
  if isNormal t then fp32Bits ((f32.decode (x.vA l).toNat).div (f32.decode t.toNat))
  else fp32Bits (ratio false 1 (x.tileLanes l).length)

def execGwnorm (f : RRR) (s : State) : Host.Outcome State Fault Refusal :=
  performPure (.gwnorm f) noCheck
    (fun x u => writeEach x x.parts.d x.weight
      (writeMaskBits x x.parts.b (fun l => !isNormal (x.tileSum l)) u)) s

/-! ### SMXACC, SMXFIN (R303, R304) -/

/-- The state of a row: m, dh, dl, u, f. -/
structure SmxState where
  m : Word
  dh : Word
  dl : Word
  u : Word
  f : Word
  deriving DecidableEq, Repr

/-- The state a lane's registers hold. -/
def Exe.smx (x : Exe) (f : BitVec 7) (l : Nat) : SmxState :=
  { m := x.vAt f 0 l, dh := x.vAt f 1 l, dl := x.vAt f 2 l, u := x.vAt f 3 l, f := x.vAt f 4 l }

/-- The value of an FP32 word. -/
def val32 (w : Word) : FVal := f32.decode w.toNat

/-- FEXP2.RN of the exact difference of two words. -/
def exp2Diff (a b : Word) : Word :=
  BitVec.ofNat 32 (f32.encode .rn false (SpecialFn.exp2.value ((val32 a).add .rn (val32 b).neg)))

/-- e of R303 for a score. -/
def smxE (m' v : Word) : Word :=
  let top := val32 m' == .inf false
  if wnan v then 0x7FC00000
  else if top && val32 v == .inf false then 0x3F800000
  else if val32 v == .inf true || (top && wcmp v m' == some .lt) then 0
  else exp2Diff v m'

/-- The E4M3 code of a probability. -/
def smxQ (e : Word) : Nat :=
  e4m3.encode .rn true (val32 (fp32Bits ((val32 e).mul (ofInt 448))))

/-- One tile's step: the scores of the row's active lanes; the new state and the codes (R303). -/
def smxStep (st : SmxState) (xs : List Word) : SmxState × List Nat :=
  let mx (a b : Word) : Word := BitVec.ofNat 32 (f32.minmax true a.toNat b.toNat)
  let top := match xs with | [] => st.m | v :: vs => vs.foldl mx (mx v v)
  let m' := mx st.m top
  let f : Word :=
    if wcmp st.m m' = some .eq then 0x3F800000
    else if val32 st.m == .inf true then 0
    else exp2Diff st.m m'
  let es := xs.map (smxE m')
  let t := sumVals ([(val32 st.dh).mul (val32 f), (val32 st.dl).mul (val32 f)] ++ es.map val32)
  let dh := fp32Bits t
  let dl := if t.isNan then 0 else fp32Bits (t.add .rn (val32 dh).neg)
  let qs := es.map smxQ
  let lost := (es.zip qs).filter fun e => e.2 == 0 && (match val32 e.1 with | .fin false m _ => m != 0 | _ => false)
  let u := fp32Bits (sumVals ([(val32 st.u).mul (val32 f)] ++ lost.map fun e => val32 e.1))
  ({ m := m', dh := dh, dl := dl, u := u, f := f }, qs)

/-- SMXACC (R303). -/
def execSmxacc (f : RRR) (s : State) : Host.Outcome State Fault Refusal :=
  performPure (.smxacc f) (fun x _ => if x.parts.m.isNone then some .general else none)
    (fun x u =>
      let out := x.tiles.flatMap fun b =>
        let ls := x.tileLanes b
        let r := smxStep (x.smx x.parts.d (ls.headD 0)) (ls.map x.vA)
        (ls.zip r.2).map fun e => (e.1, r.1, e.2)
      let d := x.regNum .v x.parts.d
      let col (g : SmxState → Word) : List (Nat × Word) := out.map fun e => (e.1, g e.2.1)
      let u1 := writeExtra x x.parts.c (out.map fun e => (e.1, BitVec.ofNat 32 e.2.2)) u
      let u2 := u1.updTeam x.p fun t =>
        (((t.writeLanes (d + 1) (col (·.dh))).writeLanes (d + 2) (col (·.dl))).writeLanes (d + 3)
          (col (·.u))).writeLanes (d + 4) (col (·.f))
      writeVector x x.parts.d (col (·.m)) u2) s

/-- SMXFIN's value (R304). -/
def smxFinal (fx : Nat) (st : SmxState) : Word :=
  let d := (val32 st.dh).add .rn (val32 st.dl)
  if d.isNan then 0x7FC00000
  else if d.isZero then (if fx = 0 then 0x7F800000 else 0xFF800000)
  else if fx = 0 then fp32Bits ((ofInt 1).div (d.mul (ofInt 448)))
  else fp32Bits ((val32 st.m).add .rn (SpecialFn.log2.value d))

def execSmxfin (f : RRR) (s : State) : Host.Outcome State Fault Refusal :=
  vectorOp (.smxfin f) (fun x l => smxFinal x.parts.fx (x.smx x.parts.a ((x.tileLanes l).headD l))) s

end Sys2Proof.Machine
end

