-- ==== Sys2Proof/Machine/System.lean ====
section
/-! DEFINITION. REPACK (R346), the chaser's CHGO and CHSTOP (R347), PHASE and the releases of the barrier tree (R64,
R65, R348), and the trap, debug and system instructions (R349 to R356, R177). -/

namespace Sys2Proof.Machine

open Sys2Proof

/-! ### REPACK (R346) -/

/-- The old lane at each new position. -/
def Exe.order (x : Exe) : List Nat :=
  let rest := x.allLanes.filter fun l => !x.exec.lane l
  let gone (l : Nat) : Bool := x.team.exited.lane l || !x.team.launched.lane l
  x.lanes ++ rest.filter (fun l => !gone l) ++ rest.filter gone

/-- A mask with its lanes moved; bits above the team's lanes stay. -/
def permute (order : List Nat) (m : Mask) : Mask :=
  let n := order.length
  Mask.ofList ((List.range n).filter fun i => m.lane (order.getD i i)) ||| (m &&& ~~~(Mask.upTo n))

/-- The team with its lanes renumbered: registers, mask bits, exec, the breakpoint and watchpoint masks and the exited
state move; the norms of a span group whose lanes changed become NAN. -/
def Team.repack (t : Team) (order : List Nat) (c : Word) (norms : Nat) : Team :=
  let n := order.length
  let v := (List.range n).foldl (fun acc i =>
    let old := order.getD i i
    (t.v.filter fun e => e.1 % 1024 == old).foldl (fun acc e => Tbl.put acc (vkey (e.1 / 1024) i) e.2) acc) ([] : Tbl Word)
  let moved := (List.range n).filter fun i => order.getD i i ≠ i
  let t1 : Team := { t with
    v := v, m := t.m.foldl (fun m e => Tbl.write 0 m e.1 (permute order e.2)) [],
    launched := permute order t.launched, exited := permute order t.exited,
    bp := t.bp.map fun e => (e.1, { e.2 with mask := permute order e.2.mask }),
    wp := t.wp.map fun e => (e.1, { e.2 with mask := permute order e.2.mask }) }
  let t2 := t1.updPath c fun q => { q with mask := permute order q.mask }
  (List.range norms).foldl (fun u r => moved.foldl (fun u i =>
    u.writeN r (u.groupStrands (u.groupOf i)) 0x8001) u) t2

def repackCheck (x : Exe) (_ : State) : Option Cause :=
  if x.team.paths.length ≠ 1 || (x.team.paths.any fun q => q.join.isSome) || x.team.handler then some .general else none

/-- The poison of a team's lanes moves with them (R167). -/
def State.moveLanePoison (s : State) (p : Party) (order : List Nat) : State :=
  { s with poison := s.poison.map fun e => match e with
      | .vreg q r l => if q == p then .vreg q r (order.idxOf l) else e
      | e => e }

/-- REPACK. -/
def execRepack (f : FZ) (s : State) : Host.Outcome State Fault Refusal :=
  perform (.repack f) repackCheck (fun x u =>
    if (u.core x.crew.core).cupel.any fun o => o.crew == x.p.crew && o.team == x.p.team &&
        (match o.kind with | .epiReg _ _ => true | _ => false) then .error (.hold .engine)
    else .ok (((u.drainLoads x.p).moveLanePoison x.p x.order).updTeam x.p fun t => t.repack x.order x.cl.path (min 32 x.launch.vregs))) s

/-! ### The chaser (R87, R347) -/

/-- CHGO on a running chaser. The trailing copy of a pair has no chaser of its own (R355): its CHGO checks nothing. -/
def chgoCheck (x : Exe) (_ : State) : Option Cause :=
  if x.p.kind = .trail then none else if x.team.chaser.run = .running then some .general else none

/-- Start a chaser at a header. -/
def Chaser.start (k : Chaser) (pc : DWord) : Chaser :=
  { k with pc := pc, resumePos := 0, seq := false, run := .running, fault := none, yielded := false,
           th := { k.th with waits := [], issue := none, later := [], again := [], latches := [] } }

/-- CHGO: start at a header, or resume at the saved PC. -/
def execChgo (f : RRR) (s : State) : Host.Outcome State Fault Refusal :=
  performPure (.chgo f) chgoCheck (fun x u =>
    if x.p.kind = .trail then u
    else u.updTeam x.p fun t => { t with chaser :=
      if x.parts.fx = 0 then t.chaser.start (x.pair x.parts.a) else { t.chaser with run := .running, seq := false } }) s

/-- Stop a running chaser before its next instruction, its accesses performed. -/
def State.stopChaser (s : State) (p : Party) : State :=
  let k : Party := { p with kind := .chaser }
  match s.team? k with
  | none => s
  | some t =>
    if t.chaser.run ≠ .running then s
    else (s.restChaser k).updTeam k fun u => { u with chaser := { u.chaser with run := .stopped } }

/-- CHSTOP. -/
def execChstop (f : FZ) (s : State) : Host.Outcome State Fault Refusal :=
  performPure (.chstop f) noCheck (fun x u => if x.p.kind = .trail then u else u.stopChaser x.p) s

/-! ### PHASE and the barrier tree (R64, R65, R126, R348) -/

/-- The phase number as sd shows it when a round is abandoned. -/
def gonePhase (n : Nat) : Word := BitVec.ofNat 32 n ||| 0x80000000

/-- PHASE. -/
def execPhase (f : RRS) (s : State) : Host.Outcome State Fault Refusal :=
  performMeet (.phase f) noCheck (fun x u =>
    .ok (if u.treeGone x.launch then writeScalar x x.parts.d (gonePhase x.team.phase) u
      else joinTree x .phase (.phase x.statusReg) u)) s

/-- Every team of a crew, with the crew's key. -/
def State.teamsOf (s : State) (launch : Nat) : List (Party × Team) :=
  s.crews.flatMap fun c => if c.2.launch ≠ launch then [] else c.2.teams.map fun t => (⟨c.1, t.1, .team⟩, t.2)

/-- A team leaves GBAR with status 0, its departure a fence (R126). -/
def Team.leaveGbar (t : Team) : Team :=
  (t.allWaits.foldl (fun u w => match w with
    | .gbar sd => u.writeStatus (some sd) 0
    | _ => u) t).dropWaits fun w => match w with | .gbar _ => true | _ => false

/-- A team's PHASE is released: it waits on until the epoch tick. -/
def Team.enterEpoch (t : Team) (tick : DWord) (n : Nat) : Team :=
  let turn (ws : List Wait) : List Wait := ws.map fun w => match w with
    | .phase sd => .epoch tick sd (BitVec.ofNat 32 n)
    | w => w
  { t with th := { t.th with
      waits := turn t.th.waits,
      issue := t.th.issue.map fun c => { c with waits := turn c.waits },
      later := t.th.later.map fun c => { c with waits := turn c.waits } } }

/-- At the epoch tick a team enters its phase. -/
def Team.beginPhase (t : Team) : Team :=
  (t.allWaits.foldl (fun u w => match w with
    | .epoch _ sd v => { u.writeStatus sd v with phase := v.toNat }
    | _ => u) t).dropWaits fun w => match w with | .epoch .. => true | _ => false

/-- Whether every crew of a launch has arrived on the tree, or retired (R64). -/
def State.treeFull (s : State) (l : Nat) (launch : Launch) : Bool :=
  launch.next == launch.total &&
  s.crews.all fun c => c.2.launch != l || c.2.state == .retired || c.2.treeArrived.isSome

/-- Whether a copy started in an exchange phase of a launch has yet to complete (R65), on a core or in an image. -/
def State.exchanging (s : State) (launch : Nat) : Bool :=
  let mine (os : List CopyOp) : Bool := os.any fun o => o.launch == launch && o.exchange
  (s.cores.any fun k => mine k.2.copies) || s.crews.any fun c => mine c.2.copies

/-- The crews leave the round. -/
def State.leaveRound (s : State) (launch ch : Nat) : State :=
  { s with
    crews := s.crews.map fun c => if c.2.launch = launch then (c.1, { c.2 with treeArrived := none, tree := [] }) else c,
    channels := s.channels.upd ch fun x => { x with arrived := [] } }

/-- BARRIER_TREE_RELEASE (R64, R65, R348): the last crew has arrived. Crews that disagree on the kind leave with
BARRIER_ABANDONED; a GBAR releases its teams; a PHASE sets the epoch tick, 64 ticks on. -/
def execBarrierTreeRelease (channel : Nat) (s : State) : Host.Outcome State Fault Refusal :=
  match s.channels.get? channel with
  | none => absent s
  | some ch =>
    match s.launches.get? ch.launch with
    | none => absent s
    | some l =>
      if ch.abandoned || ch.arrived.isEmpty || !s.treeFull ch.launch l ||
          (ch.phase % 2 == 1 && s.exchanging ch.launch) then absent s
      else
        let parties := (s.teamsOf ch.launch).map (·.1)
        let each (f : Team → Team) (u : State) : State := parties.foldl (fun u p => u.updCopies p f) u
        let s1 := s.leaveRound ch.launch channel
        if ch.arrived.all fun a => a.2 == .gbar then
          .next ((s.teamsOf ch.launch).foldl (fun u e =>
            if e.2.allWaits.any fun w => match w with | .gbar _ => true | _ => false then
              (u.updCopies e.1 Team.leaveGbar).fenceSC e.1 e.2.cluster 4
            else u) s1)
        else if ch.arrived.all fun a => a.2 == .phase then
          let e := s.now + 64
          .next (each (Team.enterEpoch · e (ch.phase + 1))
            { s1 with channels := s1.channels.upd channel fun x => { x with phase := ch.phase + 1, epoch := e } })
        else .next (each Team.releaseTree s1)

/-- PHASE_EPOCH (R348): at the epoch tick every team of the channel's launch that waits for it begins the phase; its
departure is a fence (R126). -/
def execPhaseEpoch (channel : Nat) (s : State) : Host.Outcome State Fault Refusal :=
  match s.channels.get? channel with
  | none => absent s
  | some ch =>
    let due := (s.teamsOf ch.launch).filter fun e => e.2.allWaits.any fun w => match w with
      | .epoch .. => true
      | _ => false
    if due.isEmpty || s.now.ult ch.epoch then absent s
    else .next (due.foldl (fun u e => (u.updCopies e.1 Team.beginPhase).fenceSC e.1 e.2.cluster 4) s)

/-! ### TRAP, TRET, SNAP, HALT (R350) -/

/-- TRAP: SOFTWARE, resuming after it. -/
def execTrap (f : RRS) (s : State) : Host.Outcome State Fault Refusal :=
  performPure (.trap f) noCheck (fun x u =>
    takeTrap x.p x.cl.path
      { x.trapOf (.software (BitVec.ofNat 7 x.parts.s)) (BitVec.ofNat 32 x.parts.s) with retry := false } u) s

/-- TRET. -/
def execTret (f : FZ) (s : State) : Host.Outcome State Fault Refusal :=
  performPure (.tret f) noCheck (fun x u => returnFromTrap x.p x.cl.path u) s

/-- SNAP. -/
def execSnap (f : FZ) (s : State) : Host.Outcome State Fault Refusal :=
  performPure (.snap f) noCheck (fun x u => u.trigger (.snap x.crew.ctx)) s

/-- HALT: the team is halted at the end of its clause. -/
def execHalt (f : FZ) (s : State) : Host.Outcome State Fault Refusal :=
  performPure (.halt f) noCheck (fun x u => onClause x (fun c => { c with halts := true }) u) s

/-! ### TRLD and TRST (R165, R351, R352) -/

/-- The class, the index and the offset that A and B name; none for a bad item word. -/
def Exe.item (x : Exe) : Option (Nat × Nat × Nat) :=
  let a := (x.s x.parts.a).toNat
  if 2 ^ 20 ≤ a then none else some (a / 65536, a % 65536, x.sB.toNat)

/-- Whether the operands that name an item can be read. -/
def Exe.itemKnown (x : Exe) : Bool := x.known x.parts.a && (x.parts.lit.isSome || x.known x.parts.b)

def trldCheck (x : Exe) (s : State) : Option Cause :=
  if !x.itemKnown then none
  else match x.item.bind fun i => s.readItem x.p i.1 i.2.1 i.2.2 with
    | none => some .trstValue
    | some _ => none

/-- TRLD. -/
def execTrld (f : RRR) (s : State) : Host.Outcome State Fault Refusal :=
  performPure (.trld f) trldCheck (fun x u =>
    writePair x x.parts.d ((x.item.bind fun i => u.readItem x.p i.1 i.2.1 i.2.2).getD 0) u) s

def trstCheck (x : Exe) (s : State) : Option Cause :=
  if !x.itemKnown then none
  else match x.item.bind fun i => s.writeItem x.p i.1 i.2.1 i.2.2 (x.pair x.parts.d) with
    | none => some .trstValue
    | some _ => none

/-- TRST. -/
def execTrst (f : RRR) (s : State) : Host.Outcome State Fault Refusal :=
  performPure (.trst f) trstCheck (fun x u =>
    (x.item.bind fun i => u.writeItem x.p i.1 i.2.1 i.2.2 (x.pair x.parts.d)).getD u) s

/-! ### The debug registers (R162, R163, R353) -/

/-- The register named in D. -/
def Exe.debugNo (x : Exe) : Nat := base x.parts.d

/-- BPSET. -/
def execBpset (f : RRR) (s : State) : Host.Outcome State Fault Refusal :=
  performPure (.bpset f) noCheck (fun x u => u.updTeam x.p fun t =>
    let r := t.bpReg x.debugNo
    let r' : DebugReg := if x.parts.fx = 1 then { r with val := r.val &&& ~~~1 }
      else { val := (x.pair x.parts.a <<< 16) ||| 1, mask := x.m x.parts.b }
    { t with bp := t.bp.write {} x.debugNo r' }) s

/-- The length of a watchpoint, in bytes, and its limit (R353). -/
def Exe.wpLength (x : Exe) : Nat := (x.s x.parts.c).toNat
def Exe.wpSkew (x : Exe) : Nat := (x.pair x.parts.a).toNat % 64

def wpsetCheck (x : Exe) (_ : State) : Option Cause :=
  if x.parts.fx = 0 then none
  else if x.parts.m.isNone then some .general
  else if !x.known x.parts.c then none
  else if x.wpLength = 0 || 262144 - x.wpSkew < x.wpLength then some .general else none

/-- WPSET. -/
def execWpset (f : RRR) (s : State) : Host.Outcome State Fault Refusal :=
  performPure (.wpset f) wpsetCheck (fun x u => u.updTeam x.p fun t =>
    let r := t.wpReg x.debugNo
    let len := (x.wpSkew + x.wpLength + 63) / 64 - 1
    let r' : DebugReg := if x.parts.fx = 0 then { r with val := r.val &&& ~~~1 }
      else { val := BitVec.ofNat 64 (va (x.pair x.parts.a) / 64 * 2 ^ 22 + len * 2 ^ 10 + x.parts.fx * 2 ^ 7 + 1),
             mask := x.m x.parts.b }
    { t with wp := t.wp.write {} x.debugNo r' }) s

/-- STEP. -/
def execStep (f : RRS) (s : State) : Host.Outcome State Fault Refusal :=
  performPure (.step f) noCheck (fun x u => u.updTeam x.p fun t =>
    { t with stepctl := (t.stepctl &&& ~~~1) ||| BitVec.ofNat 32 x.parts.s }) s

/-! ### FINJ and TBRD (R177, R354, R356) -/

def finjCheck (x : Exe) (_ : State) : Option Cause :=
  if !x.known x.parts.a || (x.parts.lit.isNone && !x.known x.parts.b) then none
  else
    let bit := x.sB.toNat
    if (x.parts.fx ≠ 1 && x.nlanes ≤ (x.s x.parts.a).toNat) || 31 < bit || (x.parts.fx = 3 && 15 < bit) then
      some .general
    else none

/-- FINJ: one bit of a register in a lane is inverted. A mask register holds one bit in a lane. The norm of a vector register
stays as it was: R75 does not say whether FINJ is a write of the register (DESIGN CHOICE, log 39). -/
def execFinj (f : RRR) (s : State) : Host.Outcome State Fault Refusal :=
  performPure (.finj f) finjCheck (fun x u => u.updTeam x.p fun t =>
    let l := (x.s x.parts.a).toNat
    let k := x.sB.toNat
    match x.parts.fx with
    | 0 =>
      let r := x.regNum .v x.parts.d
      t.setLanes r [(l, t.readV r l ^^^ (1#32 <<< k))]
    | 1 =>
      let r := x.regNum .s x.parts.d
      { t with th := t.th.writeS r (t.th.readS r ^^^ (1#32 <<< k)) }
    | 2 =>
      let r := base x.parts.d
      { t with m := t.m.write 0 r (t.readM r ^^^ Mask.one l) }
    | _ =>
      let r := x.regNum .n x.parts.d
      let g := t.groupOf l
      t.writeN r (t.groupStrands g) (t.readN r (t.span * g) ^^^ (1#16 <<< k))) s

/-- TBRD: the time base, or the current promise of the operation whose quad begins at sA. -/
def execTbrd (f : RRR) (s : State) : Host.Outcome State Fault Refusal :=
  performPure (.tbrd f) noCheck (fun x u =>
    let q := x.regNum .s x.parts.a
    writePair x x.parts.d
      (if x.parts.fx = 0 then x.now
       else (x.team.engines.find? fun e => !e.done && e.quad == q).elim 0 (·.promise)) u) s

end Sys2Proof.Machine
end

