-- ==== Sys2Proof/Machine/Waiters.lean ====
section
/-! DEFINITION. The end of a wait on a migrating leaf (R108) or on a remote owner (R109), whoever waits: an access of an
instruction, a fetch, a window fill, an engine, a packet; and uncorrectable errors (R167). -/

namespace Sys2Proof.Machine

open Sys2Proof

/-! ### What waits -/

/-- A wait in progress: since when, whether on a remote owner, and what happens when it runs out. -/
structure Waiting where
  since : DWord
  remote : Bool
  late : State
  deriving DecidableEq, Repr

/-- Whether the walk of an address still ends at a migrating leaf. -/
def State.stillMigrating (s : State) (ctx : Nat) (a : DWord) : Bool :=
  match s.walk ctx (va a) with
  | .ok (e, _, _) => leafMIG e
  | .error _ => false

/-- Whether an address still lies on a node that does not answer. -/
def State.stillUnreached (s : State) (ctx : Nat) (a : DWord) : Bool :=
  match s.resolve { ctx := ctx, core := none } a with
  | some y => y.node != s.node && !s.reaches y.node
  | none => false

/-- Whether a lane of a trap that would be taken still waits: on a migrating leaf, or with `remote` on an owner. -/
def State.laneHeld (s : State) (ctx : Nat) (remote : Bool) (t : Trap) (l : Nat) : Bool :=
  let c := (t.causes.get? l).getD t.cause
  let a := (t.addr.get? l).getD 0
  if remote then c == .remoteUnreachable && s.stillUnreached ctx a else c == .migrating && s.stillMigrating ctx a

def State.stillHeld (s : State) (ctx : Nat) (remote : Bool) (t : Trap) : Bool :=
  (t.mask.lanes 1024).any (s.laneHeld ctx remote t)

/-- The trap of a wait that has run out: lanes whose own leaf has cleared meanwhile are not among those that fault, unless
every one has. -/
def State.liveTrap (s : State) (ctx : Nat) (t : Trap) : Trap :=
  if !s.stillHeld ctx false t then t
  else
    let ls := (t.mask.lanes 1024).filter fun l => (t.causes.get? l).getD t.cause != .migrating || s.laneHeld ctx false t l
    { t with mask := Mask.ofList ls, cause := ((ls.head?.bind t.causes.get?).getD t.cause) }

/-- The access that holds a party's slot; at a meeting point the trap goes to both copies (R176). -/
def State.waitingAccess (s : State) (p : Party) : Option Waiting :=
  (s.standing? p).bind fun ix =>
    let trap (t0 : Trap) : State :=
      let t := s.liveTrap ix.2.crew.ctx t0
      if ix.2.cl.meet.any fun m => m.1 == 1 then trapBoth ix.2 t s else takeTrap p ix.2.cl.path t s
    match ix.2.cl.hold with
    | some (.migrating t, since) => some ⟨since, false, trap t⟩
    | some (.remote t, since) => some ⟨since, true, trap t⟩
    | _ => none

/-- The trap of a fetch that has waited in vain, at the boundary of its party. -/
def State.fetchLate (s : State) (p : Party) (t : Team) (tr : Trap) : State :=
  let s1 := s.updThread p Thread.refetch
  match p.kind with
  | .chaser => takeTrap p 0 tr s1
  | _ => match t.choose with
    | none => s
    | some q => takeTrap p q.creation tr (s1.updTeam p fun u => { u with resumeAt := none })

/-- The fetch that a party waits for. -/
def State.waitingFetch (s : State) (p : Party) : Option Waiting :=
  (s.team? p).bind fun t => (t.thread p.kind).waits.findSome? fun w => match w with
    | .fetch a tr => some ⟨a, false, s.fetchLate p t tr⟩
    | .fetchRemote a tr => some ⟨a, true, s.fetchLate p t tr⟩
    | _ => none

/-- The fill of a window: when its wait runs out, the window is VALID with LIMIT 0 (R106). -/
def State.waitingFill (s : State) (p : Party) (k : Nat) : Option Waiting :=
  (s.team? p).bind fun t =>
    let w := t.window k
    if w.state ≠ .pending then none
    else w.since.map fun a =>
      ⟨a, w.remote, s.updTeam p fun t => t.setWindow k { w with state := .valid, limit := 0, since := none }⟩

/-- The operation at the head of a copy engine. -/
def State.waitingCopy (s : State) (core : Nat) : Option Waiting :=
  match (s.core core).copies with
  | o :: _ =>
    if o.started && o.resume.isNone then o.since.map fun a => ⟨a, o.remote, s.lateCopy core o⟩ else none
  | [] => none

/-- The operation at the head of a Cupel engine. -/
def State.waitingCupel (s : State) (core : Nat) : Option Waiting :=
  match (s.core core).cupel with
  | o :: _ =>
    if o.started && o.hunger = 0 then o.since.map fun a => ⟨a, o.remote, s.lateCupel core o⟩ else none
  | [] => none

/-- A packet goes on with its access, by its state and type. -/
def State.drivePacket (s : State) (k : Nat) (p : Packet) (late : Bool) : Option State :=
  if p.state = .acquire then s.settleParts k p late
  else match p.type with
  | 2 => (s.queues.get? p.queue).bind fun u => s.define k p u.cap late
  | 3 => s.signal k p late
  | 4 => s.watch k p late
  | 5 => some (State.runHub k late (units p.len - p.unit) p s)
  | _ => none

/-- A packet whose access waits. -/
def State.waitingPacket (s : State) (queue index : Nat) : Option Waiting :=
  let k := packetKey queue index
  (s.packets.get? k).bind fun p => p.since.bind fun a => (s.drivePacket k p true).map fun u => ⟨a, p.remote, u⟩

/-- The oldest inbound operation that waits: when its wait runs out it is answered with the access error (R14). -/
def State.waitingInbound (s : State) : Option Waiting :=
  match s.inbounds with
  | o :: os => some ⟨o.since, o.remote, { s with inbounds := os }.send .rdmaError⟩
  | [] => none

/-- The writes of the processors that wait are tried again, and a closing context that waited for one of them ends. -/
def State.retryPosted (s : State) : State := (s.posted.map (·.ctx)).foldl State.closeCheck s.repost

/-- The write of the processors, among the first of each context, whose wait runs out first: it is then skipped, and those
behind it go on (R40). -/
def State.waitingPosted (s : State) : Option Waiting :=
  let left (w : PostedWrite) : Int := (if w.remote then 340000 else 34000) - ((s.now - w.since).toNat : Int)
  let first (b : Option PostedWrite) (w : PostedWrite) : Option PostedWrite :=
    if !w.tried then b else match b with
      | none => some w
      | some v => if left w < left v then some w else b
  (s.posted.foldl first none).map fun w =>
    ⟨w.since, w.remote, { s with posted := s.posted.erase w }.retryPosted.closeCheck w.ctx⟩

/-- What waits, under the name a row gives it. -/
def State.waiting (s : State) (w : Waiter) : Option Waiting :=
  match w with
  | .access p => (s.waitingAccess p).or (s.waitingFetch p)
  | .fill p k => s.waitingFill p k
  | .copyEngine core => s.waitingCopy core
  | .cupel core => s.waitingCupel core
  | .packet queue index => s.waitingPacket queue index
  | .inbound => s.waitingInbound
  | .posted => s.waitingPosted

/-! ### What goes on (R108, R109) -/

/-- A party whose access, or whose fetch, no longer waits goes on. -/
def State.resumedAccess (s : State) (remote : Bool) (p : Party) : Option State :=
  match s.crews.get? p.crew, s.team? p with
  | some c, some t =>
    let th := t.thread p.kind
    let ended (k : Bool) (tr : Trap) : Bool := k == remote && !s.stillHeld c.ctx remote tr
    match th.issue with
    | some cl => match cl.hold with
      | some (.migrating tr, _) => if ended false tr then some (s.updClause p fun k => { k with hold := none }) else none
      | some (.remote tr, _) => if ended true tr then some (s.updClause p fun k => { k with hold := none }) else none
      | _ => none
    | none =>
      if th.waits.any fun w => match w with | .fetch _ tr => ended false tr | .fetchRemote _ tr => ended true tr | _ => false then
        some (s.updThread p Thread.refetch)
      else none
  | _, _ => none

/-- A window fill that no longer waits walks again from the root. -/
def State.resumedFill (s : State) (p : Party) (k : Nat) : Option State :=
  match s.waitingFill p k, s.finishFill p k with
  | some _, some u =>
    if (u.team? p).any fun t => (t.window k).state == .pending then none else some u
  | _, _ => none

/-- A copy that no longer waits goes on; a reducing copy's unit reaches its destination. -/
def State.resumedCopy (s : State) (remote : Bool) (core : Nat) : Option State :=
  match (s.core core).copies with
  | o :: _ =>
    if !o.started || o.resume.isSome || o.since.isNone || o.remote != remote then none
    else
      let o' := { o with since := none }
      let s1 := s.setHead core o'
      let r := match o.reduce with
        | none => s1.driveCopy core o'
        | some r => some (s1.ownUnit core o' r)
      r.filter fun u => match (u.core core).copies with
        | q :: _ => !(q.since.isSome && q.remote == remote && q.unit == o.unit && q.resume.isNone && q.transfer == o.transfer)
        | [] => true
  | [] => none

/-- A Cupel operation that no longer waits goes on. -/
def State.resumedCupel (s : State) (remote : Bool) (core : Nat) : Option State :=
  match (s.core core).cupel with
  | o :: _ =>
    if !o.started || o.hunger ≠ 0 || o.since.isNone || o.remote != remote then none
    else
      let o' := { o with since := none }
      (some ((s.setCupelHead core o').driveCupel core o')).filter fun u => match (u.core core).cupel with
        | q :: _ => !(q.since.isSome && q.remote == remote && q.next == o.next && q.opId == o.opId)
        | [] => true
  | [] => none

/-- A packet that no longer waits goes on. -/
def State.resumedPacket (s : State) (remote : Bool) (queue index : Nat) : Option State :=
  let k := packetKey queue index
  match s.packets.get? k with
  | none => none
  | some p =>
    if p.since.isNone || p.remote != remote then none
    else
      let p' := { p with since := none }
      let s1 := s.updPacket k fun _ => p'
      (((s1.drivePacket k p' false).or (some s1))).filter fun u => match u.packets.get? k with
        | some q => !(q.since.isSome && q.remote == remote && q.unit == p.unit)
        | none => true

/-- The oldest inbound operation goes on. -/
def State.resumedInbound (s : State) : Option State :=
  match s.inbounds with
  | o :: os => match ({ s with inbounds := os } : State).rdma o with
    | .ok u => some u
    | .error _ => none
  | [] => none

/-- Writes of the processors that need not wait go on, and those behind them. -/
def State.resumedPosted (s : State) : Option State :=
  if s.repost.posted = s.posted then none else some s.retryPosted

/-- What follows when a wait, of one of the two kinds, need not go on; none while it must. -/
def State.resumed (s : State) (remote : Bool) (w : Waiter) : Option State :=
  match w with
  | .access p => s.resumedAccess remote p
  | .fill p k => s.resumedFill p k
  | .copyEngine core => s.resumedCopy remote core
  | .cupel core => s.resumedCupel remote core
  | .packet queue index => s.resumedPacket remote queue index
  | .inbound => s.resumedInbound
  | .posted => s.resumedPosted

/-- The inbound operations that waited for an owner go on once it answers, in their order, up to the first that waits. -/
def State.answerInbound : Nat → State → State
  | 0, s => s
  | n + 1, s => match s.inbounds with
    | o :: _ =>
      if !o.remote || overdue (some o.since) true s.now then s
      else match s.resumedInbound with
        | some u => State.answerInbound n u
        | none => s
    | [] => s

/-- What waits outside the cores for an owner goes on as soon as it answers: writes of the processors (R40, R49) and inbound
operations (R109). -/
def State.answer (s : State) : State :=
  let s1 := if s.posted.any (·.remote) then s.retryPosted else s
  s1.answerInbound s1.inbounds.length

/-- MIGRATING_TIMEOUT (R108): 34,000 ticks have passed with MIG 1, and the access takes MIGRATING, or the engine's page
faults. -/
def execMigratingTimeout (w : Waiter) (s : State) : Host.Outcome State Fault Refusal :=
  match s.waiting w with
  | none => absent s
  | some x =>
    let n := (s.now - x.since).toNat
    if x.remote || n < 34000 || (n = 34000 && (s.resumed false w).isSome) then absent s else .next x.late

/-- REMOTE_UNREACHABLE (R109): no route has answered within 340,000 ticks. -/
def execRemoteUnreachable (w : Waiter) (s : State) : Host.Outcome State Fault Refusal :=
  match s.waiting w with
  | none => absent s
  | some x =>
    let n := (s.now - x.since).toNat
    if !x.remote || n < 340000 || (n = 340000 && (s.resumed true w).isSome) then absent s else .next x.late

/-- MIGRATING_LEAF_CLEARED (R108): the leaf's MIG became 0 within the wait; what waited walks again and goes on. -/
def execMigratingLeafCleared (w : Waiter) (s : State) : Host.Outcome State Fault Refusal :=
  match s.waiting w, s.resumed false w with
  | some x, some u => if x.remote || 34000 < (s.now - x.since).toNat then absent s else .next u
  | _, _ => absent s

/-! ### UNCORRECTABLE_ERROR (R167) -/

/-- What an error poisons. -/
def poisonOf (t : ErrorTarget) : Poison :=
  match t with
  | .word a => .word (a / 8)
  | .line cl l => .line cl l
  | .vreg p r l => .vreg p r l
  | .sreg p r => .sreg p r
  | .mask p r => .mask p r
  | .norm p r => .norm p r
  | .window p k => .window p k
  | .queue p k => .queue p k

/-- UNCORRECTABLE_ERROR: the word, line or register holds an error that its next reader consumes (log 25). -/
def execUncorrectableError (t : ErrorTarget) (s : State) : Host.Outcome State Fault Refusal :=
  .next { s with poison := if s.poison.contains (poisonOf t) then s.poison else s.poison ++ [poisonOf t] }

end Sys2Proof.Machine
end

