-- ==== Sys2Proof/Machine/Dispatch.lean ====
section
/-! DEFINITION. One arm per constructor of `Instr`: the meaning of each instruction and event. -/

namespace Sys2Proof.Machine

open Sys2Proof

def exec (i : Instr) (s : State) : Host.Outcome State Fault Refusal :=
  match i with
  | .powerGood => Sys2Proof.Machine.execPowerGood s
  | .dieTrained die => Sys2Proof.Machine.execDieTrained die s
  | .fullServiceDeadline => Sys2Proof.Machine.execFullServiceDeadline s
  | .powerOn => Sys2Proof.Machine.execPowerOn s
  | .powerOff => Sys2Proof.Machine.execPowerOff s
  | .sensors temps rails power => Sys2Proof.Machine.execSensors temps rails power s
  | .status => Sys2Proof.Machine.execStatus s
  | .selectSlot slotB => Sys2Proof.Machine.execSelectSlot slotB s
  | .hold => Sys2Proof.Machine.execHold s
  | .snapPin => Sys2Proof.Machine.execSnapPin s
  | .boardCommandUnknown code => Sys2Proof.Machine.execBoardCommandUnknown code s
  | .tokenTurn used request => Sys2Proof.Machine.execTokenTurn used request s
  | .tokenLoss die => Sys2Proof.Machine.execTokenLoss die s
  | .tokenRebuild => Sys2Proof.Machine.execTokenRebuild s
  | .fillRateStep cluster => Sys2Proof.Machine.execFillRateStep cluster s
  | .throttleLimit cluster slot => Sys2Proof.Machine.execThrottleLimit cluster slot s
  | .energySample => Sys2Proof.Machine.execEnergySample s
  | .energyDivide cluster measured => Sys2Proof.Machine.execEnergyDivide cluster measured s
  | .replan die reason table found => Sys2Proof.Machine.execReplan die reason table found s
  | .flitReceive port flit => Sys2Proof.Machine.execFlitReceive port flit s
  | .replayRequest port seq => Sys2Proof.Machine.execReplayRequest port seq s
  | .retrainComplete port ok => Sys2Proof.Machine.execRetrainComplete port ok s
  | .domainJoin reduces duplicate => Sys2Proof.Machine.execDomainJoin reduces duplicate s
  | .cxlDeviceDiscovered port kind capacity => Sys2Proof.Machine.execCxlDeviceDiscovered port kind capacity s
  | .inboundRdmaWrite handle offset data => Sys2Proof.Machine.execInboundRdmaWrite handle offset data s
  | .inboundRdmaRead handle offset length => Sys2Proof.Machine.execInboundRdmaRead handle offset length s
  | .notifyWrite handle addr data => Sys2Proof.Machine.execNotifyWrite handle addr data s
  | .openContext r => Sys2Proof.Machine.execOpenContext r s
  | .closeContext r => Sys2Proof.Machine.execCloseContext r s
  | .closeGraceExpiry ctx => Sys2Proof.Machine.execCloseGraceExpiry ctx s
  | .setRegion r => Sys2Proof.Machine.execSetRegion r s
  | .map r => Sys2Proof.Machine.execMap r s
  | .unmap r => Sys2Proof.Machine.execUnmap r s
  | .expose r => Sys2Proof.Machine.execExpose r s
  | .createQueue r => Sys2Proof.Machine.execCreateQueue r s
  | .destroyQueue r => Sys2Proof.Machine.execDestroyQueue r s
  | .resumeQueue r => Sys2Proof.Machine.execResumeQueue r s
  | .attachDebug r => Sys2Proof.Machine.execAttachDebug r s
  | .debugStop r => Sys2Proof.Machine.execDebugStop r s
  | .debugRelease r => Sys2Proof.Machine.execDebugRelease r s
  | .debugStep r => Sys2Proof.Machine.execDebugStep r s
  | .debugRead r => Sys2Proof.Machine.execDebugRead r s
  | .debugWrite r => Sys2Proof.Machine.execDebugWrite r s
  | .armSnap r => Sys2Proof.Machine.execArmSnap r s
  | .readSnap r => Sys2Proof.Machine.execReadSnap r s
  | .detachDebug r => Sys2Proof.Machine.execDetachDebug r s
  | .readHallmark r => Sys2Proof.Machine.execReadHallmark r s
  | .requestIngot r rate => Sys2Proof.Machine.execRequestIngot r rate s
  | .ingotSeal scope => Sys2Proof.Machine.execIngotSeal scope s
  | .registerNotify r => Sys2Proof.Machine.execRegisterNotify r s
  | .serviceRequestUnknown code r => Sys2Proof.Machine.execServiceRequestUnknown code r s
  | .packetFetch queue => Sys2Proof.Machine.execPacketFetch queue s
  | .slotReread queue => Sys2Proof.Machine.execSlotReread queue s
  | .packetAcquire queue index => Sys2Proof.Machine.execPacketAcquire queue index s
  | .launchSettle queue index => Sys2Proof.Machine.execLaunchSettle queue index s
  | .nopPacket queue index => Sys2Proof.Machine.execNopPacket queue index s
  | .signalSet queue index => Sys2Proof.Machine.execSignalSet queue index s
  | .signalAdd queue index => Sys2Proof.Machine.execSignalAdd queue index s
  | .signalSub queue index => Sys2Proof.Machine.execSignalSub queue index s
  | .waitPacket queue index => Sys2Proof.Machine.execWaitPacket queue index s
  | .waitPacketMet queue index => Sys2Proof.Machine.execWaitPacketMet queue index s
  | .waitTimeout queue index => Sys2Proof.Machine.execWaitTimeout queue index s
  | .copyPacket queue index => Sys2Proof.Machine.execCopyPacket queue index s
  | .copyPacketDone queue index => Sys2Proof.Machine.execCopyPacketDone queue index s
  | .nodeDefine queue index => Sys2Proof.Machine.execNodeDefine queue index s
  | .nodeArm queue index => Sys2Proof.Machine.execNodeArm queue index s
  | .nodeDisarm queue index => Sys2Proof.Machine.execNodeDisarm queue index s
  | .nodeDisarmDrained queue index => Sys2Proof.Machine.execNodeDisarmDrained queue index s
  | .flushTimer node => Sys2Proof.Machine.execFlushTimer node s
  | .launchDrained launch => Sys2Proof.Machine.execLaunchDrained launch s
  | .packetConfirmed queue index => Sys2Proof.Machine.execPacketConfirmed queue index s
  | .crewPlace launch core => Sys2Proof.Machine.execCrewPlace launch core s
  | .crewLoaded crew => Sys2Proof.Machine.execCrewLoaded crew s
  | .migrationTrigger core crew => Sys2Proof.Machine.execMigrationTrigger core crew s
  | .imageSealed crew => Sys2Proof.Machine.execImageSealed crew s
  | .crewRestore crew core => Sys2Proof.Machine.execCrewRestore crew core s
  | .outstandingAck core launch signal => Sys2Proof.Machine.execOutstandingAck core launch signal s
  | .barrierTreeRelease channel => Sys2Proof.Machine.execBarrierTreeRelease channel s
  | .exchangeCopyStart core => Sys2Proof.Machine.execExchangeCopyStart core s
  | .phaseEpoch channel => Sys2Proof.Machine.execPhaseEpoch channel s
  | .clauseIssue cluster chaser => Sys2Proof.Machine.execClauseIssue cluster chaser s
  | .promiseMissed p quad => Sys2Proof.Machine.execPromiseMissed p quad s
  | .loadComplete p => Sys2Proof.Machine.execLoadComplete p s
  | .storePerformed p => Sys2Proof.Machine.execStorePerformed p s
  | .windowFillComplete p win => Sys2Proof.Machine.execWindowFillComplete p win s
  | .migratingTimeout w => Sys2Proof.Machine.execMigratingTimeout w s
  | .remoteAccess a => Sys2Proof.Machine.execRemoteAccess a s
  | .remoteUnreachable w => Sys2Proof.Machine.execRemoteUnreachable w s
  | .shootComplete p => Sys2Proof.Machine.execShootComplete p s
  | .waitConditionMet p => Sys2Proof.Machine.execWaitConditionMet p s
  | .sleepExpiry p => Sys2Proof.Machine.execSleepExpiry p s
  | .queueUnblock p => Sys2Proof.Machine.execQueueUnblock p s
  | .queueStarvedTimeout p => Sys2Proof.Machine.execQueueStarvedTimeout p s
  | .cupelOperationStart core => Sys2Proof.Machine.execCupelOperationStart core s
  | .cupelComplete core => Sys2Proof.Machine.execCupelComplete core s
  | .copyOperationStart core => Sys2Proof.Machine.execCopyOperationStart core s
  | .copyComplete core => Sys2Proof.Machine.execCopyComplete core s
  | .reduceUnitArrival u => Sys2Proof.Machine.execReduceUnitArrival u s
  | .touchstoneEpochEnd p => Sys2Proof.Machine.execTouchstoneEpochEnd p s
  | .assayStart die => Sys2Proof.Machine.execAssayStart die s
  | .assayResult die pass => Sys2Proof.Machine.execAssayResult die pass s
  | .snapTrigger source => Sys2Proof.Machine.execSnapTrigger source s
  | .snapshotTimeout => Sys2Proof.Machine.execSnapshotTimeout s
  | .bra f => Sys2Proof.Machine.execBra f s
  | .brc f => Sys2Proof.Machine.execBrc f s
  | .brm f => Sys2Proof.Machine.execBrm f s
  | .join f => Sys2Proof.Machine.execJoin f s
  | .call f => Sys2Proof.Machine.execCall f s
  | .ret f => Sys2Proof.Machine.execRet f s
  | .jmpi f => Sys2Proof.Machine.execJmpi f s
  | .loop f => Sys2Proof.Machine.execLoop f s
  | .exit f => Sys2Proof.Machine.execExit f s
  | .yield f => Sys2Proof.Machine.execYield f s
  | .sleep f => Sys2Proof.Machine.execSleep f s
  | .wait f => Sys2Proof.Machine.execWait f s
  | .nop f => Sys2Proof.Machine.execNop f s
  | .part f => Sys2Proof.Machine.execPart f s
  | .mset f => Sys2Proof.Machine.execMset f s
  | .mand f => Sys2Proof.Machine.execMand f s
  | .mor f => Sys2Proof.Machine.execMor f s
  | .mxor f => Sys2Proof.Machine.execMxor f s
  | .mnot f => Sys2Proof.Machine.execMnot f s
  | .mmov f => Sys2Proof.Machine.execMmov f s
  | .mpop f => Sys2Proof.Machine.execMpop f s
  | .mfind f => Sys2Proof.Machine.execMfind f s
  | .many f => Sys2Proof.Machine.execMany f s
  | .mall f => Sys2Proof.Machine.execMall f s
  | .mexec f => Sys2Proof.Machine.execMexec f s
  | .setix f => Sys2Proof.Machine.execSetix f s
  | .srd f => Sys2Proof.Machine.execSrd f s
  | .swr f => Sys2Proof.Machine.execSwr f s
  | .smov f => Sys2Proof.Machine.execSmov f s
  | .smovi f => Sys2Proof.Machine.execSmovi f s
  | .sadd f => Sys2Proof.Machine.execSadd f s
  | .ssub f => Sys2Proof.Machine.execSsub f s
  | .smul f => Sys2Proof.Machine.execSmul f s
  | .smulh f => Sys2Proof.Machine.execSmulh f s
  | .smad f => Sys2Proof.Machine.execSmad f s
  | .sdiv f => Sys2Proof.Machine.execSdiv f s
  | .srem f => Sys2Proof.Machine.execSrem f s
  | .sand f => Sys2Proof.Machine.execSand f s
  | .sor f => Sys2Proof.Machine.execSor f s
  | .sxor f => Sys2Proof.Machine.execSxor f s
  | .sshl f => Sys2Proof.Machine.execSshl f s
  | .sshr f => Sys2Proof.Machine.execSshr f s
  | .ssar f => Sys2Proof.Machine.execSsar f s
  | .smin f => Sys2Proof.Machine.execSmin f s
  | .smax f => Sys2Proof.Machine.execSmax f s
  | .scmp f => Sys2Proof.Machine.execScmp f s
  | .ssel f => Sys2Proof.Machine.execSsel f s
  | .sclz f => Sys2Proof.Machine.execSclz f s
  | .spopc f => Sys2Proof.Machine.execSpopc f s
  | .sbfe f => Sys2Proof.Machine.execSbfe f s
  | .sbfi f => Sys2Proof.Machine.execSbfi f s
  | .sadd64 f => Sys2Proof.Machine.execSadd64 f s
  | .qpush f => Sys2Proof.Machine.execQpush f s
  | .qpop f => Sys2Proof.Machine.execQpop f s
  | .vadd f => Sys2Proof.Machine.execVadd f s
  | .vsub f => Sys2Proof.Machine.execVsub f s
  | .vmul f => Sys2Proof.Machine.execVmul f s
  | .vmulh f => Sys2Proof.Machine.execVmulh f s
  | .vmad f => Sys2Proof.Machine.execVmad f s
  | .vand f => Sys2Proof.Machine.execVand f s
  | .vor f => Sys2Proof.Machine.execVor f s
  | .vxor f => Sys2Proof.Machine.execVxor f s
  | .vnot f => Sys2Proof.Machine.execVnot f s
  | .vshl f => Sys2Proof.Machine.execVshl f s
  | .vshr f => Sys2Proof.Machine.execVshr f s
  | .vsar f => Sys2Proof.Machine.execVsar f s
  | .vmin f => Sys2Proof.Machine.execVmin f s
  | .vmax f => Sys2Proof.Machine.execVmax f s
  | .vabs f => Sys2Proof.Machine.execVabs f s
  | .vcmp f => Sys2Proof.Machine.execVcmp f s
  | .vsel f => Sys2Proof.Machine.execVsel f s
  | .vclz f => Sys2Proof.Machine.execVclz f s
  | .vpopc f => Sys2Proof.Machine.execVpopc f s
  | .vbfe f => Sys2Proof.Machine.execVbfe f s
  | .vbfi f => Sys2Proof.Machine.execVbfi f s
  | .vperm f => Sys2Proof.Machine.execVperm f s
  | .vdot4 f => Sys2Proof.Machine.execVdot4 f s
  | .fadd f => Sys2Proof.Machine.execFadd f s
  | .fsub f => Sys2Proof.Machine.execFsub f s
  | .fmul f => Sys2Proof.Machine.execFmul f s
  | .fma f => Sys2Proof.Machine.execFma f s
  | .fnma f => Sys2Proof.Machine.execFnma f s
  | .fmin f => Sys2Proof.Machine.execFmin f s
  | .fmax f => Sys2Proof.Machine.execFmax f s
  | .fneg f => Sys2Proof.Machine.execFneg f s
  | .fabs f => Sys2Proof.Machine.execFabs f s
  | .fcmp f => Sys2Proof.Machine.execFcmp f s
  | .fclass f => Sys2Proof.Machine.execFclass f s
  | .fscale f => Sys2Proof.Machine.execFscale f s
  | .frcp f => Sys2Proof.Machine.execFrcp f s
  | .frsq f => Sys2Proof.Machine.execFrsq f s
  | .fsqrt f => Sys2Proof.Machine.execFsqrt f s
  | .fexp2 f => Sys2Proof.Machine.execFexp2 f s
  | .flog2 f => Sys2Proof.Machine.execFlog2 f s
  | .fsin f => Sys2Proof.Machine.execFsin f s
  | .fcos f => Sys2Proof.Machine.execFcos f s
  | .ftanh f => Sys2Proof.Machine.execFtanh f s
  | .cvt f => Sys2Proof.Machine.execCvt f s
  | .cvtn f => Sys2Proof.Machine.execCvtn f s
  | .cvtw f => Sys2Proof.Machine.execCvtw f s
  | .qnt f => Sys2Proof.Machine.execQnt f s
  | .dqnt f => Sys2Proof.Machine.execDqnt f s
  | .shfl f => Sys2Proof.Machine.execShfl f s
  | .shflu f => Sys2Proof.Machine.execShflu f s
  | .shfld f => Sys2Proof.Machine.execShfld f s
  | .shflx f => Sys2Proof.Machine.execShflx f s
  | .vote f => Sys2Proof.Machine.execVote f s
  | .ballot f => Sys2Proof.Machine.execBallot f s
  | .vred f => Sys2Proof.Machine.execVred f s
  | .vscan f => Sys2Proof.Machine.execVscan f s
  | .tred f => Sys2Proof.Machine.execTred f s
  | .bcast f => Sys2Proof.Machine.execBcast f s
  | .compact f => Sys2Proof.Machine.execCompact f s
  | .vrand f => Sys2Proof.Machine.execVrand f s
  | .dcvt f => Sys2Proof.Machine.execDcvt f s
  | .dexp f => Sys2Proof.Machine.execDexp f s
  | .ddot f => Sys2Proof.Machine.execDdot f s
  | .ddotf f => Sys2Proof.Machine.execDdotf f s
  | .dscal f => Sys2Proof.Machine.execDscal f s
  | .dadd f => Sys2Proof.Machine.execDadd f s
  | .dsub f => Sys2Proof.Machine.execDsub f s
  | .dmix f => Sys2Proof.Machine.execDmix f s
  | .dneg f => Sys2Proof.Machine.execDneg f s
  | .dmov f => Sys2Proof.Machine.execDmov f s
  | .dnrd f => Sys2Proof.Machine.execDnrd f s
  | .dnwr f => Sys2Proof.Machine.execDnwr f s
  | .dzero f => Sys2Proof.Machine.execDzero f s
  | .dspan f => Sys2Proof.Machine.execDspan f s
  | .dld f => Sys2Proof.Machine.execDld f s
  | .dst f => Sys2Proof.Machine.execDst f s
  | .wlalloc f => Sys2Proof.Machine.execWlalloc f s
  | .wlfree f => Sys2Proof.Machine.execWlfree f s
  | .wlclr f => Sys2Proof.Machine.execWlclr f s
  | .wlins f => Sys2Proof.Machine.execWlins f s
  | .vtopk f => Sys2Proof.Machine.execVtopk f s
  | .wlmerge f => Sys2Proof.Machine.execWlmerge f s
  | .wlrd f => Sys2Proof.Machine.execWlrd f s
  | .wlst f => Sys2Proof.Machine.execWlst f s
  | .wlld f => Sys2Proof.Machine.execWlld f s
  | .ssect f => Sys2Proof.Machine.execSsect f s
  | .pksi f => Sys2Proof.Machine.execPksi f s
  | .unpksi f => Sys2Proof.Machine.execUnpksi f s
  | .gwnorm f => Sys2Proof.Machine.execGwnorm f s
  | .smxacc f => Sys2Proof.Machine.execSmxacc f s
  | .smxfin f => Sys2Proof.Machine.execSmxfin f s
  | .ld f => Sys2Proof.Machine.execLd f s
  | .st f => Sys2Proof.Machine.execSt f s
  | .ldg f => Sys2Proof.Machine.execLdg f s
  | .stg f => Sys2Proof.Machine.execStg f s
  | .ldp f => Sys2Proof.Machine.execLdp f s
  | .stp f => Sys2Proof.Machine.execStp f s
  | .kvld f => Sys2Proof.Machine.execKvld f s
  | .wmap f => Sys2Proof.Machine.execWmap f s
  | .winv f => Sys2Proof.Machine.execWinv f s
  | .pref f => Sys2Proof.Machine.execPref f s
  | .cwb f => Sys2Proof.Machine.execCwb f s
  | .cinv f => Sys2Proof.Machine.execCinv f s
  | .ipref f => Sys2Proof.Machine.execIpref f s
  | .ipin f => Sys2Proof.Machine.execIpin f s
  | .iunpin f => Sys2Proof.Machine.execIunpin f s
  | .atom f => Sys2Proof.Machine.execAtom f s
  | .cas f => Sys2Proof.Machine.execCas f s
  | .cas128 f => Sys2Proof.Machine.execCas128 f s
  | .acq f => Sys2Proof.Machine.execAcq f s
  | .rel f => Sys2Proof.Machine.execRel f s
  | .bind f => Sys2Proof.Machine.execBind f s
  | .unbind f => Sys2Proof.Machine.execUnbind f s
  | .fence f => Sys2Proof.Machine.execFence f s
  | .fencePt f => Sys2Proof.Machine.execFencePt f s
  | .shoot f => Sys2Proof.Machine.execShoot f s
  | .bar f => Sys2Proof.Machine.execBar f s
  | .bara f => Sys2Proof.Machine.execBara f s
  | .barw f => Sys2Proof.Machine.execBarw f s
  | .gbar f => Sys2Proof.Machine.execGbar f s
  | .qcfg f => Sys2Proof.Machine.execQcfg f s
  | .qstat f => Sys2Proof.Machine.execQstat f s
  | .xcopy f => Sys2Proof.Machine.execXcopy f s
  | .xred f => Sys2Proof.Machine.execXred f s
  | .wbload f => Sys2Proof.Machine.execWbload f s
  | .mloop f => Sys2Proof.Machine.execMloop f s
  | .ctopk f => Sys2Proof.Machine.execCtopk f s
  | .cbin f => Sys2Proof.Machine.execCbin f s
  | .cepi f => Sys2Proof.Machine.execCepi f s
  | .cstat f => Sys2Proof.Machine.execCstat f s
  | .spawn f => Sys2Proof.Machine.execSpawn f s
  | .nodefl f => Sys2Proof.Machine.execNodefl f s
  | .repack f => Sys2Proof.Machine.execRepack f s
  | .chgo f => Sys2Proof.Machine.execChgo f s
  | .chstop f => Sys2Proof.Machine.execChstop f s
  | .phase f => Sys2Proof.Machine.execPhase f s
  | .trap f => Sys2Proof.Machine.execTrap f s
  | .tret f => Sys2Proof.Machine.execTret f s
  | .trld f => Sys2Proof.Machine.execTrld f s
  | .trst f => Sys2Proof.Machine.execTrst f s
  | .bpset f => Sys2Proof.Machine.execBpset f s
  | .wpset f => Sys2Proof.Machine.execWpset f s
  | .step f => Sys2Proof.Machine.execStep f s
  | .snap f => Sys2Proof.Machine.execSnap f s
  | .finj f => Sys2Proof.Machine.execFinj f s
  | .tsbegin f => Sys2Proof.Machine.execTsbegin f s
  | .tsend f => Sys2Proof.Machine.execTsend f s
  | .tbrd f => Sys2Proof.Machine.execTbrd f s
  | .halt f => Sys2Proof.Machine.execHalt f s
  | .migratingLeafCleared w => Sys2Proof.Machine.execMigratingLeafCleared w s
  | .uncorrectableError t => Sys2Proof.Machine.execUncorrectableError t s
  | .trailingCopyPlace p core => Sys2Proof.Machine.execTrailingCopyPlace p core s

end Sys2Proof.Machine
end

