-- ==== Sys2Proof/Machine/Turn.lean ====
section
/-! DEFINITION. What one step does (log 4): an act of the agenda, or the next instruction of a clause in progress; and
the state in which a placed instruction runs (log 11). -/

namespace Sys2Proof.Machine

open Sys2Proof

/-- A word that decodes to no instruction traps with OPCODE (R230, order 1). -/
def opcodeTrap (p : Party) (t : Team) (c : Clause) (s : State) : State :=
  takeTrap p c.path
    { cause := .opcode, mask := if p.kind == .chaser then 1 else (t.path? c.path).elim 0 (·.mask),
      pos := c.pos, tpc := c.hdr } s

/-- Continue the clause in progress of a party: the instruction at its position executes; an access that has waited longer
than it may takes the trap of its wait (R108, R109). -/
def stepParty (p : Party) (s : State) : Host.Outcome State Fault Refusal :=
  match s.team? p with
  | none => .next { s with turn := none }
  | some t => match (t.thread p.kind).issue with
    | none => .next { s with turn := none }
    | some c => match c.instr with
      | .ok i => match (s.waitingAccess p).filter fun w => overdue (some w.since) w.remote s.now with
        | some w => .next w.late
        | none => match s.trailHeld p i with
          | some u => .next u
          | none => exec i { s with turn := some p }
      | .error _ => .next (opcodeTrap p t c s)

/-- One act of the agenda. -/
def act (a : Agenda) (s : State) : Host.Outcome State Fault Refusal :=
  match a with
  | .row i => exec i s
  | .elapse n => .next (s.answer.elapse n)
  | .evictLine cl line => .next (s.evictLine cl line)
  | .evictTlb core i => .next (s.updCore core fun k => { k with tlb := k.tlb.eraseIdx i })
  | .evictCode true cl line => .next (s.updCluster cl fun k => { k with icache := k.icache.del line })
  | .evictCode false core line =>
    if ((s.core core).pins.get? line).isSome then .next s
    else .next (s.updCore core fun k => { k with icache := k.icache.del line })
  | .turn p => .next { s with turn := p }
  | .focus k => .next { s with focus := k }
  | .sensor core temp => .next (s.updCore core fun k => { k with hot := if 100 < temp then k.hot.or (some s.now) else none })
  | .lag die a n => .next (s.lag die a n)
  | .catchUp die => .next (s.unview die fun _ => true)
  | .spread serial die => .next (s.spread fun r => r.serial == serial && r.die == die)
  | .flush scope => .next { s with ingots := s.ingots.map fun (i : Ingot) =>
      if i.ctx = scope && !i.sealed then { i with flushed := true } else i }
  | .transact port vc payload => .next (s.transact port vc payload)
  | .peers reachable opened => .next ({ s with reachable := reachable, opened := opened } : State).answer

/-- With no clause in progress, the focus cluster's holder goes on, or the cluster chooses. -/
def stepFocus (s : State) : Host.Outcome State Fault Refusal :=
  match (s.cluster s.focus).holder with
  | some p => stepParty p s
  | none => execClauseIssue s.focus none s

/-! ### Placing an instruction where the next step reads it (log 11) -/

/-- The crew that holds the placed instruction: one team of one strand, with the largest allotments. -/
def placedCrew (words : List Word) : Crew :=
  let cl : Clause := { hdr := 0x10000, path := 0, words := words, pos := 1 }
  { ctx := 1, launch := 1, lin := 0, core := 0, state := .resident, granules := [0],
    teams := [(0, { th := { issue := some cl }, launched := Mask.upTo 32,
                    paths := [{ pc := 0x10000, mask := Mask.upTo 32 }] })] }

/-- The launch of the placed crew. -/
def placedLaunch : Launch :=
  { source := .node 0, ctx := 1, prio := 0, te := false, co := false, af := false, entry := 0x10000, args := 0,
    chaser := 0, gx := 1, gy := 1, gz := 1, stage := 0, teams := 1, strands := 1, vregs := 64, sregs := 64,
    scratch := 64, wlists := 8, total := 1, next := 1, cores := [0] }

/-- The party of the placed team. -/
def placedParty : Party := { crew := 1, team := 0, kind := .team }

/-- The state with a crew that runs one instruction, when no clause is in progress. -/
def State.place (s : State) (words : List Word) : State :=
  let s1 := { s with
    contexts := s.contexts.put 1 {}, launches := s.launches.put 1 placedLaunch,
    crews := s.crews.put 1 (placedCrew words), agenda := [], turn := some placedParty }
  (s1.updCore 0 fun k => { k with track := k.track.put 1 {} }).updCluster 0 fun k =>
    { k with slots := k.slots.put 0 placedParty, holder := some placedParty }

/-- The words of a clause with those of one instruction at its position. -/
def Clause.withWords (c : Clause) (ws : List Word) : Clause :=
  { c with words := c.words.take (c.pos - 1) ++ ws ++ c.words.drop (c.pos - 1 + ws.length) }

/-- The party whose clause the next step continues, when there is one. -/
def State.current (s : State) : Option Party :=
  let p := match s.turn with
    | some p => some p
    | none => (s.cluster s.focus).holder
  p.bind fun p => (s.team? p).bind fun t => (t.thread p.kind).issue.map fun _ => p

/-- The words of the table's instruction, as many as it takes. -/
def placedWords (nbits w : Nat) : List Word :=
  let ws := tableWords nbits w
  ws.take (wordCount (ws.getD 0 0))

end Sys2Proof.Machine
end

