-- ==== Sys2Proof/Machine/Step.lean ====
section
/-! DEFINITION. One step of the F7 (log 4): the next act of the agenda; else the next instruction of the clause in
progress; else the focus cluster goes on. And where the step finds a placed instruction (log 11). -/

namespace Sys2Proof.Machine

open Sys2Proof

/-- One step. -/
def step (s : State) : Host.Outcome State Fault Refusal :=
  match s.agenda with
  | a :: rest => act a { s with agenda := rest }
  | [] => match s.turn with
    | some p => stepParty p s
    | none => stepFocus s

/-- `s` with the instruction whose bits are `w` where `step` reads its next instruction. -/
def State.withFetchWord (s : State) (nbits w : Nat) : State :=
  match s.current with
  | some p => { s.updClause p (fun c => c.withWords (placedWords nbits w)) with agenda := [], turn := some p }
  | none => s.place (placedWords nbits w)

end Sys2Proof.Machine
end

