-- ==== Sys2Proof/Safety.lean ====
section
/-! DEFINITION. What claims call a safe run: the machine never stops with a fault, and memory keeps its canonical
form. -/

namespace Sys2Proof

open Machine

/-- A step that does not end the run. -/
def Runs (s : State) : Prop := ∃ s', step s = .next s'

/-- The invariant of a run: memory lists its bytes in canonical form, and no team issues without its clause. -/
structure Safe (s : State) : Prop where
  mem : s.memWf = true
  runs : ∀ f, step s ≠ .fault f

end Sys2Proof
end

