-- ==== Sys2Proof/WellFormed.lean ====
section
/-! DEFINITION. Well-formed instructions: those whose words pass the decode checks of R230 that the words decide
alone (SUBOP, TYPE, RSV_BITS and the assigned special-register numbers). An event of the part is well formed. -/

namespace Sys2Proof

/-- Whether an instruction of a team passes the checks of R230. -/
def WellFormed (i : Instr) : Bool := (Machine.checkInstr false i).isNone

end Sys2Proof
end

