-- ==== Sys2Proof/Certificates/Slice0/Obligations.lean ====
section
/-! DEFINITION. The statements for the provers. The first section holds what the statements share: when an instruction
goes on to its effect, the results of the integer instructions written from the rules, and what a frame keeps. -/

namespace Sys2Proof.Claims

open Sys2Proof Machine

/-! ### When an instruction goes -/

/-- The instruction in progress of the party whose turn it is passes the checks of R157 and R230: `x` is what it sees,
and `u` the state in which the loads it waits for are complete (R223) and its latch holds no value yet (R225). -/
def Goes (i : Instr) (oc : Exe → State → Option Cause) (s : State) (x : Exe) (u : State) : Prop :=
  ∃ x0 s1, s.issuer? i = some x0 ∧ prepare i oc x0 s = .go x s1 ∧ u = setResult x .none s1

/-- The leading copy of a pair, once both copies have reached the meeting point at which it holds (R176). -/
def released (x : Exe) : Prop := x.p.kind = .team ∧ (x.cl.meet.any fun m => m.1 == 1) = true

/-- The same of a meeting point (R176): executed outside a pair, where it completes by `fin` or traps by `stop` as any other
instruction, or executed in a pair by the leading copy for both, where both copies complete it, or take its trap. -/
def GoesMeet (i : Instr) (oc : Exe → State → Option Cause) (s : State) (x : Exe) (u : State) (fin : State → State)
    (stop : Trap → State → State) : Prop :=
  ∃ x0 s1, s.issuer? i = some x0 ∧ prepare i oc x0 s = .go x s1 ∧ u = setResult x .none s1 ∧
    ((x0.paired s = false ∧ fin = advance x ∧ stop = takeTrap x.p x.cl.path) ∨
     (x0.paired s = true ∧ released x0 ∧ fin = advanceBoth x (ruleOf false i x.parts).ops s1 ∧ stop = trapBoth x))

/-- The same for a push or pop, whose latch keeps its value until it is complete. -/
def GoesFrom (i : Instr) (oc : Exe → State → Option Cause) (s : State) (x : Exe) (u : State) : Prop :=
  ∃ x0, s.issuer? i = some x0 ∧ prepare i oc x0 s = .go x u

/-- `i` completes with the effect `e` whenever it goes. -/
def Does (i : Instr) (oc : Exe → State → Option Cause) (e : Exe → State → State) : Prop :=
  ∀ s x u, Goes i oc s x u → exec i s = .next (advance x (e x u))

/-- A meeting point completes with the effect `e` whenever it goes, in a pair for both copies. -/
def DoesMeet (i : Instr) (oc : Exe → State → Option Cause) (e : Exe → State → State) : Prop :=
  ∀ s x u fin stop, GoesMeet i oc s x u fin stop → exec i s = .next (fin (e x u))

/-- The instruction is not the last of its clause, so that its completion moves to the next position alone. -/
def NotLast (x : Exe) : Prop := x.cl.pos + x.parts.words ≤ x.cl.words.length

/-- A register read by a party of `s`: 0 for a party that is not there. -/
def State.sreg (s : State) (p : Party) (r : Nat) : Word :=
  match s.team? p with | none => 0 | some t => (t.thread p.kind).readS r
def State.vreg (s : State) (p : Party) (r l : Nat) : Word :=
  match s.team? p with | none => 0 | some t => t.readV r l

/-! ### Integer results (R257 to R259, R265) -/

/-- A word as an integer: unsigned under .U32, else signed (R256). -/
def intOf (p : Parts) (v : Word) : Int := if p.td = 6 then (v.toNat : Int) else v.toInt

/-- An exact integer modulo 2^32, or clamped under .SAT to the range that TD names (R256, R257). -/
def wrapOrClamp (p : Parts) (v : Int) : Word :=
  if p.sat then
    (if p.td = 6 then BitVec.ofInt 32 (max 0 (min 4294967295 v))
     else BitVec.ofInt 32 (max (-2147483648) (min 2147483647 v)))
  else BitVec.ofInt 32 v

/-- The conditions of R228 on integers. -/
def holds (fx : Nat) (a b : Int) : Bool :=
  match fx with
  | 0 => decide (a = b)
  | 1 => decide (a ≠ b)
  | 2 => decide (a < b)
  | 3 => decide (a ≤ b)
  | 4 => decide (b < a)
  | _ => decide (b ≤ a)

/-- The quotient and remainder of R258. -/
def quotient (p : Parts) (a b : Word) : Word :=
  if b = 0 then 0xFFFFFFFF else BitVec.ofInt 32 ((intOf p a).tdiv (intOf p b))
def remainder (p : Parts) (a b : Word) : Word :=
  if b = 0 then a else BitVec.ofInt 32 ((intOf p a).tmod (intOf p b))

/-- The field that a control names: lo and w, w cut to 32 - lo (R259). -/
def controlLo (b : Word) : Nat := b.toNat % 32
def controlWidth (b : Word) : Nat := min (b.toNat / 256 % 64) (32 - controlLo b)

/-- The word whose bit i is `f i`. -/
def ofBits (f : Nat → Bool) : Word := BitVec.ofNat 32 (((List.range 32).map fun i => if f i then 2 ^ i else 0).sum)

/-- SBFE's result (R259). -/
def fieldOut (p : Parts) (a b : Word) : Word :=
  let w := controlWidth b
  ofBits fun i => if i < w then a.getLsbD (controlLo b + i)
    else p.td == 5 && w != 0 && a.getLsbD (controlLo b + w - 1)

/-- SBFI's result (R259). -/
def fieldIn (a b c : Word) : Word :=
  ofBits fun i => if controlLo b ≤ i ∧ i < controlLo b + controlWidth b then a.getLsbD (i - controlLo b)
    else c.getLsbD i

/-- The result of an integer instruction on its operands A, B and C: SMOV to SBFI, and the vector instructions that
act as they do in each lane (R257, R258, R259, R265). -/
def integerResult (p : Parts) (a b c : Word) : Instr → Option Word
  | .smov _ => some a
  | .sadd _ | .vadd _ => some (wrapOrClamp p (intOf p a + intOf p b))
  | .ssub _ | .vsub _ => some (wrapOrClamp p (intOf p a - intOf p b))
  | .smul _ | .vmul _ => some (wrapOrClamp p (intOf p a * intOf p b))
  | .smulh _ | .vmulh _ => some (BitVec.ofInt 32 (intOf p a * intOf p b / 4294967296))
  | .smad _ | .vmad _ => some (wrapOrClamp p (intOf p a * intOf p b + intOf p c))
  | .sdiv _ => some (quotient p a b)
  | .srem _ => some (remainder p a b)
  | .sand _ | .vand _ => some (a &&& b)
  | .sor _ | .vor _ => some (a ||| b)
  | .sxor _ | .vxor _ => some (a ^^^ b)
  | .vnot _ => some (a ^^^ 0xFFFFFFFF)
  | .sshl _ | .vshl _ => some (if 32 ≤ b.toNat then 0 else BitVec.ofNat 32 (a.toNat * 2 ^ b.toNat))
  | .sshr _ | .vshr _ => some (if 32 ≤ b.toNat then 0 else BitVec.ofNat 32 (a.toNat / 2 ^ b.toNat))
  | .ssar _ | .vsar _ =>
    some (if 32 ≤ b.toNat then (if a.getLsbD 31 then 0xFFFFFFFF else 0) else BitVec.ofInt 32 (a.toInt / 2 ^ b.toNat))
  | .smin _ | .vmin _ => some (if intOf p a ≤ intOf p b then a else b)
  | .smax _ | .vmax _ => some (if intOf p a ≤ intOf p b then b else a)
  | .scmp _ => some (if holds p.fx (intOf p a) (intOf p b) then 1 else 0)
  | .ssel _ | .vsel _ => some (if c ≠ 0 then a else b)
  | .sclz _ | .vclz _ =>
    some (BitVec.ofNat 32 (((List.range 32).find? fun i => a.getLsbD (31 - i)).getD 32))
  | .spopc _ | .vpopc _ => some (BitVec.ofNat 32 ((List.range 32).filter fun i => a.getLsbD i).length)
  | .sbfe _ | .vbfe _ => some (fieldOut p a b)
  | .sbfi _ | .vbfi _ => some (fieldIn a b c)
  | .vabs _ => some (wrapOrClamp p (intOf p a).natAbs)
  | _ => none

/-- The scalar instructions of R257 that write one word. -/
def isScalarInteger : Instr → Bool
  | .smov _ | .sadd _ | .ssub _ | .smul _ | .smulh _ | .smad _ | .sdiv _ | .srem _ | .sand _ | .sor _ | .sxor _
  | .sshl _ | .sshr _ | .ssar _ | .smin _ | .smax _ | .scmp _ | .ssel _ | .sclz _ | .spopc _ | .sbfe _ | .sbfi _ => true
  | _ => false

/-- The vector instructions of R265 that write one word in each lane. -/
def isVectorInteger : Instr → Bool
  | .vadd _ | .vsub _ | .vmul _ | .vmulh _ | .vmad _ | .vand _ | .vor _ | .vxor _ | .vnot _ | .vshl _ | .vshr _
  | .vsar _ | .vmin _ | .vmax _ | .vabs _ | .vsel _ | .vclz _ | .vpopc _ | .vbfe _ | .vbfi _ => true
  | _ => false


end Sys2Proof.Claims

section

open Sys2Proof Sys2Proof.Machine Sys2Proof.Claims

/-- R265: the vector instructions act in each active lane as the scalar ones of the same name; VABS. -/
def Obligations.VectorIntegerResults : Prop :=
  ∀ i s x u (r : Nat → Word), isVectorInteger i = true → Goes i noCheck s x u →
    (∀ l, integerResult x.parts (x.vA l) (x.vB l) (x.vC l) i = some (r l)) →
    exec i s = .next (advance x (writeEach x x.parts.d r u))
end

/-! ### Scalar instructions beyond one word -/

namespace Sys2Proof.Claims

open Machine

/-- A 64-bit scalar result: the even register takes the low word (R264). -/
def storePair (x : Exe) (v : DWord) (u : State) : State := writeScalars x x.parts.d [v.lo, v.hi] u

/-- IMM14 sign-extended, or the literal, as SMOVI's integer (R260). -/
def moviInt (x : Exe) : Int :=
  match x.parts.lit with
  | none => (x.parts.imm.setWidth 14).toInt
  | some w => if x.parts.td = 8 then (w.toNat : Int) else w.toInt

/-- SADD64's second addend (R261, R226). -/
def addend (x : Exe) : Int :=
  match x.parts.fx, x.parts.lit with
  | 0, none => ((x.pair x.parts.b).toNat : Int)
  | 0, some w => if x.parts.td = 7 then w.toInt else (w.toNat : Int)
  | 1, none => (x.s x.parts.b).toInt
  | 1, some w => w.toInt
  | _, none => ((x.s x.parts.b).toNat : Int)
  | _, some w => (w.toNat : Int)

/-! ### Where control goes (R238) -/

/-- T: the branch word's address plus 4 × offset modulo 2^48, in the region of the program counter. -/
def relative (x : Exe) (off : Int) : DWord :=
  BitVec.ofNat 64 (x.cl.hdr.toNat / 2 ^ 56 * 2 ^ 56 +
    ((((x.cl.hdr.toNat % 2 ^ 48 : Nat) : Int) + 4 * x.cl.pos + 4 * off) % 2 ^ 48).toNat)

/-- N: the header after the clause. -/
def following (x : Exe) : DWord :=
  BitVec.ofNat 64 (x.cl.hdr.toNat / 2 ^ 48 * 2 ^ 48 + (x.cl.hdr.toNat + 4 * (x.cl.words.length + 1)) % 2 ^ 48)

/-- The offset field, or the literal, of BO and of BC. -/
def offsetBO (x : Exe) : Int := match x.parts.lit with | some w => w.toInt | none => x.parts.imm.toInt
def offsetBC (x : Exe) : Int := match x.parts.lit with | some w => w.toInt | none => (x.parts.imm.setWidth 11).toInt

/-- When the clause ends the path, or chaser, continues at `t`. -/
def continueAt (x : Exe) (t : DWord) (u : State) : State := u.updClause x.p fun c => { c with target := some t }

/-- The conditions of BRC on a signed value (R239). -/
def againstZero (c3 : Nat) (v : Int) : Bool :=
  match c3 with
  | 0 => decide (v = 0)
  | 1 => decide (v ≠ 0)
  | 2 => decide (v < 0)
  | 3 => decide (v ≤ 0)
  | 4 => decide (0 < v)
  | _ => decide (0 ≤ v)

/-- JOFF and the J it names (R240). -/
def joinOffset (x : Exe) : Nat := x.parts.a.toNat * 8 + x.parts.c3.toNat

/-- The lanes that BRM takes (R240). -/
def branchLanes (x : Exe) : Mask :=
  if x.parts.md.pe = false then x.exec
  else if x.parts.md.pn then x.exec &&& ~~~(x.m (x.parts.md.pmk.setWidth 7))
  else x.exec &&& x.m (x.parts.md.pmk.setWidth 7)

/-- The first register of the link pair: the largest even number L with L + 1 below the allotment (R243). -/
def linkBase (x : Exe) : Nat :=
  let n := if x.ch then 32 else x.launch.sregs
  if n % 2 = 0 then n - 2 else n - 3

/-- Write the link pair. -/
def linkTo (x : Exe) (v : DWord) (u : State) : State :=
  u.updThread x.p fun th => (th.writeS (linkBase x) v.lo).writeS (linkBase x + 1) v.hi

/-- The EXIT by which the team retires: it leaves no lane (R82). In a pair it is a meeting point. -/
def retires (x : Exe) : Prop :=
  x.launch.strands ≠ 0 ∧ x.team.launched &&& ~~~(x.team.exited ||| x.eff) = 0 ∧ x.team.handler = false

/-- What EXIT does (R87, R242, R245). -/
def exitEffect (x : Exe) (u : State) : State :=
  if x.ch then u.updClause x.p (fun c => { c with stops := true })
  else if x.team.handler then u.haltFor .doubleTrap x.p
  else u.updTeam x.p fun t => t.exitLanes (u.afterJoin x.agent t.cluster) x.cl.path x.eff

/-- A wait that begins when the clause ends (R247). -/
def waitFrom (x : Exe) (w : Wait) (u : State) : State := u.updClause x.p fun c => { c with waits := c.waits ++ [w] }

/-! ### Masks and special registers -/

/-- The lanes of the team that satisfy a test. -/
def lanesThat (x : Exe) (f : Nat → Bool) : Mask := Mask.ofList ((List.range (32 * x.launch.strands)).filter f)

/-- MSET's mask (R252). -/
def setForm (x : Exe) : Mask :=
  match x.parts.s with
  | 0 => 0
  | 1 => x.team.launched
  | 2 => x.exec
  | 3 => lanesThat x fun l => (x.s x.parts.a).getLsbD (l % 32)
  | 4 => lanesThat x fun l => decide (l % x.team.part = 0)
  | _ => lanesThat x fun l => decide (l % x.team.part = x.team.part - 1)

/-- The uniform special registers of R73 and their values. -/
def uniformRegs (x : Exe) : List (Nat × Word) :=
  let k (n : Nat) : Word := BitVec.ofNat 32 n
  [(0x03, k x.p.team), (0x04, k x.crew.x), (0x05, k x.crew.y), (0x06, k x.crew.z), (0x07, k x.crew.lin),
   (0x08, k x.launch.stage), (0x09, k x.launch.gx), (0x0A, k x.launch.gy), (0x0B, k x.launch.gz),
   (0x0C, k x.launch.teams), (0x0D, k x.launch.strands), (0x0E, k x.launch.vregs), (0x0F, k x.launch.sregs),
   (0x10, k x.team.part), (0x11, k x.team.span), (0x12, x.team.xv.setWidth 32), (0x13, x.team.xs.setWidth 32),
   (0x15, x.team.timehi), (0x16, x.launch.tileBase.lo), (0x17, x.launch.tileBase.hi),
   (0x18, k x.launch.tileCount), (0x19, x.cl.path)]

/-- The uniform registers of the trap frame, the debug registers and step control (R160). -/
def supervisorRegs (x : Exe) : List (Nat × Word) :=
  [(0x20, x.team.frame.tstat), (0x21, x.team.frame.tpc.lo), (0x22, x.team.frame.tpc.hi),
   (0x26, x.team.frame.tinfo), (0x27, x.team.frame.tpath), (0x38, x.team.stepctl)] ++
  (List.range 4).flatMap fun k =>
    [(0x28 + 2 * k, (x.team.bpReg k).val.lo), (0x29 + 2 * k, (x.team.bpReg k).val.hi),
     (0x30 + 2 * k, (x.team.wpReg k).val.lo), (0x31 + 2 * k, (x.team.wpReg k).val.hi)]

/-- The per-lane registers (R73, R160). -/
def laneRegs (x : Exe) (l : Nat) : List (Nat × Word) :=
  [(0x00, BitVec.ofNat 32 l), (0x01, BitVec.ofNat 32 (l % x.team.part)), (0x02, BitVec.ofNat 32 (l / 32)),
   (0x23, (x.team.frame.addr.read 0 l).lo), (0x24, (x.team.frame.addr.read 0 l).hi),
   (0x25, (x.team.frame.cause.read 0 l).setWidth 32), (0x3A, (x.team.frame.gen.read 0 l).setWidth 32)]

/-- SWR's further checks (R73, R86, R250): a number that is RO, and a tile width. -/
def swrCheck (x : Exe) (_ : State) : Option Cause :=
  if x.parts.s ∉ [0x10, 0x12, 0x13, 0x20, 0x21, 0x22] ∧ ¬(0x28 ≤ x.parts.s ∧ x.parts.s ≤ 0x38) then some .roSpecial
  else if x.parts.s = 0x10 ∧ x.known x.parts.a ∧ (x.s x.parts.a).toNat ∉ [2, 4, 8, 16, 32] then some .partValue
  else none

/-- The mask that MEXEC leaves to the path, of the lanes it may set (R77, R255). -/
def nextExec (x : Exe) : Mask :=
  let m := match x.parts.fx with
    | 0 => x.m x.parts.a
    | 1 => x.exec &&& x.m x.parts.a
    | _ => x.exec &&& ~~~(x.m x.parts.a)
  (x.team.path? x.cl.path).elim 0 fun q => m &&& x.team.settable q

/-- MEXEC may not empty a path that has no join record (R255). -/
def mexecCheck (x : Exe) (_ : State) : Option Cause :=
  if nextExec x = 0 ∧ ((x.team.path? x.cl.path).bind (·.join)) = none then some .general else none

end Sys2Proof.Claims

section

open Sys2Proof Sys2Proof.Machine Sys2Proof.Claims

/-- R258 whole: SDIV and SREM, with A = B × SDIV + SREM and both edge cases; neither traps. -/
def Obligations.DivideAndRemainder : Prop :=
  (∀ f s x u, Goes (.sdiv f) noCheck s x u →
    exec (.sdiv f) s = .next (advance x (writeScalar x x.parts.d (quotient x.parts x.sA x.sB) u))) ∧
  (∀ f s x u, Goes (.srem f) noCheck s x u →
    exec (.srem f) s = .next (advance x (writeScalar x x.parts.d (remainder x.parts x.sA x.sB) u))) ∧
  (∀ (p : Parts) (a b : Word), b ≠ 0 → a = b * quotient p a b + remainder p a b) ∧
  (∀ (p : Parts) (a b : Word), b ≠ 0 → (intOf p (remainder p a b)).natAbs < (intOf p b).natAbs ∧
    (intOf p (remainder p a b) = 0 ∨ (intOf p (remainder p a b) < 0 ↔ intOf p a < 0))) ∧
  (∀ (p : Parts) (a : Word), quotient p a 0 = 0xFFFFFFFF ∧ remainder p a 0 = a) ∧
  (∀ p : Parts, p.td ≠ 6 → quotient p 0x80000000 0xFFFFFFFF = 0x80000000 ∧ remainder p 0x80000000 0xFFFFFFFF = 0)

/-- R257, R259 to R261, R264: the scalar instructions that write one word, SMOVI in its three widths, and SADD64 modulo
2^64. -/
def Obligations.ScalarResults : Prop :=
  (∀ i s x u r, isScalarInteger i = true → Goes i noCheck s x u →
    integerResult x.parts x.sA x.sB x.sC i = some r →
    exec i s = .next (advance x (writeScalar x x.parts.d r u))) ∧
  (∀ g f s x u,
    (Goes (.smovi g) noCheck s x u → exec (.smovi g) s = .next (advance x
      (if x.parts.td = 7 ∨ x.parts.td = 8 then storePair x (BitVec.ofInt 64 (moviInt x)) u
       else writeScalar x x.parts.d (BitVec.ofInt 32 (moviInt x)) u))) ∧
    (Goes (.sadd64 f) noCheck s x u → exec (.sadd64 f) s = .next (advance x
      (storePair x (BitVec.ofInt 64 (((x.pair x.parts.a).toNat : Int) + addend x)) u))))

/-- R239, R240, R243, R244: where BRA, BRC, BRM, CALL, RET, JMPI and LOOP send the path, and what they write. -/
def Obligations.ControlTransfers : Prop :=
  ∀ bo bc z r,
    Does (.bra bo) noCheck (fun x u => continueAt x (relative x (offsetBO x)) u) ∧
    Does (.brc bc) noCheck (fun x u =>
      if againstZero x.parts.c3.toNat (x.s x.parts.a).toInt then continueAt x (relative x (offsetBC x)) u else u) ∧
    Does (.brm bc) (fun x _ => if joinOffset x = 0 then some .general else none) (fun x u =>
      if branchLanes x = 0 then u
      else if x.exec &&& ~~~(branchLanes x) = 0 then continueAt x (relative x (offsetBC x)) u
      else u.updTeam x.p fun t =>
        t.split x.cl.path (relative x (joinOffset x)) (relative x (offsetBC x)) (branchLanes x)) ∧
    Does (.join z) noCheck (fun x u => u.updTeam x.p fun t => t.join x.cl.path x.cl.hdr) ∧
    Does (.call bo) noCheck (fun x u => continueAt x (relative x (offsetBO x)) (linkTo x (following x) u)) ∧
    Does (.ret z) noCheck (fun x u =>
      continueAt x (Word.pair (x.th.readS (linkBase x)) (x.th.readS (linkBase x + 1))) u) ∧
    Does (.jmpi r) noCheck (fun x u => continueAt x (x.pair x.parts.a)
      (if x.parts.fx = 1 then linkTo x (following x) u else u)) ∧
    Does (.loop bc) noCheck (fun x u =>
      let v := x.s x.parts.a - BitVec.ofNat 32 (x.parts.c3.toNat + 1)
      let u' := writeScalar x x.parts.a v u
      if 0 < v.toInt then continueAt x (relative x (offsetBC x)) u' else u')

/-- R81, R241: a split with room for its path and its record, and what a JOIN does at its record. -/
def Obligations.SplitAndJoin : Prop :=
  (∀ (t : Team) (p : Path) (j target : DWord) (taken : Mask),
    t.path? p.creation = some p → t.tablePaths.length < 8 → (t.joins.filter fun r => !r.folded).length < 8 →
    t.joins.length < 2048 →
    ∃ id, (∀ r ∈ t.joins, r.id ≠ id) ∧
      (t.split p.creation j target taken).path? p.creation =
        some { p with mask := p.mask &&& ~~~taken, join := some id, age := 0 } ∧
      (t.split p.creation j target taken).paths.getLast? =
        some { pc := target, mask := taken, creation := t.nextCreation, join := some id, handler := p.handler } ∧
      (t.split p.creation j target taken).joins =
        t.joins ++ [{ id := id, j := j, pending := 2, mask := p.mask, outer := p.join }] ∧
      (t.split p.creation j target taken).nextCreation = t.nextCreation + 1 ∧
      (∀ q ∈ t.paths, q.creation ≠ p.creation → q ∈ (t.split p.creation j target taken).paths)) ∧
  (∀ (t : Team) (p : Path) (a : DWord), t.path? p.creation = some p → p.join = none → t.join p.creation a = t) ∧
  (∀ (t : Team) (p : Path) (r : JoinRec) (a : DWord), t.path? p.creation = some p → p.join = some r.id →
    (t.joins.find? fun k => k.id == r.id) = some r → r.folded = false →
    (r.j ≠ a → t.join p.creation a = t) ∧
    (r.j = a → 1 < r.pending → (t.join p.creation a).path? p.creation = none ∧
      ((t.join p.creation a).joins.find? fun k => k.id == r.id) = some { r with pending := r.pending - 1 }) ∧
    (r.j = a → r.pending ≤ 1 → (t.join p.creation a).path? p.creation =
        some { p with mask := r.mask &&& ~~~t.exited, join := r.outer, age := 0 } ∧
      ((t.join p.creation a).joins.find? fun k => k.id == r.id) = none))

/-- R245, R246, R247, R350: what EXIT, YIELD, NOP, SLEEP and HALT do at their clause's end, in a touchstone pair too.
That the EXIT by which a copy retires is a meeting point of its pair is the model's choice (log 14). -/
def Obligations.ClauseEndEffects : Prop :=
  ∀ z ri,
    (∀ s x0 x s1, s.issuer? (.exit z) = some x0 → prepare (.exit z) noCheck x0 s = .go x s1 →
      (x0.paired s = false ∨ ¬retires x0 →
        exec (.exit z) s = .next (advance x (exitEffect x (setResult x .none s1)))) ∧
      (x0.paired s = true → retires x0 → released x0 → exec (.exit z) s =
        .next (advanceBoth x (ruleOf false (.exit z) x.parts).ops s1 (exitEffect x (setResult x .none s1))))) ∧
    Does (.yield z) noCheck (fun x u => u.updClause x.p fun c => { c with yields := true }) ∧
    Does (.nop z) noCheck (fun _ u => u) ∧
    Does (.halt z) noCheck (fun x u => u.updClause x.p fun c => { c with halts := true }) ∧
    Does (.sleep ri) noCheck (fun x u =>
      if x.parts.fx = 1 then
        (if x.now.toNat < (x.pair x.parts.d).toNat then waitFrom x (.sleep (x.pair x.parts.d)) u else u)
      else
        let n : Int := match x.parts.lit with | some w => (w.toNat : Int) | none => (x.parts.imm.setWidth 14).toInt
        if 0 < n then waitFrom x (.sleep (BitVec.ofInt 64 ((x.now.toNat : Int) + n))) u else u)

/-- R73, R160, R249 to R255: PART, SETIX, SRD, SWR and the mask instructions, on masks whose bits at and above the team's
lanes stay 0 (R251).
What becomes of a path that MEXEC empties, and of the rest of its clause, is the model's choice (log 15). -/
def Obligations.MaskAndSpecialRegisters : Prop :=
  (∀ ri rs,
    Does (.part ri) (fun x _ => if x.immInt ∈ [2, 4, 8, 16, 32] then none else some .partValue)
      (fun x u => u.updTeam x.p fun t => { t with part := x.immInt.toNat }) ∧
    Does (.setix ri) (fun x _ => if x.parts.d = 0 ∨ x.parts.d = 1 then none else some .general) (fun x u =>
      u.updTeam x.p fun t =>
        if x.parts.d = 0 then { t with xv := BitVec.ofInt 8 ((if x.parts.fx = 1 then (t.xv.toNat : Int) else 0) + x.immInt) }
        else { t with xs := BitVec.ofInt 6 ((if x.parts.fx = 1 then (t.xs.toNat : Int) else 0) + x.immInt) }) ∧
    (∀ s x u, Goes (.srd rs) noCheck s x u →
      (∀ v, (x.parts.s, v) ∈ uniformRegs x ++ supervisorRegs x →
        exec (.srd rs) s = .next (advance x (writeScalar x x.parts.d v u))) ∧
      (x.parts.s = 0x14 → exec (.srd rs) s = .next (advance x (writeScalar x x.parts.d x.now.lo
        (u.updTeam x.p fun t => { t with timehi := x.now.hi })))) ∧
      (x.parts.s = 0x39 → exec (.srd rs) s = .next (advance x (writeScalar x x.parts.d (x.tsstate u) u))) ∧
      (∀ v : Nat → Word, (∀ l, (x.parts.s, v l) ∈ laneRegs x l) →
        exec (.srd rs) s = .next (advance x (writeEach x x.parts.d v u)))) ∧
    (∀ s x u, Goes (.swr rs) swrCheck s x u →
      exec (.swr rs) s = .next (advance x (u.updTeam x.p fun t => t.writeSpecial x.parts.s (x.s x.parts.a))))) ∧
  (∀ rs f,
    Does (.mset rs) noCheck (fun x u => writeMask x x.parts.d (setForm x) u) ∧
    Does (.mand f) noCheck (fun x u => writeMask x x.parts.d (x.m x.parts.a &&& x.m x.parts.b) u) ∧
    Does (.mor f) noCheck (fun x u => writeMask x x.parts.d (x.m x.parts.a ||| x.m x.parts.b) u) ∧
    Does (.mxor f) noCheck (fun x u => writeMask x x.parts.d (x.m x.parts.a ^^^ x.m x.parts.b) u) ∧
    Does (.mnot f) noCheck (fun x u => writeMask x x.parts.d (x.team.launched &&& ~~~(x.m x.parts.a)) u) ∧
    Does (.mmov f) noCheck (fun x u => writeMask x x.parts.d (x.m x.parts.a) u) ∧
    Does (.mpop f) noCheck (fun x u =>
      let m := if x.parts.fx = 1 then x.m x.parts.a &&& x.exec else x.m x.parts.a
      writeScalar x x.parts.d (BitVec.ofNat 32 ((List.range (32 * x.launch.strands)).filter m.lane).length) u) ∧
    Does (.mfind f) noCheck (fun x u => writeScalar x x.parts.d
      (match (List.range (32 * x.launch.strands)).find? fun l => decide (x.sB.toNat ≤ l) && (x.m x.parts.a).lane l with
       | some l => BitVec.ofNat 32 l
       | none => 0xFFFFFFFF) u) ∧
    Does (.many f) noCheck (fun x u =>
      writeScalar x x.parts.d (if x.m x.parts.a &&& x.exec ≠ 0 then 1 else 0) u) ∧
    Does (.mall f) noCheck (fun x u =>
      writeScalar x x.parts.d (if x.m x.parts.a &&& x.exec = x.exec then 1 else 0) u) ∧
    Does (.mexec f) mexecCheck (fun x u =>
      if nextExec x ≠ 0 then u.updTeam x.p fun t => t.updPath x.cl.path fun q => { q with mask := nextExec x }
      else (u.updTeam x.p fun t => t.removePath (u.afterJoin x.agent t.cluster) x.cl.path).updClause x.p fun c =>
        { c with words := c.words.take (c.pos - 1 + x.parts.words) }) ∧
    (∀ (t : Team) (n k : Nat) (m : Mask) (l : Nat), ((t.writeM n k m).readM k).lane l = (m.lane l && decide (l < n))))

end

/-! ### Vector results -/

namespace Sys2Proof.Claims

open Machine

/-- The word whose byte k is `f k`. -/
def ofBytes (f : Nat → Nat) : Word := BitVec.ofNat 32 (f 0 % 256 + f 1 % 256 * 2 ^ 8 + f 2 % 256 * 2 ^ 16 + f 3 % 256 * 2 ^ 24)

/-- VPERM's result (R267). -/
def permuted (fx : Nat) (a b c : Word) : Word :=
  let t := a.toNat + b.toNat * 2 ^ 32
  ofBytes fun k =>
    let sel := c.toNat / 2 ^ (4 * k) % 16
    let nibble := t / 2 ^ (4 * sel) % 16
    match fx with
    | 0 =>
      let byte := t / 2 ^ (8 * (sel % 8)) % 256
      if sel < 8 then byte else if 128 ≤ byte then 255 else 0
    | 1 => if 8 ≤ nibble then nibble + 240 else nibble
    | _ => nibble

/-- VDOT4's result (R268): FX gives how the bytes of A and of B are read. -/
def dotted (p : Parts) (a b c : Word) : Word :=
  let byte (sg : Bool) (v : Word) (i : Nat) : Int :=
    let n := v.toNat / 2 ^ (8 * i) % 256
    if sg ∧ 128 ≤ n then (n : Int) - 256 else n
  let t (i : Nat) : Int := byte (p.fx == 0 || p.fx == 1) a i * byte (p.fx == 0 || p.fx == 2) b i
  let sum := c.toInt + t 0 + t 1 + t 2 + t 3
  if p.sat then BitVec.ofInt 32 (max (-2147483648) (min 2147483647 sum)) else BitVec.ofInt 32 sum

/-- The mask register that a compare leaves: `f l` in each active lane, the other bits kept (R266). -/
def markLanes (x : Exe) (f : Nat → Bool) (u : State) : State := writeMaskBits x x.parts.d f u

/-! ### Floating point (R269 to R271) -/

/-- The lesser, or greater, of two encodings (R199, R270): −0 lies below +0, and a NaN loses to a number. -/
def chosen (f : FFmt) (greater : Bool) (a b : Nat) : Nat :=
  let x := f.decode a
  let y := f.decode b
  if x = .nan ∧ y = .nan then f.nanBits
  else if x = .nan then b
  else if y = .nan then a
  else
    let lt (u v : FVal) : Bool := u.cmp v == some .lt || (u.cmp v == some .eq && u.isNeg && !v.isNeg)
    if greater then (if lt x y then b else a) else (if lt y x then b else a)

/-- The result of a floating instruction on elements of its format: exact, then rounded once (R196, R269). -/
def floatResult (p : Parts) (a b c : Nat) : Instr → Option Nat :=
  let f := p.ffmt
  let rnd (v : FVal) : Nat := f.encode p.round p.sat v
  fun
  | .fadd _ => some (rnd ((f.decode a).add p.round (f.decode b)))
  | .fsub _ => some (rnd ((f.decode a).add p.round (f.decode b).neg))
  | .fmul _ => some (rnd ((f.decode a).mul (f.decode b)))
  | .fma _ => some (rnd (((f.decode a).mul (f.decode b)).add p.round (f.decode c)))
  | .fnma _ => some (rnd (((f.decode a).mul (f.decode b)).add p.round (f.decode c).neg))
  | .fmin _ => some (chosen f false a b)
  | .fmax _ => some (chosen f true a b)
  | .fneg _ => some (a ^^^ 2 ^ (f.eb + f.fb))
  | .fabs _ => some (a % 2 ^ (f.eb + f.fb))
  | .frcp _ => some (rnd (SpecialFn.rcp.value (f.decode a)))
  | .frsq _ => some (rnd (SpecialFn.rsq.value (f.decode a)))
  | .fsqrt _ => some (rnd (SpecialFn.sqrt.value (f.decode a)))
  | .fexp2 _ => some (rnd (SpecialFn.exp2.value (f.decode a)))
  | .flog2 _ => some (rnd (SpecialFn.log2.value (f.decode a)))
  | .fsin _ => some (rnd (SpecialFn.sin.value (f.decode a)))
  | .fcos _ => some (rnd (SpecialFn.cos.value (f.decode a)))
  | .ftanh _ => some (rnd (SpecialFn.tanh.value (f.decode a)))
  | _ => none

/-- The floating instructions whose elements are all of one format. -/
def isFloat : Instr → Bool
  | .fadd _ | .fsub _ | .fmul _ | .fma _ | .fnma _ | .fmin _ | .fmax _ | .fneg _ | .fabs _ | .frcp _ | .frsq _
  | .fsqrt _ | .fexp2 _ | .flog2 _ | .fsin _ | .fcos _ | .ftanh _ => true
  | _ => false

/-- FCMP's condition (R270): with a NaN only NE and UNORD hold. -/
def floatHolds (f : FFmt) (fx : Nat) (a b : Nat) : Bool :=
  match (f.decode a).cmp (f.decode b) with
  | none => fx == 1 || fx == 7
  | some .lt => fx == 1 || fx == 2 || fx == 3 || fx == 6
  | some .eq => fx == 0 || fx == 3 || fx == 5 || fx == 6
  | some .gt => fx == 1 || fx == 4 || fx == 5 || fx == 6

/-- FCLASS's bit (R270). -/
def classOfValue (f : FFmt) (a : Nat) : Nat :=
  match f.decode a with
  | .nan => 2 ^ 8
  | .inf s => if s then 2 ^ 0 else 2 ^ 7
  | .fin s 0 _ => if s then 2 ^ 3 else 2 ^ 4
  | .fin s _ _ =>
    if a / 2 ^ f.fb % 2 ^ f.eb = 0 then (if s then 2 ^ 2 else 2 ^ 5) else (if s then 2 ^ 1 else 2 ^ 6)

/-! ### Cross-lane sources (R276 to R281) -/

/-- The first lane of the tile of a lane, and the active lanes of that tile. -/
def tileStart (x : Exe) (l : Nat) : Nat := l / x.team.part * x.team.part
def tileActive (x : Exe) (l : Nat) : List Nat :=
  x.lanes.filter fun k => decide (k / x.team.part = l / x.team.part)

/-- The lane that a shuffle reads, if there is one (R277). -/
def sourceLane (x : Exe) (l : Nat) : Instr → Option Nat
  | .shflu _ => if (x.vB l).toNat ≤ l % x.team.part then some (l - (x.vB l).toNat) else none
  | .shfld _ => if l % x.team.part + (x.vB l).toNat < x.team.part then some (l + (x.vB l).toNat) else none
  | .shflx _ => some (tileStart x l + ((l % x.team.part) ^^^ ((x.vB l).toNat % x.team.part)))
  | .shfl _ => some (tileStart x l + (x.vB l).toNat % x.team.part)
  | _ => none

/-- What a shuffle gives a lane (R277). -/
def fromLane (x : Exe) (i : Instr) (l : Nat) : Word :=
  match sourceLane x l i with
  | none => x.vA l
  | some k => if x.eff.lane k then x.vA k else x.vA l

/-- VOTE's answer for a lane (R278). -/
def votes (x : Exe) (l : Nat) : Bool :=
  let set (k : Nat) : Bool := (x.m x.parts.a).lane k
  match x.parts.s with
  | 0 => (tileActive x l).any set
  | 1 => (tileActive x l).all set
  | _ => (tileActive x l).all set || (tileActive x l).all fun k => !set k

/-- BALLOT's value for a lane (R278). -/
def balloted (x : Exe) (l : Nat) : Word :=
  let set := (tileActive x l).filter fun k => (x.m x.parts.a).lane k
  if x.parts.s = 1 then BitVec.ofNat 32 set.length
  else ofBits fun j => set.any fun k => decide (k % x.team.part = j)

/-- The counter check of R272, R274 and R282: C must not name the destination. -/
def counterApart (x : Exe) (_ : State) : Option Cause :=
  if x.regNum .v x.parts.c = x.regNum .v x.parts.d then some .general else none

/-- The random word of a lane (R194): the key pair, the lane's counter, and the names of the lane. -/
def laneDraw (x : Exe) (key : BitVec 7) (l : Nat) : Word :=
  philox (x.sAt key 0) (x.sAt key 1) (x.vReg x.parts.c l) (BitVec.ofNat 32 l) (BitVec.ofNat 32 x.crew.lin)
    (BitVec.ofNat 32 (x.p.team + 16 * x.launch.stage)) 0

/-- Every active lane's counter advances by one (R194). -/
def countUp (x : Exe) (u : State) : State := writeExtra x x.parts.c (x.lanes.map fun l => (l, x.vReg x.parts.c l + 1)) u

/-- The element that CVT writes (R195, R272), its random word given under .SR. -/
def converted (x : Exe) (l : Nat) : Nat :=
  let p := x.parts
  let a := if p.ts = 7 ∨ p.ts = 8 ∨ p.ts = 9 then (x.vPair p.a l).toNat else (x.vA l).toNat
  extendResult p.td (convert p.ts p.td (if p.md.rmode = 4 then .sr (laneDraw x p.b l) else p.round) p.sat a)

end Sys2Proof.Claims

section

open Sys2Proof Sys2Proof.Machine Sys2Proof.Claims

/-- R269, R270, R271: the floating instructions, element by element, each rounded once. -/
def Obligations.FloatResults : Prop :=
  ∀ i s x u, isFloat i = true → Goes i noCheck s x u →
    exec i s = .next (advance x (writeFloat x
      (fun l => x.parts.elementwise (fun a b c => (floatResult x.parts a b c i).getD 0) (x.fA l) (x.fB l) (x.fC l)) u))

/-- R266 to R270: VCMP, VPERM, VDOT4, FCMP, FCLASS and FSCALE. -/
def Obligations.ComparesAndTests : Prop :=
  (∀ f,
    Does (.vcmp f) noCheck (fun x u =>
      markLanes x (fun l => holds x.parts.fx (intOf x.parts (x.vA l)) (intOf x.parts (x.vB l))) u) ∧
    Does (.vperm f) noCheck (fun x u =>
      writeEach x x.parts.d (fun l => permuted x.parts.fx (x.vA l) (x.vB l) (x.vC l)) u) ∧
    Does (.vdot4 f) noCheck (fun x u =>
      writeEach x x.parts.d (fun l => dotted x.parts (x.vA l) (x.vB l) (x.vC l)) u)) ∧
  (∀ f,
    Does (.fcmp f) noCheck (fun x u =>
      markLanes x (fun l => floatHolds x.parts.ffmt x.parts.fx (x.fA l) (x.fB l)) u) ∧
    Does (.fclass f) noCheck (fun x u => writeEach x x.parts.d
      (fun l => BitVec.ofNat 32 (x.parts.elementwise (fun a _ _ => classOfValue x.parts.ffmt a) (x.fA l) 0 0)) u) ∧
    Does (.fscale f) noCheck (fun x u => writeFloat x (fun l =>
      x.parts.elementwise (fun a b _ => x.parts.ffmt.scaleBits x.parts.round x.parts.sat a
        (if x.parts.packed then (BitVec.ofNat 16 b).toInt else (BitVec.ofNat 32 b).toInt))
        (x.fA l) (x.vB l).toNat 0) u))

/-- R180, R190, R191: a finite encoding encodes its own value back, in every format and rounding mode. -/
def Obligations.FloatRoundTrip : Prop :=
  ∀ f ∈ [f64, f32, f16, bf16, e4m3, e5m2, e2m1], ∀ (r : Round) (sat : Bool) (a : Nat), a < 2 ^ f.width →
    (f.decode a).finite = true → f.encode r sat (f.decode a) = a

/-- R190, R271: what each rounding mode does to a magnitude m / 2^k, and the exact results of the special functions at zeros,
infinities and NaN, of FSQRT at perfect squares (of any even or odd exponent), of FEXP2 at integers (in each form that a
float gives them) and of FLOG2 at powers of two. -/
def Obligations.RoundingAndSpecials : Prop :=
  (∀ (neg : Bool) (m k : Nat),
    let up (r : Round) : Nat := roundShift r neg m k * 2 ^ k
    (∀ r, m % 2 ^ k = 0 → up r = m) ∧
    (∀ r, m - m % 2 ^ k ≤ up r ∧ up r < m + 2 ^ k) ∧
    (2 * (up .rn) ≤ 2 * m + 2 ^ k ∧ 2 * m ≤ 2 * (up .rn) + 2 ^ k) ∧
    (2 * (m % 2 ^ k) = 2 ^ k → roundShift .rn neg m k % 2 = 0) ∧
    up .rz ≤ m ∧ (neg = false → m ≤ up .ru ∧ up .rd ≤ m) ∧ (neg = true → up .ru ≤ m ∧ m ≤ up .rd)) ∧
  ((∀ g : SpecialFn, g.value .nan = .nan) ∧
  (∀ s, SpecialFn.rcp.value (.inf s) = .fin s 0 0 ∧ SpecialFn.tanh.value (.inf s) = .fin s 1 0 ∧
    SpecialFn.sin.value (.inf s) = .nan ∧ SpecialFn.cos.value (.inf s) = .nan ∧
    SpecialFn.exp2.value (.inf s) = (if s then .fin false 0 0 else .inf false)) ∧
  (∀ g ∈ [SpecialFn.rsq, .sqrt, .log2], g.value (.inf true) = .nan ∧
    ∀ m e, m ≠ 0 → g.value (.fin true m e) = .nan) ∧
  (SpecialFn.rsq.value (.inf false) = .fin false 0 0 ∧ SpecialFn.sqrt.value (.inf false) = .inf false ∧
    SpecialFn.log2.value (.inf false) = .inf false) ∧
  (∀ s e, SpecialFn.rcp.value (.fin s 0 e) = .inf s ∧ SpecialFn.rsq.value (.fin s 0 e) = .inf s ∧
    (SpecialFn.sqrt.value (.fin s 0 e)).isZero = true ∧ (SpecialFn.sqrt.value (.fin s 0 e)).isNeg = s ∧
    SpecialFn.exp2.value (.fin s 0 e) = .fin false 1 0 ∧ SpecialFn.log2.value (.fin s 0 e) = .inf true ∧
    (SpecialFn.sin.value (.fin s 0 e)).isZero = true ∧ (SpecialFn.sin.value (.fin s 0 e)).isNeg = s ∧
    SpecialFn.cos.value (.fin s 0 e) = .fin false 1 0 ∧
    (SpecialFn.tanh.value (.fin s 0 e)).isZero = true ∧ (SpecialFn.tanh.value (.fin s 0 e)).isNeg = s) ∧
  (∀ (n : Nat) (e : Int), SpecialFn.log2.value (.fin false (2 ^ n) e) = ofInt (n + e)) ∧
  (∀ (r : Nat) (k : Int), r ≠ 0 →
    (∃ n c : Nat, SpecialFn.sqrt.value (.fin false (r * r) (2 * k)) = .fin false n (k - c) ∧ n = r * 2 ^ c) ∧
    (∃ n c : Nat, SpecialFn.sqrt.value (.fin false (2 * (r * r)) (2 * k - 1)) = .fin false n (k - c) ∧ n = r * 2 ^ c)) ∧
  (∀ (s : Bool) (m e : Nat), m ≠ 0 → m * 2 ^ e < 4096 →
    SpecialFn.exp2.value (.fin s m e) = .fin false 1 (if s then -((m * 2 ^ e : Nat) : Int) else ((m * 2 ^ e : Nat) : Int))) ∧
  (∀ (s : Bool) (q k : Nat), q ≠ 0 → q < 4096 →
    SpecialFn.exp2.value (.fin s (q * 2 ^ k) (-(k : Int))) = .fin false 1 (if s then -(q : Int) else q)))

/-- R272 to R275, R282: CVT with its counter under .SR, CVTN, CVTW, QNT, DQNT and VRAND. -/
def Obligations.Conversions : Prop :=
  ∀ f,
    Does (.cvt f) (fun x u => if x.parts.md.rmode = 4 then counterApart x u else none) (fun x u =>
      let done := if x.parts.td = 7 ∨ x.parts.td = 8 ∨ x.parts.td = 9
        then writeEachPair x x.parts.d (fun l => BitVec.ofNat 64 (converted x l)) u
        else writeEach x x.parts.d (fun l => BitVec.ofNat 32 (converted x l)) u
      if x.parts.md.rmode = 4 then countUp x done else done) ∧
    Does (.cvtn f) noCheck (fun x u => writeEach x x.parts.d
      (fun l => x.parts.narrowPack (x.vAt x.parts.d 0 l) (x.vA l) (x.vB l)) u) ∧
    Does (.cvtw f) noCheck (fun x u => writeEach x x.parts.d (fun l =>
      BitVec.ofNat 32 (convert x.parts.ts x.parts.td x.parts.round x.parts.sat
        ((x.vA l).toNat / 2 ^ (typeWidth x.parts.ts * x.parts.fx) % 2 ^ typeWidth x.parts.ts))) u) ∧
    Does (.qnt f) counterApart (fun x u =>
      writeVector x x.parts.d (x.qntLanes.map fun e => (e.1, BitVec.ofNat 32 e.2.1))
        (writeExtra x x.parts.c (x.qntLanes.map fun e => (e.1, BitVec.ofNat 32 e.2.2)) u)) ∧
    Does (.dqnt f) noCheck (fun x u =>
      writeEach x x.parts.d (fun l => x.parts.dequantise (x.vA l) (x.vB l)) u) ∧
    Does (.vrand f) counterApart (fun x u => countUp x (writeEach x x.parts.d (fun l =>
      if x.parts.fx = 0 then laneDraw x x.parts.a l
      else fp32Bits (.fin false ((laneDraw x x.parts.a l).toNat / 256) (-24))) u))

/-- R195, R273: a float widens exactly, an integer conversion clamps or wraps, and the narrow forms keep the other slots. -/
def Obligations.ConversionValues : Prop :=
  (∀ ts r sat a, convert ts ts r sat a = a % 2 ^ typeWidth ts) ∧
  (∀ (r : Round) (sat : Bool) (v : Word),
    convert 5 1 r true v.toNat = (BitVec.ofInt 8 (max (-128) (min 127 v.toInt))).toNat ∧
    convert 5 1 r false v.toNat = v.toNat % 256 ∧
    convert 6 2 r true v.toNat = min 255 v.toNat ∧
    convert 10 5 r sat 0x7FC00000 = 0 ∧ convert 10 5 r sat 0x7F800000 = 0x7FFFFFFF ∧
    convert 10 5 r sat 0xFF800000 = 0x80000000 ∧ convert 10 6 r sat 0xFF800000 = 0) ∧
  (∀ f ∈ [f16, bf16, e4m3, e5m2, e2m1], ∀ (r : Round) (sat : Bool) (a : Nat), a < 2 ^ f.width →
    (f.decode a).finite = true →
    f.encode r sat (f32.decode (f32.encode r sat (f.decode a))) = a) ∧
  (∀ (p : Parts) (d a b : Word) (i : Nat), p.ts ∈ [5, 6, 10] → typeWidth p.td * 2 * (p.fx + 1) ≤ 32 →
    (i < 2 * typeWidth p.td * p.fx ∨ 2 * typeWidth p.td * (p.fx + 1) ≤ i) →
    (p.narrowPack d a b).getLsbD i = d.getLsbD i)

/-- R197, R198, R277 to R281: the shuffles, SHFL.CK (SHUFFLE_RANGE when a lane's index lies outside its tile), VOTE, BALLOT,
BCAST, COMPACT, VRED, VSCAN and TRED; an integer reduction over a tile is the operation over its active lanes, in any
grouping. -/
def Obligations.CrossLaneResults : Prop :=
  (∀ f rs,
    (∀ i ∈ [Instr.shflu f, .shfld f, .shflx f],
      Does i noCheck (fun x u => writeEach x x.parts.d (fromLane x i) u)) ∧
    (∀ s x u, Goes (.shfl f) noCheck s x u →
      (x.parts.fx = 0 ∨ ∀ l ∈ x.lanes, (x.vB l).toNat < x.team.part) →
      exec (.shfl f) s = .next (advance x (writeEach x x.parts.d (fromLane x (.shfl f)) u))) ∧
    (∀ s x u, Goes (.shfl f) noCheck s x u → x.parts.fx = 1 → (∃ l ∈ x.lanes, x.team.part ≤ (x.vB l).toNat) →
      ∃ s1, u = setResult x .none s1 ∧ exec (.shfl f) s = .next (takeTrap x.p x.cl.path
        { cause := .shflIndex, mask := x.eff, pos := x.cl.pos, tpc := x.cl.hdr } s1)) ∧
    Does (.vote rs) noCheck (fun x u => markLanes x (votes x) u) ∧
    Does (.ballot rs) noCheck (fun x u => writeEach x x.parts.d (balloted x) u) ∧
    Does (.bcast f)
      (fun x _ => if x.known x.parts.b = true ∧ 32 * x.launch.strands ≤ x.sB.toNat then some .general else none)
      (fun x u => writeEach x x.parts.d (fun _ => x.vA x.sB.toNat) u) ∧
    Does (.compact f) noCheck (fun x u => writeVector x x.parts.d
      ((List.range (32 * x.launch.strands / x.team.part)).flatMap fun t =>
        (List.range (tileActive x (t * x.team.part)).length).map fun j =>
          (t * x.team.part + j, x.vA ((tileActive x (t * x.team.part)).getD j 0))) u)) ∧
  (∀ f,
    Does (.vred f) noCheck (fun x u => writeEach x x.parts.d (fun l =>
      (treeReduce x.parts.combine 5 (x.laneVals (tileStart x l) x.team.part)).getD 0) u) ∧
    Does (.vscan f) noCheck (fun x u => writeEach x x.parts.d (fun l =>
      match (tileActive x l).filter fun k => decide (k ≤ l) with
      | [] => 0
      | k :: ks => ks.foldl (fun a j => x.parts.combine a (x.vA j)) (x.parts.single (x.vA k))) u) ∧
    Does (.tred f) noCheck (fun x u => writeScalar x x.parts.d
      ((treeReduce x.parts.combine 5 ((List.range x.launch.strands).map fun g =>
        treeReduce x.parts.combine 5 (x.laneVals (32 * g) 32))).getD 0) u)) ∧
  (∀ (x : Exe) (l : Nat), x.parts.td ≠ 10 → x.team.part ∈ [2, 4, 8, 16, 32] → l < 32 * x.launch.strands →
    treeReduce x.parts.combine 5 (x.laneVals (tileStart x l) x.team.part) =
      match tileActive x l with
      | [] => none
      | k :: ks => some (ks.foldl (fun a j => x.parts.combine a (x.vA j)) (x.vA k)))

end

/-! ### Directions, winner lists and selection -/

namespace Sys2Proof.Claims

open Machine

/-- Every active group takes a direction, with its norm (R283). -/
def dirsOf (x : Exe) (g : Nat → Dir) (u : State) : State := writeDirs x (x.groups.map fun k => (k, g k)) u

/-- The direction operands of a group. -/
def dirA (x : Exe) (g : Nat) : Dir := x.dir x.parts.a g
def dirB (x : Exe) (g : Nat) : Dir := x.dir x.parts.b g

/-- DSCAL's result (R289). -/
def rescaled (d : Dir) (t : Int) (neg : Bool) : Dir :=
  let cs := if neg then d.comps.map (fun c => -c) else d.comps
  if d.norm = 0x8000 ∨ d.norm = 0x8001 ∨ d.norm = 0x7FFF then { norm := d.norm, comps := cs }
  else if d.norm.toInt + t ≤ -32767 then { norm := 0x8000, comps := d.comps.map fun _ => 0 }
  else if 32767 ≤ d.norm.toInt + t then { norm := 0x7FFF, comps := cs }
  else { norm := BitVec.ofInt 16 (d.norm.toInt + t), comps := cs }

/-- P of R288. -/
def innerSum (a b : Dir) : Int := ((a.comps.zip b.comps).map fun p => p.1 * p.2).foldl (· + ·) 0

/-- DDOT's and DDOTF's value before rounding (R288). -/
def dotValue (full : Bool) (a b : Dir) : FVal :=
  if a.norm = 0x8001 ∨ b.norm = 0x8001 then .nan
  else if a.norm = 0x8000 ∨ b.norm = 0x8000 then .fin false 0 0
  else if full = false then dotVal (innerSum a b) 0
  else if a.norm = 0x7FFF ∨ b.norm = 0x7FFF then
    (if innerSum a b = 0 then .nan else .inf (decide (innerSum a b < 0)))
  else dotVal (innerSum a b) (a.norm.toInt + b.norm.toInt)

/-- A value in a format: the infinity that an INF norm gives stays one under .SAT (R287, R288). -/
def encodeDirVal (p : Parts) (f : FFmt) (v : FVal) : Nat :=
  match v with
  | .inf _ => f.encode p.round false v
  | _ => f.encode p.round p.sat v

/-- Whether a direction meets the invariant of R188: no components under ZERO or NAN, else a sum of squares within
2^17 of 2^28. -/
def Settled (d : Dir) : Prop :=
  if d.norm = 0x8000 ∨ d.norm = 0x8001 then ∀ c ∈ d.comps, c = 0
  else ((sumSq d.comps : Int) - 268435456).natAbs ≤ 131072

/-- DSPAN's check (R284). -/
def spanCheck (x : Exe) (_ : State) : Option Cause :=
  if (x.immInt = 1 ∨ x.immInt = 2 ∨ x.immInt = 4) ∧ x.launch.strands % x.immInt.toNat = 0 then none else some .general

/-- A form that requires its modifier word (R285, R303). -/
def modRequired (x : Exe) (_ : State) : Option Cause := if x.parts.m = none then some .general else none

/-- A row of a winner list in the order of R295: no entry stands strictly ahead of the one before it. -/
def Ranked (r : Row) : Prop :=
  r.entries.length ≤ r.k ∧ ordered r.entries = true ∧ ∀ e ∈ r.entries, wnan e.lo = false

/-- SSECT's word (R300). -/
def intersection (x : Exe) (l : Nat) : Word :=
  let ls := tileActive x l
  let top (f : BitVec 7) : Nat := (ls.map fun k => (x.v f k).toNat).foldl max 0
  let found := ls.find? fun k => decide (x.v x.parts.b k = x.vA l)
  let under (f g : BitVec 7) : Nat := (ls.filter fun k => decide ((x.v f k).toNat ≤ top g)).length
  BitVec.ofNat 32 ((if found.isSome then 2 ^ 31 else 0) + (found.elim 0 fun k => k % x.team.part) * 2 ^ 16 +
    under x.parts.a x.parts.b * 2 ^ 8 + under x.parts.b x.parts.a)

/-- The score key and the packed pair of PKSI (R301). -/
def packed (score index : Word) : DWord := Word.pair (0xFFFFFFFF - index) (scoreKey score)

end Sys2Proof.Claims

section

open Sys2Proof Sys2Proof.Machine Sys2Proof.Claims

/-- R289 whole: DSCAL's components, and its norm at every source norm. -/
def Obligations.ScaleDirection : Prop :=
  ∀ f, Does (.dscal f) noCheck (fun x u => dirsOf x (fun g =>
    rescaled (dirA x g) (BitVec.ofNat 16 x.sB.toNat).toInt (x.parts.fx == 1)) u)

/-- R286, R287, R288, R290, R291, R284: the other direction instructions. -/
def Obligations.DirectionResults : Prop :=
  ∀ f ri,
    Does (.dcvt f) noCheck (fun x u => dirsOf x x.dcvt u) ∧
    Does (.dneg f) noCheck (fun x u => dirsOf x (fun g =>
      { norm := (dirA x g).norm, comps := (dirA x g).comps.map fun c => -c }) u) ∧
    Does (.dmov f) noCheck (fun x u => dirsOf x (dirA x) u) ∧
    Does (.dzero f) noCheck (fun x u => dirsOf x (fun _ =>
      { norm := 0x8000, comps := List.replicate (64 * x.team.span) 0 }) u) ∧
    Does (.dadd f) noCheck (fun x u => dirsOf x (fun g => Dir.addSub false (dirA x g) (dirB x g)) u) ∧
    Does (.dsub f) noCheck (fun x u => dirsOf x (fun g => Dir.addSub true (dirA x g) (dirB x g)) u) ∧
    Does (.dmix f) modRequired (fun x u => dirsOf x (fun g =>
      Dir.mix (f32.decode x.sC.toNat) (dirA x g) (dirB x g)) u) ∧
    Does (.ddot f) noCheck (fun x u => writeGroups x (fun g => BitVec.ofNat 32
      (encodeDirVal x.parts f32 (dotValue false (dirA x g) (dirB x g)))) u) ∧
    Does (.ddotf f) noCheck (fun x u => writeGroups x (fun g => BitVec.ofNat 32
      (encodeDirVal x.parts f32 (dotValue true (dirA x g) (dirB x g)))) u) ∧
    Does (.dexp f) noCheck (fun x u => writeVector x x.parts.d
      (x.groups.flatMap fun g => (x.groupLanes g).map fun l =>
        let d := dirA x g
        let j := l - 32 * x.team.span * g
        let val (fm : FFmt) (i : Nat) : Nat := encodeDirVal x.parts fm (dirValue d.norm (d.comps.getD i 0))
        (l, BitVec.ofNat 32 (match x.parts.td with
          | 13 => val f16 (2 * j) + val f16 (2 * j + 1) * 65536
          | 14 => val bf16 (2 * j) + val bf16 (2 * j + 1) * 65536
          | _ => val f32 (2 * j + x.parts.fx)))) u) ∧
    Does (.dnrd f) noCheck (fun x u => writeGroups x (fun g =>
      normValue x.parts.fx (x.team.readN (x.regNum .n x.parts.a) (g * x.team.span))) u) ∧
    Does (.dnwr f) noCheck (fun x u => u.updTeam x.p fun t => x.groups.foldl (fun t g =>
      let v := x.v x.parts.a ((x.lanes.find? fun l => x.team.groupOf l == g).getD 0)
      t.putNorm (x.regNum .n x.parts.d) g
        (if x.parts.fx = 0 then v.setWidth 16 else (f32.decode v.toNat).toL16)) t) ∧
    Does (.dspan ri) spanCheck (fun x u =>
      if x.immInt.toNat = x.team.span then u
      else u.updTeam x.p fun t =>
        { (List.range 32).foldl (fun w r => w.writeN r (List.range x.launch.strands) 0x8001) t with
          span := x.immInt.toNat })

/-- R188, R283, R290: negating, copying and scaling keep the invariant, and the special operands of DADD, DSUB and DMIX
take effect in their order. -/
def Obligations.DirectionInvariant : Prop :=
  (∀ d t neg, Settled d → Settled (rescaled d t neg)) ∧
  (∀ d, Settled d → Settled d.negate) ∧ (∀ n, Settled (Dir.zero n) ∧ Settled (Dir.nan n)) ∧
  (∀ sub t a b, a.norm = 0x8001 ∨ b.norm = 0x8001 →
    Dir.addSub sub a b = Dir.nan a.comps.length ∧ Dir.mix t a b = Dir.nan a.comps.length) ∧
  (∀ t a b, t.finite = false ∨ a.norm = 0x7FFF ∨ b.norm = 0x7FFF → Dir.mix t a b = Dir.nan a.comps.length) ∧
  (∀ sub a b, a.norm = 0x7FFF → b.norm ≠ 0x7FFF → b.norm ≠ 0x8001 → Dir.addSub sub a b = a) ∧
  (∀ a b, a.norm ≠ 0x7FFF → a.norm ≠ 0x8001 → b.norm = 0x7FFF →
    Dir.addSub false a b = b ∧ Dir.addSub true a b = b.negate) ∧
  (∀ n, Comps.renorm { ys := List.replicate n 0 } = Dir.zero n)

/-- R293, R296, R297, R298: WLALLOC, WLFREE, WLCLR, WLINS, VTOPK and WLRD. -/
def Obligations.WinnerListResults : Prop :=
  ∀ rs f,
    Does (.wlalloc rs) (fun x u => x.listCheck u x.parts.d false)
      (fun x u => setLists x (fun l => l.put (wlOf x.parts.d) []) u) ∧
    Does (.wlfree rs) (fun x u => x.listCheck u x.parts.d true)
      (fun x u => setLists x (fun l => l.del (wlOf x.parts.d)) u) ∧
    Does (.wlclr rs) (fun x u => x.listCheck u x.parts.d true)
      (fun x u => setLists x (fun l => l.put (wlOf x.parts.d) []) u) ∧
    Does (.wlins f) insCheck (fun x u => x.lanes.foldl (fun v l =>
      let r := (x.row v (wlOf x.parts.d) (x.insRow l)).open
      setRow x (wlOf x.parts.d) (x.insRow l)
        ((if r.entries = [] then { r with k := x.sC.toNat % 32 } else r).offer
          (Word.pair (x.vA l) (x.v x.parts.b l))).close v) u) ∧
    Does (.vtopk f) noCheck (fun x u =>
      let out := x.tiles.flatMap fun b => (List.range x.team.part).map fun j => (b + j, (x.topk b).getD j emptyEntry)
      writeVector x x.parts.d (out.map fun e => (e.1, e.2.lo))
        (u.updTeam x.p fun t => t.writeLanes (x.regNum .v x.parts.d + 1) (out.map fun e => (e.1, e.2.hi)))) ∧
    Does (.wlrd f) (fun x u => x.listCheck u x.parts.a true) (fun x u => writeEach x x.parts.d (fun l =>
      let r := x.row u (wlOf x.parts.a) ((x.vB l).toNat / 16 % 64)
      let n := (x.vB l).toNat % 16
      let e := if n < statCount r.stat then r.entry n else 0xFFFFFFFFFF800000
      if x.parts.fx = 0 then e.lo else if x.parts.fx = 1 then e.hi else r.stat) u)

/-- R300 to R304: SSECT, PKSI, UNPKSI, GWNORM, SMXACC and SMXFIN. -/
def Obligations.SelectionResults : Prop :=
  ∀ f,
    Does (.ssect f) noCheck (fun x u => writeEach x x.parts.d (intersection x) u) ∧
    Does (.pksi f) noCheck (fun x u =>
      writeEachPair x x.parts.d (fun l => packed (x.vA l) (x.v x.parts.b l)) u) ∧
    Does (.unpksi f) noCheck (fun x u =>
      writeEach x x.parts.d (fun l => unpackKey x.parts.fx (x.vPair x.parts.a l)) u) ∧
    Does (.gwnorm f) noCheck (fun x u => writeEach x x.parts.d x.weight
      (writeMaskBits x x.parts.b (fun l => !isNormal (x.tileSum l)) u)) ∧
    Does (.smxacc f) modRequired (fun x u =>
      let out := x.tiles.flatMap fun b =>
        let r := smxStep (x.smx x.parts.d ((x.tileLanes b).headD 0)) ((x.tileLanes b).map x.vA)
        ((x.tileLanes b).zip r.2).map fun e => (e.1, r.1, e.2)
      let d := x.regNum .v x.parts.d
      let col (g : SmxState → Word) : List (Nat × Word) := out.map fun e => (e.1, g e.2.1)
      writeVector x x.parts.d (col (·.m))
        ((writeExtra x x.parts.c (out.map fun e => (e.1, BitVec.ofNat 32 e.2.2)) u).updTeam x.p fun t =>
          (((t.writeLanes (d + 1) (col (·.dh))).writeLanes (d + 2) (col (·.dl))).writeLanes (d + 3)
            (col (·.u))).writeLanes (d + 4) (col (·.f)))) ∧
    Does (.smxfin f) noCheck (fun x u => writeEach x x.parts.d (fun l =>
      smxFinal x.parts.fx (x.smx x.parts.a ((x.tileLanes l).headD l))) u)

/-- R147, R295, R301: a row stays in its order and within its limit, whatever candidate it is offered; a NaN only sets its
flag, index 0xFFFF_FFFF is dropped, and while there is room the candidate enters. Packed pairs keep the order of the
scores, equal scores go by ascending index, and UNPKSI gives both back. -/
def Obligations.RowAndPairOrder : Prop :=
  (∀ (r : Row) (c : DWord), Ranked r →
    Ranked (r.offer c) ∧
    (wnan c.lo = true → r.offer c = { r with nan := true }) ∧
    (wnan c.lo = false → c.hi = 0xFFFFFFFF → r.offer c = r) ∧
    (wnan c.lo = false → c.hi ≠ 0xFFFFFFFF → r.entries.length < r.k → c ∈ (r.offer c).entries) ∧
    (∀ e ∈ (r.offer c).entries, e = c ∨ e ∈ r.entries) ∧
    (∀ e ∈ r.entries, r.entries.length < r.k → e ∈ (r.offer c).entries)) ∧
  ((∀ a b i j : Word, wcmp a b = some .lt → (packed a i).toNat < (packed b j).toNat) ∧
  (∀ a i j : Word, i.toNat < j.toNat → (packed a j).toNat < (packed a i).toNat) ∧
  (∀ a i : Word, unpackKey 1 (packed a i) = i) ∧
  (∀ a i : Word, unpackKey 0 (packed a i) = if wnan a then 0x7FC00000 else a))

end

/-! ### Memory -/

namespace Sys2Proof.Claims

open Machine

/-- Every access of the lanes reaches an element: it translates, and it passes the checks of alignment and format that
its page and its size give (R157, R309 to R311). -/
def Reaches (x : Exe) (as : List LaneAddr) : Prop := ∀ a ∈ as, ∃ y e, a.res = .ok y ∧ x.element a y = .ok e

/-- No watchpoint of the team matches one of the accesses (R162). -/
def Unwatched (x : Exe) (u : State) (kind n : Nat) (as : List LaneAddr) : Prop :=
  x.watch u kind n (as.map fun a => (a.lane, a.addr)) = none

/-- The element of a lane's access. -/
def elemOf? (x : Exe) (a : LaneAddr) : Option Elem :=
  match a.res with
  | .ok y => (x.element a y).toOption
  | _ => none

/-- No byte that the elements take is poisoned (R167). -/
def Unpoisoned (x : Exe) (u : State) (as : List LaneAddr) : Prop :=
  ∀ a ∈ as, ∀ e, elemOf? x a = some e → ∀ b ∈ e.bytes (x.loadAddr e.phys),
    x.loadPoison (u.commitFills x.agent ((as.filterMap (elemOf? x)).map (·.phys))) (bypasses false e.phys) b = false

/-- The bytes that an access of a given kind moves, as watchpoints see it (R162). -/
def moved (x : Exe) : Nat := if x.parts.fx = 2 then 16 else rawSize x.parts.td

/-- The elements that the lanes reach, in lane order. -/
def elemsOf (x : Exe) (as : List LaneAddr) : List Elem := as.filterMap (elemOf? x)

/-- The state in which the elements are accessed: the walks that reached them are committed. -/
def reachedState (x : Exe) (u : State) (as : List LaneAddr) : State :=
  u.commitFills x.agent ((elemsOf x as).map (·.phys))

/-- A load that does not bypass L1 fills the lines of its bytes, element by element (R94). -/
def lined (x : Exe) (es : List Elem) (v : State) : State :=
  es.foldl (fun w e => if bypasses false e.phys then w
    else fillLines x.team.cluster (e.bytes (x.loadAddr e.phys)) w) v

/-- The value of an element: its bytes as the load reads them, with its block's scale, converted by TD (R102, R310). -/
def loadedValue (x : Exe) (v : State) (e : Elem) : Nat :=
  let a := x.loadAddr e.phys
  e.value x.parts.td (x.loadNat v (bypasses false e.phys) a e.size)
    (if blockScaled e.phys.fmt then x.loadNat v (bypasses false e.phys) (e.block a).2.2 (scaleBytes e.phys.fmt) else 0)

/-- A load of the lanes' elements is issued: it is counted, with the value of each lane's element, in lane order, for as many
registers as the element takes. -/
def Loads (i : Instr) (s : State) (x : Exe) (u : State) (as : List LaneAddr) : Prop :=
  let v := lined x (elemsOf x as) (reachedState x u as)
  exec i s = .next (advance x (loadInto x (((elemsOf x as).head?.map (·.regs)).getD 1)
    ((elemsOf x as).map fun e => (e.lane, loadedValue x v e)) v))

/-- What the lanes of a store write: each element's own bytes, and, block by block, those of block-scaled pages with their
scales, in lane order (R184, R185, R310, R311). -/
def stored (x : Exe) (as : List LaneAddr) : List StoreBytes :=
  sortLanes ((((elemsOf x as).filter fun e => !blockScaled e.phys.fmt).map fun e => ⟨e.lane, e.phys, x.storeElem e, none⟩) ++
    (scaleAddrs (elemsOf x as)).flatMap (x.storeBlock (elemsOf x as)))

/-- A store of the lanes' elements is issued and counted. -/
def Stores (i : Instr) (s : State) (x : Exe) (u : State) (as : List LaneAddr) : Prop :=
  exec i s = .next (advance x (storeBytes x (stored x as) (reachedState x u as)))

/-- The cause for which a lane fails: that of its translation or range, else that of `check`. -/
def laneCause (check : LaneAddr → Phys → Option Cause) (a : LaneAddr) : Option Cause :=
  match a.res with
  | .cause c _ => some c
  | .ok y => check a y
  | _ => none

/-- The checks of a load's element: alignment, then format (R157, R309). -/
def loadCheck (x : Exe) (a : LaneAddr) (y : Phys) : Option Cause :=
  match x.element a y with
  | .error c => some c
  | .ok _ => none

/-- Those of a store's, and whether its lanes leave its entry or block partly written (R103, R310). -/
def storeCheck (x : Exe) (as : List LaneAddr) (a : LaneAddr) (y : Phys) : Option Cause :=
  match x.element a y with
  | .error c => some c
  | .ok _ => if (partialLanes (elemsOf x as)).any (fun f => f.lane == a.lane) then some .partialBlock else none

/-- Those of an atomic's word (R96, R319). -/
def wordCheck (n : Nat) (arg : Nat → AluOp × Nat) (a : LaneAddr) (y : Phys) : Option Cause :=
  atomCheck (arg a.lane).1 n y

/-- No lane waits for a migrating leaf or a remote owner. -/
def NoneWaits (as : List LaneAddr) : Prop := ∀ a ∈ as, (∃ y, a.res = .ok y) ∨ ∃ c g, a.res = .cause c g

/-- With no lane that waits and some lane that fails, the instruction traps: the trap mask is the lanes that fail, each with
its own cause and address, and nothing of the instruction is performed (R101, R157, R307). -/
def FailingLanesTrap (i : Instr) (s : State) (x : Exe) (u : State) (stop : Trap → State → State) (as : List LaneAddr)
    (check : LaneAddr → Phys → Option Cause) : Prop :=
  NoneWaits as → (∃ a ∈ as, laneCause check a ≠ none ∧ a.lane < 32 * x.launch.strands) →
  ∃ tr s1, u = setResult x .none s1 ∧ exec i s = .next (stop tr s1) ∧ tr.pos = x.cl.pos ∧ tr.tpc = x.cl.hdr ∧
    ∀ a ∈ as, a.lane < 32 * x.launch.strands →
      tr.mask.lane a.lane = (laneCause check a).isSome ∧
      ∀ c, laneCause check a = some c → tr.causes.get? a.lane = some c ∧ tr.addr.get? a.lane = some a.addr

/-- What a RAW load of `n` bytes makes of them, by TD (R309): .S8 and .S16 extend their sign to 32 bits. -/
def rawValue (td v : Nat) : Nat :=
  if td = 1 then (BitVec.ofNat 8 v).toInt.emod (2 ^ 32) |>.toNat
  else if td = 3 then (BitVec.ofNat 16 v).toInt.emod (2 ^ 32) |>.toNat
  else v

/-- The plane accesses of LDP and STP: s[A] plus each lane's B or literal (R93, R308). -/
def planeOf (x : Exe) (u : State) : List LaneAddr :=
  x.lanes.map fun l => x.byPlane u l (x.s x.parts.a + x.vB l)

/-- The operation of an atomic on `n` bits (R96, R317): what the word becomes. -/
def atomicResult (o : AluOp) (n : Nat) (sg : Bool) (old v : Nat) : Nat :=
  let int (k : Nat) : Int := if sg then Machine.signed n k else k
  match o with
  | .add => (old + v) % 2 ^ n
  | .and => old &&& v
  | .or => old ||| v
  | .xor => old ^^^ v
  | .min => if int v < int old then v else old
  | .max => if int old < int v then v else old
  | .xchg => v
  | .cas c => if old = c then v else old
  | .fadd | .bfadd => o.eval n sg old v

/-- One lane's atomic at its word: the issuing cluster's line leaves first, then the word is read and written in one
act, which the issuing die sees (R95, R115, R116). -/
def atomicAt (x : Exe) (o : AluOp) (n : Nat) (sg : Bool) (a v : Nat) (u : State) : Nat × State :=
  let u1 := u.evictLine x.team.cluster (a / 128)
  (u1.readNat a (n / 8), (u1.writeBytes a (bytesOf (n / 8) (atomicResult o n sg (u1.readNat a (n / 8)) v))).unview
    (dieOfCluster x.team.cluster) fun b => a ≤ b && b < a + n / 8)

/-- The lanes of an atomic, one after the other in ascending order, with the old values (R78, R319). -/
def atomicsFrom (x : Exe) (n : Nat) (sg : Bool) (arg : Nat → AluOp × Nat) :
    List (LaneAddr × Phys) → State → List (Nat × Nat) × State
  | [], u => ([], u)
  | p :: ps, u =>
    let r := atomicAt x (arg p.1.lane).1 n sg p.2.addr (arg p.1.lane).2 u
    let q := atomicsFrom x n sg arg ps r.2
    ((p.1.lane, r.1) :: q.1, q.2)

/-- The accesses of an atomic reach words of its width, on pages that take it (R96, R317). -/
def AtomsReach (n : Nat) (arg : Nat → AluOp × Nat) (as : List LaneAddr) : Prop :=
  ∀ a ∈ as, ∃ y, a.res = .ok y ∧ atomCheck (arg a.lane).1 n y = none

/-- How many lanes' atomics other nodes perform: remote signals of the launch (R57). -/
def farAtoms (as : List LaneAddr) (u : State) : Nat := ((okLanes as).filter fun p => p.2.node ≠ u.node).length

/-- The state in which the atomics of the lanes start: fills are committed, those of other nodes are counted (R57), and the
lines they touch have left. -/
def atomStart (x : Exe) (as : List LaneAddr) (u : State) : State :=
  (okLanes as).foldl (fun v p => v.evictLine x.team.cluster (p.2.addr / 128))
    ((u.commitFills x.agent ((okLanes as).map (·.2))).addSignals x.crew.core x.crew.launch (farAtoms as u))

/-- An atomic instruction of width `n` completes as R319 gives it. -/
def Atoms (i : Instr) (s : State) (x : Exe) (u : State) (fin : State → State) (n : Nat) (sg : Bool)
    (arg : Nat → AluOp × Nat) (as : List LaneAddr) : Prop :=
  AtomsReach n arg as → x.signalsFull u (farAtoms as u) = false →
  (∀ p ∈ okLanes as, ∀ k < n / 8, (atomStart x as u).poisoned (p.2.addr + k) = false) →
  let r := atomicsFrom x n sg arg (okLanes as) (atomStart x as u)
  exec i s = .next (fin (loadInto x (n / 32) r.1 r.2))

end Sys2Proof.Claims

section

open Sys2Proof Sys2Proof.Machine Sys2Proof.Claims

/-- R103, R307, R310, R311: ST, STG and STP complete, counted, with the bytes of the lanes' elements, when every lane's access
reaches an element that its lanes cover whole, and no watchpoint matches. On a RAW page the bytes are the register's low
bytes, little-endian; on a sub-byte page each lane changes the bits of its slot alone; lanes that leave a table entry or a
block partly written trap with PARTIAL_BLOCK. -/
def Obligations.StoresComplete : Prop :=
  (∀ mw r s x u,
    (Goes (.st mw) windowCheck s x u → Reaches x (x.mwAccess u .store) →
      Unwatched x u 8 (moved x) (x.mwAccess u .store) → partialLanes (elemsOf x (x.mwAccess u .store)) = [] →
      Stores (.st mw) s x u (x.mwAccess u .store)) ∧
    (Goes (.stg r) noCheck s x u → Reaches x (x.ptrAccess u .store) →
      Unwatched x u 8 (moved x) (x.ptrAccess u .store) → partialLanes (elemsOf x (x.ptrAccess u .store)) = [] →
      Stores (.stg r) s x u (x.ptrAccess u .store)) ∧
    (Goes (.stp r) noCheck s x u → Reaches x (planeOf x u) → Stores (.stp r) s x u (planeOf x u))) ∧
  (∀ (x : Exe) (e : Elem), rawLike e.phys.fmt = true → x.parts.md.sat = false →
    x.storeElem e = (List.range e.size).map fun k =>
      { addr := e.phys.addr + k, bits := 0xFF, val := BitVec.ofNat 8 (x.storeValue e.lane e.regs / 256 ^ k) }) ∧
  (∀ (x : Exe) (e : Elem), e.phys.fmt ∈ [3, 4, 0xD, 0xF, 0x16] → ∃ h, x.storeElem e = [h] ∧ h.addr = e.phys.addr ∧
    ∀ (old : Byte) (i : Nat), i < 8 → (h.merge old).getLsbD i =
      let n := fmtBits e.phys.fmt
      if n * e.slot ≤ i ∧ i < n * e.slot + n
      then (elemEncode e.phys.fmt x.parts.md.sat (x.storeValue e.lane e.regs)).testBit (i - n * e.slot)
      else old.getLsbD i) ∧
  (∀ v : Nat, elemEncode 3 false v = v % 16 ∧ elemEncode 4 false v = v % 16 ∧
    elemEncode 0xF false v = if v = 0 then 0 else 1) ∧
  (∀ (x : Exe) (e : Elem), e.phys.fmt = 0xE → ∃ h, x.storeElem e = [h] ∧ h.addr = e.phys.addr ∧
    ∀ old : Byte, h.merge old = BitVec.ofNat 8 (tern5Put old.toNat e.slot
      (max (-1) (min 1 (Machine.signed 32 (x.storeValue e.lane e.regs)))))) ∧
  (∀ mw r s x u,
    (Goes (.st mw) windowCheck s x u → Reaches x (x.mwAccess u .store) →
      Unwatched x u 8 (moved x) (x.mwAccess u .store) →
      (∃ f ∈ partialLanes (elemsOf x (x.mwAccess u .store)), f.lane < 32 * x.launch.strands) →
      ∃ tr s1, u = setResult x .none s1 ∧ exec (.st mw) s = .next (takeTrap x.p x.cl.path tr s1) ∧
        ∀ f ∈ partialLanes (elemsOf x (x.mwAccess u .store)), f.lane < 32 * x.launch.strands →
          tr.mask.lane f.lane = true ∧ tr.causes.get? f.lane = some .partialBlock) ∧
    (Goes (.stg r) noCheck s x u → Reaches x (x.ptrAccess u .store) →
      Unwatched x u 8 (moved x) (x.ptrAccess u .store) →
      (∃ f ∈ partialLanes (elemsOf x (x.ptrAccess u .store)), f.lane < 32 * x.launch.strands) →
      ∃ tr s1, u = setResult x .none s1 ∧ exec (.stg r) s = .next (takeTrap x.p x.cl.path tr s1) ∧
        ∀ f ∈ partialLanes (elemsOf x (x.ptrAccess u .store)), f.lane < 32 * x.launch.strands →
          tr.mask.lane f.lane = true ∧ tr.causes.get? f.lane = some .partialBlock))

/-- R93, R94, R102, R307 to R310: LD, LDG and LDP complete, counted, with the value of each active lane's element, when every
lane's access reaches one, no watchpoint matches and nothing read is poisoned. Outside a touchstone pair a load reads each
byte as its cluster sees it, little-endian; a RAW load extends it by TD. -/
def Obligations.LoadsComplete : Prop :=
  (∀ mw r s x u,
    (Goes (.ld mw) windowCheck s x u → Reaches x (x.mwAccess u .load) → Unwatched x u 7 (moved x) (x.mwAccess u .load) →
      Unpoisoned x u (x.mwAccess u .load) → Loads (.ld mw) s x u (x.mwAccess u .load)) ∧
    (Goes (.ldg r) noCheck s x u → Reaches x (x.ptrAccess u .load) → Unwatched x u 7 (moved x) (x.ptrAccess u .load) →
      Unpoisoned x u (x.ptrAccess u .load) → Loads (.ldg r) s x u (x.ptrAccess u .load)) ∧
    (Goes (.ldp r) noCheck s x u → x.parts.fx = 0 ∨ x.parts.fx = 2 → Reaches x (planeOf x u) →
      Unpoisoned x u (planeOf x u) → Loads (.ldp r) s x u (planeOf x u))) ∧
  (∀ (e : Elem) (td raw scale : Nat), rawLike e.phys.fmt = true → raw < 256 ^ rawSize td →
    e.value td raw scale = rawValue td raw) ∧
  (∀ (x : Exe) (v : State) (b : Bool) (a n : Nat), x.pair? v = none →
    x.loadNat v b a n = natOf ((List.range n).map fun k =>
      if b then v.bypassByte x.team.cluster (a + k) else v.clusterByte x.team.cluster (a + k))) ∧
  (∀ r s x u, Goes (.ldp r) noCheck s x u → x.parts.fx = 0 → Reaches x (planeOf x u) → Unpoisoned x u (planeOf x u) →
    x.pair? u = none →
    exec (.ldp r) s = .next (advance x (loadInto x (if x.parts.td = 7 ∨ x.parts.td = 8 ∨ x.parts.td = 9 then 2 else 1)
      ((planeOf x u).filterMap fun a => (elemOf? x a).map fun e =>
        (a.lane, rawValue x.parts.td (natOf ((List.range (rawSize x.parts.td)).map fun k =>
          u.bypassByte x.team.cluster (x.loadAddr e.phys + k)))))
      (u.commitFills x.agent (((planeOf x u).filterMap (elemOf? x)).map (·.phys))))))

/-- R96, R176, R317 to R321: ATOM, CAS, CAS128 and the atomics of LDP, lane by lane in ascending order, in a touchstone pair
once for both copies.
That an atomic on another node's memory is a remote signal of its launch (R57) is the model's choice (log 30). -/
def Obligations.AtomicsComplete : Prop :=
  ∀ mw r s x u fin stop,
    (GoesMeet (.atom mw) windowCheck s x u fin stop →
      Unwatched x u 9 (x.parts.atomBits / 8) (x.mwAccess u .atomic) →
      Atoms (.atom mw) s x u fin x.parts.atomBits x.parts.atomSigned (x.atomArg x.parts.fx) (x.mwAccess u .atomic)) ∧
    (GoesMeet (.cas mw) windowCheck s x u fin stop →
      Unwatched x u 9 (x.parts.atomBits / 8) (x.mwAccess u .atomic) →
      Atoms (.cas mw) s x u fin x.parts.atomBits false (x.casArg (x.parts.atomBits / 32)) (x.mwAccess u .atomic)) ∧
    (GoesMeet (.cas128 mw) windowCheck s x u fin stop → Unwatched x u 9 16 (x.mwAccess u .atomic) →
      Atoms (.cas128 mw) s x u fin 128 false (x.casArg 4) (x.mwAccess u .atomic)) ∧
    (GoesMeet (.ldp r) noCheck s x u fin stop → x.parts.fx = 7 →
      Atoms (.ldp r) s x u fin x.parts.atomBits false (x.casArg (x.parts.atomBits / 32)) (planeOf x u)) ∧
    (GoesMeet (.ldp r) noCheck s x u fin stop → x.parts.fx ∉ [0, 2, 7] →
      Atoms (.ldp r) s x u fin x.parts.atomBits x.parts.atomSigned (x.atomArg (ldpAtomOp x.parts.fx)) (planeOf x u))

/-- R96, R101, R103, R157, R307, R310, R319: a lane that fails (its translation or range, its alignment, its page's format, an
entry or a block left partly written) traps the instruction: the trap mask is the failing lanes, each with its own cause and
address, and nothing is performed. In a touchstone pair both copies take the trap of an atomic. -/
def Obligations.LaneFaultsTrap : Prop :=
  (∀ mw r s x u,
    (Goes (.ld mw) windowCheck s x u → Unwatched x u 7 (moved x) (x.mwAccess u .load) →
      FailingLanesTrap (.ld mw) s x u (takeTrap x.p x.cl.path) (x.mwAccess u .load) (loadCheck x)) ∧
    (Goes (.ldg r) noCheck s x u → Unwatched x u 7 (moved x) (x.ptrAccess u .load) →
      FailingLanesTrap (.ldg r) s x u (takeTrap x.p x.cl.path) (x.ptrAccess u .load) (loadCheck x)) ∧
    (Goes (.ldp r) noCheck s x u → x.parts.fx = 0 ∨ x.parts.fx = 2 →
      FailingLanesTrap (.ldp r) s x u (takeTrap x.p x.cl.path) (planeOf x u) (loadCheck x)) ∧
    (Goes (.st mw) windowCheck s x u → Unwatched x u 8 (moved x) (x.mwAccess u .store) →
      FailingLanesTrap (.st mw) s x u (takeTrap x.p x.cl.path) (x.mwAccess u .store) (storeCheck x (x.mwAccess u .store))) ∧
    (Goes (.stg r) noCheck s x u → Unwatched x u 8 (moved x) (x.ptrAccess u .store) →
      FailingLanesTrap (.stg r) s x u (takeTrap x.p x.cl.path) (x.ptrAccess u .store)
        (storeCheck x (x.ptrAccess u .store))) ∧
    (Goes (.stp r) noCheck s x u →
      FailingLanesTrap (.stp r) s x u (takeTrap x.p x.cl.path) (planeOf x u) (storeCheck x (planeOf x u)))) ∧
  (∀ mw r s x u fin stop,
    let n := x.parts.atomBits
    (GoesMeet (.atom mw) windowCheck s x u fin stop → Unwatched x u 9 (n / 8) (x.mwAccess u .atomic) →
      FailingLanesTrap (.atom mw) s x u stop (x.mwAccess u .atomic) (wordCheck n (x.atomArg x.parts.fx))) ∧
    (GoesMeet (.cas mw) windowCheck s x u fin stop → Unwatched x u 9 (n / 8) (x.mwAccess u .atomic) →
      FailingLanesTrap (.cas mw) s x u stop (x.mwAccess u .atomic) (wordCheck n (x.casArg (n / 32)))) ∧
    (GoesMeet (.cas128 mw) windowCheck s x u fin stop → Unwatched x u 9 16 (x.mwAccess u .atomic) →
      FailingLanesTrap (.cas128 mw) s x u stop (x.mwAccess u .atomic) (wordCheck 128 (x.casArg 4))) ∧
    (GoesMeet (.ldp r) noCheck s x u fin stop → x.parts.fx = 7 →
      FailingLanesTrap (.ldp r) s x u stop (planeOf x u) (wordCheck n (x.casArg (n / 32)))) ∧
    (GoesMeet (.ldp r) noCheck s x u fin stop → x.parts.fx ∉ [0, 2, 7] →
      FailingLanesTrap (.ldp r) s x u stop (planeOf x u) (wordCheck n (x.atomArg (ldpAtomOp x.parts.fx)))))

/-- R111 to R113, R248, R292, R299, R313: WAIT, DLD, DST, WLST, WLLD, WLMERGE and KVLD complete when their accesses pass their
checks; a lane outside the bounds of a KV map receives element 0 and status 1. -/
def Obligations.OtherLoadsAndStores : Prop :=
  (∀ rs mw r s x u,
    (∀ y, Goes (.wait rs) noCheck s x u →
      x.watch u 7 8 (x.uniformLanes.map fun l => (l, x.pair x.parts.a)) = none →
      x.uniform u .load (x.pair x.parts.a) waitWordCheck = .ok y →
      (∀ i < 8, (u.commitFills x.agent [y]).poisoned (x.loadAddr y + i) = false) →
      exec (.wait rs) s = .next (advance x
        (if waitCond x.parts.s (BitVec.ofNat 64 (x.loadNat (u.commitFills x.agent [y]) true (x.loadAddr y) 8))
            (x.pair x.parts.d)
         then u.commitFills x.agent [y]
         else waitFrom x (.word x.parts.s (x.loadAddr y) (x.pair x.parts.d) x.cl.path x.cl.hdr x.cl.pos
           ((x.cl.words.drop (x.cl.pos - 1)).take x.parts.words)) (u.commitFills x.agent [y])))) ∧
    (∀ gs, Goes (.dst mw) windowCheck s x u → x.dirAccess u .store = .ok gs →
      ∃ bs, exec (.dst mw) s = .next (advance x
        (storeBytes x bs (u.commitFills x.agent (gs.flatMap fun g => (okLanes g.2).map (·.2)))))) ∧
    (∀ gs, Goes (.dld mw) windowCheck s x u → x.dirAccess u .load = .ok gs →
      (∀ e ∈ gs.flatMap fun g => okLanes g.2, ∀ k < 2,
        x.loadPoison (u.commitFills x.agent ((gs.flatMap fun g => okLanes g.2).map (·.2))) (bypasses false e.2)
          (x.loadAddr e.2 + k) = false) →
      ∃ (l : Latch) (ws : List RegWrite) (v : State), exec (.dld mw) s =
        .next (advance x (setResult x l (v.countLoad x.p { writes := ws })))) ∧
    (∀ ps, Goes (.wlst r) (fun x u => x.listCheck u x.parts.d true) s x u → x.imageAt u .store = .ok ps →
      ∃ bs, exec (.wlst r) s = .next (advance x (storeBytes x bs (u.commitFills x.agent (ps.map (·.2.2)))))) ∧
    (∀ bs v, Goes (.wlld r) (fun x u => x.listCheck u x.parts.d true) s x u → x.readImage u = .ok (bs, v) →
      ((List.range 64).map (imageRow bs)).all imageRowOk = true →
      ∃ t, exec (.wlld r) s = .next (advance x
        (v.countLoad x.p { writes := [], list := some (wlOf x.parts.d, t) }))) ∧
    (∀ bs v, Goes (.wlmerge r) (fun x u => x.listCheck u x.parts.d true) s x u → x.readImage u = .ok (bs, v) →
      (∀ i < 64, imageRowOk (imageRow bs i) = true) →
      (∀ i < 64, statCount (x.row v (wlOf x.parts.d) i).stat = 0 ∨ statCount (imageRow bs i).2 = 0 ∨
        statK (x.row v (wlOf x.parts.d) i).stat = statK (imageRow bs i).2) →
      exec (.wlmerge r) s = .next (advance x ((List.range 64).foldl (fun v i =>
        setRow x (wlOf x.parts.d) i (mergeRow (x.row v (wlOf x.parts.d) i) (imageRow bs i)) v) v)))) ∧
  (∀ r s x u y d, Goes (.kvld r) noCheck s x u →
    x.lanes ≠ [] → (∀ l ∈ x.lanes, (x.byPointer u .load l (x.pair x.parts.a)).res = .ok y) → rawLike y.fmt = true →
    (x.pair x.parts.a).toNat % 64 = 0 →
    x.watch u 7 64 (x.lanes.map fun l => (l, x.pair x.parts.a)) = none →
    let u1 := u.commitFills x.agent [y]
    let u2 := if bypasses false y then u1 else u1.fillLine x.team.cluster (x.loadAddr y)
    (∀ i < 64, x.loadPoison u1 (bypasses false y) (x.loadAddr y + i) = false) →
    kvDesc (x.loadNat u2 (bypasses false y) (x.loadAddr y) 64) = some d →
    let live := x.kvLanes.filter d.within
    (∀ k ∈ x.kvLanes, k.off % (fmtBits d.fmt / 8) = 0) →
    (∀ k ∈ live, ∃ z, (x.byPointer u2 .kvmap k.lane (d.entry k)).res = .ok z ∧
      z.fmt = 2 ∧ leafP z.leaf = true) →
    x.watch u2 7 16 (live.map fun k => (k.lane, d.entry k)) = none →
    u2.poison = [] →
    ∃ vals v, vals.map (·.1) = x.lanes ∧ exec (.kvld r) s = .next (advance x (loadInto x 2 vals v)) ∧
      ∀ k ∈ x.kvLanes, d.within k = false → (k.lane, 2 ^ 32) ∈ vals)

end

/-! ### Windows, caches, synchronisation, queues and system instructions -/

namespace Sys2Proof.Claims

open Machine

/-- The window that WMAP leaves until its fill completes (R106, R314). -/
def windowPending (x : Exe) (w : Window) : Window :=
  { w with state := .pending, limit := 0, vbase := BitVec.ofNat 32 ((x.pair x.parts.a).toNat / 2 ^ 16),
           rid := BitVec.ofNat 8 ((x.pair x.parts.a).toNat / 2 ^ 56), since := none }

/-- The core and die of the issuing team. -/
def ownCore (x : Exe) : Nat := x.team.cluster / 4
def ownDie (x : Exe) : Nat := x.team.cluster / 4 / 32

/-- The pieces of the range of an instruction: sA's pointer and B's length (R234, R316). -/
def rangeOf (x : Exe) (u : State) (k : Access) : List (Nat × Nat) :=
  u.rangeSpans x.agent (ownDie x) k (x.pair x.parts.a) x.sB.toNat

/-- PREF's window may not be named by a chaser (R87). -/
def prefCheck (x : Exe) (_ : State) : Option Cause := if x.ch = true ∧ x.parts.win ≠ 0 then some .general else none

/-- UNBIND's check (R323). -/
def unbindCheck (x : Exe) (_ : State) : Option Cause := if 16 < x.parts.s then some .general else none

/-- GBAR needs a cooperative launch (R328). -/
def gbarCheck (x : Exe) (_ : State) : Option Cause := if x.launch.co = true then none else some .general

/-- The barrier that A names, its record, and whether this team has arrived in its round (R326, R327). -/
def barrierNo (x : Exe) : Nat := x.parts.a.toNat % 64
def barrierRec (x : Exe) : Bar := x.crew.bar (barrierNo x)
def arrived (x : Exe) : Bool := (barrierRec x).bitmap.getLsbD x.p.team

/-- A second arrival in one round is refused (R327). -/
def secondArrival (x : Exe) (_ : State) : Option Cause :=
  if (barrierRec x).abandoned = false ∧ arrived x = true then some .general else none

/-- The release that an arrival is, and the arrival (R126, R326). -/
def arriveAt (x : Exe) (u : State) : State :=
  (u.releaseObj x.p x.crew x.team (barrierObj (barrierNo x))).barArrive x.p.crew x.p.team (barrierNo x)

/-- The status register that a wait writes, unless W = 1. -/
def statusReg? (x : Exe) : Option Nat := if x.parts.w then none else some (x.regNum .s x.parts.d)

/-- The word of a sync object that ACQ, REL reach: translated, aligned and of a 64-bit format, with no watchpoint
(R96, R117). -/
def SyncReaches (x : Exe) (u : State) (y : Phys) : Prop :=
  x.watch u 9 8 (x.uniformLanes.map fun l => (l, x.pair x.parts.a)) = none ∧
  x.uniform u .atomic (x.pair x.parts.a) syncCheck = .ok y

/-- The queue of a push and of a pop, and what the team holds there. -/
def pushQ (x : Exe) : Nat := x.parts.d.toNat % 64
def popQ (x : Exe) : Nat := x.parts.a.toNat % 64
def heldIn (u : State) (p : Party) (q : Nat) : Nat := ((u.team? p).map fun t => (t.queue q).entries.length).getD 0

/-- The values that one pass pushes (R262). -/
def passVals (x : Exe) (g : Nat) : List DWord :=
  (x.lanes.filter fun l => l / 32 == g).map fun l =>
    if x.parts.s = 2 then (x.v x.parts.a l).setWidth 64 else x.vPair x.parts.a l

/-- One pass is done, and what it has moved is known. -/
def passDone (x : Exe) (es : List DWord) (u : State) : State :=
  u.updClause x.p fun c => { c with moved := c.moved + 1, taken := c.taken ++ es }

/-- A push of one word or one pair, and of one pass (R262). -/
def pushOne (x : Exe) (u : State) : State :=
  setResult x .none (pushQueue x (pushQ x)
    [if x.parts.s = 0 then (x.s x.parts.a).setWidth 64 else x.pair x.parts.a] u)
def pushPass (x : Exe) (g : Nat) (u : State) : State :=
  setResult x .none (passDone x (passVals x g) (pushQueue x (pushQ x) (passVals x g) u))

/-- A pop into one register or one pair (R262). -/
def popOne (x : Exe) (u : State) : State :=
  let r := popQueue x (popQ x) 1 u
  if x.parts.s = 0 then writeScalar x x.parts.d (r.1.getD 0 0).lo r.2 else storePair x (r.1.getD 0 0) r.2

/-- A pop of one pass: the lanes take the entries in ascending order, the low words, and the high words of .LANED (R262). -/
def popPassOf (x : Exe) (g : Nat) (u : State) : State :=
  let r := popQueue x (popQ x) (x.lanes.filter fun l => l / 32 == g).length u
  let v := passDone x r.1 r.2
  let lo := (x.lanes.zip r.1).map fun e => (e.1, e.2.lo)
  let hi := (x.lanes.zip r.1).map fun e => (e.1, e.2.hi)
  setResult x (vectorLatch x (x.regNum .v x.parts.d) lo) (if x.parts.w then v else v.updTeam x.p fun t =>
    let t1 := t.writeLanes (x.regNum .v x.parts.d) lo
    if x.parts.s = 3 then t1.writeLanes (x.regNum .v x.parts.d + 1) hi else t1)

/-- The party holds its slot at a queue that cannot move; one that a debug session stops rests there instead (R91, R164). -/
def heldAtQueue (x : Exe) (u : State) : State :=
  if x.team.stopReq then ((holdSlot x.p .queue u).restQueue x.p).debugRest x.p else holdSlot x.p .queue u

/-- Nothing of the instruction has moved yet. -/
def NothingMoved (x : Exe) (u : State) : Prop :=
  x.cl.moved = 0 ∧ ((u.team? x.p).bind fun t => (t.thread x.p.kind).issue).map (·.taken) = some []

/-- What TRLD reads and TRST writes: the item that A and B name (R351, R352). -/
def itemOf (x : Exe) : Option (Nat × Nat × Nat) :=
  let a := (x.s x.parts.a).toNat
  if a < 1048576 then some (a / 65536, a % 65536, x.sB.toNat) else none

/-- FINJ's flipped register (R177, R354): bit `k` in lane `l`. -/
def injected (x : Exe) (t : Team) : Team :=
  let l := (x.s x.parts.a).toNat
  let bit : Word := BitVec.ofNat 32 (2 ^ x.sB.toNat)
  match x.parts.fx with
  | 0 => t.setLanes (x.regNum .v x.parts.d) [(l, t.readV (x.regNum .v x.parts.d) l ^^^ bit)]
  | 1 => { t with th := t.th.writeS (x.regNum .s x.parts.d) (t.th.readS (x.regNum .s x.parts.d) ^^^ bit) }
  | 2 => { t with m := t.m.write 0 (base x.parts.d) (t.readM (base x.parts.d) ^^^ Mask.one l) }
  | _ => t.writeN (x.regNum .n x.parts.d) (t.groupStrands (t.groupOf l))
      (t.readN (x.regNum .n x.parts.d) (t.span * t.groupOf l) ^^^ bit.setWidth 16)

end Sys2Proof.Claims

section

open Sys2Proof Sys2Proof.Machine Sys2Proof.Claims

/-- R106, R233, R234, R314 to R316: windows, prefetch, write-back, invalidation and pins. -/
def Obligations.WindowAndCacheResults : Prop :=
  ∀ f rs mw,
    Does (.wmap f) noCheck (fun x u => u.updTeam x.p fun t =>
      t.setWindow (base x.parts.d) (windowPending x (t.window (base x.parts.d)))) ∧
    Does (.winv rs) noCheck (fun x u => u.updTeam x.p fun t =>
      t.setWindow (base x.parts.d) { t.window (base x.parts.d) with state := .invalid, since := none }) ∧
    Does (.pref mw) prefCheck (fun x u =>
      if x.ch = false ∧ x.win.state = .invalid then u
      else
        let ok := (okLanes (x.byteAccess u .load)).filter fun e => bypasses false e.2 == false
        let u1 := u.commitFills x.agent (ok.map (·.2))
        if x.parts.fx = 1 then u1
        else ok.foldl (fun v e => v.fillLine x.team.cluster (x.loadAddr e.2)) u1) ∧
    Does (.cwb f) noCheck (fun x u => u.writeBack x.team.cluster
      (if x.parts.fx = 1 then fun _ => true else inSpans (rangeOf x u .load))) ∧
    Does (.cinv f) noCheck (fun x u =>
      if x.parts.fx = 0 then u.invalidate x.team.cluster (inSpans (rangeOf x u .load))
      else ((List.range Config.cores).filter (inScope x.scope (ownCore x))).foldl
        (fun v c => v.dropCode c (inSpans (u.rangeSpans x.agent (c / 32) .fetch (x.pair x.parts.a) x.sB.toNat))) u) ∧
    Does (.ipref f) noCheck (fun x u =>
      (spanLines (rangeOf x u .fetch)).foldl (fun v l => v.fillCore (ownCore x) l) (x.markCode u)) ∧
    Does (.ipin f) noCheck (fun x u =>
      let r := (spanLines (rangeOf x u .fetch)).foldl (fun (acc : State × Nat) l =>
        ((acc.1.pinLine (ownCore x) x.crew.launch l).1,
         acc.2 + (acc.1.pinLine (ownCore x) x.crew.launch l).2.toNat)) (x.markCode u, 0)
      writeScalar x x.parts.d (BitVec.ofNat 32 r.2) r.1) ∧
    Does (.iunpin f) noCheck (fun x u => u.updCore (ownCore x) fun k =>
      { k with pins := k.pins.filter fun e => !inSpans (rangeOf x u .fetch) e.1 })

/-- R117 to R120, R122, R128, R322 to R325: ACQ, REL, BIND, UNBIND, the fences and SHOOT; in a touchstone pair ACQ, REL and the
fences once for both copies (R176). -/
def Obligations.OrderingResults : Prop :=
  ∀ f rs z,
    (∀ s x u y fin stop, GoesMeet (.acq f) noCheck s x u fin stop → SyncReaches x u y →
      let u1 := ((u.commitFills x.agent [y]).evictLine x.team.cluster (y.addr / 128)).unview (ownDie x)
        (fun a => y.addr ≤ a && a < y.addr + 8)
      (∀ i < 8, u1.poisoned (y.addr + i) = false) →
      let v : DWord := BitVec.ofNat 64 (u1.readNat y.addr 8)
      exec (.acq f) s = .next (fin (setResult x (.scalar v.lo)
        ((u1.acquireObj x.crew x.team (x.pair x.parts.a) x.scope).countLoad x.p
          { writes := if x.parts.w then []
              else [.scalar (x.regNum .s x.parts.d) v.lo, .scalar (x.regNum .s x.parts.d + 1) v.hi] })))) ∧
    (∀ s x u y fin stop, GoesMeet (.rel f) noCheck s x u fin stop → SyncReaches x u y →
      let u1 := ((((u.commitFills x.agent [y]).releaseObj x.p x.crew x.team (x.pair x.parts.a)).evictLine
          x.team.cluster (y.addr / 128)).writeBytes y.addr (bytesOf 8 x.relValue.toNat)).unview (ownDie x)
        (fun a => y.addr ≤ a && a < y.addr + 8)
      exec (.rel f) s = .next (fin
        { u1 with released := u1.released.write 0 y.addr (max x.scope (u1.released.read 0 y.addr)) })) ∧
    Does (.bind f) bindCheck (fun x u =>
      writeScalar x x.parts.d (BitVec.ofNat 32 (x.team.emptyOwn.getD 0)) (u.updTeam x.p fun t =>
        t.setOwn (x.team.emptyOwn.getD 0)
          { obj := x.pair x.parts.a, base := x.pair x.parts.b, len := (x.pair x.parts.c).setWidth 40 })) ∧
    Does (.unbind rs) unbindCheck (fun x u => u.updTeam x.p fun t =>
      if x.parts.s = 16 then { t with own := [] } else t.setOwn x.parts.s {}) ∧
    DoesMeet (.fence z) noCheck (fun x u => u.fenceSC x.p x.team.cluster x.scope) ∧
    DoesMeet (.fencePt z) noCheck (fun x u => (u.drainTeam x.p).unview (ownDie x) fun _ => true) ∧
    Does (.shoot f) noCheck (fun x u =>
      let u1 := (u.drainTeam x.p).unview (ownDie x) fun _ => true
      if x.sB.toNat = 0 then u1
      else waitFrom x (.shoot x.crew.ctx ((x.pair x.parts.a).toNat / 2 ^ 16 % 2 ^ 32) x.sB.toNat x.scope) u1)

/-- R326, R327, R328, R348: BAR, BARA, BARW, GBAR and PHASE. R326: an arrival raises the count and sets the team's bit;
once every team that has not retired has arrived, the phase inverts and the count and the bitmap return to 0. -/
def Obligations.Barriers : Prop :=
  (∀ rs z,
    DoesMeet (.bar rs) secondArrival (fun x u =>
      if (barrierRec x).abandoned then writeScalar x x.parts.d 1 u
      else arriveAt x (waitFrom x (.bar (barrierNo x) (statusReg? x)) u)) ∧
    DoesMeet (.bara rs) secondArrival (fun x u =>
      if (barrierRec x).abandoned then writeScalar x x.parts.d 1 u else writeScalar x x.parts.d 0 (arriveAt x u)) ∧
    DoesMeet (.barw rs) noCheck (fun x u =>
      if (barrierRec x).abandoned then writeScalar x x.parts.d 1 u
      else if arrived x then waitFrom x (.bar (barrierNo x) (statusReg? x)) u
      else writeScalar x x.parts.d 0 (u.acquireBar x.crew x.team (barrierNo x))) ∧
    DoesMeet (.gbar z) gbarCheck (fun x u =>
      if u.treeGone x.launch then writeScalar x x.parts.c 1 u
      else joinTree x .gbar (.gbar (x.regNum .s x.parts.c)) u) ∧
    DoesMeet (.phase rs) noCheck (fun x u =>
      if u.treeGone x.launch then writeScalar x x.parts.d (BitVec.ofNat 32 x.team.phase ||| 0x80000000) u
      else joinTree x .phase (.phase (statusReg? x)) u)) ∧
  (∀ (s : State) (crew team k : Nat) (c : Crew), s.crews.get? crew = some c → (c.bar k).abandoned = false →
    ∃ c', (s.barArrive crew team k).crews.get? crew = some c' ∧
      c'.bar k = (if c.teams.all fun t => t.2.retired || ((c.bar k).bitmap ||| 1#16 <<< team).getLsbD t.1
        then { c.bar k with count := 0, bitmap := 0, phase := !(c.bar k).phase }
        else { c.bar k with count := (c.bar k).count + 1, bitmap := (c.bar k).bitmap ||| 1#16 <<< team }))

/-- R88, R89, R223, R262: QPUSH and QPOP with room or with entries; a pop that no producer can serve traps, and one that
must wait holds the slot. QUEUE_UNBLOCK: the push or pop with which a party holds its slot goes on once there is room, or
an entry: the one-entry forms, and the lane-distributed forms of one pass. A trailing copy takes QUEUE_STARVED where its
leading copy took it (R371). -/
def Obligations.QueueResults : Prop :=
  (∀ f s x u,
    (GoesFrom (.qpush f) pushCheck s x u →
      (x.starvedLead u = false →
        (x.parts.s ≤ 1 → heldIn u x.p (pushQ x) < 32 → exec (.qpush f) s = .next (advance x (pushOne x u))) ∧
        (∀ g, 2 ≤ x.parts.s → x.passes = [g] → x.cl.moved = 0 → heldIn u x.p (pushQ x) + (passVals x g).length ≤ 32 →
          exec (.qpush f) s = .next (advance x (pushPass x g u))) ∧
        (2 ≤ x.parts.s → x.cl.moved = 0 → (x.team.queue (pushQ x)).role ≠ 5 → x.pair? u = none →
          heldIn u x.p (pushQ x) + x.lanes.length ≤ 32 → ∃ v, exec (.qpush f) s = .next (advance x v)) ∧
        (x.parts.s ≤ 1 → heldIn u x.p (pushQ x) = 32 → x.p.kind ≠ .trail → exec (.qpush f) s = .next (heldAtQueue x u))) ∧
      (x.starvedLead u = true → x.parts.s ≤ 1 → exec (.qpush f) s =
        .next (takeTrap x.p x.cl.path (x.trapOf .queueStarved) (noteStarved x u)))) ∧
    (GoesFrom (.qpop f) popCheck s x u →
      (x.starvedLead u = false →
        (x.parts.s ≤ 1 → 1 ≤ heldIn u x.p (popQ x) → exec (.qpop f) s = .next (advance x (popOne x u))) ∧
        (∀ g, 2 ≤ x.parts.s → x.passes = [g] → NothingMoved x u →
          (x.lanes.filter fun l => l / 32 == g).length ≤ heldIn u x.p (popQ x) →
          exec (.qpop f) s = .next (advance x (popPassOf x g u))) ∧
        (x.parts.s ≤ 1 → heldIn u x.p (popQ x) = 0 → x.p.kind ≠ .trail → exec (.qpop f) s = .next
          (if x.team.starved (x.team.queue (popQ x)).role
           then takeTrap x.p x.cl.path (x.trapOf .queueStarved) (noteStarved x u) else heldAtQueue x u))) ∧
      (x.starvedLead u = true → x.parts.s ≤ 1 → exec (.qpop f) s =
        .next (takeTrap x.p x.cl.path (x.trapOf .queueStarved) (noteStarved x u))))) ∧
  (∀ p s f x0 since x u,
    (s.queueHold p = some (.qpush f, x0, since) → GoesFrom (.qpush f) pushCheck { s with turn := some p } x u →
      x.starvedLead u = false →
      (x.parts.s ≤ 1 → heldIn u p (pushQ x) < 32 → exec (.queueUnblock p) s = .next (advance x (pushOne x u))) ∧
      (∀ g, 2 ≤ x.parts.s → x.passes = [g] → x.cl.moved = 0 → heldIn u p (pushQ x) + (passVals x g).length ≤ 32 →
        exec (.queueUnblock p) s = .next (advance x (pushPass x g u)))) ∧
    (s.queueHold p = some (.qpop f, x0, since) → GoesFrom (.qpop f) popCheck { s with turn := some p } x u →
      x.starvedLead u = false →
      (x.parts.s ≤ 1 → 1 ≤ heldIn u p (popQ x) → exec (.queueUnblock p) s = .next (advance x (popOne x u))) ∧
      (∀ g, 2 ≤ x.parts.s → x.passes = [g] → NothingMoved x u →
        (x.lanes.filter fun l => l / 32 == g).length ≤ heldIn u p (popQ x) →
        exec (.queueUnblock p) s = .next (advance x (popPassOf x g u)))))

/-- R350 to R356: the trap, debug and touchstone instructions. -/
def Obligations.SystemResults : Prop :=
  ∀ z f rs,
    Does (.trap rs) noCheck (fun x u => takeTrap x.p x.cl.path
      { cause := .software (BitVec.ofNat 7 x.parts.s), mask := x.eff, pos := x.cl.pos, tpc := x.cl.hdr, retry := false,
        info := BitVec.ofNat 32 x.parts.s } u) ∧
    Does (.tret z) noCheck (fun x u => returnFromTrap x.p x.cl.path u) ∧
    Does (.snap z) noCheck (fun x u => u.trigger (.snap x.crew.ctx)) ∧
    Does (.trld f) trldCheck (fun x u => storePair x
      (((itemOf x).bind fun i => u.readItem x.p i.1 i.2.1 i.2.2).getD 0) u) ∧
    Does (.trst f) trstCheck (fun x u =>
      ((itemOf x).bind fun i => u.writeItem x.p i.1 i.2.1 i.2.2 (x.pair x.parts.d)).getD u) ∧
    Does (.bpset f) noCheck (fun x u => u.updTeam x.p fun t =>
      let old := t.bpReg (base x.parts.d)
      let r : DebugReg := if x.parts.fx = 1 then { old with val := old.val &&& ~~~1 }
        else { val := x.pair x.parts.a <<< 16 ||| 1, mask := x.m x.parts.b }
      { t with bp := t.bp.write {} (base x.parts.d) r }) ∧
    Does (.wpset f) wpsetCheck (fun x u => u.updTeam x.p fun t =>
      let old := t.wpReg (base x.parts.d)
      let start := (x.pair x.parts.a).toNat % 2 ^ 48
      let blocks := (start % 64 + (x.s x.parts.c).toNat + 63) / 64
      let r : DebugReg := if x.parts.fx = 0 then { old with val := old.val &&& ~~~1 }
        else { val := BitVec.ofNat 64 (start / 64 * 2 ^ 22 + (blocks - 1) * 2 ^ 10 + x.parts.fx * 2 ^ 7 + 1),
               mask := x.m x.parts.b }
      { t with wp := t.wp.write {} (base x.parts.d) r }) ∧
    Does (.step rs) noCheck (fun x u => u.updTeam x.p fun t =>
      { t with stepctl := (t.stepctl &&& ~~~1) ||| BitVec.ofNat 32 x.parts.s }) ∧
    Does (.finj f) finjCheck (fun x u => u.updTeam x.p (injected x)) ∧
    Does (.tbrd f) noCheck (fun x u => storePair x
      (if x.parts.fx = 0 then x.now
       else ((x.team.engines.find? fun e => !e.done && e.quad == x.regNum .s x.parts.a).map (·.promise)).getD 0) u) ∧
    Does (.tsbegin z) (fun x _ => if x.team.role = .off then none else some .general)
      (fun x u => waitFrom x .tsPlace u) ∧
    DoesMeet (.tsend z) noCheck (fun x u =>
      if x.team.role = .off then u
      else (u.dropPair x.p).updTeam x.p fun t => { t with role := .off, tsRetry := 0 })

end

/-! ### Engine and spawn instructions -/

namespace Sys2Proof.Claims

open Machine

/-- The engine counter, the command queue and the launch's store count have room (R57, R222, R329). -/
def EngineRoom (x : Exe) (u : State) (role : BitVec 3) (stores : Nat) : Prop :=
  (x.team.engines.filter (!·.stopped)).length < 63 ∧
  (∀ q, x.team.queueOfRole role = some q → (x.team.queue q).entries.length < 32) ∧
  (∀ e, (u.core x.crew.core).track.get? x.crew.launch = some e → e.stores + stores ≤ 0xFFFFFFFF)

/-- What the issue of an engine operation does to its issuer (R125, R222, R329): accesses over its ranges are performed
and written back, the promise goes to the quad's upper pair and to the latch, and the operation is counted. -/
def issued (x : Exe) (copy : Bool) (promise : DWord) (sp : List (Nat × Nat)) (u : State) : State :=
  let q := x.regNum .s x.parts.d
  let u1 : State := { u with nextOp := u.nextOp + 1 }
  setResult x (.scalar promise.lo)
    (((u1.settleTeam x.p).writeBack x.team.cluster (inSpans sp)).updTeam x.p fun t =>
      { t with th := (t.th.writeS (q + 2) promise.lo).writeS (q + 3) promise.hi,
               engines := t.engines ++ [{ op := u.nextOp, copy := copy, quad := q, promise := promise }] })

/-- A Cupel operation accepted with a promise of T0 + `ticks` (R151, R329): T0 is the later of the time base and the
promise of the operation before it. -/
def cupelIssued (x : Exe) (kind : CupelKind) (b : List Word) (ticks count : Nat) (sp : List (Nat × Nat)) (u : State) :
    State :=
  let core := x.crew.core
  let promise := later u.now (u.core core).cupelPromise + BitVec.ofNat 64 ticks
  let held := u.holdsPair (blockPair b) && (match kind with | .epiMem | .epiReg .. => false | _ => true)
  let op : CupelOp :=
    { crew := x.p.crew, team := x.p.team, ctx := x.crew.ctx, launch := x.crew.launch, kind := kind, block := b,
      home := core, sat := x.parts.md.sat, quad := x.regNum .s x.parts.d, opId := u.nextOp, ticks := ticks,
      promise := promise, held := held, since := if held then some u.now else none }
  ((issued x false promise sp u).addStores core x.crew.launch count).updCore core fun k =>
    { k with cupel := k.cupel ++ [op], cupelPromise := promise }

/-- The words of the block from A (R338). -/
def blockOf (x : Exe) (n : Nat) : List Word := (List.range n).map fun i => x.th.readS (x.regNum .s x.parts.a + i)

/-- The slice of XCOPY's block: source, destination, length, offset and planes (R334). -/
def copySlice (x : Exe) (u : State) : Slice :=
  let b := blockOf x 6
  { team := x.p.team, src := Word.pair (b.getD 0 0) (b.getD 1 0), dst := Word.pair (b.getD 2 0) (b.getD 3 0),
    len := (b.getD 4 0).toNat, off := (b.getD 5 0).toNat / 65536, dp := (b.getD 5 0).getLsbD 1,
    sp := (b.getD 5 0).getLsbD 0, mask := x.sB.toNat % 65536, quad := x.regNum .s x.parts.d, opId := u.nextOp,
    promise := 0, cluster := x.team.cluster }

/-- The slice of XRED's block (R336). -/
def reduceSlice (x : Exe) (u : State) : Slice :=
  let b := blockOf x 7
  { team := x.p.team, src := Word.pair (b.getD 0 0) (b.getD 1 0), dst := Word.pair (b.getD 2 0) (b.getD 3 0),
    len := (b.getD 4 0).toNat, off := (b.getD 6 0).toNat / 65536, dp := false, sp := (b.getD 6 0).getLsbD 0,
    mask := 2 ^ x.p.team, quad := x.regNum .s x.parts.d, opId := u.nextOp, promise := 0, cluster := x.team.cluster }

/-- A copy-engine operation of one team, accepted by the core's copy engine at once (R329, R331, R335). -/
def copyIssued (x : Exe) (sl : Slice) (reduce : Option (BitVec 3 × BitVec 5 × Bool × Word)) (u : State) : State :=
  let core := x.crew.core
  let promise := later u.now (u.core core).copyPromise + BitVec.ofNat 64 (u.copyTicks x.crew.ctx sl sl.len)
  let sp := x.pieces { u with nextOp := u.nextOp + 1 } sl.sp sl.src sl.len ++
    x.pieces { u with nextOp := u.nextOp + 1 } sl.dp sl.dst sl.len
  ((issued x true promise sp u).addStores core x.crew.launch ((sl.len + 255) / 256)).acceptCopy
    { crew := x.p.crew, ctx := x.crew.ctx, launch := x.crew.launch, slices := [{ sl with promise := promise }],
      mask := 2 ^ x.p.team, startAt := x.exchangeTick u sl.off, reduce := reduce }

/-- The A rows that a loop's block names lie in the plane, or come from the feed (R137). -/
def RowsReach (x : Exe) (u : State) (b : List Word) : Prop :=
  blockAq b = true ∨ ∀ r < blockM b,
    u.planeFault x.crew x.launch.scratch (blockWord b 1 + r * blockWord b 2) (rowBytes b) = none

end Sys2Proof.Claims

section

open Sys2Proof Sys2Proof.Machine Sys2Proof.Claims

/-- R332, R333, R343, R346, R347: REPACK, CHGO, CHSTOP, QCFG, QSTAT and CSTAT.
That CHGO and CHSTOP of a trailing copy do nothing is the model's choice (log 19). -/
def Obligations.ChaserAndQueries : Prop :=
  (∀ z f,
    (∀ s x u, Goes (.repack z) repackCheck s x u →
      ((u.core x.crew.core).cupel.any fun o => o.crew == x.p.crew && o.team == x.p.team &&
        (match o.kind with | .epiReg _ _ => true | _ => false)) = false →
      exec (.repack z) s = .next (advance x (((u.drainLoads x.p).moveLanePoison x.p x.order).updTeam x.p fun t =>
        t.repack x.order x.cl.path (min 32 x.launch.vregs)))) ∧
    Does (.chgo f) chgoCheck (fun x u =>
      if x.p.kind = .trail then u
      else u.updTeam x.p fun t => { t with chaser :=
        if x.parts.fx = 0 then t.chaser.start (x.pair x.parts.a)
        else { t.chaser with run := .running, seq := false } }) ∧
    Does (.chstop z) noCheck (fun x u => if x.p.kind = .trail then u else u.stopChaser x.p) ∧
    (∀ (s : State) (p : Party) (t : Team), s.team? { p with kind := .chaser } = some t →
      t.chaser.run = .running →
      ∃ t', (s.stopChaser p).team? { p with kind := .chaser } = some t' ∧ t'.chaser.run = .stopped)) ∧
  (∀ rs,
    Does (.qcfg rs) qcfgCheck (fun x u => u.updTeam x.p fun t =>
      t.setQueue (base x.parts.d) { role := BitVec.ofNat 3 x.parts.s, entries := [] }) ∧
    Does (.qstat rs) noCheck (fun x u => writeScalar x x.parts.d (BitVec.ofNat 32
      ((x.team.queue (base x.parts.a)).entries.length + 256 * (x.team.queue (base x.parts.a)).role.toNat)) u) ∧
    Does (.cstat rs) noCheck (fun x u => writeScalar x x.parts.d
      (if x.parts.s = 0 then BitVec.ofNat 32 (x.team.outstanding false)
       else if x.parts.s = 1 then
         (if (u.core x.crew.core).tileOwner = some (x.p.crew, x.p.team) ∨ x.crew.tile.map (·.1) = some x.p.team then 1 else 0)
       else BitVec.ofNat 32 (x.team.outstanding true)) u))

/-- R151, R329, R338 to R342: WBLOAD, MLOOP, CBIN, CTOPK and CEPI are accepted with their promises.
In a touchstone pair the leading copy issues them once for both (R176). The places of the chunks are as log 17 says. -/
def Obligations.CupelIssue : Prop :=
  ∀ f s x u fin stop,
    (GoesMeet (.wbload f) wbloadCheck s x u fin stop → EngineRoom x u 6 0 →
      let b := blockOf x 6
      let n := blockWord b 5 % 65536
      let rate := (u.endRate x.crew.ctx false (loadPtr b)).1
      exec (.wbload f) s = .next (fin (cupelIssued x .wbload b
        (2 * (64 + (n * columnData (blockPair b) (blockS b) + rate - 1) / rate)) 0
        ((List.range n).flatMap fun j => x.pieces u false (loadColumn b j) (columnData (blockPair b) (blockS b))) u))) ∧
    (GoesMeet (.mloop f) (denseCheck false) s x u fin stop → EngineRoom x u 6 0 → RowsReach x u (blockOf x 5) →
      exec (.mloop f) s = .next (fin (cupelIssued x .dense (blockOf x 5) (denseTicks (blockOf x 5)) 0 [] u))) ∧
    (GoesMeet (.cbin f) (denseCheck true) s x u fin stop → EngineRoom x u 6 0 → RowsReach x u (blockOf x 5) →
      exec (.cbin f) s = .next (fin (cupelIssued x (.bin (x.parts.fx == 1)) (blockOf x 5)
        (denseTicks (blockOf x 5)) 0 [] u))) ∧
    (GoesMeet (.ctopk f) ctopkCheck s x u fin stop → EngineRoom x u 6 0 → RowsReach x u (blockOf x 11) →
      let b := blockOf x 11
      exec (.ctopk f) s = .next (fin (cupelIssued x (.topk (base x.parts.b)) b
        (2 * (128 + 4 * blockS b + (blockWord b 5 + 63) / 64 * blockS b * u.topkClocks x.crew.ctx b)) 0
        (x.keyPieces u b) u))) ∧
    (GoesMeet (.cepi f) noCheck s x u fin stop → cepiBad x = none → x.parts.fx = 0 →
      x.regNum .v x.parts.b + x.epiRegs (blockM (blockOf x 2)) ≤ x.launch.vregs → EngineRoom x u 6 0 →
      exec (.cepi f) s = .next (fin (cupelIssued x (.epiReg x.parts.td (x.regNum .v x.parts.b)) (blockOf x 2)
        (2 * (64 + 16 * blockM (blockOf x 2))) 0 [] u))) ∧
    (∀ rows, GoesMeet (.cepi f) noCheck s x u fin stop → cepiBad x = none → x.parts.fx ≠ 0 →
      u.planeFault x.crew x.launch.scratch (blockWord (blockOf x 2) 1) (8 * blockM (blockOf x 2)) = none →
      u.rowTable x.crew x.launch.scratch (blockWord (blockOf x 2) 1) (blockM (blockOf x 2)) = some rows →
      EngineRoom x u 6 (blockM (blockOf x 2)) →
      exec (.cepi f) s = .next (fin (cupelIssued x .epiMem (blockOf x 2)
        (2 * (64 + 16 * blockM (blockOf x 2)) + if rows.any (u.remoteRow x.crew.ctx) then 3400 else 0)
        (blockM (blockOf x 2)) ((rows.filter (· != 0)).flatMap fun p => x.elemPieces u p 512) u)))

/-- R331, R334 to R337, R344, R345: XCOPY of one team and XRED are accepted by the copy engine with their promises, a
collective XCOPY is issued too; SPAWN appends the records of the active lanes, or waits for room; NODEFL flushes the
node. In a touchstone pair the leading copy issues them once for both (R176).
In which order SPAWNs that wait for one node append is the model's choice (log 20). -/
def Obligations.CopyAndSpawn : Prop :=
  (∀ f s x u fin stop,
    (GoesMeet (.xcopy f) xcopyCheck s x u fin stop → x.copyEnds u (copySlice x u) = none →
      EngineRoom x u 3 (((copySlice x u).len + 255) / 256) →
      (x.sB.toNat % 65536 = 2 ^ x.p.team →
        exec (.xcopy f) s = .next (fin (copyIssued x (copySlice x u) none u))) ∧
      ∃ v, exec (.xcopy f) s = .next (fin v)) ∧
    (GoesMeet (.xred f) xredCheck s x u fin stop →
      ((reduceSlice x u).sp = false ∨ u.planeFault x.crew x.launch.scratch (reduceSlice x u).src.lo.toNat
        (reduceSlice x u).len = none) →
      EngineRoom x u 3 (((reduceSlice x u).len + 255) / 256) →
      exec (.xred f) s = .next (fin (copyIssued x (reduceSlice x u)
        (some (BitVec.ofNat 3 x.parts.fx, BitVec.ofNat 5 x.parts.td, x.sB == 1, x.sAt x.parts.a 5)) u)))) ∧
  (∀ f s x u fin stop k n, GoesMeet (.spawn f) nodeCheck s x u fin stop → x.node u = some k → u.nodes.get? k = some n →
    x.regNum .v x.parts.b + (n.recSize + 3) / 4 ≤ x.launch.vregs → x.storesFull u x.lanes.length = false →
    let u1 := (u.settleTeam x.p).writeBack x.team.cluster (inSpans (x.ringPieces u n))
    let y := u1.refresh x
    let rs := y.lanes.map (y.record n.recSize)
    let u2 := u1.addStores (ownCore x) x.crew.launch rs.length
    exec (.spawn f) s = .next (fin (if rs.length ≤ n.room then (u2.append k (ownCore x) x.crew.launch rs).serveSpawns k
      else waitFrom x (.spawn k) (u2.updNode k fun n =>
        { n with backlog := n.backlog ++ [⟨x.p.crew, x.p.team, ownCore x, x.crew.launch, rs⟩] })))) ∧
  (∀ f s x u k, Goes (.nodefl f) nodeCheck s x u → x.node u = some k → x.p.kind ≠ .trail →
    exec (.nodefl f) s = .next (advance x ((u.flushNode k).serveSpawns k)))

end

/-! ### Encoding, stepping, checks and traps -/

namespace Sys2Proof.Claims

open Machine

/-- The primary opcodes that R229 leaves unassigned, and 0xFF. -/
def unassigned : List Nat :=
  [0x1C, 0x1D, 0x1E, 0x1F, 0x3A, 0x3B, 0x3C, 0x3D, 0x3E, 0x3F, 0x57, 0x58, 0x59, 0x5A, 0x5B, 0x5C, 0x5D, 0x5E, 0x5F,
   0x74, 0x75, 0x76, 0x77, 0x78, 0x79, 0x7A, 0x7B, 0x7C, 0x7D, 0x7E, 0x7F, 0x85, 0x86, 0x87, 0x88, 0x89, 0x8A, 0x8B,
   0x8C, 0x8D, 0x8E, 0x8F, 0x9C, 0x9D, 0x9E, 0x9F, 0xBF, 0xC5, 0xDE, 0xDF, 0xFD, 0xFE, 0xFF]

/-- Words that the spec's listings and tables give, with the instruction each stands for. -/
def listedWords : List (List Word × Instr) :=
  [([0x40080803, 0x31402000, 0x64],
    .vadd { d := 4, a := 2, b := 0, w := false, lit := some 0x64,
             m := some { pmk := 1, pe := true, pn := false, td := 5, ts := 0, rmode := 0, sat := true, scope := 0, fx := 0, c := 0 } }),
   ([0x631207E1, 0x03804043],
    .fma { d := 9, a := 1, b := 124, w := false, lit := none,
           m := some { pmk := 0, pe := false, pn := false, td := 14, ts := 0, rmode := 1, sat := false, scope := 0, fx := 0, c := 67 } }),
   ([0x0A140001, 0x80],
    .sleep { d := 10, imm := 0, w := false, lit := none,
             m := some { pmk := 0, pe := false, pn := false, td := 0, ts := 0, rmode := 0, sat := false, scope := 0, fx := 1, c := 0 } }),
   ([0x1A040018], .srd { d := 2, a := 0, s := 3, w := false, lit := none, m := none }),
   ([0x20040000], .smov { d := 2, a := 0, b := 0, w := false, lit := none, m := none }),
   ([0x210C0400], .smovi { d := 6, imm := 128, w := false, lit := none, m := none }),
   ([0x08000000], .exit { rsv := 0, lit := none, m := none }),
   ([0xDA080000], .bar { d := 4, a := 0, s := 0, w := false, lit := none, m := none }),
   ([0xA0022450], .dcvt { d := 1, a := 9, b := 10, w := false, lit := none, m := none }),
   ([0x00FFFFB0], .bra { off := 0x1FFFF6, rsv := false, lit := none, m := none })]

/-- The instructions that read or write a special register. -/
def special : Instr → Bool
  | .srd _ | .swr _ => true
  | _ => false

/-- The instructions that a chaser may execute, from the list of R87: scalar instructions; uniform control; scalar-width LD,
ST, LDG, STG and PREF; ATOM and CAS; ACQ, REL and FENCE; SRD of 0x03 to 0x18; the uniform forms of QPUSH and QPOP. -/
def chaserRuns (p : Parts) (i : Instr) : Bool :=
  isScalarInteger i || match i with
  | .smovi _ | .sadd64 _ => true
  | .bra _ | .brc _ | .call _ | .ret _ | .loop _ | .jmpi _ | .exit _ | .yield _ | .sleep _ | .wait _ | .nop _ => true
  | .ld _ | .st _ | .ldg _ | .stg _ => decide (p.fx ≠ 2)
  | .pref _ | .atom _ | .cas _ | .acq _ | .rel _ | .fence _ => true
  | .srd _ => decide (0x03 ≤ p.s ∧ p.s ≤ 0x18)
  | .qpush _ | .qpop _ => decide (p.s ≤ 1)
  | _ => false

/-- A party that stands in place of another thread of the same team, or in another team. -/
def Apart (p q : Party) : Prop := p.crew ≠ q.crew ∨ p.team ≠ q.team

/-- Only the thread of party `p` differs between two states, as `R` allows: every other field of the state, every other
crew and team, and everything else of the team are as before; a register written afresh may lose its error (R167). -/
def OnlyThread (p : Party) (s t : State) (R : Thread → Thread → Prop) : Prop :=
  { t with crews := s.crews, poison := s.poison } = s ∧ (∀ e ∈ t.poison, e ∈ s.poison) ∧
  (∀ k, k ≠ p.crew → t.crews.get? k = s.crews.get? k) ∧
  ∃ c c' m m', s.crews.get? p.crew = some c ∧ t.crews.get? p.crew = some c' ∧ { c' with teams := c.teams } = c ∧
    (∀ j, j ≠ p.team → c'.teams.get? j = c.teams.get? j) ∧
    c.teams.get? p.team = some m ∧ c'.teams.get? p.team = some m' ∧
    m' = m.setThread p.kind (m'.thread p.kind) ∧ R (m.thread p.kind) (m'.thread p.kind)

/-- Only the team of `p` differs between two states, as `R` allows, and what a write afresh clears of its errors (R167). -/
def OnlyTeam (p : Party) (s t : State) (R : Team → Team → Prop) : Prop :=
  { t with crews := s.crews, poison := s.poison } = s ∧ (∀ e ∈ t.poison, e ∈ s.poison) ∧
  (∀ k, k ≠ p.crew → t.crews.get? k = s.crews.get? k) ∧
  ∃ c c' m m', s.crews.get? p.crew = some c ∧ t.crews.get? p.crew = some c' ∧ { c' with teams := c.teams } = c ∧
    (∀ j, j ≠ p.team → c'.teams.get? j = c.teams.get? j) ∧
    c.teams.get? p.team = some m ∧ c'.teams.get? p.team = some m' ∧ R m m'

/-- The clause in progress after an instruction that is not its last. -/
def nextPos (x : Exe) (th : Thread) : Option Clause :=
  th.issue.map fun c => { c with pos := c.pos + x.parts.words, hold := none, meet := none, moved := 0, taken := [] }

/-- What a scalar instruction leaves of its thread: every scalar register but the destination, loads, stores, waits and
an interrupted clause. -/
def ScalarKept (x : Exe) (a b : Thread) : Prop :=
  (∀ r, r ≠ x.regNum .s x.parts.d → b.readS r = a.readS r) ∧ (x.parts.w = true → b.s = a.s) ∧
  b.loads = a.loads ∧ b.stores = a.stores ∧ b.waits = a.waits ∧ b.later = a.later ∧ b.issue = nextPos x a

/-- What a vector instruction leaves of its team: every lane of every other register, the inactive lanes of its
destination, every norm but the destination's, and everything that is no v register, norm or latch. -/
def VectorKept (x : Exe) (a b : Team) : Prop :=
  (∀ r l, l < 1024 → (r ≠ x.regNum .v x.parts.d ∨ l ∉ x.lanes) → b.readV r l = a.readV r l) ∧
  (x.parts.w = true → b.v = a.v ∧ b.n = a.n) ∧
  (∀ r g, g < 32 → r ≠ x.regNum .v x.parts.d → b.readN r g = a.readN r g) ∧
  b.th.s = a.th.s ∧ b.th.issue = nextPos x a.th ∧
  { b with v := a.v, n := a.n, th := { b.th with latches := a.th.latches, issue := a.th.issue } } = a

/-- The addresses that the elements of a store take (R310, R311): each element's bytes with its block's scale, in every
copy of a replicated page. -/
def StoredAt (x : Exe) (as : List LaneAddr) (a : Nat) : Prop :=
  ∃ e ∈ as.filterMap (elemOf? x), ∃ b ∈ e.bytes e.phys.addr,
    a = b ∨ (e.phys.pm = true ∧ ∃ d < 12, a = b + d * 0x1000000000)

/-- The conditions under which an access changes nothing but what it stores or loads: outside a pair, no walk to commit,
no earlier store that copies of a replicated page have still to take, and fewer than 63 accesses of its kind in flight. -/
def Quiet (x : Exe) (u : State) (as : List LaneAddr) : Prop :=
  x.pair? u = none ∧ u.replicas = [] ∧ (∀ a ∈ as, ∀ y, a.res = .ok y → y.fill = none) ∧
  ∃ t, u.team? x.p = some t ∧ (t.thread x.p.kind).loads.length < 63 ∧ (t.thread x.p.kind).stores.length < 63

end Sys2Proof.Claims

section

open Sys2Proof Sys2Proof.Machine Sys2Proof.Claims

/-- R220, R226, R227: decoding the words of any instruction, at every value of its fields, gives it back with the words
after it. -/
def Obligations.DecodeEncode : Prop :=
  ∀ (i : Instr) (rest : List Word), encode i ≠ [] → decode (encode i ++ rest) = .ok (i, rest)

/-- R226, R227, R229: words that decode are the encoding of what they decode to, so each word has one meaning. -/
def Obligations.EncodeDecode : Prop :=
  ∀ (ws : List Word) (i : Instr) (rest : List Word), decode ws = .ok (i, rest) → encode i ++ rest = ws

/-- R220, R226, R227, R229: words of the spec decode to the instructions they stand for; a word whose primary opcode is
unassigned, or 0xFF, decodes to nothing and every other one decodes; an instruction takes one word, one more for its modifier
and one more for its literal. -/
def Obligations.DecodingFacts : Prop :=
  (∀ e ∈ listedWords, decode e.1 = .ok (e.2, [])) ∧
  ((∀ (w : Word) (rest : List Word), w.toNat / 2 ^ 24 ∈ unassigned → decode (w :: rest) = .error (.opcode (w.extractLsb' 24 8))) ∧
  (∀ (w a b : Word) (rest : List Word), w.toNat / 2 ^ 24 ∉ unassigned →
    ∃ i r, decode (w :: a :: b :: rest) = .ok (i, r) ∧ r.length + wordCount w = rest.length + 3)) ∧
  (∀ (i : Instr) (p : Parts), encode i ≠ [] → partsOf i = some p → (encode i).length = p.words ∧ p.words ≤ 3)

/-- R108, R109, R220, R230: when the words at the position of the clause in progress decode, a step is the execution of that
instruction, and words that do not decode take OPCODE; a row of the agenda is executed by the step that takes it; with
neither, the focus cluster chooses a clause. An access that has waited longer than it may ends first. The order of a step is
the model's own choice (log 4), and so is the mask of words that do not decode (log 27). -/
def Obligations.StepRunsDecoded : Prop :=
  (∀ (s : State) (p : Party) (t : Team) (c : Clause), s.agenda = [] → s.turn = some p → s.team? p = some t →
    (t.thread p.kind).issue = some c →
    ((∀ w, s.waitingAccess p = some w → overdue (some w.since) w.remote s.now = false) →
      (∀ i rest, decode (c.words.drop (c.pos - 1)) = .ok (i, rest) → p.kind ≠ .trail ∨ s.trailHeld p i = none →
        step s = exec i s) ∧
      (∀ e, decode (c.words.drop (c.pos - 1)) = .error e → step s = .next (takeTrap p c.path
        { cause := .opcode, mask := if p.kind == .chaser then 1 else (t.path? c.path).elim 0 (·.mask), pos := c.pos,
          tpc := c.hdr } s))) ∧
    (∀ w i rest, s.waitingAccess p = some w → overdue (some w.since) w.remote s.now = true →
      decode (c.words.drop (c.pos - 1)) = .ok (i, rest) → step s = .next w.late)) ∧
  ((∀ (s : State) i rest, s.agenda = .row i :: rest → step s = exec i { s with agenda := rest }) ∧
  (∀ (s : State) n rest, s.agenda = .elapse n :: rest →
    step s = .next (({ s with agenda := rest } : State).answer.elapse n)) ∧
  (∀ s : State, s.agenda = [] → s.turn = none → (s.cluster s.focus).holder = none →
    step s = execClauseIssue s.focus none s))

/-- R6, R92, R231, R233: bytes written read back, little-endian, and every other byte is as before; a code word is fetched
from memory when no cache holds its line, and once cached it stays as it was whatever is stored. -/
def Obligations.MemoryAndCode : Prop :=
  (∀ (s : State) (a : Nat) (bs : List Byte),
    (s.writeBytes a bs).readBytes a bs.length = bs ∧
    (∀ b, b < a ∨ a + bs.length ≤ b → (s.writeBytes a bs).readByte b = s.readByte b) ∧
    (∀ n v, v < 256 ^ n → (s.writeBytes a (bytesOf n v)).readNat a n = v)) ∧
  (∀ (s : State) (cl a : Nat), a % 4 = 0 →
    ((s.cluster cl).icache.get? (a / 128) = none → (s.core (cl / 4)).icache.get? (a / 128) = none →
      s.codeWord cl a = BitVec.ofNat 32 (s.readNat a 4)) ∧
    (s.fillCode cl a).codeWord cl a = s.codeWord cl a ∧
    (∀ b bs, ((s.fillCode cl a).writeBytes b bs).codeWord cl a = s.codeWord cl a))

/-- R20, R21, R24: after reset the module is in standby with nothing placed: the dies at their floors, the pool of 92,000
grains in the token, no contexts, queues, packets, launches or crews, and the time base at 0.
What R74 and the reset of the spec leave open is as log 2 says. -/
def Obligations.ResetState : Prop :=
  State.reset.now = 0 ∧ State.reset.mod.powered = false ∧ State.reset.mod.service = .off ∧
  (∀ d < 12, (State.reset.die d).grains = 4000) ∧ (∀ d, 12 ≤ d → d < 16 → (State.reset.die d).grains = 10000) ∧
  State.reset.token.count = 92000 ∧ State.reset.contexts = [] ∧ State.reset.queues = [] ∧ State.reset.packets = [] ∧
  State.reset.launches = [] ∧ State.reset.crews = [] ∧ State.reset.memWf = true ∧
  (∀ (t : Team), t = {} → (∀ r l, t.readV r l = 0) ∧ (∀ r g, t.readN r g = 0x8000) ∧ t.part = 32 ∧ t.span = 1)

/-- R73, R87, R230, R348, R349: a word that fails a decode check traps with the cause of the first check it fails, whatever
its mask; so do the special registers 0x20 to 0x3F and the privileged instructions outside the handler, every instruction
that is not on the list of those that a chaser may execute, and PHASE in a launch that is not cooperative. -/
def Obligations.IllegalInstructionsTrap : Prop :=
  (∀ i s x c, encode i ≠ [] → s.issuer? i = some x → x.paired s = false → checkInstr x.ch i = some c →
    exec i s = .next (takeTrap x.p x.cl.path { cause := c, mask := x.eff, pos := x.cl.pos, tpc := x.cl.hdr } s)) ∧
  ((∀ i s x c, encode i ≠ [] → s.issuer? i = some x → x.paired s = false → checkInstr x.ch i = none →
    contextFault x i = some c →
    exec i s = .next (takeTrap x.p x.cl.path { cause := c, mask := x.eff, pos := x.cl.pos, tpc := x.cl.hdr } s)) ∧
  (∀ (x : Exe) (rs : RRS), x.team.handler = false → 0x20 ≤ x.parts.s →
    contextFault x (.srd rs) = some .specialReg ∧ contextFault x (.swr rs) = some .specialReg) ∧
  (∀ (x : Exe) (z : FZ) (f : RRR) (rs : RRS), x.team.handler = false → x.ch = false →
    ∀ i ∈ [Instr.shoot f, .tret z, .trld f, .trst f, .bpset f, .wpset f, .step rs, .finj f],
      contextFault x i = some .context) ∧
  (∀ (x : Exe) (i : Instr), x.ch = true → contextFault x i =
    if special i = true ∧ 0x20 ≤ x.parts.s then some .specialReg
    else if chaserRuns x.parts i = true then none else some .context) ∧
  (∀ (x : Exe) (rs : RRS), x.ch = false →
    contextFault x (.phase rs) = if x.launch.co = true then none else some .context))

/-- R157, R230, R79, R225: an instruction goes to its effect exactly when every check of its words, of its issuer and of its
operands passes, its mask is not empty, and what it awaits and reads is there; with an all-zero effective mask a per-lane
instruction only moves on, and its latch holds no value. -/
def Obligations.ChecksInOrder : Prop :=
  ((∀ i oc x s x1 s1, prepare i oc x s = .go x1 s1 ↔
    (checkInstr x.ch i = none ∧ contextFault x i = none ∧ ¬(x.ch = false ∧ perLane i x.parts = true ∧ x.eff = 0) ∧
      x.awaitsEngine s (x.engineOps s i) = false ∧ s1 = x.settleLoads (x.loadOps i) s ∧ x1 = s1.refresh x ∧
      x1.operandStop i (ruleOf x.ch i x.parts).ops (oc x1 s1) = none ∧
      x1.poisoned s1 i = false)) ∧
  (∀ (x : Exe) i ops oc, x.operandStop i ops oc = none ↔
    ((∀ o ∈ ops, x.allotFault o = none ∧ x.operandFault o = none ∧ x.latchFault o = none) ∧ oc = none ∧
      ¬(usesLink i x.parts = true ∧ x.allot .s < 2))) ∧
  (∀ (x : Exe) i ops oc, usesLink i x.parts = true → x.allot .s < 2 →
    x.operandStop i ops oc = some (x.trapOf .allotBounds 1)) ∧
  (∀ (x : Exe) i ops oc r, ¬(usesLink i x.parts = true ∧ x.allot .s < 2) → ops.findSome? x.allotFault = some r →
    x.operandStop i ops oc = some (x.trapOf .allotBounds (BitVec.ofNat 32 r)))) ∧
  ((∀ i s x, s.issuer? i = some x → x.paired s = false → checkInstr x.ch i = none → contextFault x i = none →
    x.ch = false → perLane i x.parts = true → x.eff = 0 → exec i s = .next (advance x (setResult x .none s))) ∧
  (∀ (x : Exe) (o : Opnd) (k : Nat), o.dst = false → ¬(o.pos = .c ∧ x.parts.m = none) →
    latchCode (x.parts.at o.pos) = some k → x.th.latch k = .none → x.latchFault o = some (.stale k)))

/-- R158, R160, R161: a team outside the handler takes a trap: the frame, the fields of tstat, the trap mask in exec, the
handler's entry, the handler bit; registers keep their values. -/
def Obligations.TrapEntries : Prop :=
  (∀ (s : State) (p : Party) (w : Word) (tr : Trap) (c : Crew) (t : Team) (q : Path) (k : Context),
    p.kind = .team → s.crews.get? p.crew = some c → c.teams.get? p.team = some t → t.path? w = some q →
    s.contexts.get? c.ctx = some k → k.handler ≠ 0 → t.handler = false →
    ¬(tr.cause.cls.debug = true ∧ t.stepctl.getLsbD 1 = true) →
    ∃ t', (takeTrap p w tr s).team? p = some t' ∧ t'.handler = true ∧ t'.frame.tstat = tr.tstat ∧
      t'.frame.tpc = tr.tpc ∧ t'.frame.tinfo = tr.info ∧ t'.frame.tpath = q.creation ∧ t'.frame.mask = tr.mask ∧
      t'.frame.exec = q.mask ∧ t'.frame.part = t.part ∧ t'.frame.xv = t.xv ∧ t'.frame.xs = t.xs ∧
      t'.frame.latches = (List.range 4).map t.th.latch ∧
      t'.path? w = some { q with mask := tr.mask, pc := k.handler, handler := true, seq := false } ∧
      t'.th.issue = none ∧ t'.th.s = t.th.s ∧ t'.v = t.v ∧ t'.n = t.n ∧ t'.m = t.m) ∧
  (∀ tr : Trap, tr.causes = [] →
    tr.tstat.extractLsb' 24 8 = tr.cause.cls.code ∧ tr.tstat.extractLsb' 16 8 = tr.cause.code ∧
    tr.tstat.extractLsb' 12 4 = BitVec.ofNat 4 tr.pos ∧ tr.tstat.extractLsb' 10 2 = BitVec.ofNat 2 tr.origin ∧
    tr.tstat.getLsbD 9 = tr.retry ∧ tr.tstat.extractLsb' 0 9 = 0)

/-- R87, R158, R163, R164, R167: with no handler, or in the handler, a trap halts the team; a debug-class trap with
stepctl.DBG stops it instead, its frame written; a chaser's trap stops the chaser and becomes pending for its team, with
ORIGIN 1. -/
def Obligations.TrapsThatStop : Prop :=
  (∀ (s : State) (p : Party) (w : Word) (tr : Trap) (c : Crew) (t : Team) (q : Path),
    p.kind = .team → s.crews.get? p.crew = some c → c.teams.get? p.team = some t → t.path? w = some q →
    (t.handler = true → takeTrap p w tr s = (s.trigger (.trap c.ctx)).haltFor .doubleTrap p) ∧
    (t.handler = false → (∀ k, s.contexts.get? c.ctx = some k → k.handler = 0) →
      ¬(tr.cause.cls.debug = true ∧ t.stepctl.getLsbD 1 = true) →
      takeTrap p w tr s = (s.trigger (.trap c.ctx)).haltFor .halted p) ∧
    (t.handler = false → tr.cause.cls.debug = true → t.stepctl.getLsbD 1 = true →
      ∃ t', (takeTrap p w tr s).team? p = some t' ∧ t'.handler = false ∧ t'.frame.tstat = tr.tstat ∧
        t'.frame.tpc = tr.tpc ∧ .debug ∈ t'.th.waits ∧ t'.path? w = some q)) ∧
  (∀ (s : State) (p : Party) (w : Word) (tr : Trap) (c : Crew) (t : Team), p.kind = .chaser →
    s.crews.get? p.crew = some c → c.teams.get? p.team = some t →
    ∃ t', (takeTrap p w tr s).team? p = some t' ∧ t'.chaser.run = .faulted ∧ t'.chaser.pc = tr.tpc ∧
      t'.chaser.resumePos = tr.pos ∧ t'.chaser.th.issue = none ∧ t'.pending = t.pending ++ [{ tr with origin := 1 }] ∧
      t'.th = t.th)

/-- R158, R159, R242: TRET with more than one handler path halts the team; else the team resumes from its frame; a trap
and the return from it restore the path, its lanes, part, the index registers and the latches, and issue resumes where the
trap was taken. -/
def Obligations.TrapAndReturn : Prop :=
  ((∀ (s : State) (p : Party) (w : Word) (t : Team), s.team? p = some t → 1 < (t.paths.filter (·.handler)).length →
    returnFromTrap p w s = s.haltFor .doubleTrap p) ∧
  (∀ (t : Team) (w : Word) (q : Path), t.path? w = some q →
    (t.resumeFrame w).handler = false ∧ (t.resumeFrame w).part = t.frame.part ∧ (t.resumeFrame w).xv = t.frame.xv ∧
    (t.resumeFrame w).xs = t.frame.xs ∧
    (t.resumeFrame w).path? w = some { q with
      mask := t.frame.exec &&& ~~~t.exited, pc := t.frame.tpc, handler := false, seq := false } ∧
    (t.resumeFrame w).resumeAt = some {
      path := w, pos := (t.frame.tstat.extractLsb' 12 4).toNat,
      retry := t.frame.tstat.getLsbD 9, latches := t.frame.latches } ∧
    (t.resumeFrame w).v = t.v ∧ (t.resumeFrame w).m = t.m ∧ (t.resumeFrame w).n = t.n ∧
    (t.resumeFrame w).th.s = t.th.s ∧
    ((t.resumeFrame w).stepctl.getLsbD 2 = true ↔ (t.stepctl.getLsbD 2 = true ∨
      t.frame.tstat.extractLsb' 24 8 = 0x0B ∨ t.frame.tstat.extractLsb' 24 8 = 0x0C)))) ∧
  (∀ (s : State) (p : Party) (w : Word) (tr : Trap) (c : Crew) (t t' : Team) (q : Path) (k : Context),
    p.kind = .team → s.crews.get? p.crew = some c → c.teams.get? p.team = some t → t.path? w = some q →
    s.contexts.get? c.ctx = some k → k.handler ≠ 0 → t.handler = false → q.handler = false →
    ¬(tr.cause.cls.debug = true ∧ t.stepctl.getLsbD 1 = true) → tr.pos < 16 →
    (takeTrap p w tr s).team? p = some t' →
    (t'.resumeFrame w).path? w = some { q with mask := q.mask &&& ~~~t.exited, pc := tr.tpc, seq := false } ∧
    (t'.resumeFrame w).part = t.part ∧ (t'.resumeFrame w).xv = t.xv ∧ (t'.resumeFrame w).xs = t.xs ∧
    (t'.resumeFrame w).handler = false ∧
    (t'.resumeFrame w).resumeAt = some {
      path := w, pos := tr.pos, retry := tr.retry,
      latches := (List.range 4).map t.th.latch } ∧
    (t'.resumeFrame w).v = t.v ∧ (t'.resumeFrame w).n = t.n ∧ (t'.resumeFrame w).m = t.m ∧
    (t'.resumeFrame w).th.s = t.th.s ∧ (t'.resumeFrame w).frame = t'.frame ∧
    (∀ e ∈ t.paths, e.creation ≠ w → e ∈ (t'.resumeFrame w).paths))

/-- R75, R78, R225, R237, R263: a scalar instruction of R257, or a vector instruction of R265, that is not the last of its
clause changes nothing but its destination (a vector one the active lanes of it and that register's norms), its latch and
the position; every byte of memory reads as before. -/
def Obligations.RegisterFrames : Prop :=
  (∀ i s x u r, isScalarInteger i = true → Goes i noCheck s x u → integerResult x.parts x.sA x.sB x.sC i = some r →
    NotLast x → x.p.kind ≠ .trail → x.team.role = .off →
    ∃ t, exec i s = .next t ∧ OnlyThread x.p u t (ScalarKept x) ∧ (∀ a, t.readByte a = u.readByte a) ∧
      (x.parts.w = false → State.sreg t x.p (x.regNum .s x.parts.d) = r)) ∧
  (∀ i s x u (r : Nat → Word), isVectorInteger i = true → Goes i noCheck s x u →
    (∀ l, integerResult x.parts (x.vA l) (x.vB l) (x.vC l) i = some (r l)) →
    NotLast x → x.p.kind = .team → x.team.role = .off →
    ∃ t, exec i s = .next t ∧ OnlyTeam x.p u t (VectorKept x) ∧ (∀ a, t.readByte a = u.readByte a) ∧
      (x.parts.w = false → ∀ l ∈ x.lanes, State.vreg t x.p (x.regNum .v x.parts.d) l = r l))

/-- R94, R307, R310 to R312: ST, STG and STP leave every byte that they do not store as it was, at its home and as the
cluster reads it, and every register; LD, LDG and LDP leave every byte of memory as it was, and every register until the
load completes. -/
def Obligations.MemoryFrames : Prop :=
  (∀ i mw f s x u as, (i, as) ∈ [(Instr.st mw, x.mwAccess u .store), (.stg f, x.ptrAccess u .store), (.stp f, planeOf x u)] →
    Goes i (match i with | .st _ => windowCheck | _ => noCheck) s x u → NotLast x → x.p.kind = .team →
    x.team.role = .off → Quiet x u as →
    ∀ t, exec i s = .next t → Reaches x as → Unwatched x u 8 (moved x) as →
      partialLanes (as.filterMap (elemOf? x)) = [] →
      (∀ a, ¬StoredAt x as a → t.readByte a = u.readByte a ∧
        t.clusterByte x.team.cluster a = u.clusterByte x.team.cluster a) ∧
      (∀ r l, State.vreg t x.p r l = State.vreg u x.p r l) ∧ (∀ q r, State.sreg t q r = State.sreg u q r)) ∧
  (∀ i mw f s x u as, (i, as) ∈ [(Instr.ld mw, x.mwAccess u .load), (.ldg f, x.ptrAccess u .load), (.ldp f, planeOf x u)] →
    Goes i (match i with | .ld _ => windowCheck | _ => noCheck) s x u → NotLast x → x.p.kind = .team →
    x.team.role = .off → Quiet x u as → (x.parts.fx = 0 ∨ x.parts.fx = 2 ∨ i = .ld mw ∨ i = .ldg f) →
    ∀ t, exec i s = .next t → Reaches x as → Unwatched x u 7 (moved x) as → Unpoisoned x u as →
      (∀ a, t.readByte a = u.readByte a ∧ t.clusterByte x.team.cluster a = u.clusterByte x.team.cluster a) ∧
      (∀ r l, State.vreg t x.p r l = State.vreg u x.p r l) ∧ (∀ q r, State.sreg t q r = State.sreg u q r))

end

/-! ### Events of the board, the ring and the links -/

namespace Sys2Proof.Claims

open Machine

/-- The event completes in some next state of which `P` holds. -/
def Becomes (i : Instr) (s : State) (P : State → Prop) : Prop := ∃ t, exec i s = .next t ∧ P t

/-- The board command's reply stands last in its buffer, and the replies before it are kept. -/
def Replied (s t : State) (b : BoardReply) : Prop := t.mod.replies = s.mod.replies ++ [b]

/-- Nothing runs, is queued, or is open. -/
def Idle (t : State) : Prop :=
  t.mod.service = .off ∧ t.mod.good = false ∧ t.contexts = [] ∧ t.queues = [] ∧ t.packets = [] ∧ t.launches = [] ∧
  t.crews = [] ∧ t.clusters = [] ∧ t.cores = []

/-- What one turn of the token does to a die that holds `h`, with a count of `c`, a use of `used` and a request of
`request` (R20): unused grains above the floor go back first. -/
def afterTurn (die h c used request : Nat) : Nat × Nat :=
  let floor := if die < 12 then 4000 else 10000
  let kept := min h (max used floor)
  let pool := c + (h - kept)
  let wanted := min (request - kept) pool
  let taken := if die < 12 then min wanted (24000 - kept) else wanted
  (kept + taken, pool - taken)

/-- A flit that R15 calls intact: 256 bytes, its crc correct, no rsv value. -/
def Intact (f : List Byte) : Prop :=
  f.length = 256 ∧ crc64 (f.take 248) = le f 248 8 ∧ le f 0 1 ≤ 3 ∧ le f 1 1 ≤ 3 ∧ le f 2 2 < 4096 ∧ le f 4 2 < 4096

/-- The width of another node's atomic, and what it leaves of an old value and its operand (R95, R96, R201, R228). -/
def farBits : RemoteAtomic → Nat
  | .int true _ _ => 64
  | .int false _ _ => 32
  | .fadd => 32
  | .bfadd => 32
  | .cas k _ => 32 * 2 ^ k.val
def farResult (op : RemoteAtomic) (old : Nat) (v : BitVec 128) : Nat :=
  let n := farBits op
  match op with
  | .int _ sg o => atomicResult (aluOp o.toNat 0) n sg old (v.toNat % 2 ^ n)
  | .fadd => atomicResult .fadd n false old (v.toNat % 2 ^ n)
  | .bfadd => atomicResult .bfadd n false old (v.toNat % 2 ^ n)
  | .cas _ c => if old = c.toNat % 2 ^ n then v.toNat % 2 ^ n else old

end Sys2Proof.Claims

section

open Sys2Proof Sys2Proof.Machine Sys2Proof.Claims

/-- R29, R30, R23, R24: the board's commands, and power-good.
What POWER_OFF and HOLD lose, and what the boot inputs are, is the model's choice: logs 1, 3 and 21. -/
def Obligations.BoardEvents : Prop :=
  ∀ s : State,
    Becomes .powerOn s (fun t => t.mod.powered = true ∧ t.mod.held = false ∧ Replied s t .done ∧ t.mem = s.mem) ∧
    Becomes .powerOff s (fun t => t.mod.powered = false ∧ Idle t ∧ Replied s t .done ∧
      ∀ a, t.readByte a = if 0x1000000000000 ≤ a then s.readByte a else 0) ∧
    Becomes .hold s (fun t => t.mod.held = true ∧ Idle t ∧ Replied s t .done ∧ ∀ a, t.readByte a = s.readByte a) ∧
    (∀ temps rails power, Becomes (.sensors temps rails power) s fun t => t = s.reply (.sensors temps rails power) ∧
      Replied s t (.sensors temps rails power)) ∧
    Becomes .status s (fun t => ∃ n, Replied s t (.status n s.mod.bootFail s.mod.duplicate) ∧
      (∀ k, (s.mod.service, k) ∈ [(Service.recovery, 0), (.reduced, 1), (.full, 2), (.degraded, 3)] → n = k)) ∧
    (∀ b, Becomes (.selectSlot b) s fun t => t.mod.firstB = b ∧ Replied s t .done) ∧
    Becomes .snapPin s (fun t => t = (s.trigger .pin).reply .done) ∧
    (∀ c : Byte, c ∉ [0x01, 0x02, 0x10, 0x11, 0x20, 0x21, 0x30] →
      exec (.boardCommandUnknown c) s = .next (s.reply .nack)) ∧
    (s.mod.powered = true → s.mod.held = false → s.mod.good = false →
      Becomes .powerGood s fun t => t.now = 0 ∧ t.mod.good = true ∧
        (let ok (f : FlashSlot) : Bool := f.digestOk && f.signatureOk && decide (s.mod.rollback ≤ f.version)
         if ok s.mod.slotA || ok s.mod.slotB then
           t.mod.hubUp = 0xF ∧ t.mod.bootFail = [] ∧ (s.mod.configOk = false → t.mod.service = .recovery)
         else t.mod.hubUp = 0 ∧ t.mod.bootFail.map (·.1) = [12, 13, 14, 15]))

/-- R20, R21: a token turn conserves the pool, keeps every die at or above its floor and a compute die within its cap;
a die that has lost the token falls to its floor; with every die there, die 12 rebuilds the full pool.
That a hub die has no cap is the model's choice (log 7). -/
def Obligations.GrainRing : Prop :=
  (∀ s used request, s.mod.good = true → s.token.die < 16 → s.roundDue = true →
    Becomes (.tokenTurn used request) s fun t =>
      let r := afterTurn s.token.die (s.die s.token.die).grains s.token.count used request
      (t.die s.token.die).grains = r.1 ∧ t.token.count = r.2 ∧ t.token.die = (s.token.die + 1) % 16 ∧
      (t.die s.token.die).tokenSeen = s.now ∧ (t.die s.token.die).dropped = false ∧
      ∀ d, d ≠ s.token.die → t.die d = s.die d) ∧
  (∀ die h c used request,
    (afterTurn die h c used request).1 + (afterTurn die h c used request).2 = h + c ∧
    ((if die < 12 then 4000 else 10000) ≤ h →
      (if die < 12 then 4000 else 10000) ≤ (afterTurn die h c used request).1) ∧
    (die < 12 → h ≤ 24000 → (afterTurn die h c used request).1 ≤ 24000)) ∧
  (∀ s die, s.mod.good = true → die < 16 → (s.die die).dropped = false → 3400 ≤ (s.now - (s.die die).tokenSeen).toNat →
    Becomes (.tokenLoss die) s fun t =>
      (t.die die).grains = (if die < 12 then 4000 else 10000) ∧ (t.die die).dropped = true ∧
      ∀ d, d ≠ die → t.die d = s.die d) ∧
  (∀ s, s.mod.good = true → (∀ d < 16, (s.die d).dropped = true) →
    exec .tokenRebuild s = .next { s with token := { s.token with die := 12, count := 92000 } })

/-- R22, R27, R67, R68, R171: bring-up, re-planning, the allowance's steps, the throttle limit, energy and assay.
The events by which time passes are the model's own: log 4. -/
def Obligations.BringUpAndPower : Prop :=
  (∀ s die, s.booted = true → s.mod.service ≠ .recovery → die < 16 → (s.die die).trained = false →
    (s.die die).failed = false → (die < 12 → s.hubsTrained = true) → (0 < die → die < 12 → (s.die 0).trained = true) →
    Becomes (.dieTrained die) s fun t => (t.die die).trained = true ∧
      (t.allTrained = true → t.mod.service = .full) ∧
      (t.allTrained = false → s.mod.service = .off → t.hubsTrained = true → (t.die 0).trained = true →
        t.mod.service = .reduced)) ∧
  (∀ s, s.booted = true → 612000000000 ≤ s.now.toNat → s.allTrained = false →
    (s.mod.service = .off ∨ s.mod.service = .reduced) →
    Becomes .fullServiceDeadline s fun t => t.mod.service = .degraded ∧
      ∀ d < 16, (t.die d).failed = !(s.die d).trained) ∧
  (∀ s die reason table, s.booted = true → die < 16 → (s.die die).retired = false →
    s.replanDue die reason = true →
    (Becomes (.replan die reason table true) s fun t => (t.die die).newTable = some table ∧
      t.mod.plan.length = s.mod.plan.length + 1) ∧
    ∃ t, exec (.replan die reason table false) s = .next t) ∧
  (∀ s cl, (s.now - (s.cluster cl).changed).toNat < 1700 → (s.cluster cl).fill ≠ (s.cluster cl).target →
    Becomes (.fillRateStep cl) s fun t => t.now = (s.cluster cl).changed +
      BitVec.ofNat 64 (100 * ((s.now - (s.cluster cl).changed).toNat / 100 + 1))) ∧
  (∀ s cl slot p t l w, (s.cluster cl).slots.get? slot = some p → s.team? p = some t → s.launchOf? p.crew = some l →
    l.te = true → t.withheld = some w → 170000 ≤ (s.now - w).toNat →
    exec (.throttleLimit cl slot) s = .next (s.updTeam p fun u => { u with throttlePass := true })) ∧
  (∀ s, s.mod.good = true → exec .energySample s = .next (s.elapse (100 - s.now.toNat % 100))) ∧
  (∀ s cl e w ws, (s.cluster cl).due = w :: ws → exec (.energyDivide cl e) s =
    .next ((s.shareEnergy w e).updCluster cl fun c => { c with due := ws })) ∧
  (∀ s die k, s.dieWorks die = true → (s.die die).assay = none → (s.die die).assayTick.toNat ≤ s.now.toNat →
    s.assayCore die = some k →
    Becomes (.assayStart die) s fun t => (t.die die).assay = some (k, s.now, s.now) ∧
      (t.die die).assayNext = (k + 1) % 32) ∧
  (∀ s die k began scan pass, (s.die die).assay = some (k, began, scan) → s.onCore k = [] →
    s.trailsOn k = [] → 680000 ≤ (s.now - scan).toNat →
    Becomes (.assayResult die pass) s fun t => pass = true → (t.core k).lastPass = began ∧ (t.die die).assay = none ∧
      (t.core k).retired = (s.core k).retired)

/-- R12, R15 to R18: flits, replays, retraining, the domain and CXL devices.
The conventions of the CRC are those of log 10. -/
def Obligations.LinkEvents : Prop :=
  (∀ (s : State) (k : Nat) (f : List Byte), k < 64 → (s.port k).up = true →
    (∃ t, exec (.flitReceive k f) s = .next t) ∧
    (Intact f → le f 1 1 = 0 → (s.port k).live = true → BitVec.ofNat 12 (le f 2 2) = (s.port k).rxNext →
      Becomes (.flitReceive k f) s fun t =>
        (t.port k).received = (s.port k).received ++ [(f.drop 8).take 240] ∧
        (t.port k).rxNext = (s.port k).rxNext + 1 ∧ (t.port k).skipping = false) ∧
    (Intact f → le f 1 1 = 0 → BitVec.ofNat 12 (le f 2 2) ≠ (s.port k).rxNext →
      Becomes (.flitReceive k f) s fun t =>
        (t.port k).received = (s.port k).received ∧ (t.port k).rxNext = (s.port k).rxNext) ∧
    (Intact f → le f 1 1 = 0 → (s.port k).live = true → (s.port k).skipping = false →
      BitVec.ofNat 12 (le f 2 2) ≠ (s.port k).rxNext → (BitVec.ofNat 12 (le f 2 2) - (s.port k).rxNext).toNat < 2048 →
      Becomes (.flitReceive k f) s fun t => (t.port k).skipping = true) ∧
    (¬Intact f → Becomes (.flitReceive k f) s fun t => (t.port k).skipping = true ∧
      (t.port k).received = (s.port k).received ∧ (t.port k).rxNext = (s.port k).rxNext ∧
      (t.port k).sent.length = (s.port k).sent.length + 1)) ∧
  (∀ (s : State) (k : Nat) (q : BitVec 12), k < 64 → (s.port k).up = true →
    Becomes (.replayRequest k q) s fun t =>
      (t.port k).sent = (s.port k).sent ++ ((s.port k).replay.dropWhile fun e => e.1 != q).map (·.2) ∧
      ((t.port k).retraining = true ↔ (s.port k).lastReplay = some q ∧ (s.port k).replays = 7)) ∧
  (∀ (s : State) (k : Nat), (s.port k).retraining = true →
    (Becomes (.retrainComplete k true) s fun t => (t.port k).retraining = false ∧ (t.port k).replays = 0 ∧
      (t.port k).skipping = false ∧ ((s.port k).state ≠ .isolated → (t.port k).state = .retrained)) ∧
    (Becomes (.retrainComplete k false) s fun t => (t.port k).state = .takenDown ∧
      t.mod.lossLog = s.mod.lossLog ++ [k])) ∧
  (∀ (s : State) (reduces dup : Bool), s.booted = true → s.mod.service ≠ .recovery → s.mod.joined = false →
    s.mod.duplicate = false →
    Becomes (.domainJoin reduces dup) s fun t => t.mod.joined = !dup ∧ t.mod.duplicate = dup ∧
      t.mod.reduces = (!dup && reduces) ∧ ∀ k < 64,
        (s.portHub k = true → (t.port k).state = if dup then .isolated else .up) ∧
        (s.portHub k = false → t.port k = s.port k)) ∧
  (∀ (s : State) (k : Nat) (kind : CxlDevice) (capacity : Nat), k < 4 → s.booted = true → s.cxlHub k = true →
    Becomes (.cxlDeviceDiscovered k kind capacity) s fun t => ∃ d, t.cxl.get? k = some d ∧
      (kind.kind = .unsupported → d.state = .refused ∧ d.capacity = 0) ∧
      (kind.kind ≠ .unsupported → d.state = .up ∧ d.capacity = capacity ∧ d.rate = Config.cxlRate kind.slow))

/-- R14, R38, R39, R95, R109: RDMA into exposed memory, notify writes and reads, and another node's accesses.
An access to poisoned memory answers as log 22 says; an operation that has to wait is kept (log 22). -/
def Obligations.InboundEvents : Prop :=
  (∀ (s : State) (g : UecForm) (h : Word) (o n : Nat) (bs : List Byte), s.uecUp = true → g.taken = false →
    exec (.inboundRdmaWrite ⟨h, g⟩ o bs) s = .next (s.send .rdmaRefused) ∧
    exec (.inboundRdmaRead ⟨h, g⟩ o n) s = .next (s.send .rdmaRefused)) ∧
  (∀ (s : State) (g : UecForm) (h : Word) (o : Nat) (bs : List Byte), s.uecUp = true → g.taken = true →
    (s.exposed h.toNat o bs.length true = none → exec (.inboundRdmaWrite ⟨h, g⟩ o bs) s = .next (s.send .rdmaError)) ∧
    (∀ c p, s.exposed h.toNat o bs.length true = some (c, p) →
      (∀ ps, s.ctxPieces (engineAgent c) .store p bs.length = .ok ps → exec (.inboundRdmaWrite ⟨h, g⟩ o bs) s =
        .next (((s.commitFills (engineAgent c) (ps.map (·.1))).writePieces ps bs).send .rdmaDone)) ∧
      (∀ x i, s.ctxPieces (engineAgent c) .store p bs.length = .error (x, i) →
        (x.patience = none → exec (.inboundRdmaWrite ⟨h, g⟩ o bs) s = .next (s.send .rdmaError)) ∧
        (x.patience.isSome = true → exec (.inboundRdmaWrite ⟨h, g⟩ o bs) s = .next { s with inbounds := s.inbounds ++
          [{ handle := h, offset := o, write := some bs, len := bs.length, since := s.now, remote := x.isRemote }] }))) ∧
    (∀ e, s.exposures.get? h.toNat = some e → e.write = false ∨ e.len < o + bs.length →
      exec (.inboundRdmaWrite ⟨h, g⟩ o bs) s = .next (s.send .rdmaError))) ∧
  (∀ (s : State) (g : UecForm) (h : Word) (o n : Nat), s.uecUp = true → g.taken = true → s.notifyQueue h.toNat = none →
    (s.exposed h.toNat o n false = none → exec (.inboundRdmaRead ⟨h, g⟩ o n) s = .next (s.send .rdmaError)) ∧
    (∀ c p ps, s.exposed h.toNat o n false = some (c, p) → s.ctxPieces (engineAgent c) .load p n = .ok ps →
      (∀ x ∈ ps, ∀ i < x.2, s.poisoned (x.1.addr + i) = false) → exec (.inboundRdmaRead ⟨h, g⟩ o n) s =
      .next ((s.commitFills (engineAgent c) (ps.map (·.1))).send
        (.rdmaData (ps.flatMap fun x => s.readBytes x.1.addr x.2))))) ∧
  (∀ (s : State) (g : UecForm) (h : Word) (q : Nat) (u : UQueue), s.uecUp = true → g.taken = true →
    s.notifyQueue h.toNat = some (q, u) →
    exec (.inboundRdmaRead ⟨h, g⟩ u.addr 8) s = .next (s.send (.rdmaData (bytesOf 8 u.wi.toNat)))) ∧
  (∀ (s : State) (g : UecForm) (h a : DWord) (bs : List Byte), s.uecUp = true → g.taken = false →
    exec (.notifyWrite ⟨h, g⟩ a bs) s = .next (s.send .rdmaRefused)) ∧
  (∀ (s : State) (g : UecForm) (h a : DWord) (bs : List Byte) (q : Nat) (u : UQueue), s.uecUp = true → g.taken = true →
    s.notifyQueue h.toNat = some (q, u) → s.queues.get? q = some u →
    (a.toNat = u.addr → bs.length = 8 →
      let x := BitVec.ofNat 64 (le bs 0 8)
      (u.state ≠ .active ∨ max u.wi.toNat x.toNat - u.ri.toNat ≤ 2 ^ u.n) →
      Becomes (.notifyWrite ⟨h, g⟩ a bs) s fun t => (t.queues.get? q).map (·.wi) =
        some (if u.wi.toNat < x.toNat then x else u.wi)) ∧
    (a.toNat < u.addr ∨ u.addr + 8 < a.toNat + bs.length →
      exec (.notifyWrite ⟨h, g⟩ a bs) s = .next (s.send .rdmaError)) ∧
    ∃ t, exec (.notifyWrite ⟨h, g⟩ a bs) s = .next t) ∧
  (∀ (s : State) (a : RemoteOp), s.domainUp = false → exec (.remoteAccess a) s = .next s) ∧
  (∀ (s : State) (a n : Nat), s.domainUp = true → exec (.remoteAccess (.read a n)) s = .next (
    if s.openedHere a n = false then s.send .remoteDenied
    else if ∃ i < n, s.poisoned (a + i) = true then s.send .remotePoison
    else s.send (.remoteData (s.readBytes a n)))) ∧
  (∀ (s : State) (a : Nat) (bs : List Byte), s.domainUp = true → exec (.remoteAccess (.write a bs)) s = .next (
    if s.openedHere a bs.length then (s.writeBytes a bs).send .remoteDone else s.send .remoteDenied)) ∧
  (∀ (s : State) (a : Nat) (op : RemoteAtomic) (v : BitVec 128), s.domainUp = true →
    let n := farBits op
    s.openedHere a (n / 8) = true → (∀ i < n / 8, s.poisoned (a + i) = false) →
    exec (.remoteAccess (.atomic a op v)) s = .next
      ((s.writeBytes a (bytesOf (n / 8) (farResult op (s.readNat a (n / 8)) v))).send
        (.remoteData (bytesOf (n / 8) (s.readNat a (n / 8))))))

end

/-! ### Requests of the resident service, and packets -/

namespace Sys2Proof.Claims

open Machine

/-- A request reaches the service, which runs: a service core is up, an Ultra Ethernet port is up, and its send is of a form
that R14 takes. -/
def Arrives (s : State) (r : Request) : Prop :=
  s.mod.service ≠ .off ∧ s.serviceRuns = true ∧ s.uecUp = true ∧ r.form.taken = true

/-- No engine works on a page of the context that a request names (R132). -/
def NoneHeld (s : State) (r : Request) : Prop := ∀ page n, s.engineHolds r.ctx.toNat page n (fun _ => true) = false

/-- The header and the body are well formed, and the context is there and not closing (R31 to R33). -/
def Served (s : State) (r : Request) (len : Nat) (c : Context) : Prop :=
  Arrives s r ∧ s.mod.service ≠ .recovery ∧ r.malformed len = false ∧ 1 ≤ r.ctx.toNat ∧ r.ctx.toNat ≤ 255 ∧
  s.contexts.get? r.ctx.toNat = some c ∧ c.closing = none

/-- The last thing sent is a response to `r`, with a code, a status and a body; what was sent before is kept first. -/
def Answered (t : State) (r : Request) (code status : Nat) (body : List Byte) : Prop :=
  t.sent.getLast? = some (.response r.client (header r code status body.length r.ctx) body)

/-- A SHOOT over the pages that a region entry reaches, when it is valid (R34). -/
def shootRegion (ctx : Nat) (e : BitVec 128) (u : State) : State :=
  if regionV e then u.shootPages ctx (regionBase e) (regionLimit e - regionBase e + 1) fun _ => true else u

/-- The session and the team that a debug request names are there. -/
def Debugs (s : State) (r : Request) (op : Nat) (p : Party) (t : Team) : Prop :=
  ∃ c, Served s r 48 c ∧ debugBad r op = false ∧ (s.session? r).isSome = true ∧ s.debugTeam r = some (p, t)

/-- A debug request is answered OK with a body, over the state that its operation leaves. -/
def debugDone (r : Request) (bs : List Byte) (u : State) : State :=
  (u.trigger (.debug (debugHandle r))).respond r 0xA 0 bs

/-- A packet that stands in a state, with its type. -/
def Packeted (s : State) (q i : Nat) (st : PState) (type : Nat) (p : Packet) : Prop :=
  s.packets.get? (packetKey q i) = some p ∧ p.state = st ∧ p.type = type

/-- A packet's completion with a status that takes it out of the table (R49, R50). -/
def doneWith (q i status : Nat) (detail : DWord) (u : State) : State := u.packetDone (packetKey q i) status detail true

/-- The signalled word after SET, ADD or SUB (R48). -/
def signalled (op : Nat) (old x : DWord) : DWord := if op = 0 then x else if op = 1 then old + x else old - x

/-- STATUS and DETAIL of a launch that has drained: CONTEXT_CLOSED, HALTED with the first halted team, or OK (R49, R168). -/
def endOf (l : Launch) : Nat × DWord :=
  if l.closed then (6, 0)
  else match l.halt with
    | some (_, lin, team) => (5, BitVec.ofNat 64 (lin + team * 2 ^ 32))
    | none => (0, 0)

/-- A queue from which the processor may read its next slot, by a ring that is mapped (R41, R42). -/
def Fetchable (s : State) (q : Nat) (u : UQueue) (c : Context) (again : Bool) (bs : List Byte) (s1 : State) : Prop :=
  s.queues.get? q = some u ∧ s.contexts.get? u.ctx = some c ∧ u.reread.isSome = again ∧
  (∀ t, u.reread = some t → t.toNat ≤ s.now.toNat) ∧ overdue u.since u.remote s.now = false ∧ u.wi.toNat - u.ri.toNat ≤ 2 ^ u.n ∧ s.mayFetch q u c = true ∧
  s.slotBytes q u c = .ok (bs, s1)

/-- The packet in slot RI. -/
def slotPacket (q : Nat) (u : UQueue) (bs : List Byte) : Packet :=
  { queue := q, index := u.ri.toNat, ctx := u.ctx, bytes := bs }

end Sys2Proof.Claims

section

open Sys2Proof Sys2Proof.Machine Sys2Proof.Claims

/-- R14, R31 to R34: a request in a form that the transport does not take is refused and no request is seen; one that is
malformed, or names no open context, is answered with its status and changes nothing else; in recovery every request but
READ_HALLMARK is answered RECOVERY.
That context 0 and one above 255 are BAD_REQUEST, and that a malformed body comes before BUSY of a context that is closing,
is the model's choice (log 23). -/
def Obligations.RequestsRefused : Prop :=
  ∀ (s : State) (r : Request), s.mod.service ≠ .off → s.serviceRuns = true → s.uecUp = true → NoneHeld s r →
    ∀ e ∈ [(Instr.closeContext r, 2, 8), (.setRegion r, 3, 24), (.map r, 4, 32), (.unmap r, 5, 16), (.expose r, 6, 24),
      (.createQueue r, 7, 24), (.destroyQueue r, 8, 8), (.resumeQueue r, 9, 16), (.detachDebug r, 0xB, 8),
      (.registerNotify r, 0xE, 16), (.debugStop r, 0xA, 48), (.debugRelease r, 0xA, 48), (.debugStep r, 0xA, 48),
      (.debugRead r, 0xA, 48), (.debugWrite r, 0xA, 48), (.armSnap r, 0xA, 48), (.readSnap r, 0xA, 48)],
    (r.form.taken = false → exec e.1 s = .next (s.send .rdmaRefused)) ∧
    (r.form.taken = true → s.mod.service = .recovery → exec e.1 s = .next (s.respond r e.2.1 6 [])) ∧
    (r.form.taken = true → s.mod.service ≠ .recovery → r.malformed e.2.2 = true ∨ r.ctx = 0 ∨ 255 < r.ctx.toNat →
      exec e.1 s = .next (s.respond r e.2.1 1 [])) ∧
    (r.form.taken = true → s.mod.service ≠ .recovery → (∃ c, s.contexts.get? r.ctx.toNat = some c ∧ c.closing.isSome = true) →
      exec e.1 s = .next (s.respond r e.2.1 1 []) ∨ exec e.1 s = .next (s.respond r e.2.1 4 [])) ∧
    (r.form.taken = true → s.mod.service ≠ .recovery → s.contexts.get? r.ctx.toNat = none →
      exec e.1 s = .next (s.respond r e.2.1 1 []) ∨ exec e.1 s = .next (s.respond r e.2.1 2 []))

/-- R25, R34 to R41: OPEN_CONTEXT, CLOSE_CONTEXT and its grace, SET_REGION, MAP, UNMAP, EXPOSE, the queue requests,
READ_HALLMARK, REGISTER_NOTIFY and unknown codes.
Which frames the service takes, and the ranges of its fields, are the model's choice: log 23. -/
def Obligations.ServiceRequests : Prop :=
  ∀ (s : State) (r : Request),
    (Arrives s r → s.mod.service ≠ .recovery → r.malformed 24 = false → r.ctx = 0 → r.num 0 8 % 4 = 0 →
      canonical (r.ptr 0) = true → r.num 8 8 = 0 → r.num 16 8 = 0 →
      ∀ k, s.freeContext = some k → (∃ x, s.takeFrames 2 1 1 = some x) →
      Becomes (.openContext r) s fun t =>
        (t.contexts.get? k).map (fun c => (c.handler, c.regions)) = some (r.ptr 0, []) ∧
        Answered t { r with ctx := BitVec.ofNat 16 k } 1 0 []) ∧
    (∀ c, Served s r 8 c → r.num 0 8 ≤ 10000000 → s.busyContext r.ctx.toNat = true →
      exec (.closeContext r) s = .next (s.updContext r.ctx.toNat fun c =>
        { c with closing := some (s.now + BitVec.ofNat 64 (1700 * r.num 0 8)), closeReq := some r })) ∧
    (∀ ctx c d, s.contexts.get? ctx = some c → c.closing = some d → d.toNat ≤ s.now.toNat →
      Becomes (.closeGraceExpiry ctx) s fun t => ∀ id l, s.launches.get? id = some l → l.ctx = ctx →
        (t.launches.get? id).map (fun k => (k.closed, k.next)) = some (l.closed || s.unfinished id l, l.total)) ∧
    (∀ c, Served s r 24 c → NoneHeld s r → r.num 1 7 = 0 →
      let e := BitVec.ofNat 128 (r.num 8 16)
      e.extractLsb' 96 32 = 0 → e.extractLsb' 8 24 = 0 → e.getLsbD 6 = false → regionBase e ≤ regionLimit e →
      exec (.setRegion r) s = .next (((shootRegion r.ctx.toNat e
        (shootRegion r.ctx.toNat (c.regions.read 0 (r.num 0 1)) s)).updContext r.ctx.toNat fun c =>
          { c with regions := c.regions.write 0 (r.num 0 1) e }).respond r 3 0 [])) ∧
    (∀ c, Served s r 32 c → NoneHeld s r → (mapBody r).bad r = false →
      s.inRegion r.ctx.toNat (mapBody r).va (65536 * (mapBody r).pages) = true →
      ((mapBody r).frame = 0 → (mapBody r).node = s.node) →
      ∀ f v u, (mapBody r).frames s r.ctx.toNat = some (f, v) →
      ((mapBody r).at f).all ((mapBody r).leafOk s) = true → (mapBody r).apply r.ctx.toNat s = some (f, u) →
      exec (.map r) s = .next (u.respond r 4 0 (bytesOf 8 f))) ∧
    (∀ c, Served s r 16 c → NoneHeld s r → r.num 0 8 % 65536 = 0 →
      s.inRegion r.ctx.toNat (r.ptr 0) (65536 * r.num 8 8) = true →
      ∀ u, s.unmapPages r.ctx.toNat (vpage (r.ptr 0)) (r.num 8 8) = some u →
      exec (.unmap r) s = .next (u.respond r 5 0 [])) ∧
    (∀ c, Served s r 24 c → 1 ≤ r.num 8 8 → r.num 8 8 ≤ 2 ^ 40 → r.num 16 1 ≤ 3 → r.num 17 7 = 0 →
      s.inRegion r.ctx.toNat (r.ptr 0) (r.num 8 8) = true →
      Becomes (.expose r) s fun t => Answered t r 6 0 (bytesOf 4 s.nextHandle ++ bytesOf 4 0) ∧
        t.exposures.get? s.nextHandle = some {
          ctx := r.ctx.toNat, base := r.ptr 0, len := r.num 8 8,
          read := (r.num 16 1).testBit 0, write := (r.num 16 1).testBit 1 }) ∧
    (∀ c q, Served s r 24 c → 1 ≤ r.num 16 1 → r.num 16 1 ≤ 16 → r.num 17 1 ≤ 3 → r.num 18 6 = 0 → r.num 8 8 % 16 = 0 →
      r.num 0 8 % (min (64 * 2 ^ r.num 16 1) 65536) = 0 →
      s.inWritable r.ctx.toNat (r.ptr 0) (64 * 2 ^ r.num 16 1) = true → s.inWritable r.ctx.toNat (r.ptr 8) 16 = true →
      s.freeQueue = some q →
      Becomes (.createQueue r) s fun t => (t.queues.get? q).map (fun u => (u.ctx, u.ring, u.status, u.n, u.cap)) =
          some (r.ctx.toNat, r.ptr 0, r.ptr 8, r.num 16 1, r.num 17 1) ∧
        (t.queues.get? q).map (fun u => (u.wi, u.ri, u.state)) = some (0, 0, .active)) ∧
    (∀ c u, Served s r 8 c → r.num 4 4 = 0 → s.queueOf r.ctx.toNat (r.num 0 4) = some u → u.state ≠ .destroyed →
      Becomes (.destroyQueue r) s fun t => (t.queues.get? (r.num 0 4)).map (fun u => (u.state, u.held)) =
        some (.destroyed, false) ∧ Answered t r 8 0 []) ∧
    (∀ c u, Served s r 16 c → r.num 4 4 ≤ 1 → s.queueOf r.ctx.toNat (r.num 0 4) = some u → u.state = .stopped →
      let wi := if r.num 4 4 = 1 then r.ptr 8 else u.wi
      (r.num 4 4 = 1 → u.ri.toNat ≤ wi.toNat) → wi.toNat - u.ri.toNat ≤ 2 ^ u.n →
      Becomes (.resumeQueue r) s fun t => (t.queues.get? (r.num 0 4)).map (fun v => (v.state, v.cause, v.held, v.wi)) =
        some (.active, 0, false, wi) ∧ Answered t r 9 0 []) ∧
    (Arrives s r → r.malformed 32 = false → r.ctx = 0 →
      exec (.readHallmark r) s = .next (s.respondLong r 0xC (s.hallmark (r.body.take 32)))) ∧
    (∀ c, Served s r 16 c → exec (.registerNotify r) s = .next ((s.updContext r.ctx.toNat fun c =>
      { c with notify := if (r.body.take 16).all (· == 0) then none else some (r.body.take 16) }).respond r 0xE 0 [])) ∧
    (∀ code : BitVec 16, Arrives s r → code.toNat = 0 ∨ 0xE < code.toNat →
      exec (.serviceRequestUnknown code r) s = .next
        (s.respond r code.toNat (if s.mod.service = .recovery then 6 else 1) []))

/-- R164, R170, R172: the debug requests, the snapshot and the ingot requests.
The byte form of a snapshot is the model's choice: log 24. -/
def Obligations.DebugRequests : Prop :=
  (∀ (s : State) (r : Request),
    (∀ c k, Served s r 0 c → r.body = [] → s.freeSession = some k →
      exec (.attachDebug r) s = .next ({ s with sessions := s.sessions.put k { ctx := r.ctx.toNat } }.respond r 0xA 0
        (bytesOf 8 k))) ∧
    (∀ p t, Debugs s r 1 p t → exec (.debugStop r) s =
      .next (debugDone r [] (((s.updTeam p fun t =>
        { t with stopReq := true, session := some (debugHandle r) }).restQueue p).debugRest p))) ∧
    (∀ p t, Debugs s r 2 p t → exec (.debugRelease r) s = .next (debugDone r [] (s.debugRelease p id))) ∧
    (∀ p t, Debugs s r 3 p t → exec (.debugStep r) s = .next (debugDone r [] ((s.debugRelease p fun t =>
      { t.arm true with session := some (debugHandle r) }).armPair p true))) ∧
    (∀ p t, Debugs s r 4 p t →
      (t.debugStopped = false → exec (.debugRead r) s = .next (s.respond r 0xA 4 [])) ∧
      (∀ bs, t.debugStopped = true → s.debugValue r p t = some bs →
        exec (.debugRead r) s = .next (debugDone r bs s))) ∧
    (∀ p t, Debugs s r 5 p t →
      (t.debugStopped = false → exec (.debugWrite r) s = .next (s.respond r 0xA 4 [])) ∧
      (∀ v, t.debugStopped = true → s.debugPut r p t = some v →
        exec (.debugWrite r) s = .next (debugDone r [] v))) ∧
    (∀ c x, Served s r 48 c → debugBad r 6 = false → s.session? r = some x →
      exec (.armSnap r) s = .next ({ s.trigger (.debug (debugHandle r)) with
        sessions := s.sessions.put (debugHandle r)
          { x with mask := BitVec.ofNat 4 (debugItem r) } }.respond r 0xA 0 [])) ∧
    (∀ c x y, Served s r 48 c → debugBad r 7 = false → s.session? r = some x → s.snapshot = some y →
      (y.owner = debugHandle r →
        exec (.readSnap r) s = .next ({ s with snapshot := none }.respondLong r 0xA (y.bytes r.ctx.toNat))) ∧
      (y.owner ≠ debugHandle r → exec (.readSnap r) s = .next (s.respond r 0xA 4 []))) ∧
    (∀ c x, Served s r 8 c → s.session? r = some x →
      Becomes (.detachDebug r) s fun t => t.sessions.get? (debugHandle r) = none ∧ Answered t r 0xB 0 [])) ∧
  (∀ s src, exec (.snapTrigger src) s = .next (s.trigger src)) ∧
  (∀ (s : State) src k, (s.snapshot.isSome = true → s.trigger src = s) ∧ (s.armed src = none → s.trigger src = s) ∧
    (s.snapshot = none → s.armed src = some k → s.trigger src =
      { s with snapshot := some (s.capture k), freeCount := s.freeCount + 2 * memChannels })) ∧
  (∀ (s : State) x, s.snapshot = some x → 17000000000 ≤ (s.now - x.tick).toNat →
    exec .snapshotTimeout s = .next { s with snapshot := none }) ∧
  (∀ (s : State) (r : Request) (rate : Nat) (b : IngotBody), Arrives s r → s.mod.service ≠ .recovery →
    s.mod.service ≠ .reduced → s.ingotBody r = some b →
    (r.ctx ≠ 0 → ∃ c, s.contexts.get? r.ctx.toNat = some c ∧ c.closing = none) →
    (s.scopeCrews r.ctx.toNat).all (fun c => s.sealable c.1 c.2) = true →
    let g := s.gatherIngot r.ctx.toNat b.pool
    (b.len < g.1.size ∨ s.persistentAt (b.pool + g.1.size - 1) = false →
      exec (.requestIngot r rate) s = .next (s.respond r 0xD 3 [])) ∧
    (g.1.size ≤ b.len → s.persistentAt (b.pool + g.1.size - 1) = true → Becomes (.requestIngot r rate) s fun t =>
      Answered t r 0xD 0 (bytesOf 8 g.1.gen ++ bytesOf 8 g.1.chunks ++ bytesOf 8 rate) ∧ g.1 ∈ t.ingots)) ∧
  (∀ (s : State) (scope : Nat) (i : Ingot), (s.ingots.find? fun i => i.ctx == scope && !i.sealed) = some i →
    i.flushed = true → (∀ k ∈ i.cores, i.tick.toNat < (s.core k).lastPass.toNat) →
    Becomes (.ingotSeal scope) s fun t => { i with sealed := true } ∈ t.ingots ∧ t.readNat i.trailer 8 = i.gen % 2 ^ 64)

/-- R41, R42, R45, R49: a slot whose PH matches and whose packet is well formed is taken, RI rising; a malformed one
stops the queue; an unwritten one is read again 1 µs later; the acquire and the settling of parts. -/
def Obligations.PacketFetchAndStart : Prop :=
  (∀ s q u c again bs s1, Fetchable s q u c again bs s1 →
    let i := if again then Instr.slotReread q else .packetFetch q
    let p := slotPacket q u bs
    (p.ph ≠ (u.ri.toNat / 2 ^ u.n % 2 == 1) → exec i s =
      .next (s1.updQueue q fun u => { u with reread := some (s.now + 1700), since := none })) ∧
    (p.ph = (u.ri.toNat / 2 ^ u.n % 2 == 1) → s.recordOk p = false → exec i s = .next (s1.stopQueue q 4)) ∧
    (p.ph = (u.ri.toNat / 2 ^ u.n % 2 == 1) → s.recordOk p = true → p.bad = true →
      exec i s = .next (s1.refusePacket p)) ∧
    (p.ph = (u.ri.toNat / 2 ^ u.n % 2 == 1) → s.recordOk p = true → p.bad = false →
      Becomes i s fun t => t = s1.takePacket p ∧ t.packets.get? (packetKey q u.ri.toNat) = some p ∧
        ∃ v, t.queues.get? q = some v ∧ v.ri = u.ri + 1 ∧ v.state = u.state)) ∧
  (∀ s q i p, s.packets.get? (packetKey q i) = some p → p.state = .fetched → s.mayStart p = true → p.type ≠ 1 →
    exec (.packetAcquire q i) s = .next ((if p.af then s.acquireAll else s).updPacket (packetKey q i) fun p =>
      { p with state := .settle })) ∧
  (∀ s q i p, s.packets.get? (packetKey q i) = some p → p.state = .fetched → s.mayStart p = true → p.type = 1 →
    overdue p.since p.remote s.now = false → ∀ g b v, (if p.af then s.acquireAll else s).readIndirect p = .ok (g, b, v) →
    exec (.packetAcquire q i) s = .next (v.updPacket (packetKey q i) fun p =>
      { p with state := .settle, grid := some g, binds := b, since := none })) ∧
  (∀ s q i p u, Packeted s q i .settle 1 p → s.queues.get? q = some u →
    let g := p.grid.getD (0, 0, 0)
    (p.status ≠ 0 → exec (.launchSettle q i) s = .next (doneWith q i p.status.toNat p.detail s)) ∧
    (p.status = 0 → g.1 * g.2.1 * g.2.2 = 0 → exec (.launchSettle q i) s = .next (doneWith q i 1 p.detail s)) ∧
    (p.status = 0 → 2 ^ 32 < g.1 * g.2.1 * g.2.2 →
      exec (.launchSettle q i) s = .next (doneWith q i 2 p.detail s)) ∧
    (p.status = 0 → 0 < g.1 * g.2.1 * g.2.2 → g.1 * g.2.1 * g.2.2 ≤ 2 ^ 32 → p.co = true →
      p.perCore * s.countedCores < g.1 * g.2.1 * g.2.2 →
      exec (.launchSettle q i) s = .next (doneWith q i 3 p.detail s)) ∧
    (p.status = 0 → 0 < g.1 * g.2.1 * g.2.2 → g.1 * g.2.1 * g.2.2 ≤ 2 ^ 32 → p.perCore ≠ 0 →
      (p.co = true → g.1 * g.2.1 * g.2.2 ≤ p.perCore * s.countedCores) →
      Becomes (.launchSettle q i) s fun t =>
        (t.launches.get? s.nextHandle).map (fun l => (l.total, l.gx, l.gy, l.gz, l.next)) =
          some (g.1 * g.2.1 * g.2.2, g.1, g.2.1, g.2.2, 0) ∧
        (t.packets.get? (packetKey q i)).map (fun p => (p.state, p.launch)) = some (.running, some s.nextHandle)))

/-- R48 to R50, R59 to R61: what NOP, SIGNAL, WAIT, COPY and NODE packets do, and how launches and packets end.
A NODE packet on an unknown key is as log 20 says. -/
def Obligations.PacketActions : Prop :=
  (∀ s q i p, Packeted s q i .settle 0 p → exec (.nopPacket q i) s = .next (doneWith q i 0 0 s)) ∧
  (∀ s q i p y, Packeted s q i .settle 3 p → s.translate (engineAgent p.ctx) .atomic p.word = .ok y →
    signalPage y true = true → s.poisoned y.addr = false → overdue p.since p.remote s.now = false →
    ∀ e ∈ [(Instr.signalSet q i, 0), (.signalAdd q i, 1), (.signalSub q i, 2)], p.op = e.2 →
      exec e.1 s = .next (doneWith q i 0 0 ((s.commitFill (engineAgent p.ctx) y).writeBytes y.addr
        (bytesOf 8 (signalled e.2 (BitVec.ofNat 64 (s.readNat y.addr 8)) p.operand).toNat)))) ∧
  (∀ s q i p, Packeted s q i .settle 4 p → Becomes (.waitPacket q i) s fun t =>
    (t.packets.get? (packetKey q i)).map (fun p => (p.state, p.deadline)) =
      some (.running, if p.timeout = 0 ∨ 2 ^ 64 ≤ s.now.toNat + p.timeout.toNat then none
        else some (s.now + p.timeout))) ∧
  (∀ s q i p y, Packeted s q i .running 4 p → s.translate (engineAgent p.ctx) .load p.word = .ok y →
    signalPage y false = true → s.poisoned (y.readAddr 12) = false →
    waitCond p.op (BitVec.ofNat 64 (s.readNat (y.readAddr 12) 8)) p.operand = true →
    overdue p.since p.remote s.now = false →
    exec (.waitPacketMet q i) s = .next (doneWith q i 0 0 (s.commitFill (engineAgent p.ctx) y))) ∧
  (∀ s q i p d, Packeted s q i .running 4 p → p.deadline = some d → d.toNat ≤ s.now.toNat →
    ∀ u, s.queues.get? q = some u →
      let s1 := s.updQueue q fun u => { u with held := u.held || u.state != .destroyed }
      exec (.waitTimeout q i) s = .next (doneWith q i 7 0 (if u.state = .active then s1.stopQueue q 3 else s1))) ∧
  (∀ s q i p, Packeted s q i .settle 5 p →
    (p.len = 0 → exec (.copyPacket q i) s = .next (doneWith q i 0 0 s)) ∧
    (p.len ≠ 0 → namedOverlap p.slice p.slice = true → exec (.copyPacket q i) s = .next (doneWith q i 8 0 s)) ∧
    (p.len ≠ 0 → namedOverlap p.slice p.slice = false → exec (.copyPacket q i) s =
      .next (s.updPacket (packetKey q i) fun p => { p with state := .running }))) ∧
  (∀ s q i p, Packeted s q i .running 5 p →
    exec (.copyPacketDone q i) s = .next (State.runHub (packetKey q i) false (units p.len - p.unit) p s)) ∧
  (∀ s q i p u bs s1, Packeted s q i .settle 2 p → p.op = 0 → s.queues.get? q = some u →
    s.ctxRead (plainAgent p.ctx) p.nodeTemplate 64 = .ok (bs, s1) → s.nodes.length < 4096 →
    overdue p.since p.remote s.now = false →
    ((s.findNode p.ctx p.key).isSome = true → exec (.nodeDefine q i) s = .next (doneWith q i 4 0 s)) ∧
    (s.findNode p.ctx p.key = none → ({ p with bytes := bs } : Packet).templateBad = false →
      exec (.nodeDefine q i) s = .next (doneWith q i 0 0
        { s1 with nodes := s1.nodes.put s1.nextHandle (p.node bs u.cap), nextHandle := s1.nextHandle + 1 }))) ∧
  (∀ s q i p n, Packeted s q i .settle 2 p → s.findNode p.ctx p.key = some n →
    (p.op = 1 → exec (.nodeArm q i) s =
      .next (doneWith q i 0 0 (((s.updNode n fun n => { n with armed := true }).launchTiles n).serveSpawns n))) ∧
    (p.op = 2 → exec (.nodeDisarm q i) s =
      .next ((((s.flushNode n).updNode n fun n => { n with armed := false }).serveSpawns n).updPacket (packetKey q i) fun p =>
        { p with state := .running }))) ∧
  (∀ s q i p k n, Packeted s q i .running 2 p → p.op = 2 → s.findNode p.ctx p.key = some k → s.nodes.get? k = some n →
    n.queued = 0 → n.launches = [] →
    exec (.nodeDisarmDrained q i) s = .next (doneWith q i n.status.toNat n.detail
      (s.updNode k fun n => { n with status := 0, detail := 0 }))) ∧
  (∀ s k n d, s.nodes.get? k = some n → n.deadline = some d → n.armed = true → d.toNat ≤ s.now.toNat →
    exec (.flushTimer k) s = .next (((s.updNode k fun n => { n with deadline := none }).flushNode k).serveSpawns k)) ∧
  (∀ s id l, s.launches.get? id = some l → s.drained id l = true →
    let s1 := (s.releaseCores l.cores).dropLaunch id
    (∀ q i, l.source = .packet q i → s.awaitsEntry l = false → l.tainted = false → exec (.launchDrained id) s =
      .next ((s1.updPacket (packetKey q i) fun p => { p with cores := l.cores.map fun c => (c, l.placed.getD 0) }).packetDone
        (packetKey q i) (endOf l).1 (endOf l).2 l.cores.isEmpty)) ∧
    (∀ n, l.source = .node n → exec (.launchDrained id) s =
      .next ((((if (endOf l).1 = 0 then s1 else s1.nodeStatus n (endOf l).1 (endOf l).2).updNode n fun n =>
        { n with launches := n.launches.filter fun e => e.1 != id }).serveSpawns n).closeCheck l.ctx))) ∧
  (∀ s q i p, s.packets.get? (packetKey q i) = some p → p.state = .confirming →
    (∀ c ∈ p.cores, c.2.toNat < (s.core c.1).lastPass.toNat) →
    Becomes (.packetConfirmed q i) s fun t => t.packets.get? (packetKey q i) = none)

end

/-! ### Events of crews, of accesses in progress and of engines -/

namespace Sys2Proof.Claims

open Machine

/-- A wait for the epoch tick, one for the release of a GBAR, and a CTOPK. -/
def isEpoch (w : Wait) : Bool := match w with | .epoch .. => true | _ => false
def isGbar (w : Wait) : Bool := match w with | .gbar _ => true | _ => false
def topkKind (k : CupelKind) : Bool := match k with | .topk _ => true | _ => false

/-- The state field of a crew. -/
def crewState (s : State) (k : Nat) : Option CrewState := (s.crews.get? k).map (·.state)

/-- A party's thread. -/
def threadOf (s : State) (p : Party) : Option Thread := (s.team? p).map fun t => t.thread p.kind

/-- A wait that has run out (R108, R109): for 34,000 ticks on a leaf, for 340,000 on a remote owner that does not answer. -/
def RanOut (s : State) (w : Waiter) (x : Waiting) : Prop :=
  let n := (s.now - x.since).toNat
  if x.remote then 340000 ≤ n ∧ s.resumed true w = none else 34000 ≤ n ∧ (n = 34000 → s.resumed false w = none)

/-- The operation at the head of a core's copy engine, and of its Cupel engine. -/
def copyHead (s : State) (core : Nat) : Option CopyOp := (s.core core).copies.head?
def cupelHead (s : State) (core : Nat) : Option CupelOp := (s.core core).cupel.head?

/-- A copy of a pair that reaches a meeting point with its operands written holds the slot there with them, and nothing of
the instruction is performed (R176). -/
def HoldsAtMeeting (i : Instr) (oc : Exe → State → Option Cause) (reaches : Exe → Prop) : Prop :=
  ∀ s x0 x s1, s.issuer? i = some x0 → reaches x0 → x0.paired s = true → ¬released x0 → prepare i oc x0 s = .go x s1 →
    exec i s = .next ((holdSlot x0.p .meet s1).updClause x0.p fun c =>
      { c with meet := some (0, x.operandWords s1 i) })

/-- The bytes of another node's unit lie in memory of this F7 (R337). -/
def UnitLies (s : State) (q : ReduceUnit) : Prop := ∀ i < q.data.length, (s.tierOf (q.dest + i)).isSome = true

/-- A new unit of another node that consumes no uncorrectable error. -/
def UnitNew (s : State) (q : ReduceUnit) : Prop :=
  s.domainUp = true ∧ q.elem.toNat ∈ [0, 5, 6, 10, 12] ∧ q.op ∈ [0, 4, 5] ∧ UnitLies s q ∧
  s.seen (q.node * 65536 + q.core) q.transfer q.unit = .new ∧ ∀ i < q.data.length, s.poisoned (q.dest + i) = false

/-- Element `i` of a unit's data, and the bytes that its elements take. -/
def unitElem (q : ReduceUnit) (i : Nat) : Nat := le q.data (redBytes q.elem.toNat * i) (redBytes q.elem.toNat)
def unitCount (q : ReduceUnit) : Nat := q.data.length / redBytes q.elem.toNat

/-- The accumulators that a ROOTQ unit of another node joins: its group, the DST of its operation and its unit (R337). -/
def unitAcc (q : ReduceUnit) : Nat :=
  let off := q.firstElem * redBytes q.elem.toNat
  redAccKey (field q.key.toNat 24 8) (q.dest - off) (off / 256)

/-- The scale exponent that a ROOTQ's key names (R202). -/
def unitScale (q : ReduceUnit) : Int := (q.key.extractLsb' 16 8).toInt

end Sys2Proof.Claims

section

open Sys2Proof Sys2Proof.Machine Sys2Proof.Claims

/-- R53 to R58, R69, R70, R174: crews are placed, loaded, stopped, sealed and restored; acknowledgements; the trailing
copy.
Where a trailing copy is placed is as log 19 says. -/
def Obligations.CrewEvents : Prop :=
  (∀ s id l core is b, s.launches.get? id = some l → s.mayPlace (id, l) core = true →
    (s.books core).fit l = some (is, b) → l.co = false →
    Becomes (.crewPlace id core) s fun t => t = s.placeCrew id l core is ∧
      (t.launches.get? id).map (·.next) = some (l.next + 1) ∧
      (t.crews.get? s.nextHandle).map (fun c => (c.ctx, c.launch, c.lin, c.core, c.state)) =
        some (l.ctx, id, l.next, core, .loading) ∧
      (t.crews.get? s.nextHandle).map (fun c => (c.x, c.y, c.z)) =
        some (l.next % l.gx, l.next / l.gx % l.gy, l.next / (l.gx * l.gy))) ∧
  (∀ s id l core is b, s.launches.get? id = some l → s.mayPlace (id, l) core = true →
    (s.books core).fit l = some (is, b) → l.co = true → ∀ t,
    (s.placeCrew id l core is).placeGrid id (l.total - l.next - 1) = some t → exec (.crewPlace id core) s = .next t) ∧
  (∀ s k c, s.crews.get? k = some c → c.state = .loading →
    Becomes (.crewLoaded k) s fun t => crewState t k = some .resident ∧
      ∀ j, j ≠ k → t.crews.get? j = s.crews.get? j) ∧
  (∀ s k c core, s.crews.get? k = some c → c.state = .resident → (c.core = core ∨ k ∈ s.trailsOn core) →
    s.mustLeave core = true → s.migrating (dieOfCore core) = none →
    Becomes (.migrationTrigger core k) s fun t => crewState t k = some .stopping ∧
      (t.die (dieOfCore core)).migrating = some k) ∧
  (∀ s k c, s.crews.get? k = some c → c.state = .stopping → s.sealable k c = true →
    ((s.settleCrew k c).crews.get? k).isSome = true →
    Becomes (.imageSealed k) s fun t => crewState t k = some .saved) ∧
  (∀ s k c l core is b u, s.crews.get? k = some c → s.launches.get? c.launch = some l → c.state = .saved →
    c.shooting = false → s.fitsCore true c.launch l core = true → (s.books core).fit l = some (is, b) →
    (s.restore k c l core is (s.now - c.stoppedAt)).seatPairs l core (s.pairsOf k) = some u →
    exec (.crewRestore k core) s = .next u) ∧
  (∀ s core id e, (s.core core).track.get? id = some e →
    (e.signals ≠ 0 → exec (.outstandingAck core id true) s = .next ((s.updCore core fun k =>
      { k with track := k.track.put id { e with signals := e.signals - 1 } }).freeTrack core id)) ∧
    (e.spawned ≠ 0 → exec (.outstandingAck core id false) s = .next ((s.updCore core fun k =>
      { k with track := k.track.put id { e with stores := e.stores - 1, spawned := e.spawned - 1 } }).freeTrack core
        id))) ∧
  (∀ s p c t l core k, s.crews.get? p.crew = some c → s.team? (asLead p) = some t → s.launchOf? p.crew = some l →
    c.state = .resident → .tsPlace ∈ t.th.waits → s.trailHome false l c.core core = some k →
    ((s.settleParty (asLead p)).team? (asLead p)).isSome = true → Becomes (.trailingCopyPlace p core) s fun u =>
      (u.team? (asLead p)).map (·.role) = some .leading ∧
      (u.pair p).map (fun q => (q.trail.role, q.trail.cluster)) = some (.trailing, k))

/-- R222, R223, R247, R248, R312, R106, R108, R109, R129, R166, R167: loads and stores complete in order, and waits end, each
thread alone. The model's choices: that a timeout moves back what a lane-distributed pass had moved (log 34), that the very
tick 34,000 still lets an access through (log 35), how waits of inbound operations and of posted writes end (logs 22 and
31), and that poison stays (log 25). -/
def Obligations.AccessEvents : Prop :=
  (∀ s p t ld rest, s.team? p = some t → (t.thread p.kind).loads = ld :: rest →
    exec (.loadComplete p) s = .next ((s.deliver p ld).updThread p fun th => { th with loads := th.loads.drop 1 })) ∧
  (∀ s p t st rest, s.team? p = some t → (t.thread p.kind).stores = st :: rest →
    exec (.storePerformed p) s = .next ((s.performStore t.cluster st).updThread p fun th =>
      { th with stores := th.stores.drop 1 })) ∧
  (∀ s p t d, s.team? p = some t → .sleep d ∈ (t.thread p.kind).waits → d.toNat ≤ s.now.toNat →
    Becomes (.sleepExpiry p) s fun u => ∃ th, threadOf u p = some th ∧ .sleep d ∉ th.waits ∧
      (∀ w ∈ (t.thread p.kind).waits, (∀ e, w ≠ .sleep e) → w ∈ th.waits) ∧ th.s = (t.thread p.kind).s) ∧
  (∀ s p t r c a cmp w h k ws, s.team? p = some t → s.crews.get? p.crew = some r → r.state = .resident →
    t.debugStopped = false → .word c a cmp w h k ws ∈ (t.thread p.kind).waits → waitCond c (s.wordFor p a) cmp = true →
    Becomes (.waitConditionMet p) s fun u => ∃ th, threadOf u p = some th ∧ .word c a cmp w h k ws ∉ th.waits) ∧
  (∀ s p k u, s.finishFill p k = some u → exec (.windowFillComplete p k) s = .next u) ∧
  (∀ s p k c t, s.crews.get? p.crew = some c → s.team? p = some t → (t.window k).state = .pending →
    ∃ u, exec (.windowFillComplete p k) s = .next u ∧
      (∀ x g, s.fillWindow (c.agent t p.kind) (t.window k) = .error (.cause x g) →
        u = s.updTeam p fun t' => t'.setWindow k { t.window k with state := .valid, limit := 0, since := none })) ∧
  (∀ s p t ctx page n sc, s.team? p = some t →
    (t.th.waits.find? fun w => match w with | .shoot .. => true | _ => false) = some (.shoot ctx page n sc) →
    s.engineHolds ctx page n (inScope sc (coreOfCluster t.cluster)) = false →
    exec (.shootComplete p) s = .next ((s.shootPages ctx page n (inScope sc (coreOfCluster t.cluster))).updThread p fun th =>
      { th with waits := th.waits.filter (· ≠ .shoot ctx page n sc) })) ∧
  (∀ s p i x since, s.queueHold p = some (i, x, since) → 131072 ≤ (s.now - since).toNat →
    exec (.queueStarvedTimeout p) s = .next (takeTrap p x.cl.path (x.trapOf .queueStarved) (match i with
      | .qpush _ => noteStarved x (unmove x true x.pushField s)
      | _ => noteStarved x (unmove x false x.popField s)))) ∧
  (∀ s p f x since u, s.queueHold p = some (.qpop f, x, since) → exec (.qpop f) { s with turn := some p } = .next u →
    u.queueHold p = none → exec (.queueUnblock p) s = .next u) ∧
  (∀ s p f x since u, s.queueHold p = some (.qpush f, x, since) → exec (.qpush f) { s with turn := some p } = .next u →
    u.queueHold p = none → exec (.queueUnblock p) s = .next u) ∧
  (∀ s p t c q e, s.team? p = some t → p.kind = .team → t.retired = false → s.crews.get? p.crew = some c →
    c.state = .resident → (t.engines.find? fun e => e.quad == q && !e.done && !e.missed && e.promise.ult (s.promiseNow p e.op)) = some e →
    (∀ o ∈ (s.core c.core).cupel, o.opId = e.op → o.held = false) →
    Becomes (.promiseMissed p q) s fun u => (u.team? p).map (·.pending) =
      some (t.pending ++ [{ cause := .promise, info := BitVec.ofNat 32 q, tpc := e.promise }])) ∧
  (∀ s t, ∃ u, exec (.uncorrectableError t) s = .next u ∧ poisonOf t ∈ u.poison ∧ (∀ e ∈ s.poison, e ∈ u.poison) ∧
    { u with poison := s.poison } = s) ∧
  (∀ s w x, s.waiting w = some x → RanOut s w x →
    exec (if x.remote then .remoteUnreachable w else .migratingTimeout w) s = .next x.late) ∧
  (∀ s w x u, s.waiting w = some x → x.remote = false → (s.now - x.since).toNat ≤ 34000 → s.resumed false w = some u →
    exec (.migratingLeafCleared w) s = .next u) ∧
  (∀ s p x c t cl tr since, s.waiting (.access p) = some x → x.remote = false → (s.now - x.since).toNat ≤ 34000 →
    s.crews.get? p.crew = some c → s.team? p = some t → (t.thread p.kind).issue = some cl →
    cl.hold = some (.migrating tr, since) → s.stillHeld c.ctx false tr = false →
    exec (.migratingLeafCleared (.access p)) s = .next (s.updClause p fun k => { k with hold := none }))

/-- R64 to R66, R71, R175, R176, R246, R348, R372: the barrier tree, the epoch tick, the meeting points and the end of a
touchstone epoch, the issue of a clause, and the team that R66 picks among the ready ones.
That a pair whose copies are equal rolls back when its slack is not 0 is the model's choice (log 19). -/
def Obligations.CollectiveEvents : Prop :=
  ((∀ s ch c l, s.channels.get? ch = some c → s.launches.get? c.launch = some l → c.abandoned = false →
    c.arrived ≠ [] → s.treeFull c.launch l = true → (c.phase % 2 = 0 ∨ s.exchanging c.launch = false) →
    ((∀ a ∈ c.arrived, a.2 = .gbar) → exec (.barrierTreeRelease ch) s = .next ((s.teamsOf c.launch).foldl
      (fun u e => if e.2.allWaits.any isGbar then (u.updCopies e.1 Team.leaveGbar).fenceSC e.1 e.2.cluster 4 else u)
      (s.leaveRound c.launch ch))) ∧
    ((∃ a ∈ c.arrived, a.2 ≠ .gbar) → (∃ a ∈ c.arrived, a.2 ≠ .phase) → exec (.barrierTreeRelease ch) s =
      .next (((s.teamsOf c.launch).map (·.1)).foldl (fun u p => u.updCopies p Team.releaseTree)
        (s.leaveRound c.launch ch))) ∧
    ((∀ a ∈ c.arrived, a.2 = .phase) → Becomes (.barrierTreeRelease ch) s fun t =>
      (t.channels.get? ch).map (fun x => (x.phase, x.epoch, x.arrived)) = some (c.phase + 1, s.now + 64, []))) ∧
  (∀ s ch c, s.channels.get? ch = some c → c.epoch.toNat ≤ s.now.toNat →
    (∃ e ∈ s.teamsOf c.launch, ∃ w ∈ e.2.allWaits, ∃ t d v, w = .epoch t d v) →
    exec (.phaseEpoch ch) s = .next (((s.teamsOf c.launch).filter fun e => e.2.allWaits.any isEpoch).foldl
      (fun u e => (u.updCopies e.1 Team.beginPhase).fenceSC e.1 e.2.cluster 4) s)) ∧
  (∀ t : Team, t.beginPhase.allWaits.any isEpoch = false ∧ t.leaveGbar.allWaits.any isGbar = false ∧
    t.releaseTree.allWaits.any Wait.isTree = false) ∧
  (∀ (t : Team) sd, .gbar sd ∈ t.allWaits → t.leaveGbar.th.readS sd = 0) ∧
  ((∀ f, HoldsAtMeeting (.atom f) windowCheck fun _ => True) ∧ (∀ f, HoldsAtMeeting (.cas f) windowCheck fun _ => True) ∧
    (∀ f, HoldsAtMeeting (.cas128 f) windowCheck fun _ => True) ∧
    (∀ f, HoldsAtMeeting (.ldp f) noCheck fun x => x.parts.fx ∉ [0, 2]) ∧
    (∀ f, HoldsAtMeeting (.acq f) noCheck fun _ => True) ∧ (∀ f, HoldsAtMeeting (.rel f) noCheck fun _ => True) ∧
    (∀ z, HoldsAtMeeting (.fence z) noCheck fun _ => True) ∧ (∀ z, HoldsAtMeeting (.fencePt z) noCheck fun _ => True) ∧
    (∀ r, HoldsAtMeeting (.bar r) secondArrival fun _ => True) ∧
    (∀ r, HoldsAtMeeting (.bara r) secondArrival fun _ => True) ∧
    (∀ r, HoldsAtMeeting (.barw r) noCheck fun _ => True) ∧ (∀ z, HoldsAtMeeting (.gbar z) gbarCheck fun _ => True) ∧
    (∀ r, HoldsAtMeeting (.phase r) noCheck fun _ => True) ∧
    (∀ f, HoldsAtMeeting (.xcopy f) xcopyCheck fun _ => True) ∧ (∀ f, HoldsAtMeeting (.xred f) xredCheck fun _ => True) ∧
    (∀ f, HoldsAtMeeting (.wbload f) wbloadCheck fun _ => True) ∧
    (∀ f, HoldsAtMeeting (.mloop f) (denseCheck false) fun _ => True) ∧
    (∀ f, HoldsAtMeeting (.cbin f) (denseCheck true) fun _ => True) ∧
    (∀ f, HoldsAtMeeting (.ctopk f) ctopkCheck fun _ => True) ∧ (∀ f, HoldsAtMeeting (.cepi f) noCheck fun _ => True) ∧
    (∀ f, HoldsAtMeeting (.spawn f) nodeCheck fun _ => True) ∧ (∀ z, HoldsAtMeeting (.tsend z) noCheck fun _ => True) ∧
    ∀ z, HoldsAtMeeting (.exit z) noCheck retires) ∧
  (∀ (t : Team) (x : Exe) ops a b,
    (∀ o ∈ ops, o.dst = true → o.cls = .s → ∀ k < o.len,
      (t.receive x ops a b).th.readS (x.regNum .s (x.parts.at o.pos) + k) =
        b.th.readS (x.regNum .s (x.parts.at o.pos) + k)) ∧
    (t.receive x ops a b).engines = t.engines ++ b.engines.drop a.engines.length ∧
    (t.receive x ops a b).collN = b.collN) ∧
  (∀ s p q t a, s.pair p = some q → s.team? (asLead p) = some t → t.meeting = some a → q.trail.meeting = some a →
    q.slack = 0 → q.verified = true →
    exec (.touchstoneEpochEnd p) s =
      .next ((s.endEpoch p q).updClause (asLead p) fun c => { c with meet := some (1, a) })) ∧
  (∀ s p q t a b, s.pair p = some q → s.team? (asLead p) = some t → t.meeting = some a → q.trail.meeting = some b →
    a ≠ b ∨ q.slack ≠ 0 ∨ q.verified = false → exec (.touchstoneEpochEnd p) s = .next (s.rollback p)) ∧
  (∀ s p q t, s.pair p = some q → s.team? (asLead p) = some t → t.meeting = none → q.trail.strayed = false →
    q.stalled = true → t.th.issue = none → q.slack = 0 → q.trail.th.issue = none →
    exec (.touchstoneEpochEnd p) s = .next (if q.verified then s.endEpoch p q else s.rollback p)) ∧
  (∀ s cl, (s.cluster cl).holder = none → exec (.clauseIssue cl none) s = .next (s.issueTeam cl)) ∧
  (∀ s cl slot, s.chaserTurn cl = some slot → ∃ p pl, s.planSlotChaser cl slot = some (p, pl) ∧
    s.standsBack cl slot p = false ∧
    ((∃ u, pl = .act u ∧ exec (.clauseIssue cl (some slot)) s = .next (u.passSlot cl slot)) ∨
      ∃ n u, pl = .go n u ∧ exec (.clauseIssue cl (some slot)) s = .next ((u.charge cl n).passSlot cl slot)))) ∧
  (∀ (ptr : Nat) (cs : List Cand) (c : Cand), pickCand ptr cs = some c →
    c ∈ cs ∧ (∀ d ∈ cs, d.prio ≤ c.prio) ∧ (∀ d ∈ cs, d.prio = c.prio → d.age ≤ c.age) ∧
    ((cs.map (·.slot)).Pairwise (· < ·) → ∀ d ∈ cs, d.prio = c.prio → d.age = c.age →
      (ptr ≤ d.slot → ptr ≤ c.slot ∧ c.slot ≤ d.slot) ∧ (c.slot < ptr → c.slot ≤ d.slot)))

/-- R65, R151, R152, R329, R330, R335, R337: engine operations start in order and complete, and units of reductions
arrive.
How a Cupel operation divides its work is as logs 17 and 18 say. -/
def Obligations.EngineEvents : Prop :=
  (∀ s core o, copyHead s core = some o → o.started = false → o.cancelled = false →
    let u := s.setHead core { o with started := true, exchange := s.exchangePhase o.launch }
    (o.startAt = none → exec (.copyOperationStart core) s = .next u) ∧
    (∀ e, o.startAt = some e → e.toNat ≤ s.now.toNat → exec (.exchangeCopyStart core) s = .next u)) ∧
  (∀ s core o, copyHead s core = some o → o.cancelled = true →
    exec (.copyComplete core) s = .next (s.abortCopy core { o with resume := none } false 4)) ∧
  (∀ s core o, copyHead s core = some o → o.cancelled = false → o.mayRun s.now = true → o.reduce = none →
    exec (.copyComplete core) s = .next (s.continueCopy core o)) ∧
  (∀ s core o r, copyHead s core = some o → o.cancelled = false → o.mayRun s.now = true → o.resume = none →
    o.reduce = some r → o.unit < o.total → (r.2.2.1 = false ∨ s.mod.reduces = true) →
    exec (.reduceUnitArrival (.own core)) s = .next (s.ownUnit core o r)) ∧
  (∀ s core o r, copyHead s core = some o → o.cancelled = false → o.mayRun s.now = true → o.reduce = some r →
    o.resume = none → o.total ≤ o.unit →
    (r.2.2.1 = false ∨ s.mod.reduces = true) → s.delivered o = true →
    exec (.copyComplete core) s = .next (s.endCopy core o (copyWord o.unit false 0))) ∧
  (∀ s (q : ReduceUnit), s.domainUp = true → q.elem.toNat ∈ [0, 5, 6, 10, 12] → q.op ∈ [0, 4, 5] →
    let e := Instr.reduceUnitArrival (.remote q)
    (¬UnitLies s q → exec e s = .next (s.send .remoteDenied)) ∧
    (UnitLies s q → let seen := s.seen (q.node * 65536 + q.core) q.transfer q.unit
      (seen = .dup → exec e s = .next (s.send .remoteDone)) ∧ (seen = .old → exec e s = .next (s.send .remoteReplay)) ∧
      (seen = .new → (∃ i < q.data.length, s.poisoned (q.dest + i) = true) → exec e s = .next (s.send .remotePoison)))) ∧
  (∀ s (q : ReduceUnit), UnitNew s q → q.rootq = false → Becomes (.reduceUnitArrival (.remote q)) s fun t =>
    let n := redBytes q.elem.toNat
    t.sent = s.sent ++ [.remoteDone] ∧ (q.node * 65536 + q.core, q.transfer, q.unit) ∈ t.redSeen ∧
    (∀ i < unitCount q, t.readNat (q.dest + n * i) n = hopElem q.op q.elem.toNat q.key (q.firstElem + i)
      (s.readNat (q.dest + n * i) n) (unitElem q i) % 256 ^ n) ∧
    ∀ a, a < q.dest ∨ q.dest + n * unitCount q ≤ a → t.readByte a = s.readByte a) ∧
  (∀ s (q : ReduceUnit), UnitNew s q → q.rootq = true → Becomes (.reduceUnitArrival (.remote q)) s fun t =>
    let n := redBytes q.elem.toNat
    let old := s.reds.read {} (unitAcc q)
    let sum (i : Nat) : Int := Tbl.read 0 old.sums i + (rootElem q.elem.toNat (unitScale q) (unitElem q i)).getD 0
    let special (i : Nat) : Bool :=
      Tbl.read 0 old.specials i == 1 || (rootElem q.elem.toNat (unitScale q) (unitElem q i)).isNone
    (q.node * 65536 + q.core, q.transfer, q.unit) ∈ t.redSeen ∧
    if old.count + 1 < q.key.toNat % 4096 then
      t.sent = s.sent ∧ (∀ a, t.readByte a = s.readByte a) ∧ ∃ new, t.reds.get? (unitAcc q) = some new ∧
        new.count = old.count + 1 ∧
        ∀ i < unitCount q, Tbl.read 0 new.sums i = sum i ∧ (Tbl.read 0 new.specials i == 1) = special i
    else
      t.reds.get? (unitAcc q) = none ∧ t.sent.getLast? = some .remoteDone ∧
        (∀ i < unitCount q, t.readNat (q.dest + n * i) n =
          rootResult q.elem.toNat (unitScale q) (sum i) (special i) % 256 ^ n) ∧
        ∀ a, a < q.dest ∨ q.dest + n * unitCount q ≤ a → t.readByte a = s.readByte a) ∧
  (∀ s acc data a, s.reds.get? acc = some a → a.places ≠ [] → a.places.length = data.length →
    exec (.reduceUnitArrival (.owner acc data)) s = .next { s.deliverRoot 12 a.places data with reds := s.reds.del acc }) ∧
  (∀ s core o, cupelHead s core = some o → o.started = false → o.held = false → o.cancelled = false →
    let s1 := s.retakeTile core o
    (∀ w, s1.cupelRefusal core o = some w → exec (.cupelOperationStart core) s = .next (s1.endCupel core o w)) ∧
    (s1.cupelRefusal core o = none → o.isLoop = false →
      exec (.cupelOperationStart core) s = .next (s1.setCupelHead core { o with started := true })) ∧
    (s1.cupelRefusal core o = none → o.isLoop = true → s1.loopRows o = none →
      exec (.cupelOperationStart core) s = .next (s1.poisonCupel core o 0)) ∧
    (∀ rows, s1.cupelRefusal core o = none → o.isLoop = true → s1.loopRows o = some rows →
      let v := s1.setCupelHead core { o with started := true, rows := rows }
      exec (.cupelOperationStart core) s = .next ((if blockZero o.block && topkKind o.kind == false then
          v.updCore core fun k =>
            { k with tile := [], tileOwner := some (o.crew, o.team), tileInt := intPair (blockPair o.block) }
        else v).feedCupel core))) ∧
  (∀ s core o, cupelHead s core = some o →
    (o.cancelled = true ∨ s.bereft o = true → exec (.cupelComplete core) s = .next (s.cancelHead core o)) ∧
    (o.cancelled = false → s.bereft o = false → o.bad = true →
      exec (.cupelComplete core) s = .next ((s.retakeTile core o).poisonCupel core o 0)) ∧
    (o.cancelled = false → s.bereft o = false → o.bad = false → o.started = true → o.hunger = 0 →
      o.since = none ∨ (o.remote = true ∧ overdue o.since true s.now = false) →
      exec (.cupelComplete core) s = .next ((s.retakeTile core o).driveCupel core o)))

end
end

