-- ==== Sys2Proof/Laws/Decode.lean ====
section
/-! SUPPORT. Laws of the decoder and the encoder: the fields of a word that is put together from them, format by
format, and decoding and encoding as inverses of each other on one opcode. -/

namespace Sys2Proof

/-! ### Fields of a concatenation -/

theorem append_skip {n m : Nat} (x : BitVec n) (y : BitVec m) {lo w : Nat} (h : lo + w ≤ m) :
    (x ++ y).extractLsb' lo w = y.extractLsb' lo w := by
  apply BitVec.eq_of_getLsbD_eq
  intro i hi
  simp only [BitVec.getLsbD_extractLsb', BitVec.getLsbD_append]
  rw [if_pos (by omega)]

theorem append_here {n m : Nat} (x : BitVec n) (y : BitVec m) : (x ++ y).extractLsb' m n = x := by
  apply BitVec.eq_of_getLsbD_eq
  intro i hi
  simp [BitVec.getLsbD_append, hi]

theorem append_skip_bit {n m : Nat} (x : BitVec n) (y : BitVec m) {i : Nat} (h : i < m) :
    (x ++ y).getLsbD i = y.getLsbD i := by rw [BitVec.getLsbD_append, if_pos h]

theorem append_here_bit {m : Nat} (b : Bool) (y : BitVec m) : (BitVec.ofBool b ++ y).getLsbD m = b := by
  rw [BitVec.getLsbD_append, if_neg (Nat.lt_irrefl m), Nat.sub_self]
  cases b <;> rfl

theorem extract_self {n : Nat} (x : BitVec n) : x.extractLsb' 0 n = x := by
  apply BitVec.eq_of_getLsbD_eq
  intro i hi
  simp [hi]

theorem ofBool_bit (b : Bool) : (BitVec.ofBool b).getLsbD 0 = b := by cases b <;> rfl

/-- The lowest bit as a field. -/
theorem bit_extract {n : Nat} (x : BitVec n) : BitVec.ofBool (x.getLsbD 0) = x.extractLsb' 0 1 := by
  apply BitVec.eq_of_getLsbD_eq
  intro i hi
  have h : i = 0 := by omega
  subst h
  rw [ofBool_bit]
  simp only [BitVec.getLsbD_extractLsb', Nat.zero_add, decide_true, Bool.true_and, Nat.zero_lt_one]

/-- Two neighbouring fields make one. -/
theorem extract_append {n : Nat} (x : BitVec n) (lo a b : Nat) :
    x.extractLsb' (lo + b) a ++ x.extractLsb' lo b = x.extractLsb' lo (a + b) := by
  apply BitVec.eq_of_getLsbD_eq
  intro i hi
  simp only [BitVec.getLsbD_append, BitVec.getLsbD_extractLsb']
  split
  · have h1 : i < a + b := by omega
    simp [*]
  · have h1 : i - b < a := by omega
    have h2 : lo + b + (i - b) = lo + i := by omega
    simp [*]

/-- One bit and the field below it make one. -/
theorem bit_append {n : Nat} (x : BitVec n) (lo b : Nat) :
    BitVec.ofBool (x.getLsbD (lo + b)) ++ x.extractLsb' lo b = x.extractLsb' lo (1 + b) := by
  rw [← extract_append x lo 1 b]
  congr 1
  apply BitVec.eq_of_getLsbD_eq
  intro i hi
  have h : i = 0 := by omega
  subst h
  rw [ofBool_bit]
  simp only [BitVec.getLsbD_extractLsb', Nat.add_zero, Nat.zero_lt_one, decide_true, Bool.true_and]

/-! ### The words of each format -/

theorem decodeMod_encodeMod (m : Mod) : decodeMod (encodeMod m) = m := by
  obtain ⟨pmk, pe, pn, td, ts, rmode, sat, scope, fx, c⟩ := m
  simp only [decodeMod, encodeMod, Mod.mk.injEq]
  refine ⟨?_, ?_, ?_, ?_, ?_, ?_, ?_, ?_, ?_, ?_⟩
  · exact append_here _ _
  · exact (append_skip_bit _ _ (by decide)).trans (append_here_bit _ _)
  · exact (append_skip_bit _ _ (by decide)).trans ((append_skip_bit _ _ (by decide)).trans (append_here_bit _ _))
  · exact (append_skip _ _ (by decide)).trans ((append_skip _ _ (by decide)).trans ((append_skip _ _ (by decide)).trans (append_here _ _)))
  · exact (append_skip _ _ (by decide)).trans ((append_skip _ _ (by decide)).trans ((append_skip _ _ (by decide)).trans ((append_skip _ _ (by decide)).trans (append_here _ _))))
  · exact (append_skip _ _ (by decide)).trans ((append_skip _ _ (by decide)).trans ((append_skip _ _ (by decide)).trans ((append_skip _ _ (by decide)).trans ((append_skip _ _ (by decide)).trans (append_here _ _)))))
  · exact (append_skip_bit _ _ (by decide)).trans ((append_skip_bit _ _ (by decide)).trans ((append_skip_bit _ _ (by decide)).trans ((append_skip_bit _ _ (by decide)).trans ((append_skip_bit _ _ (by decide)).trans ((append_skip_bit _ _ (by decide)).trans (append_here_bit _ _))))))
  · exact (append_skip _ _ (by decide)).trans ((append_skip _ _ (by decide)).trans ((append_skip _ _ (by decide)).trans ((append_skip _ _ (by decide)).trans ((append_skip _ _ (by decide)).trans ((append_skip _ _ (by decide)).trans ((append_skip _ _ (by decide)).trans (append_here _ _)))))))
  · exact (append_skip _ _ (by decide)).trans ((append_skip _ _ (by decide)).trans ((append_skip _ _ (by decide)).trans ((append_skip _ _ (by decide)).trans ((append_skip _ _ (by decide)).trans ((append_skip _ _ (by decide)).trans ((append_skip _ _ (by decide)).trans ((append_skip _ _ (by decide)).trans (append_here _ _))))))))
  · exact (append_skip _ _ (by decide)).trans ((append_skip _ _ (by decide)).trans ((append_skip _ _ (by decide)).trans ((append_skip _ _ (by decide)).trans ((append_skip _ _ (by decide)).trans ((append_skip _ _ (by decide)).trans ((append_skip _ _ (by decide)).trans ((append_skip _ _ (by decide)).trans ((append_skip _ _ (by decide)).trans (extract_self _)))))))))

theorem encodeMod_decodeMod (w : Word) : encodeMod (decodeMod w) = w := by
  simp only [encodeMod, decodeMod]
  have h1 := extract_append w 0 3 7
  have h2 := extract_append w 0 3 10
  have h3 := bit_append w 0 13
  have h4 := extract_append w 0 3 14
  have h5 := extract_append w 0 5 17
  have h6 := extract_append w 0 5 22
  have h7 := bit_append w 0 27
  have h8 := bit_append w 0 28
  have h9 := extract_append w 0 3 29
  simp only [Nat.zero_add] at h1 h2 h3 h4 h5 h6 h7 h8 h9
  rw [h1, h2, h3, h4, h5, h6, h7, h8]
  exact h9.trans (extract_self w)

theorem takeSuffix_encode (w : Word) (lit : Option Word) (m : Option Mod) (rest : List Word)
    (h0 : w.getLsbD 0 = m.isSome) (h1 : w.getLsbD 1 = lit.isSome) :
    takeSuffix w (encodeSuffix lit m ++ rest) = some (m, lit, rest) := by
  unfold takeSuffix
  rw [h0, h1]
  cases m <;> cases lit <;> simp [encodeSuffix, decodeMod_encodeMod]

/-- What taking suffix words says of the words it took them from. -/
theorem encodeSuffix_take {w : Word} {ws rest : List Word} {lit : Option Word} {m : Option Mod}
    (h : takeSuffix w ws = some (m, lit, rest)) :
    encodeSuffix lit m ++ rest = ws ∧ w.getLsbD 0 = m.isSome ∧ w.getLsbD 1 = lit.isSome := by
  unfold takeSuffix at h
  split at h <;> simp only [Option.some.injEq, Prod.mk.injEq, reduceCtorEq] at h <;>
    obtain ⟨rfl, rfl, rfl⟩ := h <;> simp_all [encodeSuffix, encodeMod_decodeMod]

/-- The two low bits of an instruction word. -/
theorem encodeLM_low (w : Word) (lit : Option Word) (m : Option Mod) (h0 : w.getLsbD 0 = m.isSome)
    (h1 : w.getLsbD 1 = lit.isSome) : encodeLM lit m = w.extractLsb' 0 2 := by
  rw [encodeLM, ← h0, ← h1, bit_extract]
  exact bit_append w 0 1

/-- Decoding words whose first word carries its opcode and its suffix bits. -/
theorem decode_of_parts {op : Byte} {w : Word} {lit : Option Word} {m : Option Mod} {i : Instr} (rest : List Word)
    (hop : w.extractLsb' 24 8 = op) (h0 : w.getLsbD 0 = m.isSome) (h1 : w.getLsbD 1 = lit.isSome)
    (h : decodeOp op w lit m = some i) : decode (w :: encodeSuffix lit m ++ rest) = .ok (i, rest) := by
  simp only [decode, List.cons_append]
  rw [takeSuffix_encode w lit m rest h0 h1]
  simp only [hop, h]

/-- Format RRR: decoding what the encoder writes. -/
theorem decode_encodeRRR (op : Byte) (f : RRR) (rest : List Word) (k : RRR → Instr)
    (h : ∀ w lit m, decodeOp op w lit m = some (k (decodeRRR w lit m))) :
    decode (encodeRRR op f ++ rest) = .ok (k f, rest) := by
  obtain ⟨d, a, b, w, lit, m⟩ := f
  refine decode_of_parts (op := op) rest (append_here _ _) ?_ ?_ ((h _ _ _).trans ?_)
  · exact (append_skip_bit _ _ (by decide)).trans ((append_skip_bit _ _ (by decide)).trans ((append_skip_bit _ _ (by decide)).trans ((append_skip_bit _ _ (by decide)).trans ((append_skip_bit _ _ (by decide)).trans ((append_skip_bit _ _ (by decide)).trans (ofBool_bit _))))))
  · exact (append_skip_bit _ _ (by decide)).trans ((append_skip_bit _ _ (by decide)).trans ((append_skip_bit _ _ (by decide)).trans ((append_skip_bit _ _ (by decide)).trans ((append_skip_bit _ _ (by decide)).trans (append_here_bit _ _)))))
  · simp only [decodeRRR, Option.some.injEq]
    congr 1
    simp only [RRR.mk.injEq, and_true]
    refine ⟨?_, ?_, ?_, ?_⟩
    · exact (append_skip _ _ (by decide)).trans (append_here _ _)
    · exact (append_skip _ _ (by decide)).trans ((append_skip _ _ (by decide)).trans (append_here _ _))
    · exact (append_skip _ _ (by decide)).trans ((append_skip _ _ (by decide)).trans ((append_skip _ _ (by decide)).trans (append_here _ _)))
    · exact (append_skip_bit _ _ (by decide)).trans ((append_skip_bit _ _ (by decide)).trans ((append_skip_bit _ _ (by decide)).trans ((append_skip_bit _ _ (by decide)).trans (append_here_bit _ _))))

/-- Format RRS: decoding what the encoder writes. -/
theorem decode_encodeRRS (op : Byte) (f : RRS) (rest : List Word) (k : RRS → Instr)
    (h : ∀ w lit m, decodeOp op w lit m = some (k (decodeRRS w lit m))) :
    decode (encodeRRS op f ++ rest) = .ok (k f, rest) := by
  obtain ⟨d, a, s, w, lit, m⟩ := f
  refine decode_of_parts (op := op) rest (append_here _ _) ?_ ?_ ((h _ _ _).trans ?_)
  · exact (append_skip_bit _ _ (by decide)).trans ((append_skip_bit _ _ (by decide)).trans ((append_skip_bit _ _ (by decide)).trans ((append_skip_bit _ _ (by decide)).trans ((append_skip_bit _ _ (by decide)).trans ((append_skip_bit _ _ (by decide)).trans (ofBool_bit _))))))
  · exact (append_skip_bit _ _ (by decide)).trans ((append_skip_bit _ _ (by decide)).trans ((append_skip_bit _ _ (by decide)).trans ((append_skip_bit _ _ (by decide)).trans ((append_skip_bit _ _ (by decide)).trans (append_here_bit _ _)))))
  · simp only [decodeRRS, Option.some.injEq]
    congr 1
    simp only [RRS.mk.injEq, and_true]
    refine ⟨?_, ?_, ?_, ?_⟩
    · exact (append_skip _ _ (by decide)).trans (append_here _ _)
    · exact (append_skip _ _ (by decide)).trans ((append_skip _ _ (by decide)).trans (append_here _ _))
    · exact (append_skip _ _ (by decide)).trans ((append_skip _ _ (by decide)).trans ((append_skip _ _ (by decide)).trans (append_here _ _)))
    · exact (append_skip_bit _ _ (by decide)).trans ((append_skip_bit _ _ (by decide)).trans ((append_skip_bit _ _ (by decide)).trans ((append_skip_bit _ _ (by decide)).trans (append_here_bit _ _))))

/-- Format RI: decoding what the encoder writes. -/
theorem decode_encodeRI (op : Byte) (f : RI) (rest : List Word) (k : RI → Instr)
    (h : ∀ w lit m, decodeOp op w lit m = some (k (decodeRI w lit m))) :
    decode (encodeRI op f ++ rest) = .ok (k f, rest) := by
  obtain ⟨d, imm, w, lit, m⟩ := f
  refine decode_of_parts (op := op) rest (append_here _ _) ?_ ?_ ((h _ _ _).trans ?_)
  · exact (append_skip_bit _ _ (by decide)).trans ((append_skip_bit _ _ (by decide)).trans ((append_skip_bit _ _ (by decide)).trans ((append_skip_bit _ _ (by decide)).trans ((append_skip_bit _ _ (by decide)).trans (ofBool_bit _)))))
  · exact (append_skip_bit _ _ (by decide)).trans ((append_skip_bit _ _ (by decide)).trans ((append_skip_bit _ _ (by decide)).trans ((append_skip_bit _ _ (by decide)).trans (append_here_bit _ _))))
  · simp only [decodeRI, Option.some.injEq]
    congr 1
    simp only [RI.mk.injEq, and_true]
    refine ⟨?_, ?_, ?_⟩
    · exact (append_skip _ _ (by decide)).trans (append_here _ _)
    · exact (append_skip _ _ (by decide)).trans ((append_skip _ _ (by decide)).trans (append_here _ _))
    · exact (append_skip_bit _ _ (by decide)).trans ((append_skip_bit _ _ (by decide)).trans ((append_skip_bit _ _ (by decide)).trans (append_here_bit _ _)))

/-- Format MW: decoding what the encoder writes. -/
theorem decode_encodeMW (op : Byte) (f : MW) (rest : List Word) (k : MW → Instr)
    (h : ∀ w lit m, decodeOp op w lit m = some (k (decodeMW w lit m))) :
    decode (encodeMW op f ++ rest) = .ok (k f, rest) := by
  obtain ⟨d, a, win, imm, w, lit, m⟩ := f
  refine decode_of_parts (op := op) rest (append_here _ _) ?_ ?_ ((h _ _ _).trans ?_)
  · exact (append_skip_bit _ _ (by decide)).trans ((append_skip_bit _ _ (by decide)).trans ((append_skip_bit _ _ (by decide)).trans ((append_skip_bit _ _ (by decide)).trans ((append_skip_bit _ _ (by decide)).trans ((append_skip_bit _ _ (by decide)).trans ((append_skip_bit _ _ (by decide)).trans (ofBool_bit _)))))))
  · exact (append_skip_bit _ _ (by decide)).trans ((append_skip_bit _ _ (by decide)).trans ((append_skip_bit _ _ (by decide)).trans ((append_skip_bit _ _ (by decide)).trans ((append_skip_bit _ _ (by decide)).trans ((append_skip_bit _ _ (by decide)).trans (append_here_bit _ _))))))
  · simp only [decodeMW, Option.some.injEq]
    congr 1
    simp only [MW.mk.injEq, and_true]
    refine ⟨?_, ?_, ?_, ?_, ?_⟩
    · exact (append_skip _ _ (by decide)).trans (append_here _ _)
    · exact (append_skip _ _ (by decide)).trans ((append_skip _ _ (by decide)).trans (append_here _ _))
    · exact (append_skip _ _ (by decide)).trans ((append_skip _ _ (by decide)).trans ((append_skip _ _ (by decide)).trans (append_here _ _)))
    · exact (append_skip _ _ (by decide)).trans ((append_skip _ _ (by decide)).trans ((append_skip _ _ (by decide)).trans ((append_skip _ _ (by decide)).trans (append_here _ _))))
    · exact (append_skip_bit _ _ (by decide)).trans ((append_skip_bit _ _ (by decide)).trans ((append_skip_bit _ _ (by decide)).trans ((append_skip_bit _ _ (by decide)).trans ((append_skip_bit _ _ (by decide)).trans (append_here_bit _ _)))))

/-- Format Z: decoding what the encoder writes. -/
theorem decode_encodeZ (op : Byte) (f : FZ) (rest : List Word) (k : FZ → Instr)
    (h : ∀ w lit m, decodeOp op w lit m = some (k (decodeZ w lit m))) :
    decode (encodeZ op f ++ rest) = .ok (k f, rest) := by
  obtain ⟨rsv, lit, m⟩ := f
  refine decode_of_parts (op := op) rest (append_here _ _) ?_ ?_ ((h _ _ _).trans ?_)
  · exact (append_skip_bit _ _ (by decide)).trans ((append_skip_bit _ _ (by decide)).trans ((append_skip_bit _ _ (by decide)).trans (ofBool_bit _)))
  · exact (append_skip_bit _ _ (by decide)).trans ((append_skip_bit _ _ (by decide)).trans (append_here_bit _ _))
  · simp only [decodeZ, Option.some.injEq]
    congr 1
    simp only [FZ.mk.injEq, and_true]
    · exact (append_skip _ _ (by decide)).trans (append_here _ _)

/-- Format BO: decoding what the encoder writes. -/
theorem decode_encodeBO (op : Byte) (f : BO) (rest : List Word) (k : BO → Instr)
    (h : ∀ w lit m, decodeOp op w lit m = some (k (decodeBO w lit m))) :
    decode (encodeBO op f ++ rest) = .ok (k f, rest) := by
  obtain ⟨off, rsv, lit, m⟩ := f
  refine decode_of_parts (op := op) rest (append_here _ _) ?_ ?_ ((h _ _ _).trans ?_)
  · exact (append_skip_bit _ _ (by decide)).trans ((append_skip_bit _ _ (by decide)).trans ((append_skip_bit _ _ (by decide)).trans ((append_skip_bit _ _ (by decide)).trans (ofBool_bit _))))
  · exact (append_skip_bit _ _ (by decide)).trans ((append_skip_bit _ _ (by decide)).trans ((append_skip_bit _ _ (by decide)).trans (append_here_bit _ _)))
  · simp only [decodeBO, Option.some.injEq]
    congr 1
    simp only [BO.mk.injEq, and_true]
    refine ⟨?_, ?_⟩
    · exact (append_skip _ _ (by decide)).trans (append_here _ _)
    · exact (append_skip_bit _ _ (by decide)).trans ((append_skip_bit _ _ (by decide)).trans (append_here_bit _ _))

/-- Format BC: decoding what the encoder writes. -/
theorem decode_encodeBC (op : Byte) (f : BC) (rest : List Word) (k : BC → Instr)
    (h : ∀ w lit m, decodeOp op w lit m = some (k (decodeBC w lit m))) :
    decode (encodeBC op f ++ rest) = .ok (k f, rest) := by
  obtain ⟨a, c3, off, rsv, lit, m⟩ := f
  refine decode_of_parts (op := op) rest (append_here _ _) ?_ ?_ ((h _ _ _).trans ?_)
  · exact (append_skip_bit _ _ (by decide)).trans ((append_skip_bit _ _ (by decide)).trans ((append_skip_bit _ _ (by decide)).trans ((append_skip_bit _ _ (by decide)).trans ((append_skip_bit _ _ (by decide)).trans ((append_skip_bit _ _ (by decide)).trans (ofBool_bit _))))))
  · exact (append_skip_bit _ _ (by decide)).trans ((append_skip_bit _ _ (by decide)).trans ((append_skip_bit _ _ (by decide)).trans ((append_skip_bit _ _ (by decide)).trans ((append_skip_bit _ _ (by decide)).trans (append_here_bit _ _)))))
  · simp only [decodeBC, Option.some.injEq]
    congr 1
    simp only [BC.mk.injEq, and_true]
    refine ⟨?_, ?_, ?_, ?_⟩
    · exact (append_skip _ _ (by decide)).trans (append_here _ _)
    · exact (append_skip _ _ (by decide)).trans ((append_skip _ _ (by decide)).trans (append_here _ _))
    · exact (append_skip _ _ (by decide)).trans ((append_skip _ _ (by decide)).trans ((append_skip _ _ (by decide)).trans (append_here _ _)))
    · exact (append_skip_bit _ _ (by decide)).trans ((append_skip_bit _ _ (by decide)).trans ((append_skip_bit _ _ (by decide)).trans ((append_skip_bit _ _ (by decide)).trans (append_here_bit _ _))))

/-! ### Words put together again from their fields -/

/-- An opcode from its two halves. -/
theorem op_of_nibbles {op : Byte} {hi lo : Nat} (h1 : (op.extractLsb' 4 4).toNat = hi)
    (h0 : (op.extractLsb' 0 4).toNat = lo) : op = BitVec.ofNat 8 (hi * 16 + lo) := by
  simp only [BitVec.extractLsb'_toNat, Nat.shiftRight_eq_div_pow] at h1 h0
  apply BitVec.eq_of_toNat_eq
  rw [BitVec.toNat_ofNat]
  have := op.isLt
  omega

theorem encodeRRR_decode (w : Word) (lit : Option Word) (m : Option Mod) (h0 : w.getLsbD 0 = m.isSome)
    (h1 : w.getLsbD 1 = lit.isSome) :
    encodeRRR (w.extractLsb' 24 8) (decodeRRR w lit m) = w :: encodeSuffix lit m := by
  simp only [encodeRRR, decodeRRR, List.cons.injEq, and_true]
  rw [encodeLM_low w lit m h0 h1]
  have e0 := bit_append w 0 2
  simp only [Nat.zero_add] at e0
  rw [e0]
  have e1 := extract_append w 0 7 3
  simp only [Nat.zero_add] at e1
  rw [e1]
  have e2 := extract_append w 0 7 10
  simp only [Nat.zero_add] at e2
  rw [e2]
  have e3 := extract_append w 0 7 17
  simp only [Nat.zero_add] at e3
  rw [e3]
  exact (extract_append w 0 8 24).trans (extract_self w)

theorem encodeRRS_decode (w : Word) (lit : Option Word) (m : Option Mod) (h0 : w.getLsbD 0 = m.isSome)
    (h1 : w.getLsbD 1 = lit.isSome) :
    encodeRRS (w.extractLsb' 24 8) (decodeRRS w lit m) = w :: encodeSuffix lit m := by
  simp only [encodeRRS, decodeRRS, List.cons.injEq, and_true]
  rw [encodeLM_low w lit m h0 h1]
  have e0 := bit_append w 0 2
  simp only [Nat.zero_add] at e0
  rw [e0]
  have e1 := extract_append w 0 7 3
  simp only [Nat.zero_add] at e1
  rw [e1]
  have e2 := extract_append w 0 7 10
  simp only [Nat.zero_add] at e2
  rw [e2]
  have e3 := extract_append w 0 7 17
  simp only [Nat.zero_add] at e3
  rw [e3]
  exact (extract_append w 0 8 24).trans (extract_self w)

theorem encodeRI_decode (w : Word) (lit : Option Word) (m : Option Mod) (h0 : w.getLsbD 0 = m.isSome)
    (h1 : w.getLsbD 1 = lit.isSome) :
    encodeRI (w.extractLsb' 24 8) (decodeRI w lit m) = w :: encodeSuffix lit m := by
  simp only [encodeRI, decodeRI, List.cons.injEq, and_true]
  rw [encodeLM_low w lit m h0 h1]
  have e0 := bit_append w 0 2
  simp only [Nat.zero_add] at e0
  rw [e0]
  have e1 := extract_append w 0 14 3
  simp only [Nat.zero_add] at e1
  rw [e1]
  have e2 := extract_append w 0 7 17
  simp only [Nat.zero_add] at e2
  rw [e2]
  exact (extract_append w 0 8 24).trans (extract_self w)

theorem encodeMW_decode (w : Word) (lit : Option Word) (m : Option Mod) (h0 : w.getLsbD 0 = m.isSome)
    (h1 : w.getLsbD 1 = lit.isSome) :
    encodeMW (w.extractLsb' 24 8) (decodeMW w lit m) = w :: encodeSuffix lit m := by
  simp only [encodeMW, decodeMW, List.cons.injEq, and_true]
  rw [encodeLM_low w lit m h0 h1]
  have e0 := bit_append w 0 2
  simp only [Nat.zero_add] at e0
  rw [e0]
  have e1 := extract_append w 0 4 3
  simp only [Nat.zero_add] at e1
  rw [e1]
  have e2 := extract_append w 0 3 7
  simp only [Nat.zero_add] at e2
  rw [e2]
  have e3 := extract_append w 0 7 10
  simp only [Nat.zero_add] at e3
  rw [e3]
  have e4 := extract_append w 0 7 17
  simp only [Nat.zero_add] at e4
  rw [e4]
  exact (extract_append w 0 8 24).trans (extract_self w)

theorem encodeZ_decode (w : Word) (lit : Option Word) (m : Option Mod) (h0 : w.getLsbD 0 = m.isSome)
    (h1 : w.getLsbD 1 = lit.isSome) :
    encodeZ (w.extractLsb' 24 8) (decodeZ w lit m) = w :: encodeSuffix lit m := by
  simp only [encodeZ, decodeZ, List.cons.injEq, and_true]
  rw [encodeLM_low w lit m h0 h1]
  have e1 := extract_append w 0 22 2
  simp only [Nat.zero_add] at e1
  rw [e1]
  exact (extract_append w 0 8 24).trans (extract_self w)

theorem encodeBO_decode (w : Word) (lit : Option Word) (m : Option Mod) (h0 : w.getLsbD 0 = m.isSome)
    (h1 : w.getLsbD 1 = lit.isSome) :
    encodeBO (w.extractLsb' 24 8) (decodeBO w lit m) = w :: encodeSuffix lit m := by
  simp only [encodeBO, decodeBO, List.cons.injEq, and_true]
  rw [encodeLM_low w lit m h0 h1]
  have e0 := bit_append w 0 2
  simp only [Nat.zero_add] at e0
  rw [e0]
  have e1 := extract_append w 0 21 3
  simp only [Nat.zero_add] at e1
  rw [e1]
  exact (extract_append w 0 8 24).trans (extract_self w)

theorem encodeBC_decode (w : Word) (lit : Option Word) (m : Option Mod) (h0 : w.getLsbD 0 = m.isSome)
    (h1 : w.getLsbD 1 = lit.isSome) :
    encodeBC (w.extractLsb' 24 8) (decodeBC w lit m) = w :: encodeSuffix lit m := by
  simp only [encodeBC, decodeBC, List.cons.injEq, and_true]
  rw [encodeLM_low w lit m h0 h1]
  have e0 := bit_append w 0 2
  simp only [Nat.zero_add] at e0
  rw [e0]
  have e1 := extract_append w 0 11 3
  simp only [Nat.zero_add] at e1
  rw [e1]
  have e2 := extract_append w 0 3 14
  simp only [Nat.zero_add] at e2
  rw [e2]
  have e3 := extract_append w 0 7 17
  simp only [Nat.zero_add] at e3
  rw [e3]
  exact (extract_append w 0 8 24).trans (extract_self w)

end Sys2Proof
end

