-- ==== Sys2Proof/Laws/Table.lean ====
section
/-! SUPPORT. Laws of the sparse tables: reading after listing, changing and removing, and the canonical form that every
write keeps. -/

namespace Sys2Proof.Machine

variable {α : Type}

@[simp] theorem Tbl.get?_nil (k : Nat) : Tbl.get? ([] : Tbl α) k = none := rfl

theorem Tbl.get?_put (t : Tbl α) (k : Nat) (v : α) (j : Nat) :
    Tbl.get? (Tbl.put t k v) j = if j = k then some v else Tbl.get? t j := by
  induction t with
  | nil => simp [Tbl.put, Tbl.get?]
  | cons e t ih =>
    obtain ⟨k', v'⟩ := e
    simp only [Tbl.put]
    split
    · simp [Tbl.get?]
    · split
      · subst_vars
        simp only [Tbl.get?]
        split <;> simp_all
      · simp only [Tbl.get?, ih]
        split <;> split <;> simp_all

@[simp] theorem Tbl.get?_put_same (t : Tbl α) (k : Nat) (v : α) : Tbl.get? (Tbl.put t k v) k = some v := by
  simp [Tbl.get?_put]

theorem Tbl.get?_put_other (t : Tbl α) {k j : Nat} (v : α) (h : j ≠ k) :
    Tbl.get? (Tbl.put t k v) j = Tbl.get? t j := by simp [Tbl.get?_put, h]

theorem Tbl.get?_del (t : Tbl α) (k j : Nat) :
    Tbl.get? (Tbl.del t k) j = if j = k then none else Tbl.get? t j := by
  induction t with
  | nil => simp [Tbl.del]
  | cons e t ih =>
    obtain ⟨k', v'⟩ := e
    simp only [Tbl.del]
    split
    · by_cases h : j = k <;> simp_all [Tbl.get?]
    · simp only [Tbl.get?, ih]
      split <;> split <;> simp_all

theorem Tbl.get?_upd (t : Tbl α) (k : Nat) (f : α → α) (j : Nat) :
    Tbl.get? (Tbl.upd t k f) j = if j = k then (Tbl.get? t k).map f else Tbl.get? t j := by
  unfold Tbl.upd
  split
  · split <;> simp_all
  · simp only [Tbl.get?_put]
    split <;> simp_all

@[simp] theorem Tbl.get?_upd_same (t : Tbl α) (k : Nat) (f : α → α) :
    Tbl.get? (Tbl.upd t k f) k = (Tbl.get? t k).map f := by simp [Tbl.get?_upd]

theorem Tbl.get?_upd_other (t : Tbl α) {k j : Nat} (f : α → α) (h : j ≠ k) :
    Tbl.get? (Tbl.upd t k f) j = Tbl.get? t j := by simp [Tbl.get?_upd, h]

theorem Tbl.read_write [DecidableEq α] (d : α) (t : Tbl α) (k : Nat) (v : α) (j : Nat) :
    Tbl.read d (Tbl.write d t k v) j = if j = k then v else Tbl.read d t j := by
  unfold Tbl.write Tbl.read
  split
  · simp only [Tbl.get?_del]
    split <;> simp_all
  · simp only [Tbl.get?_put]
    split <;> simp_all

@[simp] theorem Tbl.read_write_same [DecidableEq α] (d : α) (t : Tbl α) (k : Nat) (v : α) :
    Tbl.read d (Tbl.write d t k v) k = v := by simp [Tbl.read_write]

theorem Tbl.read_write_other [DecidableEq α] (d : α) (t : Tbl α) {k j : Nat} (v : α) (h : j ≠ k) :
    Tbl.read d (Tbl.write d t k v) j = Tbl.read d t j := by simp [Tbl.read_write, h]

/-! ### The canonical form -/

theorem Tbl.rising_weaken : ∀ {t : Tbl α} {a b : Nat}, Tbl.rising (some a) t = true → b ≤ a →
    Tbl.rising (some b) t = true
  | [], _, _, _, _ => rfl
  | (k, v) :: t, a, b, h, hb => by
    simp only [Tbl.rising, Bool.and_eq_true, decide_eq_true_eq] at *
    exact ⟨by omega, h.2⟩

theorem Tbl.rising_none_of {t : Tbl α} {a : Nat} (h : Tbl.rising (some a) t = true) : Tbl.rising none t = true := by
  cases t with
  | nil => rfl
  | cons e t =>
    obtain ⟨k, v⟩ := e
    simp only [Tbl.rising, Bool.and_eq_true] at *
    exact h.2

theorem Tbl.rising_put : ∀ {t : Tbl α} {lo k : Nat} {v : α}, Tbl.rising (some lo) t = true → lo < k →
    Tbl.rising (some lo) (Tbl.put t k v) = true
  | [], lo, k, v, _, hk => by simp [Tbl.put, Tbl.rising, hk]
  | (k', v') :: t, lo, k, v, h, hk => by
    simp only [Tbl.rising, Bool.and_eq_true, decide_eq_true_eq] at h
    simp only [Tbl.put]
    split
    · simp [Tbl.rising, h.2, *]
    · split
      · subst_vars
        simp [Tbl.rising, hk, h.2]
      · simp only [Tbl.rising, Bool.and_eq_true, decide_eq_true_eq]
        exact ⟨h.1, Tbl.rising_put h.2 (by omega)⟩

theorem Tbl.rising_put_none {t : Tbl α} {k : Nat} {v : α} (h : Tbl.rising none t = true) :
    Tbl.rising none (Tbl.put t k v) = true := by
  cases t with
  | nil => rfl
  | cons e t =>
    obtain ⟨k', v'⟩ := e
    simp only [Tbl.rising] at h
    simp only [Tbl.put]
    split
    · simp [Tbl.rising, *]
    · split
      · subst_vars
        simpa [Tbl.rising] using h
      · simp only [Tbl.rising]
        exact Tbl.rising_put h (by omega)

theorem Tbl.rising_del : ∀ {t : Tbl α} {lo k : Nat}, Tbl.rising (some lo) t = true →
    Tbl.rising (some lo) (Tbl.del t k) = true
  | [], _, _, _ => rfl
  | (k', v') :: t, lo, k, h => by
    simp only [Tbl.rising, Bool.and_eq_true, decide_eq_true_eq] at h
    simp only [Tbl.del]
    split
    · exact Tbl.rising_del (Tbl.rising_weaken h.2 (by omega))
    · simp only [Tbl.rising, Bool.and_eq_true, decide_eq_true_eq]
      exact ⟨h.1, Tbl.rising_del h.2⟩

theorem Tbl.rising_del_none {t : Tbl α} {k : Nat} (h : Tbl.rising none t = true) :
    Tbl.rising none (Tbl.del t k) = true := by
  cases t with
  | nil => rfl
  | cons e t =>
    obtain ⟨k', v'⟩ := e
    simp only [Tbl.rising] at h
    simp only [Tbl.del]
    split
    · exact Tbl.rising_none_of (Tbl.rising_del h)
    · exact Tbl.rising_del h

theorem Tbl.all_put {p : Nat × α → Bool} : ∀ {t : Tbl α} {k : Nat} {v : α}, t.all p = true → p (k, v) = true →
    (Tbl.put t k v).all p = true
  | [], k, v, _, hv => by simp [Tbl.put, hv]
  | (k', v') :: t, k, v, h, hv => by
    simp only [List.all_cons, Bool.and_eq_true] at h
    simp only [Tbl.put]
    split
    · simp [hv, h.1, h.2]
    · split
      · simp [hv, h.2]
      · simp [h.1, Tbl.all_put h.2 hv]

theorem Tbl.all_del {p : Nat × α → Bool} : ∀ {t : Tbl α} {k : Nat}, t.all p = true → (Tbl.del t k).all p = true
  | [], _, _ => rfl
  | (k', v') :: t, k, h => by
    simp only [List.all_cons, Bool.and_eq_true] at h
    simp only [Tbl.del]
    split
    · exact Tbl.all_del h.2
    · simp [h.1, Tbl.all_del h.2]

/-- A write keeps the canonical form of a store. -/
theorem Tbl.wf_write [DecidableEq α] (d : α) {t : Tbl α} (k : Nat) (v : α) (h : Tbl.wf d t = true) :
    Tbl.wf d (Tbl.write d t k v) = true := by
  simp only [Tbl.wf, Bool.and_eq_true] at *
  unfold Tbl.write
  split
  · exact ⟨Tbl.rising_del_none h.1, Tbl.all_del h.2⟩
  · exact ⟨Tbl.rising_put_none h.1, Tbl.all_put h.2 (by simpa using ‹¬v = d›)⟩

theorem Tbl.rising_filter {p : Nat × α → Bool} : ∀ {t : Tbl α} {lo : Nat}, Tbl.rising (some lo) t = true →
    Tbl.rising (some lo) (List.filter p t) = true
  | [], _, _ => rfl
  | (k, v) :: t, lo, h => by
    simp only [Tbl.rising, Bool.and_eq_true, decide_eq_true_eq] at h
    simp only [List.filter]
    split
    · simp only [Tbl.rising, Bool.and_eq_true, decide_eq_true_eq]
      exact ⟨h.1, Tbl.rising_filter h.2⟩
    · exact Tbl.rising_weaken (Tbl.rising_filter h.2) (by omega)

theorem Tbl.rising_filter_none {p : Nat × α → Bool} {t : Tbl α} (h : Tbl.rising none t = true) :
    Tbl.rising none (List.filter p t) = true := by
  cases t with
  | nil => rfl
  | cons e t =>
    obtain ⟨k, v⟩ := e
    simp only [Tbl.rising] at h
    simp only [List.filter]
    split
    · exact Tbl.rising_filter h
    · exact Tbl.rising_none_of (Tbl.rising_filter h)

/-- Dropping entries keeps the canonical form. -/
theorem Tbl.wf_filter [DecidableEq α] (d : α) {t : Tbl α} (p : Nat × α → Bool) (h : Tbl.wf d t = true) :
    Tbl.wf d (List.filter p t) = true := by
  simp only [Tbl.wf, Bool.and_eq_true] at *
  refine ⟨Tbl.rising_filter_none h.1, ?_⟩
  simp only [List.all_eq_true] at *
  exact fun x hx => h.2 x (List.mem_filter.mp hx).1

end Sys2Proof.Machine
end

