-- ==== Sys2Proof/Laws/State.lean ====
section
/-! SUPPORT. What each elementary update leaves: one lemma for each field of State that it keeps, and what is read
after it. -/

namespace Sys2Proof.Machine

open Sys2Proof

/-! `setCore` -/

section
variable (s : State) (c : Nat) (k : Core)

@[simp] theorem State.setCore_now : (s.setCore c k).now = s.now := rfl
@[simp] theorem State.setCore_mod : (s.setCore c k).mod = s.mod := rfl
@[simp] theorem State.setCore_dies : (s.setCore c k).dies = s.dies := rfl
@[simp] theorem State.setCore_token : (s.setCore c k).token = s.token := rfl
@[simp] theorem State.setCore_cxl : (s.setCore c k).cxl = s.cxl := rfl
@[simp] theorem State.setCore_uec : (s.setCore c k).uec = s.uec := rfl
@[simp] theorem State.setCore_ports : (s.setCore c k).ports = s.ports := rfl
@[simp] theorem State.setCore_contexts : (s.setCore c k).contexts = s.contexts := rfl
@[simp] theorem State.setCore_queues : (s.setCore c k).queues = s.queues := rfl
@[simp] theorem State.setCore_packets : (s.setCore c k).packets = s.packets := rfl
@[simp] theorem State.setCore_launches : (s.setCore c k).launches = s.launches := rfl
@[simp] theorem State.setCore_crews : (s.setCore c k).crews = s.crews := rfl
@[simp] theorem State.setCore_pairs : (s.setCore c k).pairs = s.pairs := rfl
@[simp] theorem State.setCore_nodes : (s.setCore c k).nodes = s.nodes := rfl
@[simp] theorem State.setCore_channels : (s.setCore c k).channels = s.channels := rfl
@[simp] theorem State.setCore_sessions : (s.setCore c k).sessions = s.sessions := rfl
@[simp] theorem State.setCore_exposures : (s.setCore c k).exposures = s.exposures := rfl
@[simp] theorem State.setCore_ingots : (s.setCore c k).ingots = s.ingots := rfl
@[simp] theorem State.setCore_snapshot : (s.setCore c k).snapshot = s.snapshot := rfl
@[simp] theorem State.setCore_owners : (s.setCore c k).owners = s.owners := rfl
@[simp] theorem State.setCore_nextFrame : (s.setCore c k).nextFrame = s.nextFrame := rfl
@[simp] theorem State.setCore_freeFrames : (s.setCore c k).freeFrames = s.freeFrames := rfl
@[simp] theorem State.setCore_clusters : (s.setCore c k).clusters = s.clusters := rfl
@[simp] theorem State.setCore_reds : (s.setCore c k).reds = s.reds := rfl
@[simp] theorem State.setCore_redSeen : (s.setCore c k).redSeen = s.redSeen := rfl
@[simp] theorem State.setCore_inbounds : (s.setCore c k).inbounds = s.inbounds := rfl
@[simp] theorem State.setCore_posted : (s.setCore c k).posted = s.posted := rfl
@[simp] theorem State.setCore_reachable : (s.setCore c k).reachable = s.reachable := rfl
@[simp] theorem State.setCore_opened : (s.setCore c k).opened = s.opened := rfl
@[simp] theorem State.setCore_mem : (s.setCore c k).mem = s.mem := rfl
@[simp] theorem State.setCore_views : (s.setCore c k).views = s.views := rfl
@[simp] theorem State.setCore_released : (s.setCore c k).released = s.released := rfl
@[simp] theorem State.setCore_replicas : (s.setCore c k).replicas = s.replicas := rfl
@[simp] theorem State.setCore_poison : (s.setCore c k).poison = s.poison := rfl
@[simp] theorem State.setCore_sent : (s.setCore c k).sent = s.sent := rfl
@[simp] theorem State.setCore_agenda : (s.setCore c k).agenda = s.agenda := rfl
@[simp] theorem State.setCore_turn : (s.setCore c k).turn = s.turn := rfl
@[simp] theorem State.setCore_focus : (s.setCore c k).focus = s.focus := rfl
@[simp] theorem State.setCore_freeCount : (s.setCore c k).freeCount = s.freeCount := rfl
@[simp] theorem State.setCore_nextOp : (s.setCore c k).nextOp = s.nextOp := rfl
@[simp] theorem State.setCore_nextHandle : (s.setCore c k).nextHandle = s.nextHandle := rfl

end

/-! `updCore` -/

section
variable (s : State) (c : Nat) (f : Core → Core)

@[simp] theorem State.updCore_now : (s.updCore c f).now = s.now := rfl
@[simp] theorem State.updCore_mod : (s.updCore c f).mod = s.mod := rfl
@[simp] theorem State.updCore_dies : (s.updCore c f).dies = s.dies := rfl
@[simp] theorem State.updCore_token : (s.updCore c f).token = s.token := rfl
@[simp] theorem State.updCore_cxl : (s.updCore c f).cxl = s.cxl := rfl
@[simp] theorem State.updCore_uec : (s.updCore c f).uec = s.uec := rfl
@[simp] theorem State.updCore_ports : (s.updCore c f).ports = s.ports := rfl
@[simp] theorem State.updCore_contexts : (s.updCore c f).contexts = s.contexts := rfl
@[simp] theorem State.updCore_queues : (s.updCore c f).queues = s.queues := rfl
@[simp] theorem State.updCore_packets : (s.updCore c f).packets = s.packets := rfl
@[simp] theorem State.updCore_launches : (s.updCore c f).launches = s.launches := rfl
@[simp] theorem State.updCore_crews : (s.updCore c f).crews = s.crews := rfl
@[simp] theorem State.updCore_pairs : (s.updCore c f).pairs = s.pairs := rfl
@[simp] theorem State.updCore_nodes : (s.updCore c f).nodes = s.nodes := rfl
@[simp] theorem State.updCore_channels : (s.updCore c f).channels = s.channels := rfl
@[simp] theorem State.updCore_sessions : (s.updCore c f).sessions = s.sessions := rfl
@[simp] theorem State.updCore_exposures : (s.updCore c f).exposures = s.exposures := rfl
@[simp] theorem State.updCore_ingots : (s.updCore c f).ingots = s.ingots := rfl
@[simp] theorem State.updCore_snapshot : (s.updCore c f).snapshot = s.snapshot := rfl
@[simp] theorem State.updCore_owners : (s.updCore c f).owners = s.owners := rfl
@[simp] theorem State.updCore_nextFrame : (s.updCore c f).nextFrame = s.nextFrame := rfl
@[simp] theorem State.updCore_freeFrames : (s.updCore c f).freeFrames = s.freeFrames := rfl
@[simp] theorem State.updCore_clusters : (s.updCore c f).clusters = s.clusters := rfl
@[simp] theorem State.updCore_reds : (s.updCore c f).reds = s.reds := rfl
@[simp] theorem State.updCore_redSeen : (s.updCore c f).redSeen = s.redSeen := rfl
@[simp] theorem State.updCore_inbounds : (s.updCore c f).inbounds = s.inbounds := rfl
@[simp] theorem State.updCore_posted : (s.updCore c f).posted = s.posted := rfl
@[simp] theorem State.updCore_reachable : (s.updCore c f).reachable = s.reachable := rfl
@[simp] theorem State.updCore_opened : (s.updCore c f).opened = s.opened := rfl
@[simp] theorem State.updCore_mem : (s.updCore c f).mem = s.mem := rfl
@[simp] theorem State.updCore_views : (s.updCore c f).views = s.views := rfl
@[simp] theorem State.updCore_released : (s.updCore c f).released = s.released := rfl
@[simp] theorem State.updCore_replicas : (s.updCore c f).replicas = s.replicas := rfl
@[simp] theorem State.updCore_poison : (s.updCore c f).poison = s.poison := rfl
@[simp] theorem State.updCore_sent : (s.updCore c f).sent = s.sent := rfl
@[simp] theorem State.updCore_agenda : (s.updCore c f).agenda = s.agenda := rfl
@[simp] theorem State.updCore_turn : (s.updCore c f).turn = s.turn := rfl
@[simp] theorem State.updCore_focus : (s.updCore c f).focus = s.focus := rfl
@[simp] theorem State.updCore_freeCount : (s.updCore c f).freeCount = s.freeCount := rfl
@[simp] theorem State.updCore_nextOp : (s.updCore c f).nextOp = s.nextOp := rfl
@[simp] theorem State.updCore_nextHandle : (s.updCore c f).nextHandle = s.nextHandle := rfl

end

/-! `setCluster` -/

section
variable (s : State) (c : Nat) (k : Cluster)

@[simp] theorem State.setCluster_now : (s.setCluster c k).now = s.now := rfl
@[simp] theorem State.setCluster_mod : (s.setCluster c k).mod = s.mod := rfl
@[simp] theorem State.setCluster_dies : (s.setCluster c k).dies = s.dies := rfl
@[simp] theorem State.setCluster_token : (s.setCluster c k).token = s.token := rfl
@[simp] theorem State.setCluster_cxl : (s.setCluster c k).cxl = s.cxl := rfl
@[simp] theorem State.setCluster_uec : (s.setCluster c k).uec = s.uec := rfl
@[simp] theorem State.setCluster_ports : (s.setCluster c k).ports = s.ports := rfl
@[simp] theorem State.setCluster_contexts : (s.setCluster c k).contexts = s.contexts := rfl
@[simp] theorem State.setCluster_queues : (s.setCluster c k).queues = s.queues := rfl
@[simp] theorem State.setCluster_packets : (s.setCluster c k).packets = s.packets := rfl
@[simp] theorem State.setCluster_launches : (s.setCluster c k).launches = s.launches := rfl
@[simp] theorem State.setCluster_crews : (s.setCluster c k).crews = s.crews := rfl
@[simp] theorem State.setCluster_pairs : (s.setCluster c k).pairs = s.pairs := rfl
@[simp] theorem State.setCluster_nodes : (s.setCluster c k).nodes = s.nodes := rfl
@[simp] theorem State.setCluster_channels : (s.setCluster c k).channels = s.channels := rfl
@[simp] theorem State.setCluster_sessions : (s.setCluster c k).sessions = s.sessions := rfl
@[simp] theorem State.setCluster_exposures : (s.setCluster c k).exposures = s.exposures := rfl
@[simp] theorem State.setCluster_ingots : (s.setCluster c k).ingots = s.ingots := rfl
@[simp] theorem State.setCluster_snapshot : (s.setCluster c k).snapshot = s.snapshot := rfl
@[simp] theorem State.setCluster_owners : (s.setCluster c k).owners = s.owners := rfl
@[simp] theorem State.setCluster_nextFrame : (s.setCluster c k).nextFrame = s.nextFrame := rfl
@[simp] theorem State.setCluster_freeFrames : (s.setCluster c k).freeFrames = s.freeFrames := rfl
@[simp] theorem State.setCluster_cores : (s.setCluster c k).cores = s.cores := rfl
@[simp] theorem State.setCluster_reds : (s.setCluster c k).reds = s.reds := rfl
@[simp] theorem State.setCluster_redSeen : (s.setCluster c k).redSeen = s.redSeen := rfl
@[simp] theorem State.setCluster_inbounds : (s.setCluster c k).inbounds = s.inbounds := rfl
@[simp] theorem State.setCluster_posted : (s.setCluster c k).posted = s.posted := rfl
@[simp] theorem State.setCluster_reachable : (s.setCluster c k).reachable = s.reachable := rfl
@[simp] theorem State.setCluster_opened : (s.setCluster c k).opened = s.opened := rfl
@[simp] theorem State.setCluster_mem : (s.setCluster c k).mem = s.mem := rfl
@[simp] theorem State.setCluster_views : (s.setCluster c k).views = s.views := rfl
@[simp] theorem State.setCluster_released : (s.setCluster c k).released = s.released := rfl
@[simp] theorem State.setCluster_replicas : (s.setCluster c k).replicas = s.replicas := rfl
@[simp] theorem State.setCluster_poison : (s.setCluster c k).poison = s.poison := rfl
@[simp] theorem State.setCluster_sent : (s.setCluster c k).sent = s.sent := rfl
@[simp] theorem State.setCluster_agenda : (s.setCluster c k).agenda = s.agenda := rfl
@[simp] theorem State.setCluster_turn : (s.setCluster c k).turn = s.turn := rfl
@[simp] theorem State.setCluster_focus : (s.setCluster c k).focus = s.focus := rfl
@[simp] theorem State.setCluster_freeCount : (s.setCluster c k).freeCount = s.freeCount := rfl
@[simp] theorem State.setCluster_nextOp : (s.setCluster c k).nextOp = s.nextOp := rfl
@[simp] theorem State.setCluster_nextHandle : (s.setCluster c k).nextHandle = s.nextHandle := rfl

end

/-! `updCluster` -/

section
variable (s : State) (c : Nat) (f : Cluster → Cluster)

@[simp] theorem State.updCluster_now : (s.updCluster c f).now = s.now := rfl
@[simp] theorem State.updCluster_mod : (s.updCluster c f).mod = s.mod := rfl
@[simp] theorem State.updCluster_dies : (s.updCluster c f).dies = s.dies := rfl
@[simp] theorem State.updCluster_token : (s.updCluster c f).token = s.token := rfl
@[simp] theorem State.updCluster_cxl : (s.updCluster c f).cxl = s.cxl := rfl
@[simp] theorem State.updCluster_uec : (s.updCluster c f).uec = s.uec := rfl
@[simp] theorem State.updCluster_ports : (s.updCluster c f).ports = s.ports := rfl
@[simp] theorem State.updCluster_contexts : (s.updCluster c f).contexts = s.contexts := rfl
@[simp] theorem State.updCluster_queues : (s.updCluster c f).queues = s.queues := rfl
@[simp] theorem State.updCluster_packets : (s.updCluster c f).packets = s.packets := rfl
@[simp] theorem State.updCluster_launches : (s.updCluster c f).launches = s.launches := rfl
@[simp] theorem State.updCluster_crews : (s.updCluster c f).crews = s.crews := rfl
@[simp] theorem State.updCluster_pairs : (s.updCluster c f).pairs = s.pairs := rfl
@[simp] theorem State.updCluster_nodes : (s.updCluster c f).nodes = s.nodes := rfl
@[simp] theorem State.updCluster_channels : (s.updCluster c f).channels = s.channels := rfl
@[simp] theorem State.updCluster_sessions : (s.updCluster c f).sessions = s.sessions := rfl
@[simp] theorem State.updCluster_exposures : (s.updCluster c f).exposures = s.exposures := rfl
@[simp] theorem State.updCluster_ingots : (s.updCluster c f).ingots = s.ingots := rfl
@[simp] theorem State.updCluster_snapshot : (s.updCluster c f).snapshot = s.snapshot := rfl
@[simp] theorem State.updCluster_owners : (s.updCluster c f).owners = s.owners := rfl
@[simp] theorem State.updCluster_nextFrame : (s.updCluster c f).nextFrame = s.nextFrame := rfl
@[simp] theorem State.updCluster_freeFrames : (s.updCluster c f).freeFrames = s.freeFrames := rfl
@[simp] theorem State.updCluster_cores : (s.updCluster c f).cores = s.cores := rfl
@[simp] theorem State.updCluster_reds : (s.updCluster c f).reds = s.reds := rfl
@[simp] theorem State.updCluster_redSeen : (s.updCluster c f).redSeen = s.redSeen := rfl
@[simp] theorem State.updCluster_inbounds : (s.updCluster c f).inbounds = s.inbounds := rfl
@[simp] theorem State.updCluster_posted : (s.updCluster c f).posted = s.posted := rfl
@[simp] theorem State.updCluster_reachable : (s.updCluster c f).reachable = s.reachable := rfl
@[simp] theorem State.updCluster_opened : (s.updCluster c f).opened = s.opened := rfl
@[simp] theorem State.updCluster_mem : (s.updCluster c f).mem = s.mem := rfl
@[simp] theorem State.updCluster_views : (s.updCluster c f).views = s.views := rfl
@[simp] theorem State.updCluster_released : (s.updCluster c f).released = s.released := rfl
@[simp] theorem State.updCluster_replicas : (s.updCluster c f).replicas = s.replicas := rfl
@[simp] theorem State.updCluster_poison : (s.updCluster c f).poison = s.poison := rfl
@[simp] theorem State.updCluster_sent : (s.updCluster c f).sent = s.sent := rfl
@[simp] theorem State.updCluster_agenda : (s.updCluster c f).agenda = s.agenda := rfl
@[simp] theorem State.updCluster_turn : (s.updCluster c f).turn = s.turn := rfl
@[simp] theorem State.updCluster_focus : (s.updCluster c f).focus = s.focus := rfl
@[simp] theorem State.updCluster_freeCount : (s.updCluster c f).freeCount = s.freeCount := rfl
@[simp] theorem State.updCluster_nextOp : (s.updCluster c f).nextOp = s.nextOp := rfl
@[simp] theorem State.updCluster_nextHandle : (s.updCluster c f).nextHandle = s.nextHandle := rfl

end

/-! `setDie` -/

section
variable (s : State) (d : Nat) (k : Die)

@[simp] theorem State.setDie_now : (s.setDie d k).now = s.now := rfl
@[simp] theorem State.setDie_mod : (s.setDie d k).mod = s.mod := rfl
@[simp] theorem State.setDie_token : (s.setDie d k).token = s.token := rfl
@[simp] theorem State.setDie_cxl : (s.setDie d k).cxl = s.cxl := rfl
@[simp] theorem State.setDie_uec : (s.setDie d k).uec = s.uec := rfl
@[simp] theorem State.setDie_ports : (s.setDie d k).ports = s.ports := rfl
@[simp] theorem State.setDie_contexts : (s.setDie d k).contexts = s.contexts := rfl
@[simp] theorem State.setDie_queues : (s.setDie d k).queues = s.queues := rfl
@[simp] theorem State.setDie_packets : (s.setDie d k).packets = s.packets := rfl
@[simp] theorem State.setDie_launches : (s.setDie d k).launches = s.launches := rfl
@[simp] theorem State.setDie_crews : (s.setDie d k).crews = s.crews := rfl
@[simp] theorem State.setDie_pairs : (s.setDie d k).pairs = s.pairs := rfl
@[simp] theorem State.setDie_nodes : (s.setDie d k).nodes = s.nodes := rfl
@[simp] theorem State.setDie_channels : (s.setDie d k).channels = s.channels := rfl
@[simp] theorem State.setDie_sessions : (s.setDie d k).sessions = s.sessions := rfl
@[simp] theorem State.setDie_exposures : (s.setDie d k).exposures = s.exposures := rfl
@[simp] theorem State.setDie_ingots : (s.setDie d k).ingots = s.ingots := rfl
@[simp] theorem State.setDie_snapshot : (s.setDie d k).snapshot = s.snapshot := rfl
@[simp] theorem State.setDie_owners : (s.setDie d k).owners = s.owners := rfl
@[simp] theorem State.setDie_nextFrame : (s.setDie d k).nextFrame = s.nextFrame := rfl
@[simp] theorem State.setDie_freeFrames : (s.setDie d k).freeFrames = s.freeFrames := rfl
@[simp] theorem State.setDie_cores : (s.setDie d k).cores = s.cores := rfl
@[simp] theorem State.setDie_clusters : (s.setDie d k).clusters = s.clusters := rfl
@[simp] theorem State.setDie_reds : (s.setDie d k).reds = s.reds := rfl
@[simp] theorem State.setDie_redSeen : (s.setDie d k).redSeen = s.redSeen := rfl
@[simp] theorem State.setDie_inbounds : (s.setDie d k).inbounds = s.inbounds := rfl
@[simp] theorem State.setDie_posted : (s.setDie d k).posted = s.posted := rfl
@[simp] theorem State.setDie_reachable : (s.setDie d k).reachable = s.reachable := rfl
@[simp] theorem State.setDie_opened : (s.setDie d k).opened = s.opened := rfl
@[simp] theorem State.setDie_mem : (s.setDie d k).mem = s.mem := rfl
@[simp] theorem State.setDie_views : (s.setDie d k).views = s.views := rfl
@[simp] theorem State.setDie_released : (s.setDie d k).released = s.released := rfl
@[simp] theorem State.setDie_replicas : (s.setDie d k).replicas = s.replicas := rfl
@[simp] theorem State.setDie_poison : (s.setDie d k).poison = s.poison := rfl
@[simp] theorem State.setDie_sent : (s.setDie d k).sent = s.sent := rfl
@[simp] theorem State.setDie_agenda : (s.setDie d k).agenda = s.agenda := rfl
@[simp] theorem State.setDie_turn : (s.setDie d k).turn = s.turn := rfl
@[simp] theorem State.setDie_focus : (s.setDie d k).focus = s.focus := rfl
@[simp] theorem State.setDie_freeCount : (s.setDie d k).freeCount = s.freeCount := rfl
@[simp] theorem State.setDie_nextOp : (s.setDie d k).nextOp = s.nextOp := rfl
@[simp] theorem State.setDie_nextHandle : (s.setDie d k).nextHandle = s.nextHandle := rfl

end

/-! `updDie` -/

section
variable (s : State) (d : Nat) (f : Die → Die)

@[simp] theorem State.updDie_now : (s.updDie d f).now = s.now := rfl
@[simp] theorem State.updDie_mod : (s.updDie d f).mod = s.mod := rfl
@[simp] theorem State.updDie_token : (s.updDie d f).token = s.token := rfl
@[simp] theorem State.updDie_cxl : (s.updDie d f).cxl = s.cxl := rfl
@[simp] theorem State.updDie_uec : (s.updDie d f).uec = s.uec := rfl
@[simp] theorem State.updDie_ports : (s.updDie d f).ports = s.ports := rfl
@[simp] theorem State.updDie_contexts : (s.updDie d f).contexts = s.contexts := rfl
@[simp] theorem State.updDie_queues : (s.updDie d f).queues = s.queues := rfl
@[simp] theorem State.updDie_packets : (s.updDie d f).packets = s.packets := rfl
@[simp] theorem State.updDie_launches : (s.updDie d f).launches = s.launches := rfl
@[simp] theorem State.updDie_crews : (s.updDie d f).crews = s.crews := rfl
@[simp] theorem State.updDie_pairs : (s.updDie d f).pairs = s.pairs := rfl
@[simp] theorem State.updDie_nodes : (s.updDie d f).nodes = s.nodes := rfl
@[simp] theorem State.updDie_channels : (s.updDie d f).channels = s.channels := rfl
@[simp] theorem State.updDie_sessions : (s.updDie d f).sessions = s.sessions := rfl
@[simp] theorem State.updDie_exposures : (s.updDie d f).exposures = s.exposures := rfl
@[simp] theorem State.updDie_ingots : (s.updDie d f).ingots = s.ingots := rfl
@[simp] theorem State.updDie_snapshot : (s.updDie d f).snapshot = s.snapshot := rfl
@[simp] theorem State.updDie_owners : (s.updDie d f).owners = s.owners := rfl
@[simp] theorem State.updDie_nextFrame : (s.updDie d f).nextFrame = s.nextFrame := rfl
@[simp] theorem State.updDie_freeFrames : (s.updDie d f).freeFrames = s.freeFrames := rfl
@[simp] theorem State.updDie_cores : (s.updDie d f).cores = s.cores := rfl
@[simp] theorem State.updDie_clusters : (s.updDie d f).clusters = s.clusters := rfl
@[simp] theorem State.updDie_reds : (s.updDie d f).reds = s.reds := rfl
@[simp] theorem State.updDie_redSeen : (s.updDie d f).redSeen = s.redSeen := rfl
@[simp] theorem State.updDie_inbounds : (s.updDie d f).inbounds = s.inbounds := rfl
@[simp] theorem State.updDie_posted : (s.updDie d f).posted = s.posted := rfl
@[simp] theorem State.updDie_reachable : (s.updDie d f).reachable = s.reachable := rfl
@[simp] theorem State.updDie_opened : (s.updDie d f).opened = s.opened := rfl
@[simp] theorem State.updDie_mem : (s.updDie d f).mem = s.mem := rfl
@[simp] theorem State.updDie_views : (s.updDie d f).views = s.views := rfl
@[simp] theorem State.updDie_released : (s.updDie d f).released = s.released := rfl
@[simp] theorem State.updDie_replicas : (s.updDie d f).replicas = s.replicas := rfl
@[simp] theorem State.updDie_poison : (s.updDie d f).poison = s.poison := rfl
@[simp] theorem State.updDie_sent : (s.updDie d f).sent = s.sent := rfl
@[simp] theorem State.updDie_agenda : (s.updDie d f).agenda = s.agenda := rfl
@[simp] theorem State.updDie_turn : (s.updDie d f).turn = s.turn := rfl
@[simp] theorem State.updDie_focus : (s.updDie d f).focus = s.focus := rfl
@[simp] theorem State.updDie_freeCount : (s.updDie d f).freeCount = s.freeCount := rfl
@[simp] theorem State.updDie_nextOp : (s.updDie d f).nextOp = s.nextOp := rfl
@[simp] theorem State.updDie_nextHandle : (s.updDie d f).nextHandle = s.nextHandle := rfl

end

/-! `updCrew` -/

section
variable (s : State) (k : Nat) (f : Crew → Crew)

@[simp] theorem State.updCrew_now : (s.updCrew k f).now = s.now := rfl
@[simp] theorem State.updCrew_mod : (s.updCrew k f).mod = s.mod := rfl
@[simp] theorem State.updCrew_dies : (s.updCrew k f).dies = s.dies := rfl
@[simp] theorem State.updCrew_token : (s.updCrew k f).token = s.token := rfl
@[simp] theorem State.updCrew_cxl : (s.updCrew k f).cxl = s.cxl := rfl
@[simp] theorem State.updCrew_uec : (s.updCrew k f).uec = s.uec := rfl
@[simp] theorem State.updCrew_ports : (s.updCrew k f).ports = s.ports := rfl
@[simp] theorem State.updCrew_contexts : (s.updCrew k f).contexts = s.contexts := rfl
@[simp] theorem State.updCrew_queues : (s.updCrew k f).queues = s.queues := rfl
@[simp] theorem State.updCrew_packets : (s.updCrew k f).packets = s.packets := rfl
@[simp] theorem State.updCrew_launches : (s.updCrew k f).launches = s.launches := rfl
@[simp] theorem State.updCrew_pairs : (s.updCrew k f).pairs = s.pairs := rfl
@[simp] theorem State.updCrew_nodes : (s.updCrew k f).nodes = s.nodes := rfl
@[simp] theorem State.updCrew_channels : (s.updCrew k f).channels = s.channels := rfl
@[simp] theorem State.updCrew_sessions : (s.updCrew k f).sessions = s.sessions := rfl
@[simp] theorem State.updCrew_exposures : (s.updCrew k f).exposures = s.exposures := rfl
@[simp] theorem State.updCrew_ingots : (s.updCrew k f).ingots = s.ingots := rfl
@[simp] theorem State.updCrew_snapshot : (s.updCrew k f).snapshot = s.snapshot := rfl
@[simp] theorem State.updCrew_owners : (s.updCrew k f).owners = s.owners := rfl
@[simp] theorem State.updCrew_nextFrame : (s.updCrew k f).nextFrame = s.nextFrame := rfl
@[simp] theorem State.updCrew_freeFrames : (s.updCrew k f).freeFrames = s.freeFrames := rfl
@[simp] theorem State.updCrew_cores : (s.updCrew k f).cores = s.cores := rfl
@[simp] theorem State.updCrew_clusters : (s.updCrew k f).clusters = s.clusters := rfl
@[simp] theorem State.updCrew_reds : (s.updCrew k f).reds = s.reds := rfl
@[simp] theorem State.updCrew_redSeen : (s.updCrew k f).redSeen = s.redSeen := rfl
@[simp] theorem State.updCrew_inbounds : (s.updCrew k f).inbounds = s.inbounds := rfl
@[simp] theorem State.updCrew_posted : (s.updCrew k f).posted = s.posted := rfl
@[simp] theorem State.updCrew_reachable : (s.updCrew k f).reachable = s.reachable := rfl
@[simp] theorem State.updCrew_opened : (s.updCrew k f).opened = s.opened := rfl
@[simp] theorem State.updCrew_mem : (s.updCrew k f).mem = s.mem := rfl
@[simp] theorem State.updCrew_views : (s.updCrew k f).views = s.views := rfl
@[simp] theorem State.updCrew_released : (s.updCrew k f).released = s.released := rfl
@[simp] theorem State.updCrew_replicas : (s.updCrew k f).replicas = s.replicas := rfl
@[simp] theorem State.updCrew_poison : (s.updCrew k f).poison = s.poison := rfl
@[simp] theorem State.updCrew_sent : (s.updCrew k f).sent = s.sent := rfl
@[simp] theorem State.updCrew_agenda : (s.updCrew k f).agenda = s.agenda := rfl
@[simp] theorem State.updCrew_turn : (s.updCrew k f).turn = s.turn := rfl
@[simp] theorem State.updCrew_focus : (s.updCrew k f).focus = s.focus := rfl
@[simp] theorem State.updCrew_freeCount : (s.updCrew k f).freeCount = s.freeCount := rfl
@[simp] theorem State.updCrew_nextOp : (s.updCrew k f).nextOp = s.nextOp := rfl
@[simp] theorem State.updCrew_nextHandle : (s.updCrew k f).nextHandle = s.nextHandle := rfl

end

/-! `updLaunch` -/

section
variable (s : State) (k : Nat) (f : Launch → Launch)

@[simp] theorem State.updLaunch_now : (s.updLaunch k f).now = s.now := rfl
@[simp] theorem State.updLaunch_mod : (s.updLaunch k f).mod = s.mod := rfl
@[simp] theorem State.updLaunch_dies : (s.updLaunch k f).dies = s.dies := rfl
@[simp] theorem State.updLaunch_token : (s.updLaunch k f).token = s.token := rfl
@[simp] theorem State.updLaunch_cxl : (s.updLaunch k f).cxl = s.cxl := rfl
@[simp] theorem State.updLaunch_uec : (s.updLaunch k f).uec = s.uec := rfl
@[simp] theorem State.updLaunch_ports : (s.updLaunch k f).ports = s.ports := rfl
@[simp] theorem State.updLaunch_contexts : (s.updLaunch k f).contexts = s.contexts := rfl
@[simp] theorem State.updLaunch_queues : (s.updLaunch k f).queues = s.queues := rfl
@[simp] theorem State.updLaunch_packets : (s.updLaunch k f).packets = s.packets := rfl
@[simp] theorem State.updLaunch_crews : (s.updLaunch k f).crews = s.crews := rfl
@[simp] theorem State.updLaunch_pairs : (s.updLaunch k f).pairs = s.pairs := rfl
@[simp] theorem State.updLaunch_nodes : (s.updLaunch k f).nodes = s.nodes := rfl
@[simp] theorem State.updLaunch_channels : (s.updLaunch k f).channels = s.channels := rfl
@[simp] theorem State.updLaunch_sessions : (s.updLaunch k f).sessions = s.sessions := rfl
@[simp] theorem State.updLaunch_exposures : (s.updLaunch k f).exposures = s.exposures := rfl
@[simp] theorem State.updLaunch_ingots : (s.updLaunch k f).ingots = s.ingots := rfl
@[simp] theorem State.updLaunch_snapshot : (s.updLaunch k f).snapshot = s.snapshot := rfl
@[simp] theorem State.updLaunch_owners : (s.updLaunch k f).owners = s.owners := rfl
@[simp] theorem State.updLaunch_nextFrame : (s.updLaunch k f).nextFrame = s.nextFrame := rfl
@[simp] theorem State.updLaunch_freeFrames : (s.updLaunch k f).freeFrames = s.freeFrames := rfl
@[simp] theorem State.updLaunch_cores : (s.updLaunch k f).cores = s.cores := rfl
@[simp] theorem State.updLaunch_clusters : (s.updLaunch k f).clusters = s.clusters := rfl
@[simp] theorem State.updLaunch_reds : (s.updLaunch k f).reds = s.reds := rfl
@[simp] theorem State.updLaunch_redSeen : (s.updLaunch k f).redSeen = s.redSeen := rfl
@[simp] theorem State.updLaunch_inbounds : (s.updLaunch k f).inbounds = s.inbounds := rfl
@[simp] theorem State.updLaunch_posted : (s.updLaunch k f).posted = s.posted := rfl
@[simp] theorem State.updLaunch_reachable : (s.updLaunch k f).reachable = s.reachable := rfl
@[simp] theorem State.updLaunch_opened : (s.updLaunch k f).opened = s.opened := rfl
@[simp] theorem State.updLaunch_mem : (s.updLaunch k f).mem = s.mem := rfl
@[simp] theorem State.updLaunch_views : (s.updLaunch k f).views = s.views := rfl
@[simp] theorem State.updLaunch_released : (s.updLaunch k f).released = s.released := rfl
@[simp] theorem State.updLaunch_replicas : (s.updLaunch k f).replicas = s.replicas := rfl
@[simp] theorem State.updLaunch_poison : (s.updLaunch k f).poison = s.poison := rfl
@[simp] theorem State.updLaunch_sent : (s.updLaunch k f).sent = s.sent := rfl
@[simp] theorem State.updLaunch_agenda : (s.updLaunch k f).agenda = s.agenda := rfl
@[simp] theorem State.updLaunch_turn : (s.updLaunch k f).turn = s.turn := rfl
@[simp] theorem State.updLaunch_focus : (s.updLaunch k f).focus = s.focus := rfl
@[simp] theorem State.updLaunch_freeCount : (s.updLaunch k f).freeCount = s.freeCount := rfl
@[simp] theorem State.updLaunch_nextOp : (s.updLaunch k f).nextOp = s.nextOp := rfl
@[simp] theorem State.updLaunch_nextHandle : (s.updLaunch k f).nextHandle = s.nextHandle := rfl

end

/-! `updContext` -/

section
variable (s : State) (k : Nat) (f : Context → Context)

@[simp] theorem State.updContext_now : (s.updContext k f).now = s.now := rfl
@[simp] theorem State.updContext_mod : (s.updContext k f).mod = s.mod := rfl
@[simp] theorem State.updContext_dies : (s.updContext k f).dies = s.dies := rfl
@[simp] theorem State.updContext_token : (s.updContext k f).token = s.token := rfl
@[simp] theorem State.updContext_cxl : (s.updContext k f).cxl = s.cxl := rfl
@[simp] theorem State.updContext_uec : (s.updContext k f).uec = s.uec := rfl
@[simp] theorem State.updContext_ports : (s.updContext k f).ports = s.ports := rfl
@[simp] theorem State.updContext_queues : (s.updContext k f).queues = s.queues := rfl
@[simp] theorem State.updContext_packets : (s.updContext k f).packets = s.packets := rfl
@[simp] theorem State.updContext_launches : (s.updContext k f).launches = s.launches := rfl
@[simp] theorem State.updContext_crews : (s.updContext k f).crews = s.crews := rfl
@[simp] theorem State.updContext_pairs : (s.updContext k f).pairs = s.pairs := rfl
@[simp] theorem State.updContext_nodes : (s.updContext k f).nodes = s.nodes := rfl
@[simp] theorem State.updContext_channels : (s.updContext k f).channels = s.channels := rfl
@[simp] theorem State.updContext_sessions : (s.updContext k f).sessions = s.sessions := rfl
@[simp] theorem State.updContext_exposures : (s.updContext k f).exposures = s.exposures := rfl
@[simp] theorem State.updContext_ingots : (s.updContext k f).ingots = s.ingots := rfl
@[simp] theorem State.updContext_snapshot : (s.updContext k f).snapshot = s.snapshot := rfl
@[simp] theorem State.updContext_owners : (s.updContext k f).owners = s.owners := rfl
@[simp] theorem State.updContext_nextFrame : (s.updContext k f).nextFrame = s.nextFrame := rfl
@[simp] theorem State.updContext_freeFrames : (s.updContext k f).freeFrames = s.freeFrames := rfl
@[simp] theorem State.updContext_cores : (s.updContext k f).cores = s.cores := rfl
@[simp] theorem State.updContext_clusters : (s.updContext k f).clusters = s.clusters := rfl
@[simp] theorem State.updContext_reds : (s.updContext k f).reds = s.reds := rfl
@[simp] theorem State.updContext_redSeen : (s.updContext k f).redSeen = s.redSeen := rfl
@[simp] theorem State.updContext_inbounds : (s.updContext k f).inbounds = s.inbounds := rfl
@[simp] theorem State.updContext_posted : (s.updContext k f).posted = s.posted := rfl
@[simp] theorem State.updContext_reachable : (s.updContext k f).reachable = s.reachable := rfl
@[simp] theorem State.updContext_opened : (s.updContext k f).opened = s.opened := rfl
@[simp] theorem State.updContext_mem : (s.updContext k f).mem = s.mem := rfl
@[simp] theorem State.updContext_views : (s.updContext k f).views = s.views := rfl
@[simp] theorem State.updContext_released : (s.updContext k f).released = s.released := rfl
@[simp] theorem State.updContext_replicas : (s.updContext k f).replicas = s.replicas := rfl
@[simp] theorem State.updContext_poison : (s.updContext k f).poison = s.poison := rfl
@[simp] theorem State.updContext_sent : (s.updContext k f).sent = s.sent := rfl
@[simp] theorem State.updContext_agenda : (s.updContext k f).agenda = s.agenda := rfl
@[simp] theorem State.updContext_turn : (s.updContext k f).turn = s.turn := rfl
@[simp] theorem State.updContext_focus : (s.updContext k f).focus = s.focus := rfl
@[simp] theorem State.updContext_freeCount : (s.updContext k f).freeCount = s.freeCount := rfl
@[simp] theorem State.updContext_nextOp : (s.updContext k f).nextOp = s.nextOp := rfl
@[simp] theorem State.updContext_nextHandle : (s.updContext k f).nextHandle = s.nextHandle := rfl

end

/-! `send` -/

section
variable (s : State) (x : Sent)

@[simp] theorem State.send_now : (s.send x).now = s.now := rfl
@[simp] theorem State.send_mod : (s.send x).mod = s.mod := rfl
@[simp] theorem State.send_dies : (s.send x).dies = s.dies := rfl
@[simp] theorem State.send_token : (s.send x).token = s.token := rfl
@[simp] theorem State.send_cxl : (s.send x).cxl = s.cxl := rfl
@[simp] theorem State.send_uec : (s.send x).uec = s.uec := rfl
@[simp] theorem State.send_ports : (s.send x).ports = s.ports := rfl
@[simp] theorem State.send_contexts : (s.send x).contexts = s.contexts := rfl
@[simp] theorem State.send_queues : (s.send x).queues = s.queues := rfl
@[simp] theorem State.send_packets : (s.send x).packets = s.packets := rfl
@[simp] theorem State.send_launches : (s.send x).launches = s.launches := rfl
@[simp] theorem State.send_crews : (s.send x).crews = s.crews := rfl
@[simp] theorem State.send_pairs : (s.send x).pairs = s.pairs := rfl
@[simp] theorem State.send_nodes : (s.send x).nodes = s.nodes := rfl
@[simp] theorem State.send_channels : (s.send x).channels = s.channels := rfl
@[simp] theorem State.send_sessions : (s.send x).sessions = s.sessions := rfl
@[simp] theorem State.send_exposures : (s.send x).exposures = s.exposures := rfl
@[simp] theorem State.send_ingots : (s.send x).ingots = s.ingots := rfl
@[simp] theorem State.send_snapshot : (s.send x).snapshot = s.snapshot := rfl
@[simp] theorem State.send_owners : (s.send x).owners = s.owners := rfl
@[simp] theorem State.send_nextFrame : (s.send x).nextFrame = s.nextFrame := rfl
@[simp] theorem State.send_freeFrames : (s.send x).freeFrames = s.freeFrames := rfl
@[simp] theorem State.send_cores : (s.send x).cores = s.cores := rfl
@[simp] theorem State.send_clusters : (s.send x).clusters = s.clusters := rfl
@[simp] theorem State.send_reds : (s.send x).reds = s.reds := rfl
@[simp] theorem State.send_redSeen : (s.send x).redSeen = s.redSeen := rfl
@[simp] theorem State.send_inbounds : (s.send x).inbounds = s.inbounds := rfl
@[simp] theorem State.send_posted : (s.send x).posted = s.posted := rfl
@[simp] theorem State.send_reachable : (s.send x).reachable = s.reachable := rfl
@[simp] theorem State.send_opened : (s.send x).opened = s.opened := rfl
@[simp] theorem State.send_mem : (s.send x).mem = s.mem := rfl
@[simp] theorem State.send_views : (s.send x).views = s.views := rfl
@[simp] theorem State.send_released : (s.send x).released = s.released := rfl
@[simp] theorem State.send_replicas : (s.send x).replicas = s.replicas := rfl
@[simp] theorem State.send_poison : (s.send x).poison = s.poison := rfl
@[simp] theorem State.send_agenda : (s.send x).agenda = s.agenda := rfl
@[simp] theorem State.send_turn : (s.send x).turn = s.turn := rfl
@[simp] theorem State.send_focus : (s.send x).focus = s.focus := rfl
@[simp] theorem State.send_freeCount : (s.send x).freeCount = s.freeCount := rfl
@[simp] theorem State.send_nextOp : (s.send x).nextOp = s.nextOp := rfl
@[simp] theorem State.send_nextHandle : (s.send x).nextHandle = s.nextHandle := rfl

end

/-! `writeByte` -/

section
variable (s : State) (a : Nat) (b : Byte)

@[simp] theorem State.writeByte_now : (s.writeByte a b).now = s.now := rfl
@[simp] theorem State.writeByte_mod : (s.writeByte a b).mod = s.mod := rfl
@[simp] theorem State.writeByte_dies : (s.writeByte a b).dies = s.dies := rfl
@[simp] theorem State.writeByte_token : (s.writeByte a b).token = s.token := rfl
@[simp] theorem State.writeByte_cxl : (s.writeByte a b).cxl = s.cxl := rfl
@[simp] theorem State.writeByte_uec : (s.writeByte a b).uec = s.uec := rfl
@[simp] theorem State.writeByte_ports : (s.writeByte a b).ports = s.ports := rfl
@[simp] theorem State.writeByte_contexts : (s.writeByte a b).contexts = s.contexts := rfl
@[simp] theorem State.writeByte_queues : (s.writeByte a b).queues = s.queues := rfl
@[simp] theorem State.writeByte_packets : (s.writeByte a b).packets = s.packets := rfl
@[simp] theorem State.writeByte_launches : (s.writeByte a b).launches = s.launches := rfl
@[simp] theorem State.writeByte_crews : (s.writeByte a b).crews = s.crews := rfl
@[simp] theorem State.writeByte_pairs : (s.writeByte a b).pairs = s.pairs := rfl
@[simp] theorem State.writeByte_nodes : (s.writeByte a b).nodes = s.nodes := rfl
@[simp] theorem State.writeByte_channels : (s.writeByte a b).channels = s.channels := rfl
@[simp] theorem State.writeByte_sessions : (s.writeByte a b).sessions = s.sessions := rfl
@[simp] theorem State.writeByte_exposures : (s.writeByte a b).exposures = s.exposures := rfl
@[simp] theorem State.writeByte_ingots : (s.writeByte a b).ingots = s.ingots := rfl
@[simp] theorem State.writeByte_snapshot : (s.writeByte a b).snapshot = s.snapshot := rfl
@[simp] theorem State.writeByte_owners : (s.writeByte a b).owners = s.owners := rfl
@[simp] theorem State.writeByte_nextFrame : (s.writeByte a b).nextFrame = s.nextFrame := rfl
@[simp] theorem State.writeByte_freeFrames : (s.writeByte a b).freeFrames = s.freeFrames := rfl
@[simp] theorem State.writeByte_cores : (s.writeByte a b).cores = s.cores := rfl
@[simp] theorem State.writeByte_clusters : (s.writeByte a b).clusters = s.clusters := rfl
@[simp] theorem State.writeByte_reds : (s.writeByte a b).reds = s.reds := rfl
@[simp] theorem State.writeByte_redSeen : (s.writeByte a b).redSeen = s.redSeen := rfl
@[simp] theorem State.writeByte_inbounds : (s.writeByte a b).inbounds = s.inbounds := rfl
@[simp] theorem State.writeByte_posted : (s.writeByte a b).posted = s.posted := rfl
@[simp] theorem State.writeByte_reachable : (s.writeByte a b).reachable = s.reachable := rfl
@[simp] theorem State.writeByte_opened : (s.writeByte a b).opened = s.opened := rfl
@[simp] theorem State.writeByte_views : (s.writeByte a b).views = s.views := rfl
@[simp] theorem State.writeByte_released : (s.writeByte a b).released = s.released := rfl
@[simp] theorem State.writeByte_replicas : (s.writeByte a b).replicas = s.replicas := rfl
@[simp] theorem State.writeByte_poison : (s.writeByte a b).poison = s.poison := rfl
@[simp] theorem State.writeByte_sent : (s.writeByte a b).sent = s.sent := rfl
@[simp] theorem State.writeByte_agenda : (s.writeByte a b).agenda = s.agenda := rfl
@[simp] theorem State.writeByte_turn : (s.writeByte a b).turn = s.turn := rfl
@[simp] theorem State.writeByte_focus : (s.writeByte a b).focus = s.focus := rfl
@[simp] theorem State.writeByte_freeCount : (s.writeByte a b).freeCount = s.freeCount := rfl
@[simp] theorem State.writeByte_nextOp : (s.writeByte a b).nextOp = s.nextOp := rfl
@[simp] theorem State.writeByte_nextHandle : (s.writeByte a b).nextHandle = s.nextHandle := rfl

end

/-! `setOwner` -/

section
variable (s : State) (f c : Nat)

@[simp] theorem State.setOwner_now : (s.setOwner f c).now = s.now := rfl
@[simp] theorem State.setOwner_mod : (s.setOwner f c).mod = s.mod := rfl
@[simp] theorem State.setOwner_dies : (s.setOwner f c).dies = s.dies := rfl
@[simp] theorem State.setOwner_token : (s.setOwner f c).token = s.token := rfl
@[simp] theorem State.setOwner_cxl : (s.setOwner f c).cxl = s.cxl := rfl
@[simp] theorem State.setOwner_uec : (s.setOwner f c).uec = s.uec := rfl
@[simp] theorem State.setOwner_ports : (s.setOwner f c).ports = s.ports := rfl
@[simp] theorem State.setOwner_contexts : (s.setOwner f c).contexts = s.contexts := rfl
@[simp] theorem State.setOwner_queues : (s.setOwner f c).queues = s.queues := rfl
@[simp] theorem State.setOwner_packets : (s.setOwner f c).packets = s.packets := rfl
@[simp] theorem State.setOwner_launches : (s.setOwner f c).launches = s.launches := rfl
@[simp] theorem State.setOwner_crews : (s.setOwner f c).crews = s.crews := rfl
@[simp] theorem State.setOwner_pairs : (s.setOwner f c).pairs = s.pairs := rfl
@[simp] theorem State.setOwner_nodes : (s.setOwner f c).nodes = s.nodes := rfl
@[simp] theorem State.setOwner_channels : (s.setOwner f c).channels = s.channels := rfl
@[simp] theorem State.setOwner_sessions : (s.setOwner f c).sessions = s.sessions := rfl
@[simp] theorem State.setOwner_exposures : (s.setOwner f c).exposures = s.exposures := rfl
@[simp] theorem State.setOwner_ingots : (s.setOwner f c).ingots = s.ingots := rfl
@[simp] theorem State.setOwner_snapshot : (s.setOwner f c).snapshot = s.snapshot := rfl
@[simp] theorem State.setOwner_nextFrame : (s.setOwner f c).nextFrame = s.nextFrame := rfl
@[simp] theorem State.setOwner_freeFrames : (s.setOwner f c).freeFrames = s.freeFrames := rfl
@[simp] theorem State.setOwner_cores : (s.setOwner f c).cores = s.cores := rfl
@[simp] theorem State.setOwner_clusters : (s.setOwner f c).clusters = s.clusters := rfl
@[simp] theorem State.setOwner_reds : (s.setOwner f c).reds = s.reds := rfl
@[simp] theorem State.setOwner_redSeen : (s.setOwner f c).redSeen = s.redSeen := rfl
@[simp] theorem State.setOwner_inbounds : (s.setOwner f c).inbounds = s.inbounds := rfl
@[simp] theorem State.setOwner_posted : (s.setOwner f c).posted = s.posted := rfl
@[simp] theorem State.setOwner_reachable : (s.setOwner f c).reachable = s.reachable := rfl
@[simp] theorem State.setOwner_opened : (s.setOwner f c).opened = s.opened := rfl
@[simp] theorem State.setOwner_mem : (s.setOwner f c).mem = s.mem := rfl
@[simp] theorem State.setOwner_views : (s.setOwner f c).views = s.views := rfl
@[simp] theorem State.setOwner_released : (s.setOwner f c).released = s.released := rfl
@[simp] theorem State.setOwner_replicas : (s.setOwner f c).replicas = s.replicas := rfl
@[simp] theorem State.setOwner_poison : (s.setOwner f c).poison = s.poison := rfl
@[simp] theorem State.setOwner_sent : (s.setOwner f c).sent = s.sent := rfl
@[simp] theorem State.setOwner_agenda : (s.setOwner f c).agenda = s.agenda := rfl
@[simp] theorem State.setOwner_turn : (s.setOwner f c).turn = s.turn := rfl
@[simp] theorem State.setOwner_focus : (s.setOwner f c).focus = s.focus := rfl
@[simp] theorem State.setOwner_freeCount : (s.setOwner f c).freeCount = s.freeCount := rfl
@[simp] theorem State.setOwner_nextOp : (s.setOwner f c).nextOp = s.nextOp := rfl
@[simp] theorem State.setOwner_nextHandle : (s.setOwner f c).nextHandle = s.nextHandle := rfl

end

/-! `setTeam` -/

section
variable (s : State) (p : Party) (t : Team)

@[simp] theorem State.setTeam_now : (s.setTeam p t).now = s.now := by unfold State.setTeam; split <;> rfl
@[simp] theorem State.setTeam_mod : (s.setTeam p t).mod = s.mod := by unfold State.setTeam; split <;> rfl
@[simp] theorem State.setTeam_dies : (s.setTeam p t).dies = s.dies := by unfold State.setTeam; split <;> rfl
@[simp] theorem State.setTeam_token : (s.setTeam p t).token = s.token := by unfold State.setTeam; split <;> rfl
@[simp] theorem State.setTeam_cxl : (s.setTeam p t).cxl = s.cxl := by unfold State.setTeam; split <;> rfl
@[simp] theorem State.setTeam_uec : (s.setTeam p t).uec = s.uec := by unfold State.setTeam; split <;> rfl
@[simp] theorem State.setTeam_ports : (s.setTeam p t).ports = s.ports := by unfold State.setTeam; split <;> rfl
@[simp] theorem State.setTeam_contexts : (s.setTeam p t).contexts = s.contexts := by unfold State.setTeam; split <;> rfl
@[simp] theorem State.setTeam_queues : (s.setTeam p t).queues = s.queues := by unfold State.setTeam; split <;> rfl
@[simp] theorem State.setTeam_packets : (s.setTeam p t).packets = s.packets := by unfold State.setTeam; split <;> rfl
@[simp] theorem State.setTeam_launches : (s.setTeam p t).launches = s.launches := by unfold State.setTeam; split <;> rfl
@[simp] theorem State.setTeam_nodes : (s.setTeam p t).nodes = s.nodes := by unfold State.setTeam; split <;> rfl
@[simp] theorem State.setTeam_channels : (s.setTeam p t).channels = s.channels := by unfold State.setTeam; split <;> rfl
@[simp] theorem State.setTeam_sessions : (s.setTeam p t).sessions = s.sessions := by unfold State.setTeam; split <;> rfl
@[simp] theorem State.setTeam_exposures : (s.setTeam p t).exposures = s.exposures := by unfold State.setTeam; split <;> rfl
@[simp] theorem State.setTeam_ingots : (s.setTeam p t).ingots = s.ingots := by unfold State.setTeam; split <;> rfl
@[simp] theorem State.setTeam_snapshot : (s.setTeam p t).snapshot = s.snapshot := by unfold State.setTeam; split <;> rfl
@[simp] theorem State.setTeam_owners : (s.setTeam p t).owners = s.owners := by unfold State.setTeam; split <;> rfl
@[simp] theorem State.setTeam_nextFrame : (s.setTeam p t).nextFrame = s.nextFrame := by unfold State.setTeam; split <;> rfl
@[simp] theorem State.setTeam_freeFrames : (s.setTeam p t).freeFrames = s.freeFrames := by unfold State.setTeam; split <;> rfl
@[simp] theorem State.setTeam_cores : (s.setTeam p t).cores = s.cores := by unfold State.setTeam; split <;> rfl
@[simp] theorem State.setTeam_clusters : (s.setTeam p t).clusters = s.clusters := by unfold State.setTeam; split <;> rfl
@[simp] theorem State.setTeam_reds : (s.setTeam p t).reds = s.reds := by unfold State.setTeam; split <;> rfl
@[simp] theorem State.setTeam_redSeen : (s.setTeam p t).redSeen = s.redSeen := by unfold State.setTeam; split <;> rfl
@[simp] theorem State.setTeam_inbounds : (s.setTeam p t).inbounds = s.inbounds := by unfold State.setTeam; split <;> rfl
@[simp] theorem State.setTeam_posted : (s.setTeam p t).posted = s.posted := by unfold State.setTeam; split <;> rfl
@[simp] theorem State.setTeam_reachable : (s.setTeam p t).reachable = s.reachable := by unfold State.setTeam; split <;> rfl
@[simp] theorem State.setTeam_opened : (s.setTeam p t).opened = s.opened := by unfold State.setTeam; split <;> rfl
@[simp] theorem State.setTeam_mem : (s.setTeam p t).mem = s.mem := by unfold State.setTeam; split <;> rfl
@[simp] theorem State.setTeam_views : (s.setTeam p t).views = s.views := by unfold State.setTeam; split <;> rfl
@[simp] theorem State.setTeam_released : (s.setTeam p t).released = s.released := by unfold State.setTeam; split <;> rfl
@[simp] theorem State.setTeam_replicas : (s.setTeam p t).replicas = s.replicas := by unfold State.setTeam; split <;> rfl
@[simp] theorem State.setTeam_poison : (s.setTeam p t).poison = s.poison := by unfold State.setTeam; split <;> rfl
@[simp] theorem State.setTeam_sent : (s.setTeam p t).sent = s.sent := by unfold State.setTeam; split <;> rfl
@[simp] theorem State.setTeam_agenda : (s.setTeam p t).agenda = s.agenda := by unfold State.setTeam; split <;> rfl
@[simp] theorem State.setTeam_turn : (s.setTeam p t).turn = s.turn := by unfold State.setTeam; split <;> rfl
@[simp] theorem State.setTeam_focus : (s.setTeam p t).focus = s.focus := by unfold State.setTeam; split <;> rfl
@[simp] theorem State.setTeam_freeCount : (s.setTeam p t).freeCount = s.freeCount := by unfold State.setTeam; split <;> rfl
@[simp] theorem State.setTeam_nextOp : (s.setTeam p t).nextOp = s.nextOp := by unfold State.setTeam; split <;> rfl
@[simp] theorem State.setTeam_nextHandle : (s.setTeam p t).nextHandle = s.nextHandle := by unfold State.setTeam; split <;> rfl

end

/-! `updTeam` -/

section
variable (s : State) (p : Party) (f : Team → Team)

@[simp] theorem State.updTeam_now : (s.updTeam p f).now = s.now := by unfold State.updTeam; split <;> simp
@[simp] theorem State.updTeam_mod : (s.updTeam p f).mod = s.mod := by unfold State.updTeam; split <;> simp
@[simp] theorem State.updTeam_dies : (s.updTeam p f).dies = s.dies := by unfold State.updTeam; split <;> simp
@[simp] theorem State.updTeam_token : (s.updTeam p f).token = s.token := by unfold State.updTeam; split <;> simp
@[simp] theorem State.updTeam_cxl : (s.updTeam p f).cxl = s.cxl := by unfold State.updTeam; split <;> simp
@[simp] theorem State.updTeam_uec : (s.updTeam p f).uec = s.uec := by unfold State.updTeam; split <;> simp
@[simp] theorem State.updTeam_ports : (s.updTeam p f).ports = s.ports := by unfold State.updTeam; split <;> simp
@[simp] theorem State.updTeam_contexts : (s.updTeam p f).contexts = s.contexts := by unfold State.updTeam; split <;> simp
@[simp] theorem State.updTeam_queues : (s.updTeam p f).queues = s.queues := by unfold State.updTeam; split <;> simp
@[simp] theorem State.updTeam_packets : (s.updTeam p f).packets = s.packets := by unfold State.updTeam; split <;> simp
@[simp] theorem State.updTeam_launches : (s.updTeam p f).launches = s.launches := by unfold State.updTeam; split <;> simp
@[simp] theorem State.updTeam_nodes : (s.updTeam p f).nodes = s.nodes := by unfold State.updTeam; split <;> simp
@[simp] theorem State.updTeam_channels : (s.updTeam p f).channels = s.channels := by unfold State.updTeam; split <;> simp
@[simp] theorem State.updTeam_sessions : (s.updTeam p f).sessions = s.sessions := by unfold State.updTeam; split <;> simp
@[simp] theorem State.updTeam_exposures : (s.updTeam p f).exposures = s.exposures := by unfold State.updTeam; split <;> simp
@[simp] theorem State.updTeam_ingots : (s.updTeam p f).ingots = s.ingots := by unfold State.updTeam; split <;> simp
@[simp] theorem State.updTeam_snapshot : (s.updTeam p f).snapshot = s.snapshot := by unfold State.updTeam; split <;> simp
@[simp] theorem State.updTeam_owners : (s.updTeam p f).owners = s.owners := by unfold State.updTeam; split <;> simp
@[simp] theorem State.updTeam_nextFrame : (s.updTeam p f).nextFrame = s.nextFrame := by unfold State.updTeam; split <;> simp
@[simp] theorem State.updTeam_freeFrames : (s.updTeam p f).freeFrames = s.freeFrames := by unfold State.updTeam; split <;> simp
@[simp] theorem State.updTeam_cores : (s.updTeam p f).cores = s.cores := by unfold State.updTeam; split <;> simp
@[simp] theorem State.updTeam_clusters : (s.updTeam p f).clusters = s.clusters := by unfold State.updTeam; split <;> simp
@[simp] theorem State.updTeam_reds : (s.updTeam p f).reds = s.reds := by unfold State.updTeam; split <;> simp
@[simp] theorem State.updTeam_redSeen : (s.updTeam p f).redSeen = s.redSeen := by unfold State.updTeam; split <;> simp
@[simp] theorem State.updTeam_inbounds : (s.updTeam p f).inbounds = s.inbounds := by unfold State.updTeam; split <;> simp
@[simp] theorem State.updTeam_posted : (s.updTeam p f).posted = s.posted := by unfold State.updTeam; split <;> simp
@[simp] theorem State.updTeam_reachable : (s.updTeam p f).reachable = s.reachable := by unfold State.updTeam; split <;> simp
@[simp] theorem State.updTeam_opened : (s.updTeam p f).opened = s.opened := by unfold State.updTeam; split <;> simp
@[simp] theorem State.updTeam_mem : (s.updTeam p f).mem = s.mem := by unfold State.updTeam; split <;> simp
@[simp] theorem State.updTeam_views : (s.updTeam p f).views = s.views := by unfold State.updTeam; split <;> simp
@[simp] theorem State.updTeam_released : (s.updTeam p f).released = s.released := by unfold State.updTeam; split <;> simp
@[simp] theorem State.updTeam_replicas : (s.updTeam p f).replicas = s.replicas := by unfold State.updTeam; split <;> simp
@[simp] theorem State.updTeam_poison : (s.updTeam p f).poison = s.poison := by unfold State.updTeam; split <;> simp
@[simp] theorem State.updTeam_sent : (s.updTeam p f).sent = s.sent := by unfold State.updTeam; split <;> simp
@[simp] theorem State.updTeam_agenda : (s.updTeam p f).agenda = s.agenda := by unfold State.updTeam; split <;> simp
@[simp] theorem State.updTeam_turn : (s.updTeam p f).turn = s.turn := by unfold State.updTeam; split <;> simp
@[simp] theorem State.updTeam_focus : (s.updTeam p f).focus = s.focus := by unfold State.updTeam; split <;> simp
@[simp] theorem State.updTeam_freeCount : (s.updTeam p f).freeCount = s.freeCount := by unfold State.updTeam; split <;> simp
@[simp] theorem State.updTeam_nextOp : (s.updTeam p f).nextOp = s.nextOp := by unfold State.updTeam; split <;> simp
@[simp] theorem State.updTeam_nextHandle : (s.updTeam p f).nextHandle = s.nextHandle := by unfold State.updTeam; split <;> simp

end

/-! `updThread` -/

section
variable (s : State) (p : Party) (f : Thread → Thread)

@[simp] theorem State.updThread_now : (s.updThread p f).now = s.now := State.updTeam_now ..
@[simp] theorem State.updThread_mod : (s.updThread p f).mod = s.mod := State.updTeam_mod ..
@[simp] theorem State.updThread_dies : (s.updThread p f).dies = s.dies := State.updTeam_dies ..
@[simp] theorem State.updThread_token : (s.updThread p f).token = s.token := State.updTeam_token ..
@[simp] theorem State.updThread_cxl : (s.updThread p f).cxl = s.cxl := State.updTeam_cxl ..
@[simp] theorem State.updThread_uec : (s.updThread p f).uec = s.uec := State.updTeam_uec ..
@[simp] theorem State.updThread_ports : (s.updThread p f).ports = s.ports := State.updTeam_ports ..
@[simp] theorem State.updThread_contexts : (s.updThread p f).contexts = s.contexts := State.updTeam_contexts ..
@[simp] theorem State.updThread_queues : (s.updThread p f).queues = s.queues := State.updTeam_queues ..
@[simp] theorem State.updThread_packets : (s.updThread p f).packets = s.packets := State.updTeam_packets ..
@[simp] theorem State.updThread_launches : (s.updThread p f).launches = s.launches := State.updTeam_launches ..
@[simp] theorem State.updThread_nodes : (s.updThread p f).nodes = s.nodes := State.updTeam_nodes ..
@[simp] theorem State.updThread_channels : (s.updThread p f).channels = s.channels := State.updTeam_channels ..
@[simp] theorem State.updThread_sessions : (s.updThread p f).sessions = s.sessions := State.updTeam_sessions ..
@[simp] theorem State.updThread_exposures : (s.updThread p f).exposures = s.exposures := State.updTeam_exposures ..
@[simp] theorem State.updThread_ingots : (s.updThread p f).ingots = s.ingots := State.updTeam_ingots ..
@[simp] theorem State.updThread_snapshot : (s.updThread p f).snapshot = s.snapshot := State.updTeam_snapshot ..
@[simp] theorem State.updThread_owners : (s.updThread p f).owners = s.owners := State.updTeam_owners ..
@[simp] theorem State.updThread_nextFrame : (s.updThread p f).nextFrame = s.nextFrame := State.updTeam_nextFrame ..
@[simp] theorem State.updThread_freeFrames : (s.updThread p f).freeFrames = s.freeFrames := State.updTeam_freeFrames ..
@[simp] theorem State.updThread_cores : (s.updThread p f).cores = s.cores := State.updTeam_cores ..
@[simp] theorem State.updThread_clusters : (s.updThread p f).clusters = s.clusters := State.updTeam_clusters ..
@[simp] theorem State.updThread_reds : (s.updThread p f).reds = s.reds := State.updTeam_reds ..
@[simp] theorem State.updThread_redSeen : (s.updThread p f).redSeen = s.redSeen := State.updTeam_redSeen ..
@[simp] theorem State.updThread_inbounds : (s.updThread p f).inbounds = s.inbounds := State.updTeam_inbounds ..
@[simp] theorem State.updThread_posted : (s.updThread p f).posted = s.posted := State.updTeam_posted ..
@[simp] theorem State.updThread_reachable : (s.updThread p f).reachable = s.reachable := State.updTeam_reachable ..
@[simp] theorem State.updThread_opened : (s.updThread p f).opened = s.opened := State.updTeam_opened ..
@[simp] theorem State.updThread_mem : (s.updThread p f).mem = s.mem := State.updTeam_mem ..
@[simp] theorem State.updThread_views : (s.updThread p f).views = s.views := State.updTeam_views ..
@[simp] theorem State.updThread_released : (s.updThread p f).released = s.released := State.updTeam_released ..
@[simp] theorem State.updThread_replicas : (s.updThread p f).replicas = s.replicas := State.updTeam_replicas ..
@[simp] theorem State.updThread_poison : (s.updThread p f).poison = s.poison := State.updTeam_poison ..
@[simp] theorem State.updThread_sent : (s.updThread p f).sent = s.sent := State.updTeam_sent ..
@[simp] theorem State.updThread_agenda : (s.updThread p f).agenda = s.agenda := State.updTeam_agenda ..
@[simp] theorem State.updThread_turn : (s.updThread p f).turn = s.turn := State.updTeam_turn ..
@[simp] theorem State.updThread_focus : (s.updThread p f).focus = s.focus := State.updTeam_focus ..
@[simp] theorem State.updThread_freeCount : (s.updThread p f).freeCount = s.freeCount := State.updTeam_freeCount ..
@[simp] theorem State.updThread_nextOp : (s.updThread p f).nextOp = s.nextOp := State.updTeam_nextOp ..
@[simp] theorem State.updThread_nextHandle : (s.updThread p f).nextHandle = s.nextHandle := State.updTeam_nextHandle ..

end

/-! `updClause` -/

section
variable (s : State) (p : Party) (f : Clause → Clause)

@[simp] theorem State.updClause_now : (s.updClause p f).now = s.now := State.updThread_now ..
@[simp] theorem State.updClause_mod : (s.updClause p f).mod = s.mod := State.updThread_mod ..
@[simp] theorem State.updClause_dies : (s.updClause p f).dies = s.dies := State.updThread_dies ..
@[simp] theorem State.updClause_token : (s.updClause p f).token = s.token := State.updThread_token ..
@[simp] theorem State.updClause_cxl : (s.updClause p f).cxl = s.cxl := State.updThread_cxl ..
@[simp] theorem State.updClause_uec : (s.updClause p f).uec = s.uec := State.updThread_uec ..
@[simp] theorem State.updClause_ports : (s.updClause p f).ports = s.ports := State.updThread_ports ..
@[simp] theorem State.updClause_contexts : (s.updClause p f).contexts = s.contexts := State.updThread_contexts ..
@[simp] theorem State.updClause_queues : (s.updClause p f).queues = s.queues := State.updThread_queues ..
@[simp] theorem State.updClause_packets : (s.updClause p f).packets = s.packets := State.updThread_packets ..
@[simp] theorem State.updClause_launches : (s.updClause p f).launches = s.launches := State.updThread_launches ..
@[simp] theorem State.updClause_nodes : (s.updClause p f).nodes = s.nodes := State.updThread_nodes ..
@[simp] theorem State.updClause_channels : (s.updClause p f).channels = s.channels := State.updThread_channels ..
@[simp] theorem State.updClause_sessions : (s.updClause p f).sessions = s.sessions := State.updThread_sessions ..
@[simp] theorem State.updClause_exposures : (s.updClause p f).exposures = s.exposures := State.updThread_exposures ..
@[simp] theorem State.updClause_ingots : (s.updClause p f).ingots = s.ingots := State.updThread_ingots ..
@[simp] theorem State.updClause_snapshot : (s.updClause p f).snapshot = s.snapshot := State.updThread_snapshot ..
@[simp] theorem State.updClause_owners : (s.updClause p f).owners = s.owners := State.updThread_owners ..
@[simp] theorem State.updClause_nextFrame : (s.updClause p f).nextFrame = s.nextFrame := State.updThread_nextFrame ..
@[simp] theorem State.updClause_freeFrames : (s.updClause p f).freeFrames = s.freeFrames := State.updThread_freeFrames ..
@[simp] theorem State.updClause_cores : (s.updClause p f).cores = s.cores := State.updThread_cores ..
@[simp] theorem State.updClause_clusters : (s.updClause p f).clusters = s.clusters := State.updThread_clusters ..
@[simp] theorem State.updClause_reds : (s.updClause p f).reds = s.reds := State.updThread_reds ..
@[simp] theorem State.updClause_redSeen : (s.updClause p f).redSeen = s.redSeen := State.updThread_redSeen ..
@[simp] theorem State.updClause_inbounds : (s.updClause p f).inbounds = s.inbounds := State.updThread_inbounds ..
@[simp] theorem State.updClause_posted : (s.updClause p f).posted = s.posted := State.updThread_posted ..
@[simp] theorem State.updClause_reachable : (s.updClause p f).reachable = s.reachable := State.updThread_reachable ..
@[simp] theorem State.updClause_opened : (s.updClause p f).opened = s.opened := State.updThread_opened ..
@[simp] theorem State.updClause_mem : (s.updClause p f).mem = s.mem := State.updThread_mem ..
@[simp] theorem State.updClause_views : (s.updClause p f).views = s.views := State.updThread_views ..
@[simp] theorem State.updClause_released : (s.updClause p f).released = s.released := State.updThread_released ..
@[simp] theorem State.updClause_replicas : (s.updClause p f).replicas = s.replicas := State.updThread_replicas ..
@[simp] theorem State.updClause_poison : (s.updClause p f).poison = s.poison := State.updThread_poison ..
@[simp] theorem State.updClause_sent : (s.updClause p f).sent = s.sent := State.updThread_sent ..
@[simp] theorem State.updClause_agenda : (s.updClause p f).agenda = s.agenda := State.updThread_agenda ..
@[simp] theorem State.updClause_turn : (s.updClause p f).turn = s.turn := State.updThread_turn ..
@[simp] theorem State.updClause_focus : (s.updClause p f).focus = s.focus := State.updThread_focus ..
@[simp] theorem State.updClause_freeCount : (s.updClause p f).freeCount = s.freeCount := State.updThread_freeCount ..
@[simp] theorem State.updClause_nextOp : (s.updClause p f).nextOp = s.nextOp := State.updThread_nextOp ..
@[simp] theorem State.updClause_nextHandle : (s.updClause p f).nextHandle = s.nextHandle := State.updThread_nextHandle ..

end

/-! `updCopies` -/

section
variable (s : State) (p : Party) (f : Team → Team)

@[simp] theorem State.updCopies_now : (s.updCopies p f).now = s.now := State.updTeam_now ..
@[simp] theorem State.updCopies_mod : (s.updCopies p f).mod = s.mod := State.updTeam_mod ..
@[simp] theorem State.updCopies_dies : (s.updCopies p f).dies = s.dies := State.updTeam_dies ..
@[simp] theorem State.updCopies_token : (s.updCopies p f).token = s.token := State.updTeam_token ..
@[simp] theorem State.updCopies_cxl : (s.updCopies p f).cxl = s.cxl := State.updTeam_cxl ..
@[simp] theorem State.updCopies_uec : (s.updCopies p f).uec = s.uec := State.updTeam_uec ..
@[simp] theorem State.updCopies_ports : (s.updCopies p f).ports = s.ports := State.updTeam_ports ..
@[simp] theorem State.updCopies_contexts : (s.updCopies p f).contexts = s.contexts := State.updTeam_contexts ..
@[simp] theorem State.updCopies_queues : (s.updCopies p f).queues = s.queues := State.updTeam_queues ..
@[simp] theorem State.updCopies_packets : (s.updCopies p f).packets = s.packets := State.updTeam_packets ..
@[simp] theorem State.updCopies_launches : (s.updCopies p f).launches = s.launches := State.updTeam_launches ..
@[simp] theorem State.updCopies_nodes : (s.updCopies p f).nodes = s.nodes := State.updTeam_nodes ..
@[simp] theorem State.updCopies_channels : (s.updCopies p f).channels = s.channels := State.updTeam_channels ..
@[simp] theorem State.updCopies_sessions : (s.updCopies p f).sessions = s.sessions := State.updTeam_sessions ..
@[simp] theorem State.updCopies_exposures : (s.updCopies p f).exposures = s.exposures := State.updTeam_exposures ..
@[simp] theorem State.updCopies_ingots : (s.updCopies p f).ingots = s.ingots := State.updTeam_ingots ..
@[simp] theorem State.updCopies_snapshot : (s.updCopies p f).snapshot = s.snapshot := State.updTeam_snapshot ..
@[simp] theorem State.updCopies_owners : (s.updCopies p f).owners = s.owners := State.updTeam_owners ..
@[simp] theorem State.updCopies_nextFrame : (s.updCopies p f).nextFrame = s.nextFrame := State.updTeam_nextFrame ..
@[simp] theorem State.updCopies_freeFrames : (s.updCopies p f).freeFrames = s.freeFrames := State.updTeam_freeFrames ..
@[simp] theorem State.updCopies_cores : (s.updCopies p f).cores = s.cores := State.updTeam_cores ..
@[simp] theorem State.updCopies_clusters : (s.updCopies p f).clusters = s.clusters := State.updTeam_clusters ..
@[simp] theorem State.updCopies_reds : (s.updCopies p f).reds = s.reds := State.updTeam_reds ..
@[simp] theorem State.updCopies_redSeen : (s.updCopies p f).redSeen = s.redSeen := State.updTeam_redSeen ..
@[simp] theorem State.updCopies_inbounds : (s.updCopies p f).inbounds = s.inbounds := State.updTeam_inbounds ..
@[simp] theorem State.updCopies_posted : (s.updCopies p f).posted = s.posted := State.updTeam_posted ..
@[simp] theorem State.updCopies_reachable : (s.updCopies p f).reachable = s.reachable := State.updTeam_reachable ..
@[simp] theorem State.updCopies_opened : (s.updCopies p f).opened = s.opened := State.updTeam_opened ..
@[simp] theorem State.updCopies_mem : (s.updCopies p f).mem = s.mem := State.updTeam_mem ..
@[simp] theorem State.updCopies_views : (s.updCopies p f).views = s.views := State.updTeam_views ..
@[simp] theorem State.updCopies_released : (s.updCopies p f).released = s.released := State.updTeam_released ..
@[simp] theorem State.updCopies_replicas : (s.updCopies p f).replicas = s.replicas := State.updTeam_replicas ..
@[simp] theorem State.updCopies_poison : (s.updCopies p f).poison = s.poison := State.updTeam_poison ..
@[simp] theorem State.updCopies_sent : (s.updCopies p f).sent = s.sent := State.updTeam_sent ..
@[simp] theorem State.updCopies_agenda : (s.updCopies p f).agenda = s.agenda := State.updTeam_agenda ..
@[simp] theorem State.updCopies_turn : (s.updCopies p f).turn = s.turn := State.updTeam_turn ..
@[simp] theorem State.updCopies_focus : (s.updCopies p f).focus = s.focus := State.updTeam_focus ..
@[simp] theorem State.updCopies_freeCount : (s.updCopies p f).freeCount = s.freeCount := State.updTeam_freeCount ..
@[simp] theorem State.updCopies_nextOp : (s.updCopies p f).nextOp = s.nextOp := State.updTeam_nextOp ..
@[simp] theorem State.updCopies_nextHandle : (s.updCopies p f).nextHandle = s.nextHandle := State.updTeam_nextHandle ..

end

/-! ### Reading after writing -/

section
variable (s : State)

theorem State.core_setCore (c : Nat) (k : Core) (j : Nat) : (s.setCore c k).core j = if j = c then k else s.core j :=
  Tbl.read_write ..

theorem State.core_updCore (c : Nat) (f : Core → Core) (j : Nat) :
    (s.updCore c f).core j = if j = c then f (s.core c) else s.core j := Tbl.read_write ..

theorem State.cluster_setCluster (c : Nat) (k : Cluster) (j : Nat) :
    (s.setCluster c k).cluster j = if j = c then k else s.cluster j := Tbl.read_write ..

theorem State.cluster_updCluster (c : Nat) (f : Cluster → Cluster) (j : Nat) :
    (s.updCluster c f).cluster j = if j = c then f (s.cluster c) else s.cluster j := Tbl.read_write ..

theorem State.die_setDie (d : Nat) (k : Die) (j : Nat) : (s.setDie d k).die j = if j = d then k else s.die j := by
  simp only [State.die, State.setDie, Tbl.read, Tbl.get?_put]
  split <;> simp_all

theorem State.crew_updCrew (k : Nat) (f : Crew → Crew) (j : Nat) :
    (s.updCrew k f).crews.get? j = if j = k then (s.crews.get? k).map f else s.crews.get? j := Tbl.get?_upd ..

theorem State.launch_updLaunch (k : Nat) (f : Launch → Launch) (j : Nat) :
    (s.updLaunch k f).launches.get? j = if j = k then (s.launches.get? k).map f else s.launches.get? j :=
  Tbl.get?_upd ..

end

end Sys2Proof.Machine
end

