-- ==== Sys2Proof/Laws/Memory.lean ====
section
/-! SUPPORT. Laws of memory: a byte reads as it was last written, a write leaves every other byte alone, and every
operation on memory keeps its canonical form. -/

namespace Sys2Proof.Machine

open Sys2Proof

theorem State.readByte_writeByte (s : State) (a : Nat) (b : Byte) (c : Nat) :
    (s.writeByte a b).readByte c = if c = a then b else s.readByte c := Tbl.read_write ..

@[simp] theorem State.readByte_writeByte_same (s : State) (a : Nat) (b : Byte) :
    (s.writeByte a b).readByte a = b := Tbl.read_write_same ..

theorem State.readByte_writeByte_other (s : State) {a c : Nat} (b : Byte) (h : c ≠ a) :
    (s.writeByte a b).readByte c = s.readByte c := Tbl.read_write_other _ _ _ h

/-- Reading looks at the listed bytes alone. -/
theorem State.readByte_of_mem {s t : State} (h : s.mem = t.mem) (a : Nat) : s.readByte a = t.readByte a := by
  unfold State.readByte
  rw [h]

theorem State.readBytes_of_mem {s t : State} (h : s.mem = t.mem) (a n : Nat) :
    s.readBytes a n = t.readBytes a n := by
  unfold State.readBytes
  exact List.map_congr_left fun i _ => State.readByte_of_mem h _

theorem State.readNat_of_mem {s t : State} (h : s.mem = t.mem) (a n : Nat) : s.readNat a n = t.readNat a n := by
  unfold State.readNat
  rw [State.readBytes_of_mem h]

/-- A run of bytes leaves the bytes outside it alone. -/
theorem State.readByte_writeBytes_other : ∀ (bs : List Byte) (s : State) {a c : Nat},
    (c < a ∨ a + bs.length ≤ c) → (s.writeBytes a bs).readByte c = s.readByte c
  | [], _, _, _, _ => rfl
  | b :: bs, s, a, c, h => by
    simp only [State.writeBytes]
    simp only [List.length_cons] at h
    rw [State.readByte_writeBytes_other bs _ (by omega), State.readByte_writeByte_other]
    omega

/-- A run of bytes reads back, byte by byte. -/
theorem State.readByte_writeBytes_in (bs : List Byte) : ∀ (s : State) (a : Nat) {i : Nat} (h : i < bs.length),
    (s.writeBytes a bs).readByte (a + i) = bs[i] := by
  induction bs with
  | nil => intro s a i h; exact absurd h (Nat.not_lt_zero i)
  | cons b bs ih =>
    intro s a i h
    simp only [State.writeBytes]
    cases i with
    | zero =>
      rw [State.readByte_writeBytes_other bs _ (by omega)]
      exact State.readByte_writeByte_same s a b
    | succ i =>
      rw [show a + (i + 1) = a + 1 + i by omega]
      simp only [List.length_cons] at h
      rw [ih (s.writeByte a b) (a + 1) (i := i) (by omega), List.getElem_cons_succ]

/-! ### The canonical form -/

theorem State.memWf_of_mem {s t : State} (h : s.mem = t.mem) : s.memWf = t.memWf := by
  unfold State.memWf
  rw [h]

theorem State.memWf_writeByte {s : State} (a : Nat) (b : Byte) (h : s.memWf = true) :
    (s.writeByte a b).memWf = true := Tbl.wf_write _ _ _ h

theorem State.memWf_writeBytes : ∀ (bs : List Byte) {s : State} (a : Nat), s.memWf = true →
    (s.writeBytes a bs).memWf = true
  | [], _, _, h => h
  | b :: bs, _, a, h => State.memWf_writeBytes bs (a + 1) (State.memWf_writeByte a b h)

theorem State.memWf_writeHome {s : State} (x : HomeByte) (h : s.memWf = true) : (s.writeHome x).memWf = true :=
  State.memWf_writeByte _ _ h

theorem State.memWf_writeHomes (hs : List HomeByte) {s : State} (h : s.memWf = true) :
    (s.writeHomes hs).memWf = true := by
  unfold State.writeHomes
  induction hs generalizing s with
  | nil => exact h
  | cons x hs ih => exact ih (State.memWf_writeHome x h)

/-! ### What a die sees (R123) changes no byte at its home -/

@[simp] theorem State.setView_mem (s : State) (die : Nat) (v : Tbl Byte) : (s.setView die v).mem = s.mem := rfl

@[simp] theorem State.unview_mem (s : State) (die : Nat) (sel : Nat → Bool) : (s.unview die sel).mem = s.mem := by
  unfold State.unview; split <;> rfl

@[simp] theorem State.lag_mem (s : State) (die a n : Nat) : (s.lag die a n).mem = s.mem := by
  unfold State.lag; split <;> rfl

@[simp] theorem State.fillLine_mem (s : State) (cl a : Nat) : (s.fillLine cl a).mem = s.mem := by
  unfold State.fillLine; split
  · rfl
  · split <;> rfl

@[simp] theorem State.dropLine_mem (s : State) (cl line : Nat) : (s.dropLine cl line).mem = s.mem := rfl

/-! ### L1 lines, pending stores and the copies of replicated pages keep the form -/

/-- A fold of operations that each keep the form keeps it. -/
theorem State.memWf_foldl {α : Type} {f : State → α → State} (hf : ∀ s a, s.memWf = true → (f s a).memWf = true) :
    ∀ (l : List α) {s : State}, s.memWf = true → (l.foldl f s).memWf = true
  | [], _, h => h
  | a :: l, s, h => State.memWf_foldl hf l (hf s a h)

theorem State.memWf_cleanLine {s : State} (cl line : Nat) (sel : Nat → Bool) (h : s.memWf = true) :
    (s.cleanLine cl line sel).memWf = true := by
  unfold State.cleanLine
  split
  · exact h
  · rename_i l _
    refine State.memWf_foldl (fun u i hu => ?_) _ h
    split
    · exact (State.memWf_of_mem (by simp)).trans (State.memWf_writeByte (line * 128 + i) (l.byte i) hu)
    · exact hu

theorem State.memWf_evictLine {s : State} (cl line : Nat) (h : s.memWf = true) : (s.evictLine cl line).memWf = true :=
  State.memWf_cleanLine _ _ _ h

theorem State.memWf_writeBack {s : State} (cl : Nat) (sel : Nat → Bool) (h : s.memWf = true) :
    (s.writeBack cl sel).memWf = true :=
  State.memWf_foldl (fun _ _ hu => State.memWf_cleanLine _ _ _ hu) _ h

theorem State.memWf_invalidate {s : State} (cl : Nat) (sel : Nat → Bool) (h : s.memWf = true) :
    (s.invalidate cl sel).memWf = true :=
  State.memWf_foldl (fun _ _ hu => State.memWf_evictLine _ _ hu) _ h

theorem State.memWf_renew {s : State} (cl : Nat) (sel : Nat → Bool) (h : s.memWf = true) :
    (s.renew cl sel).memWf = true :=
  (State.memWf_of_mem (State.unview_mem ..)).trans (State.memWf_invalidate _ _ h)

theorem State.memWf_invalidateAt {s : State} (scope cl : Nat) (sel : Nat → Bool) (h : s.memWf = true) :
    (s.invalidateAt scope cl sel).memWf = true := by
  unfold State.invalidateAt
  split
  · exact State.memWf_invalidate _ _ h
  · exact State.memWf_renew _ _ h

theorem State.memWf_storeLine {s : State} (cl a : Nat) (b : Byte) (h : s.memWf = true) :
    (s.storeLine cl a b).memWf = true := by
  unfold State.storeLine
  dsimp only
  split
  · exact (State.memWf_of_mem (by simp)).trans h
  · exact (State.memWf_of_mem (State.unview_mem ..)).trans (State.memWf_writeByte a b h)

theorem State.memWf_storeThrough {s : State} (cl : Nat) (x : HomeByte) (h : s.memWf = true) :
    (s.storeThrough cl x).memWf = true :=
  (State.memWf_of_mem (by simp [State.storeThrough])).trans
    (State.memWf_writeHome x (State.memWf_cleanLine cl (x.addr / 128) (· == x.addr) h))

theorem State.memWf_spread {s : State} (sel : Replica → Bool) (h : s.memWf = true) : (s.spread sel).memWf = true := by
  unfold State.spread
  dsimp only
  exact State.memWf_foldl (fun _ _ hu => State.memWf_writeHomes _ hu) _ (s := { s with replicas := _ }) h

theorem State.memWf_performStore {s : State} (cl : Nat) (st : PendingStore) (h : s.memWf = true) :
    (s.performStore cl st).memWf = true := by
  have h1 := State.memWf_foldl (f := fun u a => u.cleanLine cl (a / 128) (· == a))
    (fun _ _ hu => State.memWf_cleanLine _ _ _ hu) st.cached h
  unfold State.performStore
  dsimp only
  split
  · exact h1
  · exact State.memWf_spread _ h1

theorem State.memWf_drainStores {s : State} (p : Party) (h : s.memWf = true) : (s.drainStores p).memWf = true := by
  unfold State.drainStores
  split
  · exact h
  · exact (State.memWf_of_mem (State.updThread_mem ..)).trans
      (State.memWf_foldl (fun _ _ hu => State.memWf_performStore _ _ hu) _ h)

/-- Nothing listed is the canonical form of memory after reset. -/
theorem reset_memWf : State.reset.memWf = true := rfl

end Sys2Proof.Machine
end

