-- ==== Sys2Proof/Laws/Ops.lean ====
section
/-! SUPPORT. How an instruction is performed, said once: what `perform` and its variants answer when the checks before an
effect pass, when they stop, and when the mask is empty; and what the view of an instruction keeps. -/

namespace Sys2Proof.Machine

open Sys2Proof

section
variable {i : Instr} {oc : Exe → State → Option Cause} {s s1 s2 : State} {x x1 : Exe}

/-! ### perform -/

theorem perform_go {body : Exe → State → Res State} (h : s.issuer? i = some x) (hp : prepare i oc x s = .go x1 s1)
    (hb : body x1 (setResult x1 .none s1) = .ok s2) : perform i oc body s = .next (advance x1 s2) := by
  simp only [perform, h, hp, hb]

theorem perform_error {body : Exe → State → Res State} {k : Stop} (h : s.issuer? i = some x)
    (hp : prepare i oc x s = .go x1 s1) (hb : body x1 (setResult x1 .none s1) = .error k) :
    perform i oc body s = .next (stopWith x1 k s1) := by
  simp only [perform, h, hp, hb]

theorem perform_stop {body : Exe → State → Res State} {k : Stop} (h : s.issuer? i = some x)
    (hp : prepare i oc x s = .stop k) : perform i oc body s = .next (stopWith x k s) := by
  simp only [perform, h, hp]

theorem perform_empty {body : Exe → State → Res State} (h : s.issuer? i = some x) (hp : prepare i oc x s = .empty) :
    perform i oc body s = .next (advance x (setResult x .none s)) := by
  simp only [perform, h, hp]

/-- Everything `perform` can do for an instruction that has an issuer: it always answers a next state. -/
theorem perform_cases {body : Exe → State → Res State} (h : s.issuer? i = some x) :
    (∃ k, prepare i oc x s = .stop k ∧ perform i oc body s = .next (stopWith x k s)) ∨
    (prepare i oc x s = .empty ∧ perform i oc body s = .next (advance x (setResult x .none s))) ∨
    (∃ y t, prepare i oc x s = .go y t ∧
      ((∃ u, body y (setResult y .none t) = .ok u ∧ perform i oc body s = .next (advance y u)) ∨
        ∃ k, body y (setResult y .none t) = .error k ∧ perform i oc body s = .next (stopWith y k t))) := by
  cases hp : prepare i oc x s with
  | stop k => exact .inl ⟨k, rfl, perform_stop h hp⟩
  | empty => exact .inr (.inl ⟨rfl, perform_empty h hp⟩)
  | go y t =>
    refine .inr (.inr ⟨y, t, rfl, ?_⟩)
    cases hb : body y (setResult y .none t) with
    | ok u => exact .inl ⟨u, rfl, perform_go h hp hb⟩
    | error k => exact .inr ⟨k, rfl, perform_error h hp hb⟩

theorem perform_no_issuer {body : Exe → State → Res State} (h : s.issuer? i = none) :
    perform i oc body s = .fault .noIssuer := by
  simp only [perform, h]

/-! ### performPure, performMeet, performPasses -/

theorem performPure_go {body : Exe → State → State} (h : s.issuer? i = some x) (hp : prepare i oc x s = .go x1 s1) :
    performPure i oc body s = .next (advance x1 (body x1 (setResult x1 .none s1))) :=
  perform_go h hp rfl

theorem performMeet_alone {body : Exe → State → Res State} (h : s.issuer? i = some x) (hq : x.paired s = false) :
    performMeet i oc body s = perform i oc body s := by
  simp only [performMeet, h, hq, Bool.not_false, if_true]

theorem performPasses_go {body : Exe → State → State × Option Stop} (h : s.issuer? i = some x)
    (hp : prepare i oc x s = .go x1 s1) (hb : body x1 s1 = (s2, none)) : performPasses i oc body s = .next (advance x1 s2) := by
  simp only [performPasses, h, hp, hb]

theorem performPasses_stop {body : Exe → State → State × Option Stop} {k : Stop} (h : s.issuer? i = some x)
    (hp : prepare i oc x s = .go x1 s1) (hb : body x1 s1 = (s2, some k)) : performPasses i oc body s = .next (stopWith x1 k s2) := by
  simp only [performPasses, h, hp, hb]

end

/-! ### The view of an instruction -/

section
variable (s : State) (x : Exe)

@[simp] theorem refresh_p : (s.refresh x).p = x.p := by unfold State.refresh; split <;> rfl
@[simp] theorem refresh_launch : (s.refresh x).launch = x.launch := by unfold State.refresh; split <;> rfl
@[simp] theorem refresh_cl : (s.refresh x).cl = x.cl := by unfold State.refresh; split <;> rfl
@[simp] theorem refresh_parts : (s.refresh x).parts = x.parts := by unfold State.refresh; split <;> rfl
@[simp] theorem refresh_eff : (s.refresh x).eff = x.eff := by unfold State.refresh; split <;> rfl
@[simp] theorem refresh_exec : (s.refresh x).exec = x.exec := by unfold State.refresh; split <;> rfl
@[simp] theorem refresh_ch : (s.refresh x).ch = x.ch := by unfold State.refresh; split <;> rfl
@[simp] theorem refresh_now : (s.refresh x).now = x.now := by unfold State.refresh; split <;> rfl

end

/-- What an issuer is: the party whose turn it is, with its crew, its launch, its team and its clause in progress. -/
theorem issuer_cases {s : State} {i : Instr} {x : Exe} (h : s.issuer? i = some x) :
    s.turn = some x.p ∧ s.crews.get? x.p.crew = some x.crew ∧ s.team? x.p = some x.team ∧
    s.launches.get? x.crew.launch = some x.launch ∧ x.th = x.team.thread x.p.kind ∧ x.th.issue = some x.cl ∧
    x.parts = (partsOf i).getD {} ∧ x.exec = (x.team.path? x.cl.path).elim 0 (·.mask) ∧
    x.ch = (x.p.kind == .chaser) ∧ x.now = s.now ∧
    x.eff = (if x.ch then 1 else effMask i x.parts x.team x.exec) := by
  unfold State.issuer? at h
  split at h
  · cases h
  · next p hp =>
    split at h
    · next crew t hc ht =>
      split at h
      · next l cl hl hi =>
        cases h
        exact ⟨hp, hc, ht, hl, rfl, hi, rfl, rfl, rfl, rfl, rfl⟩
      · cases h
    · cases h

/-- An instruction that goes keeps its party, its clause and its parts; its view is that of the state it goes in. -/
theorem prepare_go_view {i : Instr} {oc : Exe → State → Option Cause} {x x1 : Exe} {s s1 : State}
    (h : prepare i oc x s = .go x1 s1) :
    x1 = s1.refresh x ∧ s1 = x.settleLoads (x.loadOps i) s := by
  unfold prepare at h
  repeat' split at h
  all_goals first
    | cases h
    | skip
  all_goals
    simp only at h
    repeat' split at h
    all_goals first
      | cases h; done
      | skip
  all_goals
    cases h
    exact ⟨rfl, rfl⟩

end Sys2Proof.Machine
end

