-- ==== Sys2Proof/Laws/PerInstr.lean ====
section
/-! SUPPORT. Statements made instruction by instruction. Length: an instruction of the table takes as many words as
the M and L bits of its first word announce (R220). -/

namespace Sys2Proof.Laws

open Sys2Proof

/-- The words of `i` are as many as its first word announces (R220). -/
def Length.Statement (i : Instr) : Prop := ∀ w ws, encode i = w :: ws → (encode i).length = wordCount w

theorem length_of_parts {w : Word} {lit : Option Word} {m : Option Mod} {u : Word} {ws : List Word}
    (h0 : w.getLsbD 0 = m.isSome) (h1 : w.getLsbD 1 = lit.isSome) (h : w :: encodeSuffix lit m = u :: ws) :
    (w :: encodeSuffix lit m).length = wordCount u := by
  obtain ⟨rfl, -⟩ := List.cons.inj h
  rw [wordCount, h0, h1]
  cases m <;> cases lit <;> rfl

theorem length_encodeRRR {op : Byte} {f : RRR} {w : Word} {ws : List Word} (h : encodeRRR op f = w :: ws) :
    (encodeRRR op f).length = wordCount w :=
  length_of_parts
    ((append_skip_bit _ _ (by decide)).trans ((append_skip_bit _ _ (by decide)).trans ((append_skip_bit _ _ (by decide)).trans ((append_skip_bit _ _ (by decide)).trans ((append_skip_bit _ _ (by decide)).trans ((append_skip_bit _ _ (by decide)).trans (ofBool_bit _)))))))
    ((append_skip_bit _ _ (by decide)).trans ((append_skip_bit _ _ (by decide)).trans ((append_skip_bit _ _ (by decide)).trans ((append_skip_bit _ _ (by decide)).trans ((append_skip_bit _ _ (by decide)).trans (append_here_bit _ _)))))) h

theorem length_encodeRRS {op : Byte} {f : RRS} {w : Word} {ws : List Word} (h : encodeRRS op f = w :: ws) :
    (encodeRRS op f).length = wordCount w :=
  length_of_parts
    ((append_skip_bit _ _ (by decide)).trans ((append_skip_bit _ _ (by decide)).trans ((append_skip_bit _ _ (by decide)).trans ((append_skip_bit _ _ (by decide)).trans ((append_skip_bit _ _ (by decide)).trans ((append_skip_bit _ _ (by decide)).trans (ofBool_bit _)))))))
    ((append_skip_bit _ _ (by decide)).trans ((append_skip_bit _ _ (by decide)).trans ((append_skip_bit _ _ (by decide)).trans ((append_skip_bit _ _ (by decide)).trans ((append_skip_bit _ _ (by decide)).trans (append_here_bit _ _)))))) h

theorem length_encodeRI {op : Byte} {f : RI} {w : Word} {ws : List Word} (h : encodeRI op f = w :: ws) :
    (encodeRI op f).length = wordCount w :=
  length_of_parts
    ((append_skip_bit _ _ (by decide)).trans ((append_skip_bit _ _ (by decide)).trans ((append_skip_bit _ _ (by decide)).trans ((append_skip_bit _ _ (by decide)).trans ((append_skip_bit _ _ (by decide)).trans (ofBool_bit _))))))
    ((append_skip_bit _ _ (by decide)).trans ((append_skip_bit _ _ (by decide)).trans ((append_skip_bit _ _ (by decide)).trans ((append_skip_bit _ _ (by decide)).trans (append_here_bit _ _))))) h

theorem length_encodeMW {op : Byte} {f : MW} {w : Word} {ws : List Word} (h : encodeMW op f = w :: ws) :
    (encodeMW op f).length = wordCount w :=
  length_of_parts
    ((append_skip_bit _ _ (by decide)).trans ((append_skip_bit _ _ (by decide)).trans ((append_skip_bit _ _ (by decide)).trans ((append_skip_bit _ _ (by decide)).trans ((append_skip_bit _ _ (by decide)).trans ((append_skip_bit _ _ (by decide)).trans ((append_skip_bit _ _ (by decide)).trans (ofBool_bit _))))))))
    ((append_skip_bit _ _ (by decide)).trans ((append_skip_bit _ _ (by decide)).trans ((append_skip_bit _ _ (by decide)).trans ((append_skip_bit _ _ (by decide)).trans ((append_skip_bit _ _ (by decide)).trans ((append_skip_bit _ _ (by decide)).trans (append_here_bit _ _))))))) h

theorem length_encodeZ {op : Byte} {f : FZ} {w : Word} {ws : List Word} (h : encodeZ op f = w :: ws) :
    (encodeZ op f).length = wordCount w :=
  length_of_parts
    ((append_skip_bit _ _ (by decide)).trans ((append_skip_bit _ _ (by decide)).trans ((append_skip_bit _ _ (by decide)).trans (ofBool_bit _))))
    ((append_skip_bit _ _ (by decide)).trans ((append_skip_bit _ _ (by decide)).trans (append_here_bit _ _))) h

theorem length_encodeBO {op : Byte} {f : BO} {w : Word} {ws : List Word} (h : encodeBO op f = w :: ws) :
    (encodeBO op f).length = wordCount w :=
  length_of_parts
    ((append_skip_bit _ _ (by decide)).trans ((append_skip_bit _ _ (by decide)).trans ((append_skip_bit _ _ (by decide)).trans ((append_skip_bit _ _ (by decide)).trans (ofBool_bit _)))))
    ((append_skip_bit _ _ (by decide)).trans ((append_skip_bit _ _ (by decide)).trans ((append_skip_bit _ _ (by decide)).trans (append_here_bit _ _)))) h

theorem length_encodeBC {op : Byte} {f : BC} {w : Word} {ws : List Word} (h : encodeBC op f = w :: ws) :
    (encodeBC op f).length = wordCount w :=
  length_of_parts
    ((append_skip_bit _ _ (by decide)).trans ((append_skip_bit _ _ (by decide)).trans ((append_skip_bit _ _ (by decide)).trans ((append_skip_bit _ _ (by decide)).trans ((append_skip_bit _ _ (by decide)).trans ((append_skip_bit _ _ (by decide)).trans (ofBool_bit _)))))))
    ((append_skip_bit _ _ (by decide)).trans ((append_skip_bit _ _ (by decide)).trans ((append_skip_bit _ _ (by decide)).trans ((append_skip_bit _ _ (by decide)).trans ((append_skip_bit _ _ (by decide)).trans (append_here_bit _ _)))))) h

theorem Length.bra (f : BO) : Length.Statement (.bra f) := fun _ _ => length_encodeBO
theorem Length.brc (f : BC) : Length.Statement (.brc f) := fun _ _ => length_encodeBC
theorem Length.brm (f : BC) : Length.Statement (.brm f) := fun _ _ => length_encodeBC
theorem Length.join (f : FZ) : Length.Statement (.join f) := fun _ _ => length_encodeZ
theorem Length.call (f : BO) : Length.Statement (.call f) := fun _ _ => length_encodeBO
theorem Length.ret (f : FZ) : Length.Statement (.ret f) := fun _ _ => length_encodeZ
theorem Length.jmpi (f : RRR) : Length.Statement (.jmpi f) := fun _ _ => length_encodeRRR
theorem Length.loop (f : BC) : Length.Statement (.loop f) := fun _ _ => length_encodeBC
theorem Length.exit (f : FZ) : Length.Statement (.exit f) := fun _ _ => length_encodeZ
theorem Length.yield (f : FZ) : Length.Statement (.yield f) := fun _ _ => length_encodeZ
theorem Length.sleep (f : RI) : Length.Statement (.sleep f) := fun _ _ => length_encodeRI
theorem Length.wait (f : RRS) : Length.Statement (.wait f) := fun _ _ => length_encodeRRS
theorem Length.nop (f : FZ) : Length.Statement (.nop f) := fun _ _ => length_encodeZ
theorem Length.part (f : RI) : Length.Statement (.part f) := fun _ _ => length_encodeRI
theorem Length.mset (f : RRS) : Length.Statement (.mset f) := fun _ _ => length_encodeRRS
theorem Length.mand (f : RRR) : Length.Statement (.mand f) := fun _ _ => length_encodeRRR
theorem Length.mor (f : RRR) : Length.Statement (.mor f) := fun _ _ => length_encodeRRR
theorem Length.mxor (f : RRR) : Length.Statement (.mxor f) := fun _ _ => length_encodeRRR
theorem Length.mnot (f : RRR) : Length.Statement (.mnot f) := fun _ _ => length_encodeRRR
theorem Length.mmov (f : RRR) : Length.Statement (.mmov f) := fun _ _ => length_encodeRRR
theorem Length.mpop (f : RRR) : Length.Statement (.mpop f) := fun _ _ => length_encodeRRR
theorem Length.mfind (f : RRR) : Length.Statement (.mfind f) := fun _ _ => length_encodeRRR
theorem Length.many (f : RRR) : Length.Statement (.many f) := fun _ _ => length_encodeRRR
theorem Length.mall (f : RRR) : Length.Statement (.mall f) := fun _ _ => length_encodeRRR
theorem Length.mexec (f : RRR) : Length.Statement (.mexec f) := fun _ _ => length_encodeRRR
theorem Length.setix (f : RI) : Length.Statement (.setix f) := fun _ _ => length_encodeRI
theorem Length.srd (f : RRS) : Length.Statement (.srd f) := fun _ _ => length_encodeRRS
theorem Length.swr (f : RRS) : Length.Statement (.swr f) := fun _ _ => length_encodeRRS
theorem Length.smov (f : RRR) : Length.Statement (.smov f) := fun _ _ => length_encodeRRR
theorem Length.smovi (f : RI) : Length.Statement (.smovi f) := fun _ _ => length_encodeRI
theorem Length.sadd (f : RRR) : Length.Statement (.sadd f) := fun _ _ => length_encodeRRR
theorem Length.ssub (f : RRR) : Length.Statement (.ssub f) := fun _ _ => length_encodeRRR
theorem Length.smul (f : RRR) : Length.Statement (.smul f) := fun _ _ => length_encodeRRR
theorem Length.smulh (f : RRR) : Length.Statement (.smulh f) := fun _ _ => length_encodeRRR
theorem Length.smad (f : RRR) : Length.Statement (.smad f) := fun _ _ => length_encodeRRR
theorem Length.sdiv (f : RRR) : Length.Statement (.sdiv f) := fun _ _ => length_encodeRRR
theorem Length.srem (f : RRR) : Length.Statement (.srem f) := fun _ _ => length_encodeRRR
theorem Length.sand (f : RRR) : Length.Statement (.sand f) := fun _ _ => length_encodeRRR
theorem Length.sor (f : RRR) : Length.Statement (.sor f) := fun _ _ => length_encodeRRR
theorem Length.sxor (f : RRR) : Length.Statement (.sxor f) := fun _ _ => length_encodeRRR
theorem Length.sshl (f : RRR) : Length.Statement (.sshl f) := fun _ _ => length_encodeRRR
theorem Length.sshr (f : RRR) : Length.Statement (.sshr f) := fun _ _ => length_encodeRRR
theorem Length.ssar (f : RRR) : Length.Statement (.ssar f) := fun _ _ => length_encodeRRR
theorem Length.smin (f : RRR) : Length.Statement (.smin f) := fun _ _ => length_encodeRRR
theorem Length.smax (f : RRR) : Length.Statement (.smax f) := fun _ _ => length_encodeRRR
theorem Length.scmp (f : RRR) : Length.Statement (.scmp f) := fun _ _ => length_encodeRRR
theorem Length.ssel (f : RRR) : Length.Statement (.ssel f) := fun _ _ => length_encodeRRR
theorem Length.sclz (f : RRR) : Length.Statement (.sclz f) := fun _ _ => length_encodeRRR
theorem Length.spopc (f : RRR) : Length.Statement (.spopc f) := fun _ _ => length_encodeRRR
theorem Length.sbfe (f : RRR) : Length.Statement (.sbfe f) := fun _ _ => length_encodeRRR
theorem Length.sbfi (f : RRR) : Length.Statement (.sbfi f) := fun _ _ => length_encodeRRR
theorem Length.sadd64 (f : RRR) : Length.Statement (.sadd64 f) := fun _ _ => length_encodeRRR
theorem Length.qpush (f : RRS) : Length.Statement (.qpush f) := fun _ _ => length_encodeRRS
theorem Length.qpop (f : RRS) : Length.Statement (.qpop f) := fun _ _ => length_encodeRRS
theorem Length.vadd (f : RRR) : Length.Statement (.vadd f) := fun _ _ => length_encodeRRR
theorem Length.vsub (f : RRR) : Length.Statement (.vsub f) := fun _ _ => length_encodeRRR
theorem Length.vmul (f : RRR) : Length.Statement (.vmul f) := fun _ _ => length_encodeRRR
theorem Length.vmulh (f : RRR) : Length.Statement (.vmulh f) := fun _ _ => length_encodeRRR
theorem Length.vmad (f : RRR) : Length.Statement (.vmad f) := fun _ _ => length_encodeRRR
theorem Length.vand (f : RRR) : Length.Statement (.vand f) := fun _ _ => length_encodeRRR
theorem Length.vor (f : RRR) : Length.Statement (.vor f) := fun _ _ => length_encodeRRR
theorem Length.vxor (f : RRR) : Length.Statement (.vxor f) := fun _ _ => length_encodeRRR
theorem Length.vnot (f : RRR) : Length.Statement (.vnot f) := fun _ _ => length_encodeRRR
theorem Length.vshl (f : RRR) : Length.Statement (.vshl f) := fun _ _ => length_encodeRRR
theorem Length.vshr (f : RRR) : Length.Statement (.vshr f) := fun _ _ => length_encodeRRR
theorem Length.vsar (f : RRR) : Length.Statement (.vsar f) := fun _ _ => length_encodeRRR
theorem Length.vmin (f : RRR) : Length.Statement (.vmin f) := fun _ _ => length_encodeRRR
theorem Length.vmax (f : RRR) : Length.Statement (.vmax f) := fun _ _ => length_encodeRRR
theorem Length.vabs (f : RRR) : Length.Statement (.vabs f) := fun _ _ => length_encodeRRR
theorem Length.vcmp (f : RRR) : Length.Statement (.vcmp f) := fun _ _ => length_encodeRRR
theorem Length.vsel (f : RRR) : Length.Statement (.vsel f) := fun _ _ => length_encodeRRR
theorem Length.vclz (f : RRR) : Length.Statement (.vclz f) := fun _ _ => length_encodeRRR
theorem Length.vpopc (f : RRR) : Length.Statement (.vpopc f) := fun _ _ => length_encodeRRR
theorem Length.vbfe (f : RRR) : Length.Statement (.vbfe f) := fun _ _ => length_encodeRRR
theorem Length.vbfi (f : RRR) : Length.Statement (.vbfi f) := fun _ _ => length_encodeRRR
theorem Length.vperm (f : RRR) : Length.Statement (.vperm f) := fun _ _ => length_encodeRRR
theorem Length.vdot4 (f : RRR) : Length.Statement (.vdot4 f) := fun _ _ => length_encodeRRR
theorem Length.fadd (f : RRR) : Length.Statement (.fadd f) := fun _ _ => length_encodeRRR
theorem Length.fsub (f : RRR) : Length.Statement (.fsub f) := fun _ _ => length_encodeRRR
theorem Length.fmul (f : RRR) : Length.Statement (.fmul f) := fun _ _ => length_encodeRRR
theorem Length.fma (f : RRR) : Length.Statement (.fma f) := fun _ _ => length_encodeRRR
theorem Length.fnma (f : RRR) : Length.Statement (.fnma f) := fun _ _ => length_encodeRRR
theorem Length.fmin (f : RRR) : Length.Statement (.fmin f) := fun _ _ => length_encodeRRR
theorem Length.fmax (f : RRR) : Length.Statement (.fmax f) := fun _ _ => length_encodeRRR
theorem Length.fneg (f : RRR) : Length.Statement (.fneg f) := fun _ _ => length_encodeRRR
theorem Length.fabs (f : RRR) : Length.Statement (.fabs f) := fun _ _ => length_encodeRRR
theorem Length.fcmp (f : RRR) : Length.Statement (.fcmp f) := fun _ _ => length_encodeRRR
theorem Length.fclass (f : RRR) : Length.Statement (.fclass f) := fun _ _ => length_encodeRRR
theorem Length.fscale (f : RRR) : Length.Statement (.fscale f) := fun _ _ => length_encodeRRR
theorem Length.frcp (f : RRR) : Length.Statement (.frcp f) := fun _ _ => length_encodeRRR
theorem Length.frsq (f : RRR) : Length.Statement (.frsq f) := fun _ _ => length_encodeRRR
theorem Length.fsqrt (f : RRR) : Length.Statement (.fsqrt f) := fun _ _ => length_encodeRRR
theorem Length.fexp2 (f : RRR) : Length.Statement (.fexp2 f) := fun _ _ => length_encodeRRR
theorem Length.flog2 (f : RRR) : Length.Statement (.flog2 f) := fun _ _ => length_encodeRRR
theorem Length.fsin (f : RRR) : Length.Statement (.fsin f) := fun _ _ => length_encodeRRR
theorem Length.fcos (f : RRR) : Length.Statement (.fcos f) := fun _ _ => length_encodeRRR
theorem Length.ftanh (f : RRR) : Length.Statement (.ftanh f) := fun _ _ => length_encodeRRR
theorem Length.cvt (f : RRR) : Length.Statement (.cvt f) := fun _ _ => length_encodeRRR
theorem Length.cvtn (f : RRR) : Length.Statement (.cvtn f) := fun _ _ => length_encodeRRR
theorem Length.cvtw (f : RRR) : Length.Statement (.cvtw f) := fun _ _ => length_encodeRRR
theorem Length.qnt (f : RRR) : Length.Statement (.qnt f) := fun _ _ => length_encodeRRR
theorem Length.dqnt (f : RRR) : Length.Statement (.dqnt f) := fun _ _ => length_encodeRRR
theorem Length.shfl (f : RRR) : Length.Statement (.shfl f) := fun _ _ => length_encodeRRR
theorem Length.shflu (f : RRR) : Length.Statement (.shflu f) := fun _ _ => length_encodeRRR
theorem Length.shfld (f : RRR) : Length.Statement (.shfld f) := fun _ _ => length_encodeRRR
theorem Length.shflx (f : RRR) : Length.Statement (.shflx f) := fun _ _ => length_encodeRRR
theorem Length.vote (f : RRS) : Length.Statement (.vote f) := fun _ _ => length_encodeRRS
theorem Length.ballot (f : RRS) : Length.Statement (.ballot f) := fun _ _ => length_encodeRRS
theorem Length.vred (f : RRR) : Length.Statement (.vred f) := fun _ _ => length_encodeRRR
theorem Length.vscan (f : RRR) : Length.Statement (.vscan f) := fun _ _ => length_encodeRRR
theorem Length.tred (f : RRR) : Length.Statement (.tred f) := fun _ _ => length_encodeRRR
theorem Length.bcast (f : RRR) : Length.Statement (.bcast f) := fun _ _ => length_encodeRRR
theorem Length.compact (f : RRR) : Length.Statement (.compact f) := fun _ _ => length_encodeRRR
theorem Length.vrand (f : RRR) : Length.Statement (.vrand f) := fun _ _ => length_encodeRRR
theorem Length.dcvt (f : RRR) : Length.Statement (.dcvt f) := fun _ _ => length_encodeRRR
theorem Length.dexp (f : RRR) : Length.Statement (.dexp f) := fun _ _ => length_encodeRRR
theorem Length.ddot (f : RRR) : Length.Statement (.ddot f) := fun _ _ => length_encodeRRR
theorem Length.ddotf (f : RRR) : Length.Statement (.ddotf f) := fun _ _ => length_encodeRRR
theorem Length.dscal (f : RRR) : Length.Statement (.dscal f) := fun _ _ => length_encodeRRR
theorem Length.dadd (f : RRR) : Length.Statement (.dadd f) := fun _ _ => length_encodeRRR
theorem Length.dsub (f : RRR) : Length.Statement (.dsub f) := fun _ _ => length_encodeRRR
theorem Length.dmix (f : RRR) : Length.Statement (.dmix f) := fun _ _ => length_encodeRRR
theorem Length.dneg (f : RRR) : Length.Statement (.dneg f) := fun _ _ => length_encodeRRR
theorem Length.dmov (f : RRR) : Length.Statement (.dmov f) := fun _ _ => length_encodeRRR
theorem Length.dnrd (f : RRR) : Length.Statement (.dnrd f) := fun _ _ => length_encodeRRR
theorem Length.dnwr (f : RRR) : Length.Statement (.dnwr f) := fun _ _ => length_encodeRRR
theorem Length.dzero (f : RRR) : Length.Statement (.dzero f) := fun _ _ => length_encodeRRR
theorem Length.dspan (f : RI) : Length.Statement (.dspan f) := fun _ _ => length_encodeRI
theorem Length.dld (f : MW) : Length.Statement (.dld f) := fun _ _ => length_encodeMW
theorem Length.dst (f : MW) : Length.Statement (.dst f) := fun _ _ => length_encodeMW
theorem Length.wlalloc (f : RRS) : Length.Statement (.wlalloc f) := fun _ _ => length_encodeRRS
theorem Length.wlfree (f : RRS) : Length.Statement (.wlfree f) := fun _ _ => length_encodeRRS
theorem Length.wlclr (f : RRS) : Length.Statement (.wlclr f) := fun _ _ => length_encodeRRS
theorem Length.wlins (f : RRR) : Length.Statement (.wlins f) := fun _ _ => length_encodeRRR
theorem Length.vtopk (f : RRR) : Length.Statement (.vtopk f) := fun _ _ => length_encodeRRR
theorem Length.wlmerge (f : RRR) : Length.Statement (.wlmerge f) := fun _ _ => length_encodeRRR
theorem Length.wlrd (f : RRR) : Length.Statement (.wlrd f) := fun _ _ => length_encodeRRR
theorem Length.wlst (f : RRR) : Length.Statement (.wlst f) := fun _ _ => length_encodeRRR
theorem Length.wlld (f : RRR) : Length.Statement (.wlld f) := fun _ _ => length_encodeRRR
theorem Length.ssect (f : RRR) : Length.Statement (.ssect f) := fun _ _ => length_encodeRRR
theorem Length.pksi (f : RRR) : Length.Statement (.pksi f) := fun _ _ => length_encodeRRR
theorem Length.unpksi (f : RRR) : Length.Statement (.unpksi f) := fun _ _ => length_encodeRRR
theorem Length.gwnorm (f : RRR) : Length.Statement (.gwnorm f) := fun _ _ => length_encodeRRR
theorem Length.smxacc (f : RRR) : Length.Statement (.smxacc f) := fun _ _ => length_encodeRRR
theorem Length.smxfin (f : RRR) : Length.Statement (.smxfin f) := fun _ _ => length_encodeRRR
theorem Length.ld (f : MW) : Length.Statement (.ld f) := fun _ _ => length_encodeMW
theorem Length.st (f : MW) : Length.Statement (.st f) := fun _ _ => length_encodeMW
theorem Length.ldg (f : RRR) : Length.Statement (.ldg f) := fun _ _ => length_encodeRRR
theorem Length.stg (f : RRR) : Length.Statement (.stg f) := fun _ _ => length_encodeRRR
theorem Length.ldp (f : RRR) : Length.Statement (.ldp f) := fun _ _ => length_encodeRRR
theorem Length.stp (f : RRR) : Length.Statement (.stp f) := fun _ _ => length_encodeRRR
theorem Length.kvld (f : RRR) : Length.Statement (.kvld f) := fun _ _ => length_encodeRRR
theorem Length.wmap (f : RRR) : Length.Statement (.wmap f) := fun _ _ => length_encodeRRR
theorem Length.winv (f : RRS) : Length.Statement (.winv f) := fun _ _ => length_encodeRRS
theorem Length.pref (f : MW) : Length.Statement (.pref f) := fun _ _ => length_encodeMW
theorem Length.cwb (f : RRR) : Length.Statement (.cwb f) := fun _ _ => length_encodeRRR
theorem Length.cinv (f : RRR) : Length.Statement (.cinv f) := fun _ _ => length_encodeRRR
theorem Length.ipref (f : RRR) : Length.Statement (.ipref f) := fun _ _ => length_encodeRRR
theorem Length.ipin (f : RRR) : Length.Statement (.ipin f) := fun _ _ => length_encodeRRR
theorem Length.iunpin (f : RRR) : Length.Statement (.iunpin f) := fun _ _ => length_encodeRRR
theorem Length.atom (f : MW) : Length.Statement (.atom f) := fun _ _ => length_encodeMW
theorem Length.cas (f : MW) : Length.Statement (.cas f) := fun _ _ => length_encodeMW
theorem Length.cas128 (f : MW) : Length.Statement (.cas128 f) := fun _ _ => length_encodeMW
theorem Length.acq (f : RRR) : Length.Statement (.acq f) := fun _ _ => length_encodeRRR
theorem Length.rel (f : RRR) : Length.Statement (.rel f) := fun _ _ => length_encodeRRR
theorem Length.bind (f : RRR) : Length.Statement (.bind f) := fun _ _ => length_encodeRRR
theorem Length.unbind (f : RRS) : Length.Statement (.unbind f) := fun _ _ => length_encodeRRS
theorem Length.fence (f : FZ) : Length.Statement (.fence f) := fun _ _ => length_encodeZ
theorem Length.fencePt (f : FZ) : Length.Statement (.fencePt f) := fun _ _ => length_encodeZ
theorem Length.shoot (f : RRR) : Length.Statement (.shoot f) := fun _ _ => length_encodeRRR
theorem Length.bar (f : RRS) : Length.Statement (.bar f) := fun _ _ => length_encodeRRS
theorem Length.bara (f : RRS) : Length.Statement (.bara f) := fun _ _ => length_encodeRRS
theorem Length.barw (f : RRS) : Length.Statement (.barw f) := fun _ _ => length_encodeRRS
theorem Length.gbar (f : FZ) : Length.Statement (.gbar f) := fun _ _ => length_encodeZ
theorem Length.qcfg (f : RRS) : Length.Statement (.qcfg f) := fun _ _ => length_encodeRRS
theorem Length.qstat (f : RRS) : Length.Statement (.qstat f) := fun _ _ => length_encodeRRS
theorem Length.xcopy (f : RRR) : Length.Statement (.xcopy f) := fun _ _ => length_encodeRRR
theorem Length.xred (f : RRR) : Length.Statement (.xred f) := fun _ _ => length_encodeRRR
theorem Length.wbload (f : RRR) : Length.Statement (.wbload f) := fun _ _ => length_encodeRRR
theorem Length.mloop (f : RRR) : Length.Statement (.mloop f) := fun _ _ => length_encodeRRR
theorem Length.ctopk (f : RRR) : Length.Statement (.ctopk f) := fun _ _ => length_encodeRRR
theorem Length.cbin (f : RRR) : Length.Statement (.cbin f) := fun _ _ => length_encodeRRR
theorem Length.cepi (f : RRR) : Length.Statement (.cepi f) := fun _ _ => length_encodeRRR
theorem Length.cstat (f : RRS) : Length.Statement (.cstat f) := fun _ _ => length_encodeRRS
theorem Length.spawn (f : RRR) : Length.Statement (.spawn f) := fun _ _ => length_encodeRRR
theorem Length.nodefl (f : RRR) : Length.Statement (.nodefl f) := fun _ _ => length_encodeRRR
theorem Length.repack (f : FZ) : Length.Statement (.repack f) := fun _ _ => length_encodeZ
theorem Length.chgo (f : RRR) : Length.Statement (.chgo f) := fun _ _ => length_encodeRRR
theorem Length.chstop (f : FZ) : Length.Statement (.chstop f) := fun _ _ => length_encodeZ
theorem Length.phase (f : RRS) : Length.Statement (.phase f) := fun _ _ => length_encodeRRS
theorem Length.trap (f : RRS) : Length.Statement (.trap f) := fun _ _ => length_encodeRRS
theorem Length.tret (f : FZ) : Length.Statement (.tret f) := fun _ _ => length_encodeZ
theorem Length.trld (f : RRR) : Length.Statement (.trld f) := fun _ _ => length_encodeRRR
theorem Length.trst (f : RRR) : Length.Statement (.trst f) := fun _ _ => length_encodeRRR
theorem Length.bpset (f : RRR) : Length.Statement (.bpset f) := fun _ _ => length_encodeRRR
theorem Length.wpset (f : RRR) : Length.Statement (.wpset f) := fun _ _ => length_encodeRRR
theorem Length.step (f : RRS) : Length.Statement (.step f) := fun _ _ => length_encodeRRS
theorem Length.snap (f : FZ) : Length.Statement (.snap f) := fun _ _ => length_encodeZ
theorem Length.finj (f : RRR) : Length.Statement (.finj f) := fun _ _ => length_encodeRRR
theorem Length.tsbegin (f : FZ) : Length.Statement (.tsbegin f) := fun _ _ => length_encodeZ
theorem Length.tsend (f : FZ) : Length.Statement (.tsend f) := fun _ _ => length_encodeZ
theorem Length.tbrd (f : RRR) : Length.Statement (.tbrd f) := fun _ _ => length_encodeRRR
theorem Length.halt (f : FZ) : Length.Statement (.halt f) := fun _ _ => length_encodeZ
theorem Length.powerGood : Length.Statement (.powerGood) := fun _ _ => nofun
theorem Length.dieTrained (die : Nat) : Length.Statement (.dieTrained die) := fun _ _ => nofun
theorem Length.fullServiceDeadline : Length.Statement (.fullServiceDeadline) := fun _ _ => nofun
theorem Length.powerOn : Length.Statement (.powerOn) := fun _ _ => nofun
theorem Length.powerOff : Length.Statement (.powerOff) := fun _ _ => nofun
theorem Length.sensors (temps : List (BitVec 16)) (rails : List (BitVec 32)) (power : Word) : Length.Statement (.sensors temps rails power) := fun _ _ => nofun
theorem Length.status : Length.Statement (.status) := fun _ _ => nofun
theorem Length.selectSlot (slotB : Bool) : Length.Statement (.selectSlot slotB) := fun _ _ => nofun
theorem Length.hold : Length.Statement (.hold) := fun _ _ => nofun
theorem Length.snapPin : Length.Statement (.snapPin) := fun _ _ => nofun
theorem Length.boardCommandUnknown (code : Byte) : Length.Statement (.boardCommandUnknown code) := fun _ _ => nofun
theorem Length.tokenTurn (used request : Nat) : Length.Statement (.tokenTurn used request) := fun _ _ => nofun
theorem Length.tokenLoss (die : Nat) : Length.Statement (.tokenLoss die) := fun _ _ => nofun
theorem Length.tokenRebuild : Length.Statement (.tokenRebuild) := fun _ _ => nofun
theorem Length.fillRateStep (cluster : Nat) : Length.Statement (.fillRateStep cluster) := fun _ _ => nofun
theorem Length.throttleLimit (cluster slot : Nat) : Length.Statement (.throttleLimit cluster slot) := fun _ _ => nofun
theorem Length.energySample : Length.Statement (.energySample) := fun _ _ => nofun
theorem Length.energyDivide (cluster measured : Nat) : Length.Statement (.energyDivide cluster measured) := fun _ _ => nofun
theorem Length.replan (die : Nat) (reason : Replan) (table : List Byte) (found : Bool) :
    Length.Statement (.replan die reason table found) := fun _ _ => nofun
theorem Length.flitReceive (port : Nat) (flit : List Byte) : Length.Statement (.flitReceive port flit) := fun _ _ => nofun
theorem Length.replayRequest (port : Nat) (seq : BitVec 12) : Length.Statement (.replayRequest port seq) := fun _ _ => nofun
theorem Length.retrainComplete (port : Nat) (ok : Bool) : Length.Statement (.retrainComplete port ok) := fun _ _ => nofun
theorem Length.domainJoin (reduces duplicate : Bool) : Length.Statement (.domainJoin reduces duplicate) := fun _ _ => nofun
theorem Length.cxlDeviceDiscovered (port : Nat) (kind : CxlDevice) (capacity : Nat) :
    Length.Statement (.cxlDeviceDiscovered port kind capacity) := fun _ _ => nofun
theorem Length.inboundRdmaWrite (handle : RdmaKey) (offset : Nat) (data : List Byte) :
    Length.Statement (.inboundRdmaWrite handle offset data) := fun _ _ => nofun
theorem Length.inboundRdmaRead (handle : RdmaKey) (offset length : Nat) :
    Length.Statement (.inboundRdmaRead handle offset length) := fun _ _ => nofun
theorem Length.notifyWrite (handle : NotifyKey) (addr : DWord) (data : List Byte) :
    Length.Statement (.notifyWrite handle addr data) := fun _ _ => nofun
theorem Length.openContext (r : Request) : Length.Statement (.openContext r) := fun _ _ => nofun
theorem Length.closeContext (r : Request) : Length.Statement (.closeContext r) := fun _ _ => nofun
theorem Length.closeGraceExpiry (ctx : Nat) : Length.Statement (.closeGraceExpiry ctx) := fun _ _ => nofun
theorem Length.setRegion (r : Request) : Length.Statement (.setRegion r) := fun _ _ => nofun
theorem Length.map (r : Request) : Length.Statement (.map r) := fun _ _ => nofun
theorem Length.unmap (r : Request) : Length.Statement (.unmap r) := fun _ _ => nofun
theorem Length.expose (r : Request) : Length.Statement (.expose r) := fun _ _ => nofun
theorem Length.createQueue (r : Request) : Length.Statement (.createQueue r) := fun _ _ => nofun
theorem Length.destroyQueue (r : Request) : Length.Statement (.destroyQueue r) := fun _ _ => nofun
theorem Length.resumeQueue (r : Request) : Length.Statement (.resumeQueue r) := fun _ _ => nofun
theorem Length.attachDebug (r : Request) : Length.Statement (.attachDebug r) := fun _ _ => nofun
theorem Length.debugStop (r : Request) : Length.Statement (.debugStop r) := fun _ _ => nofun
theorem Length.debugRelease (r : Request) : Length.Statement (.debugRelease r) := fun _ _ => nofun
theorem Length.debugStep (r : Request) : Length.Statement (.debugStep r) := fun _ _ => nofun
theorem Length.debugRead (r : Request) : Length.Statement (.debugRead r) := fun _ _ => nofun
theorem Length.debugWrite (r : Request) : Length.Statement (.debugWrite r) := fun _ _ => nofun
theorem Length.armSnap (r : Request) : Length.Statement (.armSnap r) := fun _ _ => nofun
theorem Length.readSnap (r : Request) : Length.Statement (.readSnap r) := fun _ _ => nofun
theorem Length.detachDebug (r : Request) : Length.Statement (.detachDebug r) := fun _ _ => nofun
theorem Length.readHallmark (r : Request) : Length.Statement (.readHallmark r) := fun _ _ => nofun
theorem Length.requestIngot (r : Request) (rate : Nat) : Length.Statement (.requestIngot r rate) := fun _ _ => nofun
theorem Length.ingotSeal (scope : Nat) : Length.Statement (.ingotSeal scope) := fun _ _ => nofun
theorem Length.registerNotify (r : Request) : Length.Statement (.registerNotify r) := fun _ _ => nofun
theorem Length.serviceRequestUnknown (code : BitVec 16) (r : Request) : Length.Statement (.serviceRequestUnknown code r) := fun _ _ => nofun
theorem Length.packetFetch (queue : Nat) : Length.Statement (.packetFetch queue) := fun _ _ => nofun
theorem Length.slotReread (queue : Nat) : Length.Statement (.slotReread queue) := fun _ _ => nofun
theorem Length.packetAcquire (queue index : Nat) : Length.Statement (.packetAcquire queue index) := fun _ _ => nofun
theorem Length.launchSettle (queue index : Nat) : Length.Statement (.launchSettle queue index) := fun _ _ => nofun
theorem Length.nopPacket (queue index : Nat) : Length.Statement (.nopPacket queue index) := fun _ _ => nofun
theorem Length.signalSet (queue index : Nat) : Length.Statement (.signalSet queue index) := fun _ _ => nofun
theorem Length.signalAdd (queue index : Nat) : Length.Statement (.signalAdd queue index) := fun _ _ => nofun
theorem Length.signalSub (queue index : Nat) : Length.Statement (.signalSub queue index) := fun _ _ => nofun
theorem Length.waitPacket (queue index : Nat) : Length.Statement (.waitPacket queue index) := fun _ _ => nofun
theorem Length.waitPacketMet (queue index : Nat) : Length.Statement (.waitPacketMet queue index) := fun _ _ => nofun
theorem Length.waitTimeout (queue index : Nat) : Length.Statement (.waitTimeout queue index) := fun _ _ => nofun
theorem Length.copyPacket (queue index : Nat) : Length.Statement (.copyPacket queue index) := fun _ _ => nofun
theorem Length.copyPacketDone (queue index : Nat) : Length.Statement (.copyPacketDone queue index) := fun _ _ => nofun
theorem Length.nodeDefine (queue index : Nat) : Length.Statement (.nodeDefine queue index) := fun _ _ => nofun
theorem Length.nodeArm (queue index : Nat) : Length.Statement (.nodeArm queue index) := fun _ _ => nofun
theorem Length.nodeDisarm (queue index : Nat) : Length.Statement (.nodeDisarm queue index) := fun _ _ => nofun
theorem Length.nodeDisarmDrained (queue index : Nat) : Length.Statement (.nodeDisarmDrained queue index) := fun _ _ => nofun
theorem Length.flushTimer (node : Nat) : Length.Statement (.flushTimer node) := fun _ _ => nofun
theorem Length.launchDrained (launch : Nat) : Length.Statement (.launchDrained launch) := fun _ _ => nofun
theorem Length.packetConfirmed (queue index : Nat) : Length.Statement (.packetConfirmed queue index) := fun _ _ => nofun
theorem Length.crewPlace (launch core : Nat) : Length.Statement (.crewPlace launch core) := fun _ _ => nofun
theorem Length.crewLoaded (crew : Nat) : Length.Statement (.crewLoaded crew) := fun _ _ => nofun
theorem Length.migrationTrigger (core crew : Nat) : Length.Statement (.migrationTrigger core crew) := fun _ _ => nofun
theorem Length.imageSealed (crew : Nat) : Length.Statement (.imageSealed crew) := fun _ _ => nofun
theorem Length.crewRestore (crew core : Nat) : Length.Statement (.crewRestore crew core) := fun _ _ => nofun
theorem Length.outstandingAck (core launch : Nat) (signal : Bool) : Length.Statement (.outstandingAck core launch signal) := fun _ _ => nofun
theorem Length.barrierTreeRelease (channel : Nat) : Length.Statement (.barrierTreeRelease channel) := fun _ _ => nofun
theorem Length.exchangeCopyStart (core : Nat) : Length.Statement (.exchangeCopyStart core) := fun _ _ => nofun
theorem Length.phaseEpoch (channel : Nat) : Length.Statement (.phaseEpoch channel) := fun _ _ => nofun
theorem Length.clauseIssue (cluster : Nat) (chaser : Option Nat) : Length.Statement (.clauseIssue cluster chaser) := fun _ _ => nofun
theorem Length.promiseMissed (p : Party) (quad : Nat) : Length.Statement (.promiseMissed p quad) := fun _ _ => nofun
theorem Length.loadComplete (p : Party) : Length.Statement (.loadComplete p) := fun _ _ => nofun
theorem Length.storePerformed (p : Party) : Length.Statement (.storePerformed p) := fun _ _ => nofun
theorem Length.windowFillComplete (p : Party) (win : Nat) : Length.Statement (.windowFillComplete p win) := fun _ _ => nofun
theorem Length.migratingTimeout (w : Waiter) : Length.Statement (.migratingTimeout w) := fun _ _ => nofun
theorem Length.remoteAccess (a : RemoteOp) : Length.Statement (.remoteAccess a) := fun _ _ => nofun
theorem Length.remoteUnreachable (w : Waiter) : Length.Statement (.remoteUnreachable w) := fun _ _ => nofun
theorem Length.shootComplete (p : Party) : Length.Statement (.shootComplete p) := fun _ _ => nofun
theorem Length.waitConditionMet (p : Party) : Length.Statement (.waitConditionMet p) := fun _ _ => nofun
theorem Length.sleepExpiry (p : Party) : Length.Statement (.sleepExpiry p) := fun _ _ => nofun
theorem Length.queueUnblock (p : Party) : Length.Statement (.queueUnblock p) := fun _ _ => nofun
theorem Length.queueStarvedTimeout (p : Party) : Length.Statement (.queueStarvedTimeout p) := fun _ _ => nofun
theorem Length.cupelOperationStart (core : Nat) : Length.Statement (.cupelOperationStart core) := fun _ _ => nofun
theorem Length.cupelComplete (core : Nat) : Length.Statement (.cupelComplete core) := fun _ _ => nofun
theorem Length.copyOperationStart (core : Nat) : Length.Statement (.copyOperationStart core) := fun _ _ => nofun
theorem Length.copyComplete (core : Nat) : Length.Statement (.copyComplete core) := fun _ _ => nofun
theorem Length.reduceUnitArrival (u : UnitSource) : Length.Statement (.reduceUnitArrival u) := fun _ _ => nofun
theorem Length.touchstoneEpochEnd (p : Party) : Length.Statement (.touchstoneEpochEnd p) := fun _ _ => nofun
theorem Length.assayStart (die : Nat) : Length.Statement (.assayStart die) := fun _ _ => nofun
theorem Length.assayResult (die : Nat) (pass : Bool) : Length.Statement (.assayResult die pass) := fun _ _ => nofun
theorem Length.snapTrigger (source : SnapSource) : Length.Statement (.snapTrigger source) := fun _ _ => nofun
theorem Length.snapshotTimeout : Length.Statement (.snapshotTimeout) := fun _ _ => nofun
theorem Length.migratingLeafCleared (w : Waiter) : Length.Statement (.migratingLeafCleared w) := fun _ _ => nofun
theorem Length.uncorrectableError (t : ErrorTarget) : Length.Statement (.uncorrectableError t) := fun _ _ => nofun
theorem Length.trailingCopyPlace (p : Party) (core : Nat) : Length.Statement (.trailingCopyPlace p core) := fun _ _ => nofun

end Sys2Proof.Laws
end

