-- ==== Sys2Proof/Laws/Team.lean ====
section
/-! SUPPORT. The team of a party: what is read after it is replaced or changed, for the same party and for others, and what
the updates of its thread, its paths and its registers keep. -/

namespace Sys2Proof.Machine

open Sys2Proof

/-! ### The team of a party -/

/-- A party whose team is no trailing copy. -/
theorem team?_of_kind {s : State} {p : Party} (h : p.kind ≠ .trail) :
    s.team? p = (s.crews.get? p.crew).bind fun c => c.teams.get? p.team := by
  unfold State.team?
  split
  · next e => exact absurd e h
  · rfl

theorem team?_setTeam {s : State} {p : Party} {t : Team} (u : Team) (h : s.team? p = some t) :
    (s.setTeam p u).team? p = some u := by
  unfold State.team? State.setTeam at *
  cases hk : p.kind <;> simp only [hk] at h ⊢
  case trail =>
    cases hq : s.pairs.get? (pairKey p.crew p.team) with
    | none => simp [hq] at h
    | some q => simp [hq]
  all_goals
    simp only [State.updCrew]
    cases hc : s.crews.get? p.crew with
    | none => simp [hc] at h
    | some c =>
      simp only [hc, Option.bind_some] at h
      simp [hc, h]

theorem updTeam_of_some {s : State} {p : Party} {t : Team} (f : Team → Team) (h : s.team? p = some t) :
    s.updTeam p f = s.setTeam p (f t) := by
  simp only [State.updTeam, h]

theorem team?_updTeam {s : State} {p : Party} {t : Team} (f : Team → Team) (h : s.team? p = some t) :
    (s.updTeam p f).team? p = some (f t) := by
  rw [updTeam_of_some f h, team?_setTeam _ h]

/-- Changing a team that is not there changes nothing. -/
theorem updTeam_of_none {s : State} {p : Party} (f : Team → Team) (h : s.team? p = none) : s.updTeam p f = s := by
  simp only [State.updTeam, h]

theorem team?_updThread {s : State} {p : Party} {t : Team} (f : Thread → Thread) (h : s.team? p = some t) :
    (s.updThread p f).team? p = some (t.setThread p.kind (f (t.thread p.kind))) :=
  team?_updTeam _ h

/-- The team of a party depends on the crews and the pairs alone. -/
theorem team?_congr {s t : State} (p : Party) (hc : s.crews = t.crews) (hp : s.pairs = t.pairs) :
    s.team? p = t.team? p := by
  unfold State.team?
  rw [hc, hp]

@[simp] theorem team?_updCluster (s : State) (k : Nat) (f : Cluster → Cluster) (p : Party) :
    (s.updCluster k f).team? p = s.team? p := rfl
@[simp] theorem team?_updCore (s : State) (k : Nat) (f : Core → Core) (p : Party) :
    (s.updCore k f).team? p = s.team? p := rfl
@[simp] theorem team?_writeByte (s : State) (a : Nat) (b : Byte) (p : Party) :
    (s.writeByte a b).team? p = s.team? p := rfl

/-- Changing one team leaves the team of a party of another crew as it was. -/
theorem team?_updTeam_crew {s : State} {p q : Party} (f : Team → Team) (hk : p.kind ≠ .trail) (hq : q.kind ≠ .trail)
    (h : q.crew ≠ p.crew) : (s.updTeam p f).team? q = s.team? q := by
  cases ht : s.team? p with
  | none => rw [updTeam_of_none f ht]
  | some t =>
    rw [updTeam_of_some f ht, team?_of_kind hq, team?_of_kind hq]
    unfold State.setTeam
    split
    · next e => exact absurd e hk
    · simp only [State.updCrew, Tbl.get?_upd_other _ _ h]

/-- Changing one team leaves the other teams of its crew as they were. -/
theorem team?_updTeam_team {s : State} {p q : Party} (f : Team → Team) (hk : p.kind ≠ .trail) (hq : q.kind ≠ .trail)
    (h : q.team ≠ p.team) : (s.updTeam p f).team? q = s.team? q := by
  cases ht : s.team? p with
  | none => rw [updTeam_of_none f ht]
  | some t =>
    rw [updTeam_of_some f ht, team?_of_kind hq, team?_of_kind hq]
    unfold State.setTeam
    split
    · next e => exact absurd e hk
    · simp only [State.updCrew, Tbl.get?_upd]
      by_cases hc : q.crew = p.crew
      · rw [hc, if_pos rfl]
        cases s.crews.get? p.crew with
        | none => rfl
        | some c => simp [Tbl.get?_upd_other _ _ h]
      · rw [if_neg hc]

/-! ### What a change of a team keeps of the state -/

section
variable (s : State) (p : Party) (f : Team → Team)

@[simp] theorem updTeam_now : (s.updTeam p f).now = s.now := by
  unfold State.updTeam State.setTeam; split <;> try rfl
  split <;> rfl
@[simp] theorem updTeam_mem : (s.updTeam p f).mem = s.mem := by
  unfold State.updTeam State.setTeam; split <;> try rfl
  split <;> rfl
@[simp] theorem updTeam_contexts : (s.updTeam p f).contexts = s.contexts := by
  unfold State.updTeam State.setTeam; split <;> try rfl
  split <;> rfl
@[simp] theorem updTeam_launches : (s.updTeam p f).launches = s.launches := by
  unfold State.updTeam State.setTeam; split <;> try rfl
  split <;> rfl
@[simp] theorem updTeam_cores : (s.updTeam p f).cores = s.cores := by
  unfold State.updTeam State.setTeam; split <;> try rfl
  split <;> rfl
@[simp] theorem updTeam_clusters : (s.updTeam p f).clusters = s.clusters := by
  unfold State.updTeam State.setTeam; split <;> try rfl
  split <;> rfl
@[simp] theorem updTeam_turn : (s.updTeam p f).turn = s.turn := by
  unfold State.updTeam State.setTeam; split <;> try rfl
  split <;> rfl
@[simp] theorem updTeam_poison : (s.updTeam p f).poison = s.poison := by
  unfold State.updTeam State.setTeam; split <;> try rfl
  split <;> rfl
@[simp] theorem updTeam_sent : (s.updTeam p f).sent = s.sent := by
  unfold State.updTeam State.setTeam; split <;> try rfl
  split <;> rfl

end

/-! ### Threads and paths -/

section
variable (t : Team) (k : PartyKind) (th : Thread)

@[simp] theorem setThread_thread : (t.setThread k th).thread k = th := by cases k <;> rfl
@[simp] theorem setThread_v : (t.setThread k th).v = t.v := by cases k <;> rfl
@[simp] theorem setThread_n : (t.setThread k th).n = t.n := by cases k <;> rfl
@[simp] theorem setThread_m : (t.setThread k th).m = t.m := by cases k <;> rfl
@[simp] theorem setThread_paths : (t.setThread k th).paths = t.paths := by cases k <;> rfl
@[simp] theorem setThread_joins : (t.setThread k th).joins = t.joins := by cases k <;> rfl
@[simp] theorem setThread_frame : (t.setThread k th).frame = t.frame := by cases k <;> rfl
@[simp] theorem setThread_handler : (t.setThread k th).handler = t.handler := by cases k <;> rfl

end

/-- The path of a creation number after it is changed, when the change keeps its number. -/
theorem path?_updPath {t : Team} {c : Word} {q : Path} {f : Path → Path} (hf : ∀ p, (f p).creation = p.creation)
    (h : t.path? c = some q) : (t.updPath c f).path? c = some (f q) := by
  unfold Team.path? at h ⊢
  unfold Team.updPath
  generalize t.paths = l at h
  induction l with
  | nil => simp at h
  | cons p ps ih =>
    simp only [List.find?_cons, List.map_cons] at h ⊢
    by_cases hp : p.creation = c
    · simp only [hp, beq_self_eq_true, Option.some.injEq] at h
      subst h
      simp [hp, hf]
    · have hb : (p.creation == c) = false := by simpa using hp
      simp only [hp, if_false, hb] at h ⊢
      exact ih h

/-- A path of another creation number stays. -/
theorem mem_updPath_other {t : Team} {c : Word} {e : Path} (f : Path → Path) (h : e ∈ t.paths) (hc : e.creation ≠ c) :
    e ∈ (t.updPath c f).paths := by
  unfold Team.updPath
  simp only [List.mem_map]
  exact ⟨e, h, by simp [hc]⟩

end Sys2Proof.Machine
end

