-- ==== Sys2Proof/Tests/Slice0.lean ====
section
/-! SUPPORT. Tests. Words of the spec decode to the instructions they stand for; ill-formed terms are refused, one for
each check; one step on small states; and, for every statement with hypotheses, a state and operands that meet all of
them. Expected values come from the spec's examples and rules, or are worked by hand from them. -/

namespace Sys2Proof.Tests

open Sys2Proof Machine Claims

set_option maxRecDepth 100000
set_option Elab.async false

/-! ### Writing instructions down -/

def md (td ts : BitVec 5) (fx : BitVec 3) (c : BitVec 7) : Option Mod :=
  some { pmk := 0, pe := false, pn := false, td := td, ts := ts, rmode := 0, sat := false, scope := 0, fx := fx, c := c }
def rrr (d a b : BitVec 7) (m : Option Mod := none) (lit : Option Word := none) : RRR :=
  { d := d, a := a, b := b, w := false, lit := lit, m := m }
def rrs (d a s : BitVec 7) (m : Option Mod := none) : RRS := { d := d, a := a, s := s, w := false, lit := none, m := m }
def ri (d : BitVec 7) (imm : BitVec 14) (m : Option Mod := none) (lit : Option Word := none) : RI :=
  { d := d, imm := imm, w := false, lit := lit, m := m }
def mw (d a : BitVec 7) (win : BitVec 3) (m : Option Mod := none) : MW :=
  { d := d, a := a, win := win, imm := 0, w := false, lit := none, m := m }
def fz (m : Option Mod := none) : FZ := { rsv := 0, lit := none, m := m }
def bo (off : BitVec 21) : BO := { off := off, rsv := false, lit := none, m := none }
def bc (a : BitVec 7) (c3 : BitVec 3) (off : BitVec 11) (m : Option Mod := none) : BC :=
  { a := a, c3 := c3, off := off, rsv := false, lit := none, m := m }

/-! ### Meeting the hypotheses -/

/-- The state in which the placed team executes one instruction. -/
def run (i : Instr) : State := State.reset.place (encode i)

/-- The same with the team changed. -/
def lab (f : Team → Team) (i : Instr) : State := (run i).updTeam placedParty f

/-- The same in the supervisor handler. -/
def inHandler (i : Instr) : State := lab (fun t => { t with handler := true }) i

/-- Scalar registers of the placed team. -/
def withS (rs : List (Nat × Word)) (t : Team) : Team := { t with th := { t.th with s := rs } }

/-- An instruction goes on to its effect outside a pair, where it completes and traps as any other. -/
def GoesAlone (i : Instr) (oc : Exe → State → Option Cause) (s : State) (x : Exe) (u : State) : Prop :=
  GoesMeet i oc s x u (advance x) (takeTrap x.p x.cl.path)

/-- Whether an instruction goes on to its effect, outside a pair, and `f` holds of what it sees. -/
def goesB (oc : Exe → State → Option Cause) (s : State) (i : Instr) (f : Exe → State → Bool := fun _ _ => true) : Bool :=
  match s.issuer? i with
  | none => false
  | some x0 => !x0.paired s && match prepare i oc x0 s with
    | .go x s1 => f x (setResult x .none s1)
    | _ => false

theorem goes_of {i : Instr} {oc s f} (h : goesB oc s i f = true) :
    ∃ x u, Goes i oc s x u ∧ GoesAlone i oc s x u ∧ f x u = true := by
  unfold goesB at h
  split at h
  · simp at h
  · rename_i x0 hx
    simp only [Bool.and_eq_true, Bool.not_eq_true'] at h
    obtain ⟨hp, h⟩ := h
    split at h
    · rename_i x s1 hg
      exact ⟨x, _, ⟨x0, s1, hx, hg, rfl⟩, ⟨x0, s1, hx, hg, rfl, .inl ⟨hp, rfl, rfl⟩⟩, h⟩
    · simp at h

/-- The same for a decidable condition. -/
theorem goes_with {i : Instr} {oc s} {P : Exe → State → Prop} [d : ∀ x u, Decidable (P x u)]
    (h : goesB oc s i (fun x u => decide (P x u)) = true) :
    ∃ x u, Goes i oc s x u ∧ GoesAlone i oc s x u ∧ P x u := by
  obtain ⟨x, u, h1, h2, h3⟩ := goes_of h
  exact ⟨x, u, h1, h2, of_decide_eq_true h3⟩

/-- Every instruction of a list goes on to its effect in the states given. -/
def AllGo (oc : Exe → State → Option Cause) (s : Instr → State) (is : List Instr) : Prop :=
  ∀ i ∈ is, ∃ x u, Goes i oc (s i) x u ∧ GoesAlone i oc (s i) x u

theorem allGo_of {oc : Exe → State → Option Cause} {s : Instr → State} {is : List Instr}
    (h : (is.all fun i => goesB oc (s i) i) = true) : AllGo oc s is := by
  intro i hi
  obtain ⟨x, u, h1, h2, -⟩ := goes_of (List.all_eq_true.mp h i hi)
  exact ⟨x, u, h1, h2⟩

/-- The placed team is the leading copy of a pair, and holds at a meeting point when `m` says so (R176). -/
def inPair (base : Instr → State) (m : Option Nat) (i : Instr) : State :=
  let s := ((base i).updTeam placedParty fun t => { t with role := .leading }).updClause placedParty fun c =>
    { c with meet := m.map fun k => (k, []) }
  let t := (s.team? placedParty).getD {}
  { s with pairs := [(pairKey 1 0, { trail := { t with role := .trailing }, core := 1, leadCp := t, trailCp := t })] }

/-- Whether the leading copy of a pair passes the checks of a meeting point. -/
def meetB (oc : Exe → State → Option Cause) (s : State) (i : Instr) : Bool :=
  match s.issuer? i with
  | none => false
  | some x0 => x0.paired s && x0.p.kind == .team && match prepare i oc x0 s with
    | .go _ _ => true
    | _ => false

/-- Each of a list of meeting points is reached by the leading copy of a pair, and each goes on once it is released. -/
def AllMeet (oc : Exe → State → Option Cause) (base : Instr → State) (is : List Instr) : Prop :=
  ∀ i ∈ is, (∃ x u fin stop, GoesMeet i oc (inPair base (some 1) i) x u fin stop ∧ stop = trapBoth x) ∧
    ∃ x0 x s1, (inPair base none i).issuer? i = some x0 ∧ x0.paired (inPair base none i) = true ∧ ¬Claims.released x0 ∧
      prepare i oc x0 (inPair base none i) = .go x s1

theorem allMeet_of {oc base is}
    (h : (is.all fun i => meetB oc (inPair base (some 1) i) i && meetB oc (inPair base none i) i &&
      (((inPair base (some 1) i).issuer? i).any fun x => x.cl.meet.any fun m => m.1 == 1) &&
      (((inPair base none i).issuer? i).any fun x => !(x.cl.meet.any fun m => m.1 == 1))) = true) :
    AllMeet oc base is := by
  intro i hi
  have h := List.all_eq_true.mp h i hi
  simp only [Bool.and_eq_true] at h
  obtain ⟨⟨⟨h1, h2⟩, h3⟩, h4⟩ := h
  constructor
  · unfold meetB at h1
    split at h1
    · simp at h1
    · rename_i x0 hx
      simp only [Bool.and_eq_true, beq_iff_eq] at h1
      obtain ⟨⟨hp, hk⟩, h1⟩ := h1
      split at h1
      · rename_i x s1 hg
        rw [hx] at h3
        exact ⟨x, _, _, _, ⟨x0, s1, hx, hg, rfl, .inr ⟨hp, ⟨hk, by simpa using h3⟩, rfl, rfl⟩⟩, rfl⟩
      · simp at h1
  · unfold meetB at h2
    split at h2
    · simp at h2
    · rename_i x0 hx
      simp only [Bool.and_eq_true, beq_iff_eq] at h2
      obtain ⟨⟨hp, hk⟩, h2⟩ := h2
      split at h2
      · rename_i x s1 hg
        rw [hx] at h4
        refine ⟨x0, x, s1, hx, hp, fun hr => ?_, hg⟩
        have h5 := hr.2
        simp only [Option.any_some, Bool.not_eq_true'] at h4
        rw [h4] at h5
        simp at h5
      · simp at h2

end Sys2Proof.Tests

/-! ### Instructions that go on to their effect -/

namespace Sys2Proof.Tests

open Sys2Proof Machine Claims

set_option maxRecDepth 100000
set_option Elab.async false

theorem witness_VectorIntegerResults : AllGo noCheck run [
   .vadd (rrr 2 4 6), .vsub (rrr 2 4 6), .vmul (rrr 2 4 6), .vmulh (rrr 2 4 6), .vmad (rrr 2 4 6), .vand (rrr 2 4 6),
   .vor (rrr 2 4 6), .vxor (rrr 2 4 6), .vnot (rrr 2 4 0), .vshl (rrr 2 4 6), .vshr (rrr 2 4 6), .vsar (rrr 2 4 6),
   .vmin (rrr 2 4 6), .vmax (rrr 2 4 6), .vabs (rrr 2 4 0), .vsel (rrr 2 4 6), .vclz (rrr 2 4 0), .vpopc (rrr 2 4 0),
   .vbfe (rrr 2 4 6), .vbfi (rrr 2 4 6)] := allGo_of (by decide +kernel)

theorem witness_ScalarResults : AllGo noCheck run [
   .smov (rrr 2 4 0), .smovi (ri 0 2), .sadd64 (rrr 2 4 6), .sadd (rrr 2 4 6), .ssub (rrr 2 4 6), .smul (rrr 2 4 6),
   .smulh (rrr 2 4 6), .smad (rrr 2 4 6), .sdiv (rrr 2 4 6), .srem (rrr 2 4 6), .sand (rrr 2 4 6), .sor (rrr 2 4 6),
   .sxor (rrr 2 4 6), .sshl (rrr 2 4 6), .sshr (rrr 2 4 6), .ssar (rrr 2 4 6), .smin (rrr 2 4 6), .smax (rrr 2 4 6),
   .scmp (rrr 2 4 6), .ssel (rrr 2 4 6), .sclz (rrr 2 4 0), .spopc (rrr 2 4 0), .sbfe (rrr 2 4 6), .sbfi (rrr 2 4 6)] := allGo_of (by decide +kernel)

theorem witness_ControlTransfers : AllGo noCheck run [
   .bra (bo 4), .brc (bc 4 0 4), .join (fz), .call (bo 4), .ret (fz), .jmpi (rrr 0 4 0), .loop (bc 4 0 4)] := allGo_of (by decide +kernel)

theorem witness_ClauseEndEffects : AllGo noCheck run [
   .exit (fz), .yield (fz), .nop (fz), .halt (fz), .sleep (ri 0 2)] := allGo_of (by decide +kernel)

theorem witness_MaskInstructions : AllGo noCheck run [
   .mset (rrs 2 4 3), .mand (rrr 2 4 6), .mor (rrr 2 4 6), .mxor (rrr 2 4 6), .mnot (rrr 2 4 0), .mmov (rrr 2 4 0),
   .mpop (rrr 2 4 0), .mfind (rrr 2 4 6), .many (rrr 2 4 0), .mall (rrr 2 4 0)] := allGo_of (by decide +kernel)

theorem witness_FloatResults : AllGo noCheck run [
   .fadd (rrr 2 4 6), .fsub (rrr 2 4 6), .fmul (rrr 2 4 6), .fma (rrr 2 4 6), .fnma (rrr 2 4 6), .fmin (rrr 2 4 6),
   .fmax (rrr 2 4 6), .fneg (rrr 2 4 0), .fabs (rrr 2 4 0), .frcp (rrr 2 4 0), .frsq (rrr 2 4 0), .fsqrt (rrr 2 4 0),
   .fexp2 (rrr 2 4 0), .flog2 (rrr 2 4 0), .fsin (rrr 2 4 0), .fcos (rrr 2 4 0), .ftanh (rrr 2 4 0)] := allGo_of (by decide +kernel)

theorem witness_ComparesAndTests : AllGo noCheck run [
   .vcmp (rrr 2 4 6), .vperm (rrr 2 4 6), .vdot4 (rrr 2 4 6), .fcmp (rrr 2 4 6), .fclass (rrr 2 4 0),
   .fscale (rrr 2 4 6)] := allGo_of (by decide +kernel)

theorem witness_Conversions : AllGo noCheck run [
   .cvtn (rrr 2 4 6 (md 1 5 0 0)), .cvtw (rrr 2 4 0 (md 5 12 0 0)), .dqnt (rrr 2 4 6 (md 10 1 1 0))] := allGo_of (by decide +kernel)

theorem witness_LaneExchange : AllGo noCheck run [
   .shflu (rrr 2 4 6), .shfld (rrr 2 4 6), .shflx (rrr 2 4 6), .shfl (rrr 2 4 6), .vote (rrs 2 4 0),
   .ballot (rrs 2 4 0), .compact (rrr 2 4 0), .vred (rrr 2 4 0), .vscan (rrr 2 4 0), .tred (rrr 2 4 0)] := allGo_of (by decide +kernel)

theorem witness_DirectionResults : AllGo noCheck run [
   .dcvt (rrr 2 4 6), .dneg (rrr 2 4 0), .dmov (rrr 2 4 0), .dzero (rrr 2 0 0), .dadd (rrr 2 4 6), .dsub (rrr 2 4 6),
   .ddot (rrr 2 4 6), .ddotf (rrr 2 4 6), .dscal (rrr 2 4 6), .dexp (rrr 2 4 0), .dnrd (rrr 2 4 0), .dnwr (rrr 2 4 0)] := allGo_of (by decide +kernel)

theorem witness_SelectionResults : AllGo noCheck run [
   .ssect (rrr 2 4 6), .pksi (rrr 2 4 6), .unpksi (rrr 2 4 0), .gwnorm (rrr 2 4 6), .smxfin (rrr 2 4 0),
   .vtopk (rrr 2 4 6)] := allGo_of (by decide +kernel)

theorem witness_WindowAndCacheResults : AllGo noCheck run [
   .wmap (rrr 2 4 0), .winv (rrs 2 0 0), .cwb (rrr 0 4 6), .cinv (rrr 0 4 6), .ipref (rrr 0 4 6), .ipin (rrr 2 4 6),
   .iunpin (rrr 0 4 6)] := allGo_of (by decide +kernel)

theorem witness_OrderingFences : AllGo noCheck run [
   .fence (fz), .fencePt (fz)] := allGo_of (by decide +kernel)

theorem witness_SystemResults : AllGo noCheck run [
   .trap (rrs 0 0 0), .snap (fz), .tbrd (rrr 2 4 0 (md 0 0 1 0)), .tsend (fz)] := allGo_of (by decide +kernel)

theorem witness_SystemHandler : AllGo noCheck inHandler [
   .tret (fz), .bpset (rrr 2 4 6), .step (rrs 0 0 0)] := allGo_of (by decide +kernel)

theorem witness_EngineQueries : AllGo noCheck run [
   .chstop (fz), .qstat (rrs 2 4 0), .cstat (rrs 2 0 0)] := allGo_of (by decide +kernel)

end Sys2Proof.Tests

/-! ### Conditions beside going on -/

namespace Sys2Proof.Tests

open Sys2Proof Machine Claims

set_option maxRecDepth 100000
set_option Elab.async false

/-- An integer instruction has a result on all operands. -/
theorem integerResult_isSome (i : Instr) (p : Parts) (a b c : Word)
    (h : isVectorInteger i = true ∨ isScalarInteger i = true) : (integerResult p a b c i).isSome = true := by
  cases i <;> simp_all [isVectorInteger, isScalarInteger, integerResult]

theorem witness_DivideAndRemainder : AllGo noCheck run [.sdiv (rrr 2 4 6), .srem (rrr 2 4 6)] ∧
    (∃ a b : Word, a ≠ 0 ∧ b ≠ 0) ∧ ∃ p : Parts, p.td ≠ 6 :=
  ⟨allGo_of (by decide +kernel), ⟨1, 2, by decide⟩, ⟨{}, by decide⟩⟩

theorem witness_BranchMask : AllGo (fun x _ => if joinOffset x = 0 then some .general else none) run
    [.brm (bc 0 4 8), .brm (bc 127 7 8)] := allGo_of (by decide +kernel)

/-- A team with one path and one record of its join. -/
def twoSides (pending : Nat) : Team :=
  { paths := [{ pc := 0, mask := 1, join := some 5 }], joins := [{ id := 5, j := 64, pending := pending, mask := 3, outer := none }] }

theorem witness_SplitAndJoin :
    (let t : Team := { paths := [{ pc := 0, mask := 3 }] }
     t.path? 0 = some { pc := 0, mask := 3 } ∧ t.tablePaths.length < 8 ∧ (t.joins.filter fun r => !r.folded).length < 8 ∧
       t.joins.length < 2048) ∧
    (∀ n ∈ [1, 2], (twoSides n).path? 0 = some { pc := 0, mask := 1, join := some 5 } ∧
      ((twoSides n).joins.find? fun k => k.id == 5) = some { id := 5, j := 64, pending := n, mask := 3, outer := none }) ∧
    (64 : DWord) ≠ 0 := by decide +kernel

theorem witness_Sleep : AllGo noCheck run
    [.sleep (ri 0 0), .sleep (ri 0 1), .sleep (ri 4 0 (md 0 0 1 0)), .exit (fz)] := allGo_of (by decide +kernel)

theorem witness_Part : AllGo (fun x _ => if x.immInt ∈ [2, 4, 8, 16, 32] then none else some .partValue) run
    [.part (ri 0 2), .part (ri 0 32)] := allGo_of (by decide +kernel)
theorem witness_SetIx : AllGo (fun x _ => if x.parts.d = 0 ∨ x.parts.d = 1 then none else some .general) run
    [.setix (ri 0 2), .setix (ri 1 2 (md 0 0 1 0))] := allGo_of (by decide +kernel)
theorem witness_ReadSpecial :
    (∀ s ∈ [0x03, 0x19], ∃ x u, Goes (.srd (rrs 2 0 s)) noCheck (run (.srd (rrs 2 0 s))) x u ∧
      GoesAlone (.srd (rrs 2 0 s)) noCheck (run (.srd (rrs 2 0 s))) x u ∧ x.parts.s ∈ (uniformRegs x).map (·.1)) ∧
    (∀ s ∈ [0x20, 0x38], ∃ x u, Goes (.srd (rrs 2 0 s)) noCheck (inHandler (.srd (rrs 2 0 s))) x u ∧
      GoesAlone (.srd (rrs 2 0 s)) noCheck (inHandler (.srd (rrs 2 0 s))) x u ∧
      x.parts.s ∈ (supervisorRegs x).map (·.1)) ∧
    AllGo noCheck run [.srd (rrs 2 0 0x14), .srd (rrs 2 0 0x00), .srd (rrs 2 0 0x02)] ∧
    AllGo noCheck inHandler [.srd (rrs 2 0 0x39), .srd (rrs 2 0 0x23), .srd (rrs 2 0 0x3A)] := by
  refine ⟨fun s h => goes_with ?_, fun s h => goes_with ?_, allGo_of (by decide +kernel), allGo_of (by decide +kernel)⟩ <;> revert s <;> decide
theorem witness_WriteSpecial : AllGo swrCheck run [.swr (rrs 0 4 0x12), .swr (rrs 0 4 0x13)] ∧
    AllGo swrCheck (lab (withS [(4, 32)])) [.swr (rrs 0 4 0x10)] ∧
    AllGo swrCheck inHandler [.swr (rrs 0 4 0x20), .swr (rrs 0 4 0x28), .swr (rrs 0 4 0x38)] :=
  ⟨allGo_of (by decide +kernel), allGo_of (by decide +kernel), allGo_of (by decide +kernel)⟩
theorem witness_MaskAndSpecialRegisters : AllGo mexecCheck (lab fun t => { t with m := [(4, Mask.upTo 2)] })
    [.mexec (rrr 0 4 0), .mexec (rrr 0 4 0 (md 0 0 1 0)), .mexec (rrr 0 4 0 (md 0 0 2 0))] ∧
    AllGo noCheck run [.mset (rrs 2 0 0), .mset (rrs 2 0 5), .mpop (rrr 2 4 0 (md 0 0 1 0))] :=
  ⟨allGo_of (by decide +kernel), allGo_of (by decide +kernel)⟩

theorem witness_Convert : AllGo (fun x u => if x.parts.md.rmode = 4 then counterApart x u else none) run
      [.cvt (rrr 2 4 0 (md 1 5 0 0)), .cvt (rrr 2 4 6 ((md 5 10 0 8).map fun m => { m with rmode := 4 }))] ∧
    AllGo counterApart run [.qnt (rrr 2 4 0 (md 1 10 2 8)), .vrand (rrr 2 4 0 (md 0 0 0 8)), .vrand (rrr 2 4 0 (md 0 0 1 8))] :=
  ⟨allGo_of (by decide +kernel), allGo_of (by decide +kernel)⟩

theorem witness_FloatRoundTrip : ∀ f ∈ [f64, f32, f16, bf16, e4m3, e5m2, e2m1],
    0 < 2 ^ f.width ∧ (f.decode 0).finite = true := by decide +kernel
theorem witness_RoundingAndSpecials : 12 % 2 ^ 2 = 0 ∧ 2 * (6 % 2 ^ 2) = 2 ^ 2 ∧ (1 ≠ 0 ∧ 1 < 2048) := by decide +kernel
theorem witness_ConversionValues :
    (∀ f ∈ [f16, bf16, e4m3, e5m2, e2m1], 1 < 2 ^ f.width ∧ (f.decode 1).finite = true) ∧
    (let p : Parts := { m := md 1 10 1 0 }
     p.ts ∈ [5, 6, 10] ∧ typeWidth p.td * 2 * (p.fx + 1) ≤ 32 ∧ (0 < 2 * typeWidth p.td * p.fx) ∧
       2 * typeWidth p.td * p.fx ≤ 31) := by decide +kernel

theorem witness_CrossLaneResults :
    (∀ fx ∈ [0, 1], ∃ x u, Goes (.shfl (rrr 2 4 6 (md 0 0 fx 0))) noCheck (run (.shfl (rrr 2 4 6 (md 0 0 fx 0)))) x u ∧
      GoesAlone (.shfl (rrr 2 4 6 (md 0 0 fx 0))) noCheck (run (.shfl (rrr 2 4 6 (md 0 0 fx 0)))) x u ∧
      ∀ l ∈ x.lanes, (x.vB l).toNat < x.team.part) ∧
    AllGo (fun x _ => if x.known x.parts.b = true ∧ 32 * x.launch.strands ≤ x.sB.toNat then some .general else none) run
      [.bcast (rrr 2 4 6)] ∧
    ∃ x u, Goes (.vred (rrr 2 4 0)) noCheck (run (.vred (rrr 2 4 0))) x u ∧ GoesAlone (.vred (rrr 2 4 0)) noCheck (run (.vred (rrr 2 4 0))) x u ∧
      x.parts.td ≠ 10 ∧ x.team.part ∈ [2, 4, 8, 16, 32] ∧ 31 < 32 * x.launch.strands := by
  refine ⟨fun fx h => goes_with ?_, allGo_of (by decide +kernel), goes_with (by decide +kernel)⟩
  revert fx; decide

/-- Lane 0's index is the width of its tile. -/
theorem witness_CrossLaneResults_check : ∃ x u, Goes (.shfl (rrr 2 4 6 (md 0 0 1 0))) noCheck
    (lab (fun t => t.writeLanes 6 [(0, 32)]) (.shfl (rrr 2 4 6 (md 0 0 1 0)))) x u ∧ x.parts.fx = 1 ∧
    ∃ l ∈ x.lanes, x.team.part ≤ (x.vB l).toNat := by
  obtain ⟨x, u, hg, -, h⟩ := goes_with (i := .shfl (rrr 2 4 6 (md 0 0 1 0))) (oc := noCheck)
    (s := lab (fun t => t.writeLanes 6 [(0, 32)]) (.shfl (rrr 2 4 6 (md 0 0 1 0))))
    (P := fun x _ => x.parts.fx = 1 ∧ ∃ l ∈ x.lanes, x.team.part ≤ (x.vB l).toNat) (by decide +kernel)
  exact ⟨x, u, hg, h⟩

theorem witness_ScaleDirection : AllGo noCheck run [.dscal (rrr 2 4 6), .dscal (rrr 2 4 6 (md 0 0 1 0))] :=
  allGo_of (by decide +kernel)
theorem witness_MixAndSpan : AllGo modRequired run [.dmix (rrr 2 4 6 (md 0 0 0 8))] ∧
    AllGo spanCheck run [.dspan (ri 0 1)] :=
  ⟨allGo_of (by decide +kernel), allGo_of (by decide +kernel)⟩
theorem witness_DirectionInvariant : Settled { norm := 594, comps := [9830, 13107] } ∧
    ({ norm := 0x8001, comps := [0, 0] } : Dir).norm = 0x8001 ∧ ({ norm := 0x7FFF, comps := [16384, 0] } : Dir).norm ≠ 0x8001 := by
  unfold Settled; decide

/-- The placed crew with winner list 2 allocated. -/
def withList (i : Instr) : State := (run i).updCrew 1 fun c => { c with wls := [(2, [])] }

theorem witness_WinnerListResults :
    AllGo (fun x u => x.listCheck u x.parts.d false) run [.wlalloc (rrs 2 0 0)] ∧
    AllGo (fun x u => x.listCheck u x.parts.d true) withList [.wlfree (rrs 2 0 0), .wlclr (rrs 2 0 0)] ∧
    AllGo insCheck (fun i => (withList i).updTeam placedParty (withS [(8, 4)])) [.wlins (rrr 2 4 6 (md 0 0 0 8))] ∧
    AllGo (fun x u => x.listCheck u x.parts.a true) withList [.wlrd (rrr 4 2 6)] :=
  ⟨allGo_of (by decide +kernel), allGo_of (by decide +kernel), allGo_of (by decide +kernel), allGo_of (by decide +kernel)⟩
theorem witness_SelectionAccumulate : AllGo modRequired run [.smxacc (rrr 2 4 0 (md 0 0 0 8))] := allGo_of (by decide +kernel)
theorem witness_RowAndPairOrder : Ranked { entries := [], nan := false, k := 4 } ∧ wnan 0x7FC00000 = true ∧
    wcmp 0x3F800000 0x40000000 = some .lt ∧ wnan 0x3F800000 = false := by
  refine ⟨⟨by decide, by decide, by simp⟩, ?_, ?_, ?_⟩ <;> decide +kernel

end Sys2Proof.Tests

/-! ### Memory accesses that reach -/

namespace Sys2Proof.Tests

open Sys2Proof Machine Claims

set_option maxRecDepth 100000
set_option Elab.async false

/-- A region with every right over every page. -/
def anyRegion : BitVec 128 := BitVec.ofNat 128 (0xFFFFFFFF * 2 ^ 64 + 0x9F)
/-- A leaf at address 2^41, in tier 2, that every access may use, in a format; KV pages have P set. -/
def anyLeaf (fmt : Nat) : BitVec 128 :=
  BitVec.ofNat 128 (2 * 2 ^ 104 + 0x2000000 * 2 ^ 68 + fmt * 2 ^ 58 + (if fmt = 2 then 0x40 else 0) + 0x1AF)

/-- One lane, with registers; page 0 mapped as RAW, page 1 as KV map; window 0 valid over page 0. -/
def mapped (f : Team → Team) (i : Instr) : State :=
  let s := lab (fun t => f { t with
    paths := [{ pc := 0x10000, mask := 1 }],
    win := [(0, { tier := 2, frame := 0x2000000, limit := 1, at' := true, w := true, rd := true, state := .valid })] }) i
  ({ s with contexts := s.contexts.put 1 { regions := [(0, anyRegion)] } }).updCore 0 fun k => { k with tlb := [
    { ctx := 1, page := 0, large := false, leaf := anyLeaf 0, leafAt := 0x20000010000, dirty := true },
    { ctx := 1, page := 1, large := false, leaf := anyLeaf 2, leafAt := 0x20000010010, dirty := true }] }

def reachesB (x : Exe) (as : List LaneAddr) : Bool := as.all fun a => match a.res with
  | .ok y => match x.element a y with | .ok _ => true | .error _ => false
  | _ => false

theorem reaches_of {x as} (h : reachesB x as = true) : Reaches x as := by
  intro a ha
  have := List.all_eq_true.mp h a ha
  split at this
  · rename_i y hy
    split at this
    · rename_i e he; exact ⟨y, e, hy, he⟩
    · simp at this
  · simp at this

def unpoisonedB (x : Exe) (u : State) (as : List LaneAddr) : Bool := as.all fun a => match elemOf? x a with
  | none => true
  | some e => (e.bytes (x.loadAddr e.phys)).all fun b => !x.loadPoison
      (u.commitFills x.agent ((as.filterMap (elemOf? x)).map (·.phys))) (bypasses false e.phys) b

theorem unpoisoned_of {x u as} (h : unpoisonedB x u as = true) : Unpoisoned x u as := by
  intro a ha e he b hb
  have := List.all_eq_true.mp h a ha
  rw [he] at this
  simpa using List.all_eq_true.mp this b hb

/-- Everything that the statements on stores and loads ask, at once. -/
def accessB (kind : Nat) (k : Access) (as : Exe → State → List LaneAddr) (x : Exe) (u : State) : Bool :=
  reachesB x (as x u) && (x.watch u kind (moved x) ((as x u).map fun a => (a.lane, a.addr))).isNone &&
    (if k = .store then (partialLanes ((as x u).filterMap (elemOf? x))).isEmpty else unpoisonedB x u (as x u)) &&
    (as x u).length == 1

/-- The hypotheses of the statements on stores and loads, met together by some access. -/
def Accessible (i : Instr) (oc : Exe → State → Option Cause) (s : State) (kind : Nat) (k : Access)
    (as : Exe → State → List LaneAddr) : Prop :=
  ∃ x u, Goes i oc s x u ∧ Reaches x (as x u) ∧ Unwatched x u kind (moved x) (as x u) ∧ as x u ≠ [] ∧
    (k = .store → partialLanes ((as x u).filterMap (elemOf? x)) = []) ∧ (k ≠ .store → Unpoisoned x u (as x u))

theorem access_of {i oc s kind k as} (h : goesB oc s i (accessB kind k as) = true) : Accessible i oc s kind k as := by
  obtain ⟨x, u, hg, -, h⟩ := goes_of h
  simp only [accessB, Bool.and_eq_true, Option.isNone_iff_eq_none, beq_iff_eq] at h
  obtain ⟨⟨⟨h1, h2⟩, h3⟩, h4⟩ := h
  refine ⟨x, u, hg, reaches_of h1, h2, ?_, fun hk => ?_, fun hk => ?_⟩
  · intro hn; rw [hn] at h4; simp at h4
  · simpa [hk] using h3
  · exact unpoisoned_of (by simpa [hk] using h3)

theorem witness_StoresComplete :
    Accessible (.st (mw 2 4 0)) windowCheck (mapped id (.st (mw 2 4 0))) 8 .store (fun x u => x.mwAccess u .store) ∧
    Accessible (.stg (rrr 2 4 6)) noCheck (mapped id (.stg (rrr 2 4 6))) 8 .store (fun x u => x.ptrAccess u .store) ∧
    Accessible (.stp (rrr 2 4 6)) noCheck (mapped id (.stp (rrr 2 4 6))) 8 .store planeOf :=
  ⟨access_of (by decide +kernel), access_of (by decide +kernel), access_of (by decide +kernel)⟩

theorem witness_LoadsComplete :
    Accessible (.ld (mw 2 4 0)) windowCheck (mapped id (.ld (mw 2 4 0))) 7 .load (fun x u => x.mwAccess u .load) ∧
    Accessible (.ldg (rrr 2 4 6)) noCheck (mapped id (.ldg (rrr 2 4 6))) 7 .load (fun x u => x.ptrAccess u .load) ∧
    (∃ x u, Goes (.ldp (rrr 2 4 6)) noCheck (mapped id (.ldp (rrr 2 4 6))) x u ∧ x.parts.fx = 0 ∧ x.pair? u = none ∧
      Reaches x (planeOf x u) ∧ Unpoisoned x u (planeOf x u)) ∧
    ∃ x u, Goes (.ldp (rrr 4 4 6 (md 0 0 2 0))) noCheck (mapped id (.ldp (rrr 4 4 6 (md 0 0 2 0)))) x u ∧ x.parts.fx = 2 ∧
      Reaches x (planeOf x u) ∧ Unpoisoned x u (planeOf x u) := by
  refine ⟨access_of (by decide +kernel), access_of (by decide +kernel), ?_, ?_⟩
  · obtain ⟨x, u, hg, -, h⟩ := goes_of (i := .ldp (rrr 2 4 6)) (oc := noCheck) (s := mapped id (.ldp (rrr 2 4 6)))
      (f := fun x u => x.parts.fx == 0 && (x.pair? u).isNone && reachesB x (planeOf x u) && unpoisonedB x u (planeOf x u))
      (by decide +kernel)
    simp only [Bool.and_eq_true, beq_iff_eq, Option.isNone_iff_eq_none] at h
    exact ⟨x, u, hg, h.1.1.1, h.1.1.2, reaches_of h.1.2, unpoisoned_of h.2⟩
  · obtain ⟨x, u, hg, -, h⟩ := goes_of (i := .ldp (rrr 4 4 6 (md 0 0 2 0))) (oc := noCheck)
      (s := mapped id (.ldp (rrr 4 4 6 (md 0 0 2 0))))
      (f := fun x u => x.parts.fx == 2 && reachesB x (planeOf x u) && unpoisonedB x u (planeOf x u)) (by decide +kernel)
    simp only [Bool.and_eq_true, beq_iff_eq] at h
    exact ⟨x, u, hg, h.1.1, reaches_of h.1.2, unpoisoned_of h.2⟩

/-- What the statement on atomics asks. -/
def atomB (n : Exe → Nat) (arg : Exe → Nat → AluOp × Nat) (as : Exe → State → List LaneAddr) (x : Exe) (u : State) : Bool :=
  (as x u).all (fun a => match a.res with | .ok y => (atomCheck (arg x a.lane).1 (n x) y).isNone | _ => false) &&
  (okLanes (as x u)).all (fun p => (List.range (n x / 8)).all fun k => !(atomStart x (as x u) u).poisoned (p.2.addr + k)) &&
  ((okLanes (as x u)).length == 1 && !x.signalsFull u (farAtoms (as x u) u)) &&
  (x.watch u 9 (n x / 8) ((as x u).map fun a => (a.lane, a.addr))).isNone

/-- The hypotheses of the statement on atomics, met together. -/
def Atomable (i : Instr) (oc : Exe → State → Option Cause) (s : State) (n : Exe → Nat) (arg : Exe → Nat → AluOp × Nat)
    (as : Exe → State → List LaneAddr) : Prop :=
  ∃ x u, GoesAlone i oc s x u ∧ AtomsReach (n x) (arg x) (as x u) ∧ Unwatched x u 9 (n x / 8) (as x u) ∧
    (∀ p ∈ okLanes (as x u), ∀ k < n x / 8, (atomStart x (as x u) u).poisoned (p.2.addr + k) = false) ∧
    (okLanes (as x u)).length = 1 ∧ x.signalsFull u (farAtoms (as x u) u) = false

theorem atom_of {i oc s n arg as} (h : goesB oc s i (atomB n arg as) = true) : Atomable i oc s n arg as := by
  obtain ⟨x, u, -, hg, h⟩ := goes_of h
  simp only [atomB, Bool.and_eq_true, Option.isNone_iff_eq_none, beq_iff_eq, List.all_eq_true, List.mem_range,
    Bool.not_eq_true'] at h
  obtain ⟨⟨⟨h1, h2⟩, h3⟩, h4⟩ := h
  refine ⟨x, u, hg, fun a ha => ?_, h4, fun p hp k hk => h2 p hp k hk, h3⟩
  have := h1 a ha
  split at this
  · rename_i y hy; exact ⟨y, hy, by simpa using this⟩
  · simp at this

theorem witness_AtomicsComplete :
    Atomable (.atom (mw 2 4 0)) windowCheck (mapped id (.atom (mw 2 4 0))) (·.parts.atomBits) (fun x => x.atomArg x.parts.fx)
      (fun x u => x.mwAccess u .atomic) ∧
    Atomable (.cas (mw 2 4 0)) windowCheck (mapped id (.cas (mw 2 4 0))) (·.parts.atomBits)
      (fun x => x.casArg (x.parts.atomBits / 32)) (fun x u => x.mwAccess u .atomic) ∧
    Atomable (.cas128 (mw 4 8 0)) windowCheck (mapped id (.cas128 (mw 4 8 0))) (fun _ => 128) (fun x => x.casArg 4)
      (fun x u => x.mwAccess u .atomic) ∧
    Atomable (.ldp (rrr 2 4 6 (md 0 0 7 0))) noCheck (mapped id (.ldp (rrr 2 4 6 (md 0 0 7 0)))) (·.parts.atomBits)
      (fun x => x.casArg (x.parts.atomBits / 32)) planeOf ∧
    Atomable (.ldp (rrr 2 4 6 (md 0 0 1 0))) noCheck (mapped id (.ldp (rrr 2 4 6 (md 0 0 1 0)))) (·.parts.atomBits)
      (fun x => x.atomArg (ldpAtomOp x.parts.fx)) planeOf := by
  refine ⟨?_, ?_, ?_, ?_, ?_⟩ <;> exact atom_of (by decide +kernel)

/-- No lane of an access waits, one of them fails, and no watchpoint matches. -/
def faultB (kind : Nat) (n : Exe → Nat) (as : Exe → State → List LaneAddr)
    (check : Exe → State → LaneAddr → Phys → Option Cause) (x : Exe) (u : State) : Bool :=
  (as x u).any (fun a => (laneCause (check x u) a).isSome && decide (a.lane < 32 * x.launch.strands)) &&
  (as x u).all (fun a => match a.res with | .ok _ | .cause _ _ => true | _ => false) &&
  (x.watch u kind (n x) ((as x u).map fun a => (a.lane, a.addr))).isNone

def Faulting (i : Instr) (oc : Exe → State → Option Cause) (s : State) (kind : Nat) (n : Exe → Nat)
    (as : Exe → State → List LaneAddr) (check : Exe → State → LaneAddr → Phys → Option Cause) : Prop :=
  ∃ x u, Goes i oc s x u ∧ GoesAlone i oc s x u ∧
    (∃ a ∈ as x u, laneCause (check x u) a ≠ none ∧ a.lane < 32 * x.launch.strands) ∧
    Unwatched x u kind (n x) (as x u) ∧ NoneWaits (as x u)

theorem fault_of {i oc s kind n as check} (h : goesB oc s i (faultB kind n as check) = true) :
    Faulting i oc s kind n as check := by
  obtain ⟨x, u, hg, ha, h⟩ := goes_of h
  simp only [faultB, Bool.and_eq_true, Option.isNone_iff_eq_none, List.all_eq_true, List.any_eq_true,
    decide_eq_true_eq] at h
  obtain ⟨⟨⟨a, hm, h1, hl⟩, h2⟩, h3⟩ := h
  refine ⟨x, u, hg, ha, ⟨a, hm, ?_, hl⟩, h3, fun b hb => ?_⟩
  · intro hn; simp [hn] at h1
  · have := h2 b hb
    split at this
    · rename_i y hy; exact .inl ⟨y, hy⟩
    · rename_i c g hc; exact .inr ⟨c, g, hc⟩
    · simp at this

/-- Lane 0 at an offset or a pointer: page 5 is not mapped by a walk of empty memory, window 0 ends with page 0, and 1 is
no address of a word; s4 names a plane that is not there. -/
def laneAt (v : Word) (i : Instr) : State := mapped (fun t => withS [(4, 0x80000000)] (t.writeLanes 4 [(0, v)])) i

theorem witness_LaneFaultsTrap :
    (∀ v ∈ [0x50000, 1], Faulting (.ld (mw 2 4 0 (md 5 0 0 0))) windowCheck (laneAt v (.ld (mw 2 4 0 (md 5 0 0 0)))) 7 moved
      (fun x u => x.mwAccess u .load) (fun x _ => loadCheck x)) ∧
    (∀ v ∈ [0x50000, 1], Faulting (.ldg (rrr 2 4 6 (md 5 0 0 0))) noCheck (laneAt v (.ldg (rrr 2 4 6 (md 5 0 0 0)))) 7 moved
      (fun x u => x.ptrAccess u .load) (fun x _ => loadCheck x)) ∧
    (∀ v ∈ [0x50000, 1], Faulting (.st (mw 2 4 0 (md 5 0 0 0))) windowCheck (laneAt v (.st (mw 2 4 0 (md 5 0 0 0)))) 8 moved
      (fun x u => x.mwAccess u .store) (fun x u => storeCheck x (x.mwAccess u .store))) ∧
    (∀ v ∈ [0x50000, 1], Faulting (.stg (rrr 2 4 6 (md 5 0 0 0))) noCheck (laneAt v (.stg (rrr 2 4 6 (md 5 0 0 0)))) 8 moved
      (fun x u => x.ptrAccess u .store) (fun x u => storeCheck x (x.ptrAccess u .store))) ∧
    (∀ v ∈ [0x50000, 1], Faulting (.atom (mw 2 4 0)) windowCheck (laneAt v (.atom (mw 2 4 0))) 9
      (fun x => x.parts.atomBits / 8) (fun x u => x.mwAccess u .atomic)
      (fun x _ => wordCheck x.parts.atomBits (x.atomArg x.parts.fx))) := by
  refine ⟨?_, ?_, ?_, ?_, ?_⟩ <;> intro v h <;> simp only [List.mem_cons, List.not_mem_nil, or_false] at h <;>
    rcases h with rfl | rfl <;> exact fault_of (by decide +kernel)

theorem witness_LaneFaultsTrap_cas :
    Faulting (.cas (mw 2 4 0)) windowCheck (laneAt 1 (.cas (mw 2 4 0))) 9
      (fun x => x.parts.atomBits / 8) (fun x u => x.mwAccess u .atomic)
      (fun x _ => wordCheck x.parts.atomBits (x.casArg (x.parts.atomBits / 32))) ∧
    Faulting (.cas128 (mw 4 8 0)) windowCheck (mapped (fun t => t.writeLanes 8 [(0, 8)]) (.cas128 (mw 4 8 0))) 9
      (fun _ => 16) (fun x u => x.mwAccess u .atomic) (fun x _ => wordCheck 128 (x.casArg 4)) :=
  ⟨fault_of (by decide +kernel), fault_of (by decide +kernel)⟩

theorem witness_LaneFaultsTrap_plane :
    Faulting (.ldp (rrr 2 4 6)) noCheck (laneAt 0 (.ldp (rrr 2 4 6))) 7 moved planeOf (fun x _ => loadCheck x) ∧
    Faulting (.stp (rrr 2 4 6)) noCheck (laneAt 0 (.stp (rrr 2 4 6))) 8 moved planeOf
      (fun x u => storeCheck x (planeOf x u)) :=
  ⟨fault_of (by decide +kernel), fault_of (by decide +kernel)⟩

theorem witness_LaneFaultsTrap_planeAtomic :
    Faulting (.ldp (rrr 2 4 6 (md 0 0 7 0))) noCheck (laneAt 0 (.ldp (rrr 2 4 6 (md 0 0 7 0)))) 9 (fun _ => 4) planeOf
      (fun x _ => wordCheck x.parts.atomBits (x.casArg (x.parts.atomBits / 32))) ∧
    Faulting (.ldp (rrr 2 4 6 (md 0 0 1 0))) noCheck (laneAt 0 (.ldp (rrr 2 4 6 (md 0 0 1 0)))) 9 (fun _ => 4) planeOf
      (fun x _ => wordCheck x.parts.atomBits (x.atomArg (ldpAtomOp x.parts.fx))) :=
  ⟨fault_of (by decide +kernel), fault_of (by decide +kernel)⟩

/-- Page 0 in a format, in blocks of 32 where the format has blocks, with window 0 over it. -/
def formatted (fmt : Nat) (i : Instr) : State :=
  ((mapped (fun t => { t with win := t.win.map fun w => (w.1, { w.2 with fmt := BitVec.ofNat 6 fmt, geom := 2 }) }) i)).updCore 0
    fun k => { k with tlb := [
      { ctx := 1, page := 0, large := false, leaf := anyLeaf fmt ||| 2#128 <<< 64, leafAt := 0x20000010000, dirty := true }] }

/-- One lane stores one element of a block of 32: it leaves the block partly written. -/
theorem witness_StoresComplete_partial :
    (∃ x u, Goes (.st (mw 2 4 0)) windowCheck (formatted 0x17 (.st (mw 2 4 0))) x u ∧ Reaches x (x.mwAccess u .store) ∧
      Unwatched x u 8 (moved x) (x.mwAccess u .store) ∧
      ∃ f ∈ partialLanes (elemsOf x (x.mwAccess u .store)), f.lane < 32 * x.launch.strands) ∧
    ∃ x u, Goes (.stg (rrr 2 4 6)) noCheck (formatted 0x17 (.stg (rrr 2 4 6))) x u ∧ Reaches x (x.ptrAccess u .store) ∧
      Unwatched x u 8 (moved x) (x.ptrAccess u .store) ∧
      ∃ f ∈ partialLanes (elemsOf x (x.ptrAccess u .store)), f.lane < 32 * x.launch.strands := by
  constructor
  · obtain ⟨x, u, hg, -, h⟩ := goes_of (i := .st (mw 2 4 0)) (oc := windowCheck) (s := formatted 0x17 (.st (mw 2 4 0)))
      (f := fun x u => reachesB x (x.mwAccess u .store) &&
        (x.watch u 8 (moved x) ((x.mwAccess u .store).map fun a => (a.lane, a.addr))).isNone &&
        (partialLanes (elemsOf x (x.mwAccess u .store))).any fun f => decide (f.lane < 32 * x.launch.strands))
      (by decide +kernel)
    simp only [Bool.and_eq_true, Option.isNone_iff_eq_none, List.any_eq_true, decide_eq_true_eq] at h
    exact ⟨x, u, hg, reaches_of h.1.1, h.1.2, h.2⟩
  · obtain ⟨x, u, hg, -, h⟩ := goes_of (i := .stg (rrr 2 4 6)) (oc := noCheck) (s := formatted 0x17 (.stg (rrr 2 4 6)))
      (f := fun x u => reachesB x (x.ptrAccess u .store) &&
        (x.watch u 8 (moved x) ((x.ptrAccess u .store).map fun a => (a.lane, a.addr))).isNone &&
        (partialLanes (elemsOf x (x.ptrAccess u .store))).any fun f => decide (f.lane < 32 * x.launch.strands))
      (by decide +kernel)
    simp only [Bool.and_eq_true, Option.isNone_iff_eq_none, List.any_eq_true, decide_eq_true_eq] at h
    exact ⟨x, u, hg, reaches_of h.1.1, h.1.2, h.2⟩

/-- A store of an element on a sub-byte page, and on a page of five ternary digits to the byte. -/
theorem witness_StoresComplete_narrow :
    (∀ fmt ∈ [4, 0xE], Accessible (.st (mw 2 4 0 (md 5 0 1 0))) windowCheck (formatted fmt (.st (mw 2 4 0 (md 5 0 1 0)))) 8
      .store (fun x u => x.mwAccess u .store)) := by
  intro fmt h
  refine access_of ?_
  revert fmt; decide +kernel

/-! ### Meeting points in a pair (R176) -/

theorem witness_MeetingPoints :
    AllMeet noCheck run [.fence (fz), .fencePt (fz), .tsend (fz), .exit (fz), .barw (rrs 2 0 0), .acq (rrr 2 4 0), .rel (rrr 0 4 6)] ∧
    AllMeet secondArrival run [.bar (rrs 2 0 0), .bara (rrs 2 15 0)] ∧
    AllMeet windowCheck (mapped id) [.atom (mw 2 4 0), .cas (mw 2 4 0), .cas128 (mw 4 8 0)] ∧
    AllMeet noCheck (mapped id) [.ldp (rrr 2 4 6 (md 0 0 1 0)), .ldp (rrr 2 4 6 (md 0 0 7 0))] := by
  refine ⟨?_, ?_, ?_, ?_⟩ <;> exact allMeet_of (by decide +kernel)

end Sys2Proof.Tests

/-! ### The other loads and stores -/

namespace Sys2Proof.Tests

open Sys2Proof Machine Claims

set_option maxRecDepth 100000
set_option Elab.async false

theorem witness_Wait : ∃ x u, Goes (.wait (rrs 2 4 0)) noCheck (mapped id (.wait (rrs 2 4 0))) x u ∧
    x.watch u 7 8 (x.uniformLanes.map fun l => (l, x.pair x.parts.a)) = none ∧
    (∃ y, x.uniform u .load (x.pair x.parts.a) waitWordCheck = .ok y ∧
      ∀ i < 8, (u.commitFills x.agent [y]).poisoned (x.loadAddr y + i) = false) := by
  obtain ⟨x, u, hg, -, h⟩ := goes_of (i := .wait (rrs 2 4 0)) (oc := noCheck) (s := mapped id (.wait (rrs 2 4 0)))
    (f := fun x u => (x.watch u 7 8 (x.uniformLanes.map fun l => (l, x.pair x.parts.a))).isNone &&
      match x.uniform u .load (x.pair x.parts.a) waitWordCheck with
      | .ok y => (List.range 8).all fun i => !(u.commitFills x.agent [y]).poisoned (x.loadAddr y + i)
      | .error _ => false) (by decide +kernel)
  simp only [Bool.and_eq_true, Option.isNone_iff_eq_none] at h
  refine ⟨x, u, hg, h.1, ?_⟩
  have h2 := h.2
  split at h2
  · rename_i y hy
    exact ⟨y, hy, by simpa using h2⟩
  · simp at h2

/-- Window 0 over page 0 in the direction format. -/
def dirWin (t : Team) : Team := { t with win := t.win.map fun w => (w.1, { w.2 with fmt := 0x1B }) }

/-- Whether the chunks of a direction all pass their checks, and nothing read is poisoned. -/
def dirB (k : Access) (x : Exe) (u : State) : Bool := match x.dirAccess u k with
  | .ok gs => k == .store || (gs.flatMap fun g => okLanes g.2).all fun e => (List.range 2).all fun k =>
      !x.loadPoison (u.commitFills x.agent ((gs.flatMap fun g => okLanes g.2).map (·.2))) (bypasses false e.2)
        (x.loadAddr e.2 + k)
  | .error _ => false

theorem witness_DirectionStore : ∃ x u, Goes (.dst (mw 2 4 0)) windowCheck (mapped dirWin (.dst (mw 2 4 0))) x u ∧
    ∃ gs, x.dirAccess u .store = .ok gs := by
  obtain ⟨x, u, hg, -, h⟩ := goes_of (i := .dst (mw 2 4 0)) (oc := windowCheck) (s := mapped dirWin (.dst (mw 2 4 0)))
    (f := dirB .store) (by decide +kernel)
  unfold dirB at h
  split at h
  · rename_i gs hgs; exact ⟨x, u, hg, gs, hgs⟩
  · simp at h

theorem witness_DirectionLoad : ∃ x u, Goes (.dld (mw 2 4 0)) windowCheck (mapped dirWin (.dld (mw 2 4 0))) x u ∧
    ∃ gs, x.dirAccess u .load = .ok gs ∧
      ∀ e ∈ gs.flatMap fun g => okLanes g.2, ∀ k < 2,
        x.loadPoison (u.commitFills x.agent ((gs.flatMap fun g => okLanes g.2).map (·.2))) (bypasses false e.2)
          (x.loadAddr e.2 + k) = false := by
  obtain ⟨x, u, hg, -, h⟩ := goes_of (i := .dld (mw 2 4 0)) (oc := windowCheck) (s := mapped dirWin (.dld (mw 2 4 0)))
    (f := dirB .load) (by decide +kernel)
  unfold dirB at h
  split at h
  · rename_i gs hgs
    have h2 : (Access.load == Access.store) = false := by decide
    simp only [h2, Bool.false_or, List.all_eq_true, List.mem_range, Bool.not_eq_true'] at h
    exact ⟨x, u, hg, gs, hgs, h⟩
  · simp at h

theorem witness_ListStore : ∃ x u, Goes (.wlst (rrr 2 4 0)) (fun x u => x.listCheck u x.parts.d true)
      ((mapped id (.wlst (rrr 2 4 0))).updCrew 1 fun c => { c with wls := [(2, [])] }) x u ∧
    ∃ ps, x.imageAt u .store = .ok ps := by
  obtain ⟨x, u, hg, -, h⟩ := goes_of (i := .wlst (rrr 2 4 0)) (oc := fun x u => x.listCheck u x.parts.d true)
    (s := (mapped id (.wlst (rrr 2 4 0))).updCrew 1 fun c => { c with wls := [(2, [])] })
    (f := fun x u => match x.imageAt u .store with | .ok _ => true | .error _ => false) (by decide +kernel)
  split at h
  · rename_i ps hps; exact ⟨x, u, hg, ps, hps⟩
  · simp at h

/-- A descriptor at pointer 0: FP16 rows of 16 bytes, one sequence, one head, one tile, its map in page 1; lane 0 asks for
sequence `n`. -/
def keyed (n : Word) (i : Instr) : State :=
  let s := mapped (fun t => t.writeLanes 6 [(0, n)]) i
  (s.writeBytes 0x20000000000 (bytesOf 64 (0x10000 + 2 ^ 64 + 2 ^ 112 + 2 ^ 128 + 16 * 2 ^ 160 + 5 * 2 ^ 186)))

/-- The state after the fill of the descriptor's line. -/
def keyLine (x : Exe) (u : State) (y : Phys) : State :=
  if bypasses false y then u else u.fillLine x.team.cluster (x.loadAddr y)

def keyB (inside : Bool) (x : Exe) (u : State) : Bool :=
  match x.lanes.map fun l => (x.byPointer u .load l (x.pair x.parts.a)).res with
  | [.ok y] =>
    let u1 := u.commitFills x.agent [y]
    let u2 := keyLine x u1 y
    rawLike y.fmt && (x.pair x.parts.a).toNat % 64 == 0 &&
    (x.watch u 7 64 (x.lanes.map fun l => (l, x.pair x.parts.a))).isNone &&
    (List.range 64).all (fun i => !x.loadPoison u1 (bypasses false y) (x.loadAddr y + i)) && u2.poison.isEmpty &&
    match kvDesc (x.loadNat u2 (bypasses false y) (x.loadAddr y) 64) with
    | none => false
    | some d =>
      let live := x.kvLanes.filter d.within
      (live.length == if inside then 1 else 0) && (x.watch u2 7 16 (live.map fun k => (k.lane, d.entry k))).isNone &&
      (x.kvLanes.all fun k => k.off % (fmtBits d.fmt / 8) == 0) &&
      live.all fun k => match (x.byPointer u2 .kvmap k.lane (d.entry k)).res with
        | .ok z => z.fmt == 2 && leafP z.leaf
        | _ => false
  | _ => false

/-- The hypotheses of the clause on KVLD, met together, with lane 0 within the bounds or outside them. -/
def Keyed (inside : Bool) (s : State) : Prop := ∃ x u y d, Goes (.kvld (rrr 2 4 6)) noCheck s x u ∧ x.lanes ≠ [] ∧
  (∀ l ∈ x.lanes, (x.byPointer u .load l (x.pair x.parts.a)).res = .ok y) ∧ rawLike y.fmt = true ∧
  (x.pair x.parts.a).toNat % 64 = 0 ∧ x.watch u 7 64 (x.lanes.map fun l => (l, x.pair x.parts.a)) = none ∧
  (let u1 := u.commitFills x.agent [y]
   let u2 := if bypasses false y then u1 else u1.fillLine x.team.cluster (x.loadAddr y)
   (∀ i < 64, x.loadPoison u1 (bypasses false y) (x.loadAddr y + i) = false) ∧
   kvDesc (x.loadNat u2 (bypasses false y) (x.loadAddr y) 64) = some d ∧
   (x.kvLanes.filter d.within).length = (if inside then 1 else 0) ∧
   (∀ k ∈ x.kvLanes, k.off % (fmtBits d.fmt / 8) = 0) ∧
   (∀ k ∈ x.kvLanes.filter d.within, ∃ z, (x.byPointer u2 .kvmap k.lane (d.entry k)).res = .ok z ∧ z.fmt = 2 ∧ leafP z.leaf = true) ∧
   x.watch u2 7 16 ((x.kvLanes.filter d.within).map fun k => (k.lane, d.entry k)) = none ∧ u2.poison = [])

theorem keyed_of {inside s} (h : goesB noCheck s (.kvld (rrr 2 4 6)) (keyB inside) = true) : Keyed inside s := by
  obtain ⟨x, u, hg, -, h⟩ := goes_of h
  unfold keyB at h
  split at h
  · rename_i y hy
    simp only [Bool.and_eq_true, Option.isNone_iff_eq_none, beq_iff_eq, List.all_eq_true, List.mem_range,
      Bool.not_eq_true', List.isEmpty_iff] at h
    obtain ⟨⟨⟨⟨⟨h1, h2⟩, h3⟩, h4⟩, h5⟩, hm⟩ := h
    split at hm
    · simp at hm
    · rename_i d hd
      simp only [Bool.and_eq_true, Option.isNone_iff_eq_none, beq_iff_eq, List.all_eq_true] at hm
      obtain ⟨⟨⟨h6, h7⟩, ho⟩, h8⟩ := hm
      refine ⟨x, u, y, d, hg, ?_, ?_, h1, h2, h3, h4, hd, h6, ho, fun k hk => ?_, h7, h5⟩
      · intro hn; rw [hn] at hy; simp at hy
      · intro l hl
        have := List.mem_map_of_mem (f := fun l => (x.byPointer u .load l (x.pair x.parts.a)).res) hl
        rw [hy] at this; simpa using this
      · have h9 := h8 k hk
        split at h9
        · rename_i z hz
          simp only [Bool.and_eq_true, beq_iff_eq] at h9
          exact ⟨z, hz, h9.1, h9.2⟩
        · simp at h9
  · simp at h

theorem witness_KeyValueLoad : Keyed true (keyed 0 (.kvld (rrr 2 4 6))) ∧ Keyed false (keyed 1 (.kvld (rrr 2 4 6))) :=
  ⟨keyed_of (by decide +kernel), keyed_of (by decide +kernel)⟩

end Sys2Proof.Tests

/-! ### A list image in memory -/

namespace Sys2Proof.Tests

open Sys2Proof Machine Claims

set_option maxRecDepth 100000
set_option Elab.async false

/-- The line of an image row whose 16 entries are empty. -/
def emptyLine : Line :=
  { data := BitVec.ofNat 1024 ((List.range 16).foldl (fun a k => a + 0xFFFFFFFFFF800000 * 2 ^ (64 * k)) 0) }

/-- The lines of the image of an empty list at address 2^41: 64 rows, and 64 status words. -/
def imageLine (n : Nat) : Line := if n < 64 then emptyLine else { data := 0 }
def imageLines : Tbl Line := (List.range 66).map fun n => (0x400000000 + n, imageLine n)

/-- List 2 is allocated, and the cluster holds the image of an empty list at pointer 0. -/
def withImage (i : Instr) : State :=
  ((mapped id i).updCrew 1 fun c => { c with wls := [(2, [])] }).updCluster 0 fun k => { k with l1 := imageLines }

def imageB (x : Exe) (u : State) : Bool :=
  (match x.imageAt u .load with
   | .ok [(_, n, y)] => n == 8448 && y.fill.isNone && !bypasses false y && x.loadAddr y == 0x20000000000
   | _ => false) &&
  u.poison.isEmpty && (x.pair? u).isNone && x.team.cluster == 0 && (u.cluster 0).l1 == imageLines

theorem line_at {u : State} (h : (u.cluster 0).l1 = imageLines) (i : Nat) (hi : i < 8448) :
    u.line? 0 (0x20000000000 + i) = some (imageLine (i / 128)) := by
  have key : ∀ n < 66, imageLines.get? (0x400000000 + n) = some (imageLine n) := by decide +kernel
  have e : (0x20000000000 + i) / 128 = 0x400000000 + i / 128 := by omega
  rw [State.line?, h, e]
  exact key _ (by omega)

theorem fill_none (u : State) (cl : Nat) (as : List (Bool × Nat)) (h : ∀ a ∈ as, (u.line? cl a.2).isSome = true) :
    as.foldl (fun u a => if a.1 = true then u else u.fillLine cl a.2) u = u := by
  induction as with
  | nil => rfl
  | cons a as ih =>
    have h1 := h a (List.mem_cons_self ..)
    have h2 : (if a.1 = true then u else u.fillLine cl a.2) = u := by
      split
      · rfl
      · unfold State.fillLine
        split
        · rfl
        · rename_i hn; rw [hn] at h1; simp at h1
    rw [List.foldl_cons, h2]
    exact ih fun b hb => h b (List.mem_cons_of_mem _ hb)

/-- The bytes of the image. -/
def imageByte (i : Nat) : Byte := (imageLine (i / 128)).byte (i % 128)

theorem image_read {x : Exe} {u : State} (h : imageB x u = true) :
    x.readImage u = .ok ((List.range 8448).map imageByte, u) := by
  simp only [imageB, Bool.and_eq_true, Option.isNone_iff_eq_none, beq_iff_eq, List.isEmpty_iff] at h
  obtain ⟨⟨⟨⟨h1, hp⟩, hpair⟩, hc⟩, hl⟩ := h
  split at h1
  · rename_i p n y hps
    simp only [Bool.and_eq_true, Option.isNone_iff_eq_none, beq_iff_eq, Bool.not_eq_true'] at h1
    obtain ⟨⟨⟨rfl, hf⟩, hb⟩, ha⟩ := h1
    have hs : u.commitFills x.agent [y] = u := by simp [State.commitFills, State.commitFill, hf]
    have hpo : ∀ i < 8448, x.loadPoison u false (0x20000000000 + i) = false := by
      intro i hi
      simp [Exe.loadPoison, State.clusterPoison, hc, line_at hl i hi, hp]
    have hby : ∀ i < 8448, x.loadByte u false (0x20000000000 + i) = imageByte i := by
      intro i hi
      simp only [Exe.loadByte, Exe.overlay, hpair, State.clusterByte, hc, line_at hl i hi, imageByte]
      have : (0x20000000000 + i) % 128 = i % 128 := by omega
      simp [this]
    have hfold := fill_none u x.team.cluster ((List.range 8448).map fun i => (false, 0x20000000000 + i)) (by
      intro a ha
      obtain ⟨i, hi, rfl⟩ := List.mem_map.mp ha
      rw [hc, line_at hl i (List.mem_range.mp hi)]; rfl)
    have hany : (((List.range 8448).map fun i => (false, 0x20000000000 + i)).any
        fun a => x.loadPoison u a.1 a.2) = false := by
      rw [List.any_eq_false]
      intro a ha
      obtain ⟨i, hi, rfl⟩ := List.mem_map.mp ha
      simp [hpo i (List.mem_range.mp hi)]
    have hmap : ((List.range 8448).map fun i => (false, 0x20000000000 + i)).map (fun a => x.loadByte u a.1 a.2) =
        (List.range 8448).map imageByte := by
      rw [List.map_map]
      exact List.map_congr_left fun i hi => hby i (List.mem_range.mp hi)
    simp only [Exe.readImage, hps, bind, Except.bind, List.map_cons, List.map_nil, hs, List.flatMap_cons, List.flatMap_nil,
      List.append_nil, hb, ha, hany, hfold, hmap]
    rfl
  · simp at h1

theorem le_map (f : Nat → Byte) (n o k : Nat) (h : o + k ≤ n) :
    le ((List.range n).map f) o k = natOf ((List.range k).map fun j => f (o + j)) := by
  unfold le
  congr 1
  apply List.ext_getElem
  · simp; omega
  · intro i h1 h2
    simp

theorem image_row (r : Nat) (hr : r < 64) :
    imageRow ((List.range 8448).map imageByte) r = (List.replicate 16 emptyEntry, 0) := by
  have key : ∀ e < 16, natOf ((List.range 8).map fun j => emptyLine.byte (8 * e + j)) = 0xFFFFFFFFFF800000 := by
    decide +kernel
  have zero : ∀ b < 128, ({ data := 0 } : Line).byte b = 0 := by decide +kernel
  unfold imageRow
  congr 1
  · apply List.ext_getElem
    · simp
    · intro e h1 h2
      simp only [List.length_map, List.length_range] at h1
      simp only [List.getElem_map, List.getElem_range, List.getElem_replicate]
      rw [le_map _ _ _ _ (by omega)]
      have : (List.range 8).map (fun j => imageByte (128 * r + 8 * e + j)) =
          (List.range 8).map fun j => emptyLine.byte (8 * e + j) := by
        refine List.map_congr_left fun j hj => ?_
        have hj := List.mem_range.mp hj
        have d : (128 * r + 8 * e + j) / 128 = r := by omega
        have m : (128 * r + 8 * e + j) % 128 = 8 * e + j := by omega
        simp [imageByte, d, m, imageLine, hr]
      rw [this, key e h1]; rfl
  · rw [le_map _ _ _ _ (by omega)]
    have : (List.range 4).map (fun j => imageByte (8192 + 4 * r + j)) = (List.range 4).map fun _ => (0 : Byte) := by
      refine List.map_congr_left fun j hj => ?_
      have hj := List.mem_range.mp hj
      have d : ¬ (8192 + 4 * r + j) / 128 < 64 := by omega
      simp only [imageByte, imageLine, if_neg d]
      exact zero _ (by omega)
    rw [this]; rfl

/-- The hypotheses of the clauses on WLLD and WLMERGE, met together. -/
theorem witness_ListImages : ∀ i ∈ [Instr.wlld (rrr 2 4 0), .wlmerge (rrr 2 4 0)],
    ∃ x u bs v, Goes i (fun x u => x.listCheck u x.parts.d true) (withImage i) x u ∧ x.readImage u = .ok (bs, v) ∧
      ((List.range 64).map (imageRow bs)).all imageRowOk = true ∧
      ∀ r < 64, imageRowOk (imageRow bs r) = true ∧ statCount (imageRow bs r).2 = 0 := by
  have go : ∀ i ∈ [Instr.wlld (rrr 2 4 0), .wlmerge (rrr 2 4 0)],
      goesB (fun x u => x.listCheck u x.parts.d true) (withImage i) i imageB = true := by decide +kernel
  have row : imageRowOk (List.replicate 16 emptyEntry, 0) = true := by decide +kernel
  intro i hi
  obtain ⟨x, u, hg, -, h⟩ := goes_of (go i hi)
  refine ⟨x, u, _, _, hg, image_read h, ?_, fun r hr => ?_⟩
  · rw [List.all_eq_true]
    intro w hw
    obtain ⟨r, hr, rfl⟩ := List.mem_map.mp hw
    rw [image_row r (List.mem_range.mp hr)]; exact row
  · rw [image_row r hr]; exact ⟨row, by decide⟩

end Sys2Proof.Tests

/-! ### Synchronisation, queues, engines, and the system instructions -/

namespace Sys2Proof.Tests

open Sys2Proof Machine Claims

set_option maxRecDepth 100000
set_option Elab.async false

theorem witness_WindowPrefetch : AllGo prefCheck (mapped id) [.pref (mw 0 4 0), .pref (mw 0 4 0 (md 0 0 1 0))] :=
  allGo_of (by decide +kernel)

theorem witness_OrderingResults :
    (∀ i ∈ [Instr.acq (rrr 2 4 0), .rel (rrr 0 4 6)], ∃ x u, Goes i noCheck (mapped id i) x u ∧
      GoesAlone i noCheck (mapped id i) x u ∧ ∃ y, SyncReaches x u y ∧
      ∀ i < 8, ((u.commitFills x.agent [y]).evictLine x.team.cluster (y.addr / 128)).poisoned (y.addr + i) = false) ∧
    AllGo bindCheck (lab (withS [(8, 64)])) [.bind (rrr 2 4 6 (md 0 0 0 8))] ∧
    AllGo unbindCheck run [.unbind (rrs 0 0 0), .unbind (rrs 0 0 16)] ∧
    AllGo noCheck inHandler [.shoot (rrr 0 4 6)] := by
  refine ⟨?_, allGo_of (by decide +kernel), allGo_of (by decide +kernel), allGo_of (by decide +kernel)⟩
  have go : ∀ i ∈ [Instr.acq (rrr 2 4 0), .rel (rrr 0 4 6)], goesB noCheck (mapped id i) i (fun x u =>
      (x.watch u 9 8 (x.uniformLanes.map fun l => (l, x.pair x.parts.a))).isNone &&
      match x.uniform u .atomic (x.pair x.parts.a) syncCheck with
      | .ok y => (List.range 8).all fun i =>
          !((u.commitFills x.agent [y]).evictLine x.team.cluster (y.addr / 128)).poisoned (y.addr + i)
      | .error _ => false) = true := by decide +kernel
  intro i hi
  obtain ⟨x, u, hg, ha, h⟩ := goes_of (go i hi)
  simp only [Bool.and_eq_true, Option.isNone_iff_eq_none] at h
  have h2 := h.2
  split at h2
  · rename_i y hy
    exact ⟨x, u, hg, ha, y, ⟨h.1, hy⟩, by simpa using h2⟩
  · simp at h2

/-- A cooperative launch. -/
def coLaunch (i : Instr) : State := (run i).updLaunch 1 fun l => { l with co := true }

theorem witness_Barriers : AllGo secondArrival run [.bar (rrs 2 0 0), .bara (rrs 2 15 0)] ∧
    AllGo noCheck run [.barw (rrs 2 0 0)] ∧ AllGo gbarCheck coLaunch [.gbar (fz)] ∧ AllGo noCheck coLaunch [.phase (rrs 2 0 0)] ∧
    (∃ c, (run (.nop (fz))).crews.get? 1 = some c ∧ (c.bar 0).abandoned = false) :=
  ⟨allGo_of (by decide +kernel), allGo_of (by decide +kernel), allGo_of (by decide +kernel), allGo_of (by decide +kernel),
   placedCrew (encode (.nop (fz))), by decide +kernel, by decide +kernel⟩

/-- Queue 2 has a role, and holds some entries. -/
def withQueue (role : BitVec 3) (es : List DWord) (i : Instr) : State :=
  lab (fun t => t.setQueue 2 { role := role, entries := es }) i

/-- A push or pop goes on to its effect, and `P` holds. -/
theorem goesFrom_with {i : Instr} {oc s} {P : Exe → State → Prop} [d : ∀ x u, Decidable (P x u)]
    (h : (match s.issuer? i with
      | none => false
      | some x0 => match prepare i oc x0 s with | .go x u => decide (P x u) | _ => false) = true) :
    ∃ x u, GoesFrom i oc s x u ∧ P x u := by
  split at h
  · simp at h
  · rename_i x0 hx
    split at h
    · rename_i x u hg; exact ⟨x, u, ⟨x0, hx, hg⟩, of_decide_eq_true h⟩
    · simp at h

theorem witness_QueueResults :
    (∀ n ∈ [0, 31, 32], ∃ x u, GoesFrom (.qpush (rrs 2 4 0)) pushCheck (withQueue 2 (List.replicate n 0) (.qpush (rrs 2 4 0))) x u ∧
      x.p.kind ≠ .trail ∧ x.parts.s ≤ 1 ∧ heldIn u x.p (pushQ x) = n) ∧
    (∃ x u, GoesFrom (.qpush (rrs 2 4 2)) pushCheck (withQueue 2 [] (.qpush (rrs 2 4 2))) x u ∧
      x.cl.moved = 0 ∧ x.p.kind ≠ .trail ∧ 2 ≤ x.parts.s ∧ x.passes = [0] ∧ (x.team.queue (pushQ x)).role ≠ 5 ∧
      x.pair? u = none ∧ heldIn u x.p (pushQ x) + (passVals x 0).length ≤ 32 ∧ heldIn u x.p (pushQ x) + x.lanes.length ≤ 32) ∧
    (∃ x u, GoesFrom (.qpop (rrs 4 2 0)) popCheck (withQueue 1 [7] (.qpop (rrs 4 2 0))) x u ∧
      x.parts.s ≤ 1 ∧ 1 ≤ heldIn u x.p (popQ x)) ∧
    (∃ x u, GoesFrom (.qpop (rrs 4 2 2)) popCheck (withQueue 1 (List.replicate 32 0) (.qpop (rrs 4 2 2))) x u ∧
      NothingMoved x u ∧ 2 ≤ x.parts.s ∧ x.passes = [0] ∧
      (x.lanes.filter fun l => l / 32 == 0).length ≤ heldIn u x.p (popQ x)) ∧
    (∀ role ∈ [1, 7], ∃ x u, GoesFrom (.qpop (rrs 4 2 0)) popCheck (withQueue role [] (.qpop (rrs 4 2 0))) x u ∧
      x.parts.s ≤ 1 ∧ heldIn u x.p (popQ x) = 0 ∧ x.p.kind ≠ .trail) := by
  unfold NothingMoved
  refine ⟨fun n h => goesFrom_with ?_, goesFrom_with ?_, goesFrom_with ?_, goesFrom_with ?_, fun role h => goesFrom_with ?_⟩
  · revert n; decide +kernel
  · decide +kernel
  · decide +kernel
  · decide +kernel
  · revert role; decide +kernel

/-- The trailing copy stands at the pop in which its leading copy took QUEUE_STARVED. -/
def starvedPair (role : BitVec 3) (i : Instr) : State :=
  let s := inPair (withQueue role []) none i
  { s with
    turn := some (asTrail placedParty),
    pairs := s.pairs.map fun q => (q.1, { q.2 with traps := [(0, { cause := .queueStarved, tpc := 0x10000, pos := 1 })] }) }

theorem witness_QueueResults_trailing :
    (∃ x u, GoesFrom (.qpop (rrs 4 2 0)) popCheck (starvedPair 1 (.qpop (rrs 4 2 0))) x u ∧
      x.starvedLead u = true ∧ x.parts.s ≤ 1) ∧
    ∃ x u, GoesFrom (.qpush (rrs 2 4 0)) pushCheck (starvedPair 2 (.qpush (rrs 2 4 0))) x u ∧
      x.starvedLead u = true ∧ x.parts.s ≤ 1 :=
  ⟨goesFrom_with (by decide +kernel), goesFrom_with (by decide +kernel)⟩

theorem witness_SystemChecks :
    AllGo trldCheck (fun i => (inHandler i).updTeam placedParty (withS [(4, 0)])) [.trld (rrr 2 4 6)] ∧
    AllGo trstCheck (fun i => (inHandler i).updTeam placedParty (withS [(4, 0)])) [.trst (rrr 2 4 6)] ∧
    AllGo wpsetCheck inHandler [.wpset (rrr 2 0 0)] ∧
    AllGo wpsetCheck (fun i => (inHandler i).updTeam placedParty (withS [(8, 262144)])) [.wpset (rrr 2 4 6 (md 0 0 1 8))] ∧
    AllGo finjCheck (fun i => (inHandler i).updTeam placedParty (withS [(4, 31), (6, 15)]))
      [.finj (rrr 2 4 6), .finj (rrr 2 4 6 (md 0 0 1 0)), .finj (rrr 2 4 6 (md 0 0 2 0)), .finj (rrr 2 4 6 (md 0 0 3 0))] ∧
    AllGo (fun x _ => if x.team.role = .off then none else some .general) run [.tsbegin (fz)] := by
  refine ⟨?_, ?_, ?_, ?_, ?_, ?_⟩ <;> exact allGo_of (by decide +kernel)

theorem witness_ChaserAndQueries :
    AllGo repackCheck run [.repack (fz)] ∧ AllGo chgoCheck run [.chgo (rrr 0 4 0), .chgo (rrr 0 0 0 (md 0 0 1 0))] ∧
    AllGo qcfgCheck run [.qcfg (rrs 2 0 0), .qcfg (rrs 2 0 1)] ∧
    ((run (.repack (fz))).core 0).cupel = [] ∧
    (let s := lab (fun t => { t with chaser := { t.chaser with run := .running } }) (.chstop (fz))
     (s.team? { placedParty with kind := .chaser }).map (·.chaser.run) = some .running) := by
  refine ⟨allGo_of (by decide +kernel), allGo_of (by decide +kernel), allGo_of (by decide +kernel), ?_, ?_⟩ <;> decide +kernel

/-- A command queue for the Cupel engine, and one for the copy engine, with a block of registers from s8. -/
def withEngines (rs : List (Nat × Word)) (i : Instr) : State :=
  lab (fun t => ((withS rs t).setQueue 1 { role := 6, entries := [] }).setQueue 2 { role := 3, entries := [] }) i

/-- What the statements on engine instructions ask of their counters. -/
def roomB (x : Exe) (u : State) (role : BitVec 3) (stores : Nat) : Bool :=
  (x.team.engines.filter (!·.stopped)).length < 63 &&
  (match x.team.queueOfRole role with | none => true | some q => (x.team.queue q).entries.length < 32) &&
  (match (u.core x.crew.core).track.get? x.crew.launch with | none => true | some e => e.stores + stores ≤ 0xFFFFFFFF)

theorem room_of {x u role n} (h : roomB x u role n = true) : EngineRoom x u role n := by
  simp only [roomB, Bool.and_eq_true] at h
  obtain ⟨⟨h1, h2⟩, h3⟩ := h
  refine ⟨by simpa using h1, fun q hq => ?_, fun e he => ?_⟩
  · rw [hq] at h2; simpa using h2
  · rw [he] at h3; simpa using h3

/-- An engine instruction goes, with room for a command and `stores` stores, and `f` holds. -/
theorem engine_of {i : Instr} {oc s role} {stores : Exe → State → Nat} {f : Exe → State → Bool}
    (h : goesB oc s i (fun x u => roomB x u role (stores x u) && f x u) = true) :
    ∃ x u, GoesAlone i oc s x u ∧ EngineRoom x u role (stores x u) ∧ f x u = true := by
  obtain ⟨x, u, -, hg, h⟩ := goes_of h
  simp only [Bool.and_eq_true] at h
  exact ⟨x, u, hg, room_of h.1, h.2⟩

theorem witness_CupelIssue :
    (∃ x u, GoesAlone (.wbload (rrr 4 8 0)) wbloadCheck (withEngines [(13, 1)] (.wbload (rrr 4 8 0))) x u ∧
      EngineRoom x u 6 0 ∧ true = true) ∧
    (∃ x u, GoesAlone (.mloop (rrr 4 8 0)) (denseCheck false) (withEngines [(10, 128)] (.mloop (rrr 4 8 0))) x u ∧
      EngineRoom x u 6 0 ∧ (u.planeFault x.crew x.launch.scratch 0 (rowBytes (blockOf x 5))).isNone &&
        blockM (blockOf x 5) == 1 && blockWord (blockOf x 5) 1 == 0) ∧
    (∃ x u, GoesAlone (.cbin (rrr 4 8 0)) (denseCheck true) (withEngines [(8, 0xA0020000)] (.cbin (rrr 4 8 0))) x u ∧
      EngineRoom x u 6 0 ∧ blockAq (blockOf x 5) = true) ∧
    (∃ x u, GoesAlone (.ctopk (rrr 4 8 2)) ctopkCheck
        ((withEngines [(8, 0x20000), (13, 1), (15, 1)] (.ctopk (rrr 4 8 2))).updCrew 1 fun c => { c with wls := [(2, [])] }) x u ∧
      EngineRoom x u 6 0 ∧ blockAq (blockOf x 11) = true) ∧
    (∃ x u, GoesAlone (.cepi (rrr 4 8 6 (md 5 0 0 0))) noCheck (withEngines [] (.cepi (rrr 4 8 6 (md 5 0 0 0)))) x u ∧
      EngineRoom x u 6 0 ∧ (cepiBad x).isNone && x.parts.fx == 0 &&
        decide (x.regNum .v x.parts.b + x.epiRegs (blockM (blockOf x 2)) ≤ x.launch.vregs)) ∧
    ∃ x u, GoesAlone (.cepi (rrr 4 8 0 (md 0 0 1 0))) noCheck (withEngines [] (.cepi (rrr 4 8 0 (md 0 0 1 0)))) x u ∧
      EngineRoom x u 6 (blockM (blockOf x 2)) ∧ (cepiBad x).isNone && x.parts.fx != 0 &&
        (u.planeFault x.crew x.launch.scratch (blockWord (blockOf x 2) 1) (8 * blockM (blockOf x 2))).isNone &&
        (u.rowTable x.crew x.launch.scratch (blockWord (blockOf x 2) 1) (blockM (blockOf x 2))).isSome := by
  refine ⟨?_, ?_, ?_, ?_, ?_, ?_⟩
  · exact engine_of (f := fun _ _ => true = true) (stores := fun _ _ => 0) (by decide +kernel)
  · exact engine_of (stores := fun _ _ => 0) (by decide +kernel)
  · exact engine_of (stores := fun _ _ => 0) (by decide +kernel)
  · exact engine_of (stores := fun _ _ => 0) (by decide +kernel)
  · exact engine_of (stores := fun _ _ => 0) (by decide +kernel)
  · exact engine_of (stores := fun x _ => blockM (blockOf x 2)) (by decide +kernel)

end Sys2Proof.Tests

/-! ### Copies, spawns, checks and traps -/

namespace Sys2Proof.Tests

open Sys2Proof Machine Claims

set_option maxRecDepth 100000
set_option Elab.async false

/-- A node of the placed team's context, with the key 0. -/
def withNode (i : Instr) : State :=
  let s := run i
  { s with nodes := [(1, { ctx := 1, key := 0, recSize := 4, strands := 1, stage := 0, timer := 0, base := 0, capacity := 64,
                           template := [] })] }

theorem witness_CopyAndSpawn :
    (∃ x u, GoesAlone (.xcopy (rrr 4 8 6)) xcopyCheck (withEngines [(6, 1)] (.xcopy (rrr 4 8 6))) x u ∧
      EngineRoom x u 3 (((copySlice x u).len + 255) / 256) ∧
      (x.copyEnds u (copySlice x u)).isNone && x.sB.toNat % 65536 == 2 ^ x.p.team) ∧
    (∃ x u, GoesAlone (.xred (rrr 4 8 6 (md 5 0 0 0))) xredCheck
        (withEngines [(12, 4)] (.xred (rrr 4 8 6 (md 5 0 0 0)))) x u ∧
      EngineRoom x u 3 (((reduceSlice x u).len + 255) / 256) ∧ !(reduceSlice x u).sp) ∧
    (∃ x u, Goes (.spawn (rrr 0 4 6)) nodeCheck (withNode (.spawn (rrr 0 4 6))) x u ∧
      GoesAlone (.spawn (rrr 0 4 6)) nodeCheck (withNode (.spawn (rrr 0 4 6))) x u ∧ x.node u = some 1 ∧
      (u.nodes.get? 1).isSome = true ∧ x.regNum .v x.parts.b + 1 ≤ x.launch.vregs ∧ x.storesFull u x.lanes.length = false) ∧
    ∃ x u, Goes (.nodefl (rrr 0 4 0)) nodeCheck (withNode (.nodefl (rrr 0 4 0))) x u ∧
      GoesAlone (.nodefl (rrr 0 4 0)) nodeCheck (withNode (.nodefl (rrr 0 4 0))) x u ∧ x.node u = some 1 ∧ x.p.kind ≠ .trail := by
  refine ⟨?_, ?_, goes_with (by decide +kernel), goes_with (by decide +kernel)⟩
  · exact engine_of (stores := fun x u => ((copySlice x u).len + 255) / 256) (by decide +kernel)
  · exact engine_of (stores := fun x u => ((reduceSlice x u).len + 255) / 256) (by decide +kernel)

/-- The engine issues, SPAWN and the tree arrivals in a pair (R176). -/
theorem witness_MeetingPoints_engines :
    AllMeet xcopyCheck (withEngines [(6, 1)]) [.xcopy (rrr 4 8 6)] ∧
    AllMeet xredCheck (withEngines [(12, 4)]) [.xred (rrr 4 8 6 (md 5 0 0 0))] ∧
    AllMeet wbloadCheck (withEngines [(13, 1)]) [.wbload (rrr 4 8 0)] ∧
    AllMeet (denseCheck false) (withEngines [(10, 128)]) [.mloop (rrr 4 8 0)] ∧
    AllMeet (denseCheck true) (withEngines [(8, 0xA0020000)]) [.cbin (rrr 4 8 0)] ∧
    AllMeet ctopkCheck (fun i => (withEngines [(8, 0x20000), (13, 1), (15, 1)] i).updCrew 1 fun c =>
      { c with wls := [(2, [])] }) [.ctopk (rrr 4 8 2)] ∧
    AllMeet noCheck (withEngines []) [.cepi (rrr 4 8 6 (md 5 0 0 0)), .cepi (rrr 4 8 0 (md 0 0 1 0))] ∧
    AllMeet nodeCheck withNode [.spawn (rrr 0 4 6)] ∧
    AllMeet gbarCheck coLaunch [.gbar (fz)] ∧ AllMeet noCheck coLaunch [.phase (rrs 2 0 0)] := by
  refine ⟨?_, ?_, ?_, ?_, ?_, ?_, ?_, ?_, ?_, ?_⟩ <;> exact allMeet_of (by decide +kernel)

theorem witness_DecodeEncode : encode (.vadd (rrr 4 2 0 (md 5 0 0 0) (some 0x64))) ≠ [] ∧
    partsOf (.vadd (rrr 4 2 0)) = some (Parts.ofRRR (rrr 4 2 0)) := by decide +kernel
theorem witness_EncodeDecode : decode [0x08000000, 5] = .ok (.exit { rsv := 0, lit := none, m := none }, [5]) := rfl
theorem witness_DecodingFacts : (0x1C000000 : Word).toNat / 2 ^ 24 ∈ unassigned ∧ (0xFF000000 : Word).toNat / 2 ^ 24 ∈ unassigned ∧
    (0x08000000 : Word).toNat / 2 ^ 24 ∉ unassigned := by decide +kernel

theorem witness_StepRunsDecoded :
    (∃ t c, (run (.nop (fz))).agenda = [] ∧ (run (.nop (fz))).turn = some placedParty ∧
      (run (.nop (fz))).team? placedParty = some t ∧ (t.thread placedParty.kind).issue = some c ∧
      decode (c.words.drop (c.pos - 1)) = .ok (.nop (fz), []) ∧ placedParty.kind ≠ .trail) ∧
    (∃ t c, (State.reset.place [0xFF000000]).team? placedParty = some t ∧ (t.thread placedParty.kind).issue = some c ∧
      decode (c.words.drop (c.pos - 1)) = .error (.opcode 0xFF)) ∧
    (State.reset.agenda = [] ∧ State.reset.turn = none ∧ (State.reset.cluster State.reset.focus).holder = none) ∧
    ∃ s : State, s.agenda = [.row .powerOn, .elapse 5] := by
  refine ⟨⟨_, _, rfl, rfl, rfl, rfl, rfl, by decide⟩, ⟨_, _, rfl, rfl, rfl⟩, ⟨rfl, rfl, rfl⟩,
    { State.reset with agenda := [.row .powerOn, .elapse 5] }, rfl⟩

theorem witness_MemoryAndCode : (0xFFFF : Nat) < 256 ^ 2 ∧ (128 : Nat) % 4 = 0 ∧
    (State.reset.cluster 0).icache.get? 1 = none ∧ (State.reset.core 0).icache.get? 1 = none := by decide +kernel

theorem witness_IllegalInstructionsTrap :
    (∀ i ∈ [Instr.vadd (rrr 2 4 6 (md 12 0 0 0)), .smov (rrr 2 4 6), .srd (rrs 2 0 0x7F)], encode i ≠ [] ∧
      ∃ x c, (run i).issuer? i = some x ∧ x.paired (run i) = false ∧ checkInstr x.ch i = some c) ∧
    (∀ i ∈ [Instr.srd (rrs 2 0 0x20), .swr (rrs 0 4 0x38), .tret (fz)], encode i ≠ [] ∧
      ∃ x c, (run i).issuer? i = some x ∧ x.paired (run i) = false ∧ checkInstr x.ch i = none ∧ contextFault x i = some c) := by
  have h1 : ∀ i ∈ [Instr.vadd (rrr 2 4 6 (md 12 0 0 0)), .smov (rrr 2 4 6), .srd (rrs 2 0 0x7F)], (encode i ≠ [] ∧
      (match (run i).issuer? i with
       | some x => !x.paired (run i) && (checkInstr x.ch i).isSome
       | none => false) = true) := by decide +kernel
  have h2 : ∀ i ∈ [Instr.srd (rrs 2 0 0x20), .swr (rrs 0 4 0x38), .tret (fz)], (encode i ≠ [] ∧
      (match (run i).issuer? i with
       | some x => !x.paired (run i) && (checkInstr x.ch i).isNone && (contextFault x i).isSome
       | none => false) = true) := by decide +kernel
  refine ⟨fun i hi => ⟨(h1 i hi).1, ?_⟩, fun i hi => ⟨(h2 i hi).1, ?_⟩⟩
  · have := (h1 i hi).2
    split at this
    · rename_i x hx
      simp only [Bool.and_eq_true, Bool.not_eq_true', Option.isSome_iff_exists] at this
      obtain ⟨hp, c, hc⟩ := this
      exact ⟨x, c, hx, hp, hc⟩
    · simp at this
  · have := (h2 i hi).2
    split at this
    · rename_i x hx
      simp only [Bool.and_eq_true, Bool.not_eq_true', Option.isSome_iff_exists, Option.isNone_iff_eq_none] at this
      obtain ⟨⟨hp, hn⟩, c, hc⟩ := this
      exact ⟨x, c, hx, hp, hn, hc⟩
    · simp at this

/-- With no lane in its path a vector instruction meets the conditions of the clause on an empty mask. -/
theorem witness_ChecksInOrder : ∃ s x, s.issuer? (.vadd (rrr 2 4 6)) = some x ∧ x.paired s = false ∧
    checkInstr x.ch (.vadd (rrr 2 4 6)) = none ∧ contextFault x (.vadd (rrr 2 4 6)) = none ∧ x.ch = false ∧
    perLane (.vadd (rrr 2 4 6)) x.parts = true ∧ x.eff = 0 := by
  have h : (let s := lab (fun t => { t with paths := [{ pc := 0x10000, mask := 0 }] }) (.vadd (rrr 2 4 6))
      match s.issuer? (.vadd (rrr 2 4 6)) with
      | some x => !x.paired s && (checkInstr x.ch (.vadd (rrr 2 4 6))).isNone && (contextFault x (.vadd (rrr 2 4 6))).isNone &&
          !x.ch && perLane (.vadd (rrr 2 4 6)) x.parts && x.eff == 0
      | none => false) = true := by decide +kernel
  simp only at h
  split at h
  · rename_i x hx
    simp only [Bool.and_eq_true, Bool.not_eq_true', Option.isNone_iff_eq_none, beq_iff_eq] at h
    obtain ⟨⟨⟨⟨⟨h1, h2⟩, h3⟩, h4⟩, h5⟩, h6⟩ := h
    exact ⟨_, x, hx, h1, h2, h3, h4, h5, h6⟩
  · simp at h
theorem witness_StaleLatch : ∃ (x : Exe) (o : Opnd) (k : Nat), o.dst = false ∧ latchCode (x.parts.at o.pos) = some k ∧
    x.th.latch k = .none := by
  obtain ⟨x, u, -, -, h⟩ := goes_of (i := .nop (fz)) (oc := noCheck) (s := run (.nop (fz)))
    (f := fun x _ => x.th.latch 0 == .none) (by decide +kernel)
  exact ⟨{ x with parts := { x.parts with a := 0x7C } }, { pos := .a, cls := .s, dst := false }, 0, rfl, (by decide : latchCode 0x7C = some 0),
    by simpa using h⟩

/-- A context whose handler starts at 64. -/
def handled (i : Instr) : State := let s := run i; { s with contexts := s.contexts.put 1 { handler := 64 } }

theorem witness_TrapEntries : ∃ c t q k, (handled (.nop (fz))).crews.get? 1 = some c ∧ c.teams.get? 0 = some t ∧
    t.path? 0 = some q ∧ (handled (.nop (fz))).contexts.get? c.ctx = some k ∧ k.handler ≠ 0 ∧ t.handler = false ∧
    ¬(Cause.general.cls.debug = true ∧ t.stepctl.getLsbD 1 = true) ∧ q.handler = false :=
  ⟨_, _, _, _, rfl, rfl, rfl, rfl, by decide, rfl, by decide, rfl⟩
theorem witness_TrapsThatStop :
    (∃ c t q, (inHandler (.nop (fz))).crews.get? 1 = some c ∧ c.teams.get? 0 = some t ∧ t.path? 0 = some q ∧ t.handler = true) ∧
    (∃ c t q, (run (.nop (fz))).crews.get? 1 = some c ∧ c.teams.get? 0 = some t ∧ t.path? 0 = some q ∧ t.handler = false ∧
      ∀ k, (run (.nop (fz))).contexts.get? c.ctx = some k → k.handler = 0) ∧
    (∃ c t q, (lab (fun t => { t with stepctl := 2 }) (.nop (fz))).crews.get? 1 = some c ∧ c.teams.get? 0 = some t ∧
      t.path? 0 = some q ∧ t.handler = false ∧ t.stepctl.getLsbD 1 = true) ∧
    (∃ c : Cause, c.cls.debug = true) := by
  refine ⟨⟨_, _, _, rfl, rfl, rfl, rfl⟩, ⟨_, _, _, rfl, rfl, rfl, rfl, ?_⟩, ⟨_, _, _, rfl, rfl, rfl, rfl, by decide⟩, ?_⟩
  · intro k hk
    have : some ({} : Context) = some k := hk
    cases this; rfl
  · exact ⟨.breakpoint 0, by decide⟩
theorem witness_TrapAndReturn :
    (∃ t, (lab (fun t => { t with handler := true, paths := [{ pc := 64, mask := 1, handler := true },
        { pc := 64, mask := 2, creation := 1, handler := true }] }) (.tret (fz))).team? placedParty = some t ∧
      1 < (t.paths.filter (·.handler)).length) ∧
    (∃ c t q k t', (handled (.nop (fz))).crews.get? 1 = some c ∧ c.teams.get? 0 = some t ∧ t.path? 0 = some q ∧
      (handled (.nop (fz))).contexts.get? c.ctx = some k ∧ k.handler ≠ 0 ∧ t.handler = false ∧ q.handler = false ∧
      (takeTrap placedParty 0 { cause := .general, mask := 1, pos := 15 } (handled (.nop (fz)))).team? placedParty = some t') := by
  refine ⟨⟨_, rfl, by decide⟩, _, _, _, _, ?_, rfl, rfl, rfl, rfl, by decide, rfl, rfl, ?_⟩
  rotate_left
  · rfl

/-- The clause holds a NOP after the instruction. -/
def andNop (f : Team → Team) (i : Instr) : State := (State.reset.place (encode i ++ [0x0D000000])).updTeam placedParty f

theorem witness_RegisterFrames :
    (∀ w ∈ [false, true], ∃ x u, Goes (.sadd { rrr 2 4 6 with w := w }) noCheck (andNop id (.sadd { rrr 2 4 6 with w := w })) x u ∧
      GoesAlone (.sadd { rrr 2 4 6 with w := w }) noCheck (andNop id (.sadd { rrr 2 4 6 with w := w })) x u ∧
      x.cl.pos + x.parts.words ≤ x.cl.words.length ∧ x.p.kind ≠ .trail ∧ x.team.role = .off) ∧
    (∀ w ∈ [false, true], ∃ x u, Goes (.vadd { rrr 2 4 6 with w := w }) noCheck (andNop id (.vadd { rrr 2 4 6 with w := w })) x u ∧
      GoesAlone (.vadd { rrr 2 4 6 with w := w }) noCheck (andNop id (.vadd { rrr 2 4 6 with w := w })) x u ∧
      x.cl.pos + x.parts.words ≤ x.cl.words.length ∧ x.p.kind = .team ∧ x.team.role = .off) := by
  refine ⟨fun w h => goes_with ?_, fun w h => goes_with ?_⟩ <;> revert w <;> decide +kernel

/-- The same with page 0 mapped. -/
def mappedAndNop (i : Instr) : State := (mapped id i).updClause placedParty fun c => { c with words := c.words ++ [0x0D000000] }

/-- What `Quiet` asks, with the place of the instruction in its clause. -/
def quietB (as : Exe → State → List LaneAddr) (x : Exe) (u : State) : Bool :=
  ((x.pair? u).isNone && u.replicas.isEmpty) && (as x u).all (fun a => match a.res with | .ok y => y.fill.isNone | _ => true) &&
  (match u.team? x.p with
   | none => false
   | some t => (t.thread x.p.kind).loads.length < 63 && (t.thread x.p.kind).stores.length < 63) &&
  x.cl.pos + x.parts.words ≤ x.cl.words.length && x.p.kind == .team && x.team.role == .off

theorem quiet_of {as x u} (h : quietB as x u = true) : Quiet x u (as x u) ∧ NotLast x ∧ x.p.kind = .team ∧ x.team.role = .off := by
  simp only [quietB, Bool.and_eq_true, Option.isNone_iff_eq_none, beq_iff_eq, decide_eq_true_eq, List.all_eq_true,
    List.isEmpty_iff] at h
  obtain ⟨⟨⟨⟨⟨⟨h1, hr⟩, h2⟩, h3⟩, h4⟩, h5⟩, h6⟩ := h
  refine ⟨⟨h1, hr, fun a ha y hy => ?_, ?_⟩, h4, h5, h6⟩
  · have := h2 a ha
    rw [hy] at this; simpa using this
  · split at h3
    · simp at h3
    · rename_i t ht
      simp only [Bool.and_eq_true, decide_eq_true_eq] at h3
      exact ⟨t, ht, h3⟩

/-- The hypotheses of the statement on memory frames, met together. -/
def Framed (i : Instr) (oc : Exe → State → Option Cause) (kind : Nat) (k : Access) (as : Exe → State → List LaneAddr) : Prop :=
  ∃ x u, Goes i oc (mappedAndNop i) x u ∧ Quiet x u (as x u) ∧ NotLast x ∧ x.p.kind = .team ∧ x.team.role = .off ∧
    Reaches x (as x u) ∧ Unwatched x u kind (moved x) (as x u) ∧
    (k = .store → partialLanes ((as x u).filterMap (elemOf? x)) = []) ∧ (k ≠ .store → Unpoisoned x u (as x u))

theorem framed_of {i oc kind k as}
    (h : goesB oc (mappedAndNop i) i (fun x u => accessB kind k as x u && quietB as x u) = true) : Framed i oc kind k as := by
  obtain ⟨x, u, hg, -, h⟩ := goes_of h
  simp only [accessB, Bool.and_eq_true, Option.isNone_iff_eq_none, beq_iff_eq] at h
  obtain ⟨⟨⟨⟨h1, h2⟩, h3⟩, h4⟩, hq⟩ := h
  obtain ⟨q1, q2, q3, q4⟩ := quiet_of hq
  exact ⟨x, u, hg, q1, q2, q3, q4, reaches_of h1, h2, fun hk => by simpa [hk] using h3,
    fun hk => unpoisoned_of (by simpa [hk] using h3)⟩

theorem witness_MemoryFrames :
    Framed (.st (mw 2 4 0)) windowCheck 8 .store (fun x u => x.mwAccess u .store) ∧
    Framed (.stg (rrr 2 4 6)) noCheck 8 .store (fun x u => x.ptrAccess u .store) ∧
    Framed (.stp (rrr 2 4 6)) noCheck 8 .store planeOf ∧
    Framed (.ld (mw 2 4 0)) windowCheck 7 .load (fun x u => x.mwAccess u .load) ∧
    Framed (.ldg (rrr 2 4 6)) noCheck 7 .load (fun x u => x.ptrAccess u .load) ∧
    Framed (.ldp (rrr 2 4 6)) noCheck 7 .load planeOf := by
  refine ⟨?_, ?_, ?_, ?_, ?_, ?_⟩ <;> exact framed_of (by decide +kernel)

end Sys2Proof.Tests

/-! ### Events of the board, the ring and the links -/

namespace Sys2Proof.Tests

open Sys2Proof Machine Claims

set_option maxRecDepth 100000
set_option Elab.async false

/-- A module with power-good, its hub dies and an Ultra Ethernet port up, offering a service, some ticks in. -/
def up (v : Service) (now : DWord) : State :=
  { State.reset with now := now, uec := [(0, .up)], mod := { State.reset.mod with powered := true, good := true, hubUp := 15, service := v } }

theorem witness_BoardEvents : (0x03 : Byte) ∉ [0x01, 0x02, 0x10, 0x11, 0x20, 0x21, 0x30] ∧
    ∃ s : State, s.mod.powered = true ∧ s.mod.held = false ∧ s.mod.good = false :=
  ⟨by decide, { State.reset with mod := { State.reset.mod with powered := true } }, rfl, rfl, rfl⟩

theorem witness_GrainRing : (∃ s : State, s.mod.good = true ∧ s.token.die < 16 ∧ s.roundDue = true) ∧
    (let s := up .full 3400
     s.mod.good = true ∧ (s.die 15).dropped = false ∧ 3400 ≤ (s.now - (s.die 15).tokenSeen).toNat) ∧
    (∃ s : State, s.mod.good = true ∧ ∀ d < 16, (s.die d).dropped = true) :=
  ⟨⟨up .full 0, rfl, by decide, by decide +kernel⟩, by decide +kernel,
   ⟨{ up .full 3400 with dies := (up .full 3400).dies.map fun e => (e.1, { e.2 with dropped := true }) }, rfl, by decide +kernel⟩⟩

/-- Some dies are trained. -/
def trained (ds : List Nat) (s : State) : State := ds.foldl (fun s d => s.updDie d fun x => { x with trained := true }) s

theorem witness_DieTrained :
    (∀ d ∈ [12, 15], (up .off 0).booted = true ∧ (up .off 0).mod.service ≠ .recovery ∧ ((up .off 0).die d).trained = false ∧
      ((up .off 0).die d).failed = false) ∧
    (let s := trained [12, 13, 14, 15] (up .off 0)
     s.booted = true ∧ s.hubsTrained = true ∧ (s.die 0).trained = false ∧ (s.die 0).failed = false) ∧
    (let s := trained [12, 13, 14, 15, 0] (up .reduced 0)
     s.hubsTrained = true ∧ (s.die 0).trained = true ∧ (s.die 11).trained = false ∧ (s.die 11).failed = false) := by
  decide +kernel

/-- A throttled team of a cluster, withheld since tick 0. -/
def throttled : State :=
  let s := lab (fun t => { t with withheld := some 0 }) (.nop (fz))
  { s with now := 170000, launches := s.launches.upd 1 fun l => { l with te := true } }

theorem witness_BringUpAndPower :
    (let s := trained [12, 13, 14, 15, 0] (up .reduced 612000000000)
     s.booted = true ∧ 612000000000 ≤ s.now.toNat ∧ s.allTrained = false ∧ s.mod.service = .reduced) ∧
    (let s := up .full 0
     s.booted = true ∧ (s.die 15).retired = false ∧ s.replanDue 15 { reason := .bringUp } = true ∧
       (let u := { s.planned 15 5 0xFFFF with now := 200000000000000 }
        u.replanDue 15 { reason := .daily } = true ∧ u.replanDue 15 { reason := .temperature, temp := 106 } = true ∧ u.replanDue 15 { reason := .leakage, leak := 1 } = true ∧
          u.replanDue 15 { reason := .temperature, temp := 105 } = false)) ∧
    (let s := (up .full 100).updCluster 0 fun c => { c with target := 5 }
     (s.now - (s.cluster 0).changed).toNat < 1700 ∧ (s.cluster 0).fill ≠ (s.cluster 0).target) ∧
    ((throttled.cluster 0).slots.get? 0 = some placedParty ∧ (throttled.team? placedParty).map (·.withheld) = some (some 0) ∧
      (throttled.launchOf? 1).map (·.te) = some true ∧ 170000 ≤ (throttled.now - 0).toNat) ∧
    (let s := (up .full 0).updCluster 0 fun c => { c with due := [[(1, 3)]] }
     (s.cluster 0).due = [[(1, 3)]]) ∧
    (let s := trained [3] (up .full 0)
     s.dieWorks 3 = true ∧ (s.die 3).assay = none ∧ (s.die 3).assayTick.toNat ≤ s.now.toNat ∧ s.assayCore 3 = some 96) ∧
    (let s := (up .full 680000).updDie 3 fun d => { d with assay := some (96, 0, 0) }
     (s.die 3).assay = some (96, 0, 0) ∧ s.onCore 96 = [] ∧ s.trailsOn 96 = [] ∧ 680000 ≤ (s.now - 0).toNat) := by
  decide +kernel

/-- Port 63 is up. -/
def linked : State := { up .full 0 with ports := [(63, { state := .up })] }
/-- A data flit with sequence number 0, its crc in the last bytes. -/
def flit : List Byte := let b := List.replicate 248 (0 : Byte); b ++ bytesOf 8 (crc64 b)

theorem witness_LinkEvents : (linked.port 63).up = true ∧ (linked.port 63).live = true ∧
    (flit.length = 256 ∧ crc64 (flit.take 248) = le flit 248 8 ∧ le flit 0 1 ≤ 3 ∧ le flit 1 1 ≤ 3 ∧ le flit 2 2 < 4096 ∧
      le flit 4 2 < 4096) ∧ le flit 1 1 = 0 ∧ BitVec.ofNat 12 (le flit 2 2) = (linked.port 63).rxNext ∧
    (let s := { linked with ports := [(63, { state := .up, rxNext := 1, skipping := true })] }
     (s.port 63).up = true ∧ BitVec.ofNat 12 (le flit 2 2) ≠ (s.port 63).rxNext ∧ (s.port 63).skipping = true) ∧
    (let s := { linked with ports := [(0, { state := .up, retraining := true })] }
     (s.port 0).retraining = true) ∧
    (¬ ([] : List Byte).length = 256) ∧ (linked.port 63).skipping = false ∧
    (let s := { linked with ports := [(63, { state := .up, rxNext := 4095 })] }
     (s.port 63).live = true ∧ (s.port 63).skipping = false ∧ BitVec.ofNat 12 (le flit 2 2) ≠ (s.port 63).rxNext ∧
       (BitVec.ofNat 12 (le flit 2 2) - (s.port 63).rxNext).toNat < 2048) ∧
    (linked.booted = true ∧ linked.mod.service ≠ .recovery ∧ linked.mod.joined = false ∧ linked.mod.duplicate = false) ∧
    (let s := linked.updDie 15 fun d => { d with trained := true }
     s.portHub 63 = true ∧ s.portHub 0 = false ∧ s.cxlHub 3 = true) := by
  decide +kernel

/-- An exposure of context 1 with handle 5, of 16 bytes at pointer 0, on a page that the tables of memory map. -/
def tables (s : State) : State :=
  let s1 := { s with contexts := [(1, { root := 0x20000100000, regions := [(0, anyRegion)] })],
                     exposures := [(5, { ctx := 1, base := 0, len := 16, read := true, write := true })] }
  let s2 := s1.writeBytes 0x20000100000 (bytesOf 16 (1 + 0x20000200000 / 4096 * 2 ^ 64))
  let s3 := s2.writeBytes 0x20000200000 (bytesOf 16 (1 + 0x20000300000 / 4096 * 2 ^ 64))
  s3.writeBytes 0x20000300000 (bytesOf 16 (anyLeaf 0).toNat)

/-- A queue with a notification address. -/
def notified : State :=
  { trained [12] (up .full 0) with queues := [(3, { ctx := 1, ring := 0, status := 0, n := 1, cap := 0, proc := 3, handle := 9, addr := 64 })] }

/-- The leaf of page 0 migrates. -/
def moving (s : State) : State := (tables s).writeBytes 0x20000300000 (bytesOf 16 ((anyLeaf 0) ||| 1#128 <<< 10).toNat)

theorem witness_InboundEvents :
    (up .full 0).uecUp = true ∧ ({} : UecForm).taken = true ∧ ({ mode := .unreliable } : UecForm).taken = false ∧
    ((up .full 0).exposed 5 0 1 true = none) ∧ (tables (up .full 0)).exposed 5 0 16 true = some (1, 0) ∧
    (match (tables (up .full 0)).ctxPieces (engineAgent 1) .store 0 16 with | .ok ps => ps.length | _ => 0) = 1 ∧
    (match (moving (up .full 0)).ctxPieces (engineAgent 1) .store 0 16 with
      | .error (x, _) => x.patience | _ => none) = some 34000 ∧
    (match (up .full 0).ctxPieces (engineAgent 1) .store 0 16 with | .error (x, _) => x.patience.isNone | _ => false) = true ∧
    (match (tables (up .full 0)).ctxPieces (engineAgent 1) .load 8 8 with
      | .ok ps => ps.all fun x => (List.range x.2).all fun i => !(tables (up .full 0)).poisoned (x.1.addr + i)
      | _ => false) = true ∧
    ((tables (up .full 0)).exposures.get? 5).map (fun e => decide (e.len < 9 + 8)) = some true ∧
    (tables (up .full 0)).notifyQueue 5 = none ∧
    (notified.notifyQueue 9).map (fun e => (e.1, e.2.addr)) = some (3, 64) ∧ (notified.queues.get? 3).isSome = true ∧
    (let s := { linked with opened := [(0, 0x20000000000, 65536)] }
     s.domainUp = true ∧ (up .full 0).domainUp = false ∧ s.openedHere 0x20000000000 16 = true ∧
       ∀ i < 16, s.poisoned (0x20000000000 + i) = false) := by
  refine ⟨?_, ?_, ?_, ?_, ?_, ?_, ?_, ?_, ?_, ?_, ?_, ?_, ?_, ?_⟩ <;> decide +kernel

end Sys2Proof.Tests

/-! ### Requests of the service, and packets -/

namespace Sys2Proof.Tests

open Sys2Proof Machine Claims

set_option maxRecDepth 100000
set_option Elab.async false

def req (ctx : BitVec 16) (body : List Byte) : Request :=
  { client := 0, reqid := 7, ctx := ctx, length := BitVec.ofNat 16 body.length, status := 0, body := body }
/-- A body of `n` bytes that hold a number. -/
def body (n v : Nat) : List Byte := bytesOf n v

/-- Context 1 is open, with tables that map page 0 and a region over every page. -/
def open1 : State := trained [12] (tables (up .full 5000))
def ctx1 : Context := { root := 0x20000100000, regions := [(0, anyRegion)] }

/-- With no engine at work, no page of a request is held. -/
theorem noneHeld_of {s : State} {r : Request} (h : s.cores = []) (hp : s.packets = []) : NoneHeld s r := fun _ _ => by
  simp [State.engineHolds, h, hp]

theorem witness_NoneHeld (r : Request) : NoneHeld open1 r ∧ NoneHeld (up .recovery 0) r := ⟨noneHeld_of rfl rfl, noneHeld_of rfl rfl⟩

theorem witness_RequestsRefused :
    open1.serviceRuns = true ∧ (up .recovery 0).serviceRuns = true ∧ open1.uecUp = true ∧ (up .recovery 0).uecUp = true ∧ (req 1 []).form.taken = true ∧
    ({ req 1 [] with form := { atomic := true } } : Request).form.taken = false ∧
    (up .recovery 0).mod.service ≠ .off ∧ (up .recovery 0).mod.service = .recovery ∧ open1.mod.service ≠ .recovery ∧
    (req 1 []).malformed 8 = true ∧ (255 : Nat) < (req 256 []).ctx.toNat ∧
    (let s := { open1 with contexts := [(1, { ctx1 with closing := some 0 })] }
     (s.contexts.get? 1).map (·.closing) = some (some 0)) ∧ open1.contexts.get? 2 = none := by decide +kernel

/-- The placed crew, seen as one of a packet's launch in queue 3, its context served. -/
def debugged (f : Team → Team) : State :=
  let s := trained [12] (lab f (.nop (fz)))
  { s with mod := (up .full 0).mod, uec := [(0, .up)], now := 17000000000, sessions := [(1, { ctx := 1 })],
           launches := s.launches.upd 1 fun l => { l with source := .packet 3 0 } }
/-- A debug operation of session 1 on team 0 of crew 0 of the packet (3, 0). -/
def debugReq (op item data : Nat) : Request := req 1 (body 48 (1 + op * 2 ^ 64 + 3 * 2 ^ 96 + item * 2 ^ 256 + data * 2 ^ 320))

def svc : State := trained [12] (up .full 0)
def createReq : Request := req 0 (body 24 64)
theorem witness_CreateContext : createReq.malformed 24 = false ∧ createReq.num 0 8 % 4 = 0 ∧
    canonical (createReq.ptr 0) = true ∧ createReq.num 8 8 = 0 ∧ createReq.num 16 8 = 0 ∧
    svc.freeContext = some 1 ∧ (svc.takeFrames 2 1 1).isSome = true := by decide +kernel

def busy1 : State := { open1 with launches := [(9, placedLaunch)] }
theorem witness_CloseContext : Served busy1 (req 1 (body 8 10000000)) 8 ctx1 ∧
    (req 1 (body 8 10000000)).num 0 8 ≤ 10000000 ∧ busy1.busyContext 1 = true ∧ open1.busyContext 1 = false := by
  unfold Served Arrives
  decide +kernel

def closing1 : State := { open1 with contexts := [(1, { ctx1 with closing := some 5000 })] }
theorem witness_CloseGrace : (closing1.contexts.get? 1).map (·.closing) = some (some 5000) ∧
    (5000 : DWord).toNat ≤ closing1.now.toNat := by decide +kernel

def regionReq : Request := req 1 (body 24 (255 + (0x9F + 2 ^ 32 + 2 ^ 64) * 2 ^ 64))
theorem witness_SetRegion : Served open1 regionReq 24 ctx1 ∧ regionReq.num 1 7 = 0 ∧
    (let e := BitVec.ofNat 128 (regionReq.num 8 16)
     e.extractLsb' 96 32 = 0 ∧ e.extractLsb' 8 24 = 0 ∧ e.getLsbD 6 = false ∧ regionBase e ≤ regionLimit e) := by
  unfold Served Arrives
  decide +kernel

def mapReq : Request := req 1 (body 32 (0x10000000 + 1 * 2 ^ 64 + 2 * 2 ^ 128 + 3 * 2 ^ 152))
theorem witness_Map : Served open1 mapReq 32 ctx1 ∧ (mapBody mapReq).bad mapReq = false ∧
    open1.inRegion 1 (mapBody mapReq).va (65536 * (mapBody mapReq).pages) = true ∧
    (mapBody mapReq).frame = 0 ∧ (mapBody mapReq).node = open1.node := by
  unfold Served Arrives
  decide +kernel
theorem witness_Map_applies : ((mapBody mapReq).frames open1 1).isSome = true ∧
    ((((mapBody mapReq).frames open1 1).any fun x => ((mapBody mapReq).at x.1).all ((mapBody mapReq).leafOk open1)) = true) ∧
    ((mapBody mapReq).apply 1 open1).isSome = true := by decide +kernel

theorem witness_Unmap : Served open1 (req 1 (body 16 (2 ^ 64))) 16 ctx1 ∧ open1.inRegion 1 0 65536 = true := by
  unfold Served Arrives
  decide +kernel
theorem witness_Unmap_applies : (open1.unmapPages 1 0 1).isSome = true := by decide +kernel

def homeReq : Request := req 1 (body 24 (16 * 2 ^ 64 + 3 * 2 ^ 128))
theorem witness_SetHome : Served open1 homeReq 24 ctx1 ∧ 1 ≤ homeReq.num 8 8 ∧ homeReq.num 8 8 ≤ 2 ^ 40 ∧
    homeReq.num 16 1 ≤ 3 ∧ homeReq.num 17 7 = 0 ∧ open1.inRegion 1 (homeReq.ptr 0) (homeReq.num 8 8) = true := by
  unfold Served Arrives
  decide +kernel

def queueReq : Request := req 1 (body 24 (0x1000 * 2 ^ 64 + 1 * 2 ^ 128))
theorem witness_CreateQueue : Served open1 queueReq 24 ctx1 ∧ 1 ≤ queueReq.num 16 1 ∧ queueReq.num 16 1 ≤ 16 ∧
    queueReq.num 17 1 ≤ 3 ∧ queueReq.num 18 6 = 0 ∧ queueReq.num 8 8 % 16 = 0 ∧
    queueReq.num 0 8 % (min (64 * 2 ^ queueReq.num 16 1) 65536) = 0 ∧
    open1.inWritable 1 (queueReq.ptr 0) (64 * 2 ^ queueReq.num 16 1) = true ∧
    open1.inWritable 1 (queueReq.ptr 8) 16 = true ∧ open1.freeQueue.isSome = true := by
  unfold Served Arrives
  decide +kernel

def queued1 : State := { notified with contexts := [(1, ctx1)] }
theorem witness_DestroyQueue : Served queued1 (req 1 (body 8 3)) 8 ctx1 ∧ (req 1 (body 8 3)).num 4 4 = 0 ∧
    (queued1.queueOf 1 3).map (·.state) = some .active := by
  unfold Served Arrives
  decide +kernel

def stopped1 : State :=
  { queued1 with queues := queued1.queues.map fun (e : Nat × UQueue) => (e.1, { e.2 with state := .stopped }) }
def resetReq : Request := req 1 (body 16 (3 + 2 ^ 32 + 2 * 2 ^ 64))
theorem witness_ResetQueue : Served stopped1 resetReq 16 ctx1 ∧ resetReq.num 4 4 = 1 ∧
    (stopped1.queueOf 1 3).map (fun u => (u.state, u.ri, u.n)) = some (.stopped, 0, 1) ∧
    (resetReq.ptr 8).toNat ≤ 2 ^ 1 := by
  unfold Served Arrives
  decide +kernel

theorem witness_OtherRequests : (req 0 (body 32 0)).malformed 32 = false ∧ Served open1 (req 1 (body 16 5)) 16 ctx1 ∧
    ((15 : BitVec 16).toNat = 0 ∨ 0xE < (15 : BitVec 16).toNat) := by
  unfold Served Arrives
  decide +kernel

/-- A debug operation of session 1 on the session itself: ARM_SNAP and READ_SNAP name no team. -/
def snapReq (op item : Nat) : Request := req 1 (body 48 (1 + op * 2 ^ 64 + item * 2 ^ 256))
def armed1 : State := { debugged id with sessions := [(1, { ctx := 1, mask := 15 })] }

theorem witness_AttachDebug : Served (debugged id) (req 1 []) 0 {} ∧ (debugged id).freeSession = some 2 := by
  unfold Served Arrives
  decide +kernel

theorem witness_DebugStop (op : Nat) (h : op ∈ [1, 2, 3, 4, 5]) :
    Served (debugged id) (debugReq op 0 0) 48 {} ∧ debugBad (debugReq op 0 0) op = false ∧
    ((debugged id).session? (debugReq op 0 0)).isSome = true ∧
    ((debugged id).debugTeam (debugReq op 0 0)).map (fun e => (e.1, e.2.debugStopped)) = some (placedParty, false) := by
  unfold Served Arrives
  revert op
  decide +kernel

def halted1 : State := debugged fun t => { t with th := { t.th with waits := [.debug] } }
theorem witness_DebugRead :
    (halted1.debugTeam (debugReq 4 0 0)).map (·.2.debugStopped) = some true ∧
    ((halted1.debugTeam (debugReq 4 0 0)).any fun e => (halted1.debugValue (debugReq 4 0 0) e.1 e.2).isSome) = true ∧
    ((halted1.debugTeam (debugReq 5 0 9)).any fun e => (halted1.debugPut (debugReq 5 0 9) e.1 e.2).isSome) = true := by
  decide +kernel

theorem witness_ArmSnap : Served armed1 (snapReq 6 15) 48 {} ∧ debugBad (snapReq 6 15) 6 = false ∧
    (armed1.session? (snapReq 6 15)).isSome = true ∧ armed1.snapshot = none ∧ (armed1.armed .pin).isSome = true ∧
    armed1.armed (.snap 2) = none := by
  unfold Served Arrives
  decide +kernel

def frozen1 : State := armed1.trigger .pin
theorem witness_ReadSnap : Served frozen1 (snapReq 7 0) 48 {} ∧ debugBad (snapReq 7 0) 7 = false ∧
    (frozen1.session? (snapReq 7 0)).isSome = true ∧ frozen1.snapshot.map (·.owner) = some 1 ∧
    debugHandle (snapReq 7 0) = 1 ∧
    (let s := { frozen1 with snapshot := frozen1.snapshot.map fun x => { x with owner := 2 } }
     Served s (snapReq 7 0) 48 {} ∧ s.snapshot.map (·.owner) = some 2) := by
  unfold Served Arrives
  decide +kernel

theorem witness_SnapshotTimeout : (let s := { frozen1 with now := 40000000000 }
    s.snapshot.isSome = true ∧ (s.snapshot.all fun x => 17000000000 ≤ (s.now - x.tick).toNat) = true) := by
  decide +kernel

theorem witness_DetachDebug : Served (debugged id) (req 1 (body 8 1)) 8 {} ∧
    ((debugged id).session? (req 1 (body 8 1))).isSome = true := by
  unfold Served Arrives
  decide +kernel

end Sys2Proof.Tests

/-! ### Packets and ingots -/

namespace Sys2Proof.Tests

open Sys2Proof Machine Claims

set_option maxRecDepth 100000
set_option Elab.async false

/-- The 64 bytes of a packet: its type and its other fields, numbered as R44 numbers them. -/
def pkt (type : Nat) (fs : List (Nat × Nat)) : List Byte :=
  bytesOf 64 (type + (fs.map fun f => f.2 * 2 ^ f.1).foldl (· + ·) 0)

/-- Queue 3 of context 1, whose ring and status lie in page 0, with one slot submitted. -/
def ringed (bs : List Byte) : State :=
  let s := trained [12] (tables (up .full 5000))
  { s with queues := [(3, { ctx := 1, ring := 0, status := 0x1000, n := 1, cap := 3, proc := 3, handle := 9, addr := 64, wi := 1 })] }.writeBytes
    0x20000000000 bs
def theQueue (s : State) : UQueue := (s.queueOf 1 3).getD { ctx := 0, ring := 0, status := 0, n := 0, cap := 0, proc := 0, handle := 0, addr := 0 }

/-- The parts of `Fetchable`, with what the slot holds. -/
def fetchB (s : State) (f : Packet → Bool) : Bool :=
  match s.queues.get? 3 with
  | none => false
  | some u => match s.contexts.get? u.ctx with
    | none => false
    | some c => !overdue u.since u.remote s.now && decide (u.wi.toNat - u.ri.toNat ≤ 2 ^ u.n) && s.mayFetch 3 u c && u.reread.all (fun t => t.toNat ≤ s.now.toNat) &&
      match s.slotBytes 3 u c with
      | .ok (bs, _) => f (slotPacket 3 u bs)
      | .error _ => false

theorem fetch_of {s f} (h : fetchB s f = true) :
    ∃ u c bs s1, Fetchable s 3 u c u.reread.isSome bs s1 ∧ f (slotPacket 3 u bs) = true := by
  unfold fetchB at h
  split at h
  · simp at h
  · rename_i u hu
    split at h
    · simp at h
    · rename_i c hc
      simp only [Bool.and_eq_true, decide_eq_true_eq, Bool.not_eq_true'] at h
      obtain ⟨⟨⟨⟨h0, h1⟩, h2⟩, h3⟩, h4⟩ := h
      split at h4
      · rename_i bs s1 hb
        refine ⟨u, c, bs, s1, ⟨hu, hc, rfl, ?_, h0, h1, h2, hb⟩, h4⟩
        intro t ht
        simpa [ht] using h3
      · simp at h4

theorem witness_Fetch_unwritten : ∃ u c bs s1, Fetchable (ringed (pkt 0 [(24, 1)])) 3 u c u.reread.isSome bs s1 ∧
    (decide ((slotPacket 3 u bs).ph ≠ false)) = true :=
  fetch_of (s := ringed (pkt 0 [(24, 1)])) (f := fun p => decide (p.ph ≠ false)) (by decide +kernel)
theorem witness_Fetch_record : ∃ u c bs s1, Fetchable (ringed (pkt 0 [(64, 8)])) 3 u c u.reread.isSome bs s1 ∧
    (!(slotPacket 3 u bs).ph && !(ringed (pkt 0 [(64, 8)])).recordOk (slotPacket 3 u bs)) = true :=
  fetch_of (s := ringed (pkt 0 [(64, 8)])) (f := fun p => !p.ph && !(ringed (pkt 0 [(64, 8)])).recordOk p)
    (by decide +kernel)
theorem witness_Fetch_malformed : ∃ u c bs s1, Fetchable (ringed (pkt 6 [])) 3 u c u.reread.isSome bs s1 ∧
    (!(slotPacket 3 u bs).ph && (ringed (pkt 6 [])).recordOk (slotPacket 3 u bs) && (slotPacket 3 u bs).bad) = true :=
  fetch_of (s := ringed (pkt 6 [])) (f := fun p => !p.ph && (ringed (pkt 6 [])).recordOk p && p.bad) (by decide +kernel)
/-- The same slot, read again after it was found unwritten. -/
def rered : State := (ringed (pkt 0 [(64, 0x2000)])).updQueue 3 fun u => { u with reread := some 4000 }
theorem witness_Fetch_taken : ∃ u c bs s1, Fetchable rered 3 u c u.reread.isSome bs s1 ∧
    (!(slotPacket 3 u bs).ph && rered.recordOk (slotPacket 3 u bs) && !(slotPacket 3 u bs).bad &&
      u.reread.isSome) = true := by
  obtain ⟨u, c, bs, s1, h1, h2⟩ := fetch_of (s := rered) (f := fun p => !p.ph && rered.recordOk p && !p.bad)
    (by decide +kernel)
  refine ⟨u, c, bs, s1, h1, ?_⟩
  have hu := h1.1
  have : (rered.queues.get? 3).map (·.reread) = some (some 4000) := by decide +kernel
  rw [hu] at this
  simp only [Option.map_some, Option.some.injEq] at this
  simpa [this] using h2

/-- Packet 0 of queue 3 stands in the table. -/
def inTable (st : PState) (bs : List Byte) (f : Packet → Packet := id) : State :=
  let s := ringed bs
  { s with packets := [(packetKey 3 0, f { queue := 3, index := 0, ctx := 1, bytes := bs, state := st })] }
def packet0 (s : State) : Packet := (s.packets.get? (packetKey 3 0)).getD { queue := 0, index := 0, ctx := 0, bytes := [] }

/-- A launch of a grid of one crew of one team of one strand, 40 vector registers. -/
def launchPkt (fs : List (Nat × Nat)) : List Byte := pkt 1 ([(256, 1), (280, 1), (288, 1), (312, 39), (322, 63)] ++ fs)

theorem witness_PacketAcquire :
    (let s := inTable .fetched (pkt 0 [])
     (packet0 s).state = .fetched ∧ s.mayStart (packet0 s) = true ∧ (packet0 s).type ≠ 1) ∧
    (let s := inTable .fetched (launchPkt [(11, 1), (12, 4)])
     (packet0 s).state = .fetched ∧ s.mayStart (packet0 s) = true ∧ (packet0 s).type = 1 ∧ (packet0 s).bad = false ∧
       (match (if (packet0 s).af then s.acquireAll else s).readIndirect (packet0 s) with
        | .ok (g, _, _) => some g | .error _ => none) = some (1, 1, 1)) := by decide +kernel

theorem witness_LaunchSettle :
    (let s := inTable .settle (launchPkt []) fun p => { p with status := 9, grid := some (1, 1, 1) }
     Packeted s 3 0 .settle 1 (packet0 s) ∧ (packet0 s).status ≠ 0) ∧
    (let s := inTable .settle (launchPkt [])
     Packeted s 3 0 .settle 1 (packet0 s) ∧ (packet0 s).status = 0 ∧ (packet0 s).grid.getD (0, 0, 0) = (0, 0, 0)) ∧
    (let s := inTable .settle (launchPkt [(20, 1)]) fun p => { p with grid := some (2 ^ 31, 3, 1) }
     Packeted s 3 0 .settle 1 (packet0 s) ∧ 2 ^ 32 < 2 ^ 31 * 3 * 1) ∧
    (let s := inTable .settle (launchPkt [(20, 1)]) fun p => { p with grid := some (100000, 1, 1) }
     Packeted s 3 0 .settle 1 (packet0 s) ∧ (packet0 s).co = true ∧ (packet0 s).perCore * s.countedCores < 100000 * 1 * 1) ∧
    (let s := inTable .settle (launchPkt [(20, 1)]) fun p => { p with grid := some (4, 1, 1) }
     Packeted s 3 0 .settle 1 (packet0 s) ∧ (packet0 s).co = true ∧ (packet0 s).perCore ≠ 0 ∧
       4 * 1 * 1 ≤ (packet0 s).perCore * s.countedCores) := by
  unfold Packeted
  decide +kernel

/-- A packet that has not waited is not overdue. -/
theorem witness_Overdue : (∀ remote now, overdue none remote now = false) ∧
    (packet0 (inTable .fetched (launchPkt []))).since = none ∧ overdue (some 0) false 34000 = false ∧
    overdue (some 0) false 34001 = true ∧ overdue (some 0) true 340000 = false ∧ overdue (some 0) true 340001 = true :=
  ⟨fun _ _ => rfl, by decide +kernel, by decide, by decide, by decide, by decide⟩

def signalB (op : Nat) : Bool :=
  let s := inTable .settle (pkt 3 [(128, 64), (192, op), (256, 1)])
  let p := packet0 s
  p.state == .settle && p.type == 3 && p.op == op && !p.bad &&
    match s.translate (engineAgent p.ctx) .atomic p.word with
    | .ok y => signalPage y true && !s.poisoned y.addr
    | .error _ => false

theorem witness_Signal : (signalB 0 && signalB 1 && signalB 2) = true := by decide +kernel

def waiting0 (st : PState) (now : Option DWord) : State :=
  inTable st (pkt 4 [(128, 64), (192, 0), (256, 0), (320, 1000)]) fun p => { p with deadline := now }

theorem witness_WaitPacket :
    Packeted (waiting0 .settle none) 3 0 .settle 4 (packet0 (waiting0 .settle none)) ∧
    Packeted (waiting0 .running (some 4000)) 3 0 .running 4 (packet0 (waiting0 .running (some 4000))) ∧
    (4000 : DWord).toNat ≤ (waiting0 .running (some 4000)).now.toNat ∧
    ((waiting0 .running (some 4000)).queues.get? 3).map (·.state) = some .active ∧
    (match (waiting0 .running none).translate (engineAgent 1) .load 64 with
     | .ok y => signalPage y false && !(waiting0 .running none).poisoned (y.readAddr 12) &&
        waitCond (packet0 (waiting0 .running none)).op
          (BitVec.ofNat 64 ((waiting0 .running none).readNat (y.readAddr 12) 8)) (packet0 (waiting0 .running none)).operand
     | .error _ => false) = true ∧ (packet0 (waiting0 .running none)).word = 64 := by
  unfold Packeted
  decide +kernel

theorem witness_CopyPacket :
    (let s := inTable .settle (pkt 5 [])
     Packeted s 3 0 .settle 5 (packet0 s) ∧ (packet0 s).len = 0) ∧
    (let s := inTable .settle (pkt 5 [(192, 8), (256, 16)])
     Packeted s 3 0 .settle 5 (packet0 s) ∧ (packet0 s).len ≠ 0 ∧ namedOverlap (packet0 s).slice (packet0 s).slice = true) ∧
    (let s := inTable .settle (pkt 5 [(192, 16), (256, 16)])
     Packeted s 3 0 .settle 5 (packet0 s) ∧ (packet0 s).len ≠ 0 ∧ namedOverlap (packet0 s).slice (packet0 s).slice = false) ∧
    (let s := inTable .running (pkt 5 [(192, 16), (256, 16)])
     Packeted s 3 0 .running 5 (packet0 s)) ∧
    (let s := inTable .settle (pkt 0 [])
     Packeted s 3 0 .settle 0 (packet0 s)) := by
  unfold Packeted
  decide +kernel

/-- A node with key 5. -/
def node5 : Node := { ctx := 1, key := 5, recSize := 4, strands := 1, stage := 0, timer := 0, base := 0x4000, capacity := 32,
                      template := launchPkt [] }
def nodePkt (op : Nat) : List Byte := pkt 2 [(128, 5), (192, op), (200, 4), (208, 1), (256, 0x4000), (320, 32), (384, 0x3000)]
def nodal (st : PState) (op : Nat) (n : Option Node) : State :=
  let s := inTable st (nodePkt op)
  { s.writeBytes 0x20000003000 (launchPkt []) with nodes := n.elim [] fun n => [(7, n)] }

theorem witness_NodeDefine :
    (let s := nodal .settle 0 (some node5)
     Packeted s 3 0 .settle 2 (packet0 s) ∧ (packet0 s).op = 0 ∧ s.nodes.length < 4096 ∧ (s.queues.get? 3).isSome = true ∧
       (s.findNode 1 (packet0 s).key).isSome = true) ∧
    (let s := nodal .settle 0 none
     Packeted s 3 0 .settle 2 (packet0 s) ∧ (packet0 s).bad = false ∧ s.findNode 1 (packet0 s).key = none ∧
       (match s.ctxRead (plainAgent 1) (packet0 s).nodeTemplate 64 with
        | .ok (bs, _) => !({ packet0 s with bytes := bs } : Packet).templateBad
        | .error _ => false) = true) := by
  unfold Packeted
  decide +kernel

theorem witness_NodeArm :
    (∀ op ∈ [1, 2], let s := nodal .settle op (some node5)
     Packeted s 3 0 .settle 2 (packet0 s) ∧ (packet0 s).op = op ∧ s.findNode 1 (packet0 s).key = some 7) ∧
    (let s := nodal .running 2 (some node5)
     Packeted s 3 0 .running 2 (packet0 s) ∧ (packet0 s).op = 2 ∧ s.findNode 1 (packet0 s).key = some 7 ∧
       s.nodes.get? 7 = some node5 ∧ node5.queued = 0 ∧ node5.launches = []) ∧
    (let n := { node5 with armed := true, deadline := some 4000, timer := 100, tail := 1 }
     let s := nodal .settle 1 (some n)
     s.nodes.get? 7 = some n ∧ (4000 : DWord).toNat ≤ s.now.toNat) := by
  unfold Packeted
  decide +kernel

/-- The placed crew is retired: its launch has drained. -/
def drained (src : LaunchSource) : State :=
  let s := (run (.nop (fz))).updCore 0 fun k => { k with track := [] }
  { s with crews := s.crews.upd 1 fun c => { c with state := .retired },
           launches := s.launches.upd 1 fun l => { l with source := src, cores := [0], next := l.total, halt := some (0, 5, 2) } }

theorem witness_LaunchDrained :
    (∀ src ∈ [LaunchSource.packet 3 0, .node 7],
      ((drained src).launches.get? 1).map (fun l => (l.source, l.tainted, (drained src).drained 1 l, endOf l)) =
        some (src, false, true, (5, 0x200000005)) ∧
      ((drained src).launches.get? 1).map (drained src).awaitsEntry = some false) ∧
    (let s := (inTable .confirming (launchPkt []) fun p => { p with cores := [(0, 5)] }).updCore 0 fun k => { k with lastPass := 6 }
     (packet0 s).state = .confirming ∧ ∀ c ∈ (packet0 s).cores, c.2.toNat < (s.core c.1).lastPass.toNat) := by
  decide +kernel

end Sys2Proof.Tests

/-! ### Events of crews, accesses and engines -/

namespace Sys2Proof.Tests

open Sys2Proof Machine Claims

set_option maxRecDepth 100000
set_option Elab.async false

def ingotReq : Request := req 1 (body 24 (0x1000000000000 + 2 ^ 30 * 2 ^ 64))
/-- Context 1 beside a persistent memory of 2^40 bytes. -/
def pooled : State := { open1 with cxl := open1.cxl.write {} 0 { open1.cxl.read {} 0 with capacity := 2 ^ 40, kind := 3 } }
theorem witness_RequestIngot : (pooled.ingotBody ingotReq).map (fun b => (b.pool, b.len)) = some (0x1000000000000, 2 ^ 30) ∧
    (pooled.contexts.get? 1).map (·.closing) = some none ∧
    (pooled.scopeCrews 1).all (fun c => pooled.sealable c.1 c.2) = true ∧
    (pooled.ingotBody (req 1 (body 24 0x1000000000000))).map (·.len) = some 0 ∧
    (let s := { pooled with contexts := [(1, { root := 0x20000500000 })] }
     s.persistentAt (0x1000000000000 + (s.gatherIngot 1 0x1000000000000).1.size - 1) = true) := by decide +kernel

theorem witness_IngotSeal :
    (let i : Ingot := { ctx := 1, gen := 1, tick := 5, pool := 0x30000000000, chunks := 1, queues := [], pages := [], crews := [],
                        pairs := [], launches := [], packets := [], nodes := [], channels := [], cores := [0], contexts := [1], flushed := true }
     let s := { open1.updCore 0 fun k => { k with lastPass := 6 } with ingots := [i] }
     (s.ingots.find? fun i => i.ctx == 1 && !i.sealed) = some i ∧ i.flushed = true ∧ ∀ k ∈ i.cores, i.tick.toNat < (s.core k).lastPass.toNat) := by
  decide +kernel

/-- A launch of one crew that is still to be placed; dies 0 and 12 to 15 are trained. -/
def placing (co : Bool) : State :=
  let s := trained [12, 13, 14, 15, 0] (up .reduced 5000)
  { s with contexts := [(1, ctx1)], launches := [(2, { placedLaunch with next := 0, total := 1, co := co, cores := [] })] }
def theLaunch (s : State) (id : Nat) : Launch := (s.launches.get? id).getD placedLaunch

theorem witness_CrewPlace : ∀ co : Bool, ((placing co).launches.get? 2).isSome = true ∧
    (placing co).mayPlace (2, theLaunch (placing co) 2) 3 = true ∧
    (((placing co).books 3).fit (theLaunch (placing co) 2)).isSome = true ∧ (theLaunch (placing co) 2).co = co := by
  decide +kernel

/-- The whole cooperative grid finds its places. -/
theorem witness_CrewPlace_grid : (let s := placing true
    let l := theLaunch s 2
    match (s.books 3).fit l with
    | some (is, _) => ((s.placeCrew 2 l 3 is).placeGrid 2 (l.total - l.next - 1)).isSome
    | none => false) = true := by decide +kernel

/-- The placed crew in a state. -/
def crewed (st : CrewState) : State :=
  let s := trained [12, 13, 14, 15, 0] (lab (fun t => { t with th := { t.th with issue := none } }) (.nop (fz)))
  { s with now := 5000, crews := s.crews.upd 1 fun c => { c with state := st } }

theorem witness_CrewStates :
    ((crewed .loading).crews.get? 1).map (·.state) = some .loading ∧
    ((crewed .resident).crews.get? 1).map (fun c => (c.state, c.core)) = some (.resident, 0) ∧
    (crewed .resident).migrating (dieOfCore 0) = none ∧
    ((crewed .resident).updCore 0 fun k => { k with hot := some 3300 }).mustLeave 0 = true ∧
    ((crewed .stopping).crews.get? 1).map (·.state) = some .stopping ∧
    (((crewed .stopping).crews.get? 1).any fun c => (crewed .stopping).sealable 1 c &&
      (((crewed .stopping).settleCrew 1 c).crews.get? 1).isSome) = true := by decide +kernel

/-- A saved crew of a launch without scratch, no team of which holds a slot. -/
def saved : State :=
  let s := crewed .saved
  { s with launches := s.launches.upd 1 fun l => { l with scratch := 0 },
           crews := s.crews.upd 1 fun c => { c with image := true, granules := [] } }

theorem witness_CrewRestore : ((saved.crews.get? 1).any fun c => c.state == .saved && !c.shooting &&
      saved.fitsCore true c.launch (theLaunch saved 1) 3 &&
      match (saved.books 3).fit (theLaunch saved 1) with
      | none => false
      | some (is, _) => ((saved.restore 1 c (theLaunch saved 1) 3 is (saved.now - c.stoppedAt)).seatPairs (theLaunch saved 1) 3
          (saved.pairsOf 1)).isSome) = true ∧ (saved.launches.get? 1).isSome = true := by decide +kernel

theorem witness_OutstandingAck :
    (let s := (run (.nop (fz))).updCore 0 fun k => { k with track := [(1, { stores := 2, signals := 1, spawned := 1 })] }
     ((s.core 0).track.get? 1).map (fun e => (e.signals, e.spawned)) = some (1, 1)) := by decide +kernel

/-- The team waits for its trailing copy. -/
def doubled : State :=
  let s := (crewed .resident).updTeam placedParty fun t => { t with th := { t.th with waits := [.tsPlace] } }
  { s with launches := s.launches.upd 1 fun l => { l with te := true } }

theorem witness_TrailingCopyPlace : (doubled.crews.get? 1).map (fun c => (c.state, c.core)) = some (.resident, 0) ∧
    (doubled.team? placedParty).map (·.th.waits) = some [.tsPlace] ∧
    ((doubled.launchOf? 1).any fun l => (doubled.trailHome false l 0 1).isSome) = true ∧
    ((doubled.settleParty placedParty).team? placedParty).isSome = true := by decide +kernel

/-- The placed team with parts of its thread set. -/
def threaded (f : Thread → Thread) : State := lab (fun t => { t with th := f t.th }) (.nop (fz))

theorem witness_AccessEvents :
    ((threaded fun t => { t with loads := [{ writes := [.scalar 2 5] }] }).team? placedParty).map (·.th.loads.length) = some 1 ∧
    ((threaded fun t => { t with stores := [{}] }).team? placedParty).map (·.th.stores.length) = some 1 ∧
    (let s := { threaded fun t => { t with waits := [.sleep 40] } with now := 40 }
     (s.team? placedParty).map (·.th.waits) = some [.sleep 40] ∧ (40 : DWord).toNat ≤ s.now.toNat) ∧
    (let s := threaded fun t => { t with waits := [.word 0 0x20000000000 0 0 0x10000 0 []] }
     (s.team? placedParty).map (fun t => (t.th.waits, t.debugStopped)) =
         some ([.word 0 0x20000000000 0 0 0x10000 0 []], false) ∧
       (s.crews.get? 1).map (·.state) = some .resident ∧ waitCond 0 (s.wordFor placedParty 0x20000000000) 0 = true) ∧
    (let s := lab (fun t => t.setWindow 2 { state := .pending }) (.nop (fz))
     (s.team? placedParty).map (fun t => (t.window 2).state) = some .pending ∧ (s.finishFill placedParty 2).isSome = true) ∧
    (let s := threaded fun t => { t with waits := [.shoot 1 0 1 4] }
     (s.team? placedParty).map (·.th.waits) = some [.shoot 1 0 1 4] ∧ s.engineHolds 1 0 1 (inScope 4 0) = false) ∧
    (let s := { lab (fun t => { t with engines := [{ op := 1, copy := true, quad := 2, promise := 30 }] }) (.nop (fz)) with now := 31 }
     ((s.team? placedParty).any fun t => !t.retired && (t.engines.find? fun e =>
       e.quad == 2 && !e.done && !e.missed && e.promise.ult s.now).isSome) = true ∧
     (s.crews.get? 1).map (fun c => (c.state, (s.core c.core).cupel)) = some (.resident, [])) := by decide +kernel

/-- A pop that has not moved since tick 0, with the entries now in its queue. -/
def popping (i : Instr) (now : DWord) (role : BitVec 3) (xs : List DWord) : State :=
  { (withQueue role xs i).updClause placedParty (fun c => { c with hold := some (.queue, 0) }) with now := now }

theorem witness_QueueStarved :
    ((popping (.qpop (rrs 4 2 0)) 131072 1 []).queueHold placedParty).any
      (fun h => decide (131072 ≤ ((131072 : DWord) - h.2.2).toNat)) = true := by decide +kernel

/-- The push or pop moves when it is tried again. -/
def unblocks (i : Instr) (s : State) : Bool :=
  (s.queueHold placedParty).any (fun h => h.1 == i) &&
    match exec i { s with turn := some placedParty } with
    | .next u => (u.queueHold placedParty).isNone
    | _ => false

theorem witness_QueueUnblock : unblocks (.qpop (rrs 4 2 0)) (popping (.qpop (rrs 4 2 0)) 5 1 [7]) = true ∧
    unblocks (.qpush (rrs 2 4 0)) (popping (.qpush (rrs 2 4 0)) 5 2 [7]) = true := by decide +kernel

/-- The push or pop with which a party holds its slot, as it goes on, and what the clauses on it ask. -/
theorem witness_QueueResults_unblock :
    (let s := popping (.qpush (rrs 2 4 0)) 5 2 [7]
     (s.queueHold placedParty).map (·.1) = some (.qpush (rrs 2 4 0)) ∧
     ∃ x u, GoesFrom (.qpush (rrs 2 4 0)) pushCheck { s with turn := some placedParty } x u ∧
       x.parts.s ≤ 1 ∧ heldIn u placedParty (pushQ x) < 32) ∧
    (let s := popping (.qpush (rrs 2 4 2)) 5 2 []
     (s.queueHold placedParty).map (·.1) = some (.qpush (rrs 2 4 2)) ∧
     ∃ x u, GoesFrom (.qpush (rrs 2 4 2)) pushCheck { s with turn := some placedParty } x u ∧
       2 ≤ x.parts.s ∧ x.passes = [0] ∧ x.cl.moved = 0 ∧ heldIn u placedParty (pushQ x) + (passVals x 0).length ≤ 32) ∧
    (let s := popping (.qpop (rrs 4 2 0)) 5 1 [7]
     (s.queueHold placedParty).map (·.1) = some (.qpop (rrs 4 2 0)) ∧
     ∃ x u, GoesFrom (.qpop (rrs 4 2 0)) popCheck { s with turn := some placedParty } x u ∧
       x.parts.s ≤ 1 ∧ 1 ≤ heldIn u placedParty (popQ x)) ∧
    (let s := popping (.qpop (rrs 4 2 2)) 5 1 (List.replicate 32 0)
     (s.queueHold placedParty).map (·.1) = some (.qpop (rrs 4 2 2)) ∧
     ∃ x u, GoesFrom (.qpop (rrs 4 2 2)) popCheck { s with turn := some placedParty } x u ∧
       2 ≤ x.parts.s ∧ x.passes = [0] ∧ NothingMoved x u ∧
       (x.lanes.filter fun l => l / 32 == 0).length ≤ heldIn u placedParty (popQ x)) := by
  unfold NothingMoved
  refine ⟨⟨?_, goesFrom_with ?_⟩, ⟨?_, goesFrom_with ?_⟩, ⟨?_, goesFrom_with ?_⟩, ?_, goesFrom_with ?_⟩ <;> decide +kernel

/-- An access of lane 0 that has waited since tick 0, at pointer 0, whose leaf has cleared or still migrates. -/
def holding (s : State) (h : Trap → Hold) (now : DWord) (why : Cause := .migrating) : State :=
  { (s.updClause placedParty fun c => { c with
      hold := some (h { cause := why, mask := 1, addr := [(0, 0)] }, 0) }) with now := now }
def cleared1 : State := tables (mapped id (.ld (mw 2 4 0)))
def moving1 : State := cleared1.writeBytes 0x20000300000 (bytesOf 16 ((anyLeaf 0) ||| 1#128 <<< 10).toNat)

def far1 : State := cleared1.writeBytes 0x20000300000 (bytesOf 16 ((anyLeaf 0) ||| 5#128 <<< 109).toNat)

/-- Whether what waits is of a kind, has waited so long, and goes on. -/
def waitsB (s : State) (remote : Bool) (ticks : Nat) (ended : Bool) : Bool :=
  (s.waiting (.access placedParty)).any fun x =>
    x.remote == remote && (s.now - x.since).toNat == ticks && (s.resumed remote (.access placedParty)).isSome == ended

theorem witness_Waits :
    (let s := { holding cleared1 .migrating 34001 with turn := some placedParty }
     s.agenda = [] ∧ (s.waitingAccess placedParty).any (fun w => overdue (some w.since) w.remote s.now) = true ∧
       ((s.team? placedParty).bind fun t => t.th.issue).any (fun c => match decode (c.words.drop (c.pos - 1)) with
         | .ok _ => true
         | .error _ => false) = true) ∧
    waitsB (holding cleared1 .migrating 34001) false 34001 true = true ∧
    waitsB (holding moving1 .migrating 34000) false 34000 false = true ∧
    waitsB (holding far1 .remote 340000 .remoteUnreachable) true 340000 false = true ∧
    waitsB (holding cleared1 .migrating 34000) false 34000 true = true ∧
    ((holding cleared1 .migrating 34000).stillHeld 1 false { cause := .migrating, mask := 1 } = false) := by decide +kernel

/-- Launch 1 has a channel on which its crew has arrived. -/
def treed (k : TreeKind) (n : Nat) (w : Wait) : State :=
  let s := (crewed .resident).updTeam placedParty fun t => { t with th := { t.th with waits := [w] } }
  { s with crews := s.crews.upd 1 fun c => { c with treeArrived := some k, tree := [(0, k)] },
           channels := [(4, { launch := 1, arrived := [(1, k)], phase := n, epoch := 4000 })] }

/-- What the statement on the release asks of channel 4. -/
def released (s : State) : Bool :=
  (s.channels.get? 4).any fun c => !c.abandoned && !c.arrived.isEmpty && !s.exchanging c.launch &&
    (s.launches.get? c.launch).any fun l => s.treeFull c.launch l

theorem witness_BarrierTree : released (treed .gbar 0 (.gbar 3)) = true ∧ released (treed .phase 1 (.phase none)) = true ∧
    ((treed .phase 1 (.phase none)).channels.get? 4).map (·.arrived) = some [(1, .phase)] ∧
    ((treed .gbar 0 (.gbar 3)).channels.get? 4).map (·.arrived) = some [(1, .gbar)] ∧
    ((treed .gbar 0 (.gbar 3)).team? placedParty).any (fun t => t.allWaits.any isGbar) = true ∧
    (let s0 := treed .gbar 0 (.gbar 3)
     let s := { s0 with channels := [(4, { launch := 1, arrived := [(1, .gbar), (1, .phase)], phase := 0, epoch := 4000 })] }
     released s = true ∧ (s.channels.get? 4).any (fun c => c.arrived.any (·.2 != .gbar) && c.arrived.any (·.2 != .phase)) = true) := by
  decide +kernel

theorem witness_PhaseEpoch :
    (let s := treed .phase 1 (.epoch 4000 none 1)
     (s.channels.get? 4).map (·.epoch) = some 4000 ∧ (4000 : DWord).toNat ≤ s.now.toNat ∧
       ((s.teamsOf 1).any fun e => e.2.allWaits.any (· == .epoch 4000 none 1)) = true) := by decide +kernel

/-- A pair whose copies stand at meeting points. -/
def paired (a b : Option (List Word)) (f : Pair → Pair) : State :=
  let mt (m : Option (List Word)) (t : Team) : Team :=
    { t with role := .leading, th := { t.th with issue := m.map fun w => { hdr := 0x10000, path := 0, words := [0], pos := 1, meet := some (0, w) } } }
  let s := (crewed .resident).updTeam placedParty (mt a)
  let t := (s.team? placedParty).getD {}
  { s with pairs := [(pairKey 1 0, f { trail := mt b t, core := 1, leadCp := t, trailCp := t })] }
def pairOf (s : State) : Pair := (s.pair placedParty).getD { trail := {}, core := 0, leadCp := {}, trailCp := {} }

theorem witness_TouchstoneEpochEnd :
    (let s := paired (some [7]) (some [7]) id
     (s.pair placedParty).isSome = true ∧ (s.team? placedParty).map (·.meeting) = some (some [7]) ∧
       (pairOf s).trail.meeting = some [7] ∧ (pairOf s).slack = 0 ∧ (pairOf s).verified = true) ∧
    (let s := paired (some [7]) (some [8]) id
     (s.team? placedParty).map (·.meeting) = some (some [7]) ∧ (pairOf s).trail.meeting = some [8]) ∧
    (let s := paired none none fun q => { q with stalled := true }
     (s.team? placedParty).map (fun t => (t.meeting, t.th.issue)) = some (none, none) ∧ (pairOf s).trail.strayed = false ∧
       (pairOf s).stalled = true ∧ (pairOf s).slack = 0 ∧ (pairOf s).trail.th.issue = none ∧ (pairOf s).verified = true) := by
  decide +kernel

/-- A chaser that runs, at an instruction that no page maps. -/
def chasing : State := (crewed .resident).updTeam placedParty fun t => { t with chaser := { t.chaser with run := .running, pc := 0x10000 } }

def cand (k : Nat) : Cand := { slot := k, p := placedParty, prio := 0, age := 5, yielded := false, need := none, plan := .no }

theorem witness_ClauseIssue : ((crewed .resident).cluster 5).holder = none ∧
    chasing.chaserTurn 0 = some 0 ∧
    (pickCand 3 [cand 1, cand 4]).map (·.slot) = some 4 := by decide +kernel

/-- A copy at the head of core 0's engine. -/
def copying (f : CopyOp → CopyOp) : State :=
  (run (.nop (fz))).updCore 0 fun k => { k with copies := [f { crew := 1, ctx := 1, launch := 1, slices := [], mask := 1 }] }
/-- A dense loop at the head of core 0's Cupel engine, its A rows from the plane. -/
def cupeling (f : CupelOp → CupelOp) : State :=
  (run (.nop (fz))).updCore 0 fun k => { k with
    cupel := [f { crew := 1, team := 0, ctx := 1, launch := 1, kind := .dense, block := [0x30000, 0, 0, 0], home := 0, quad := 1, opId := 1, promise := 9 }] }
def exCopy (s : State) : CopyOp := (copyHead s 0).getD { crew := 0, ctx := 0, launch := 0, slices := [], mask := 0 }
def exCupel (s : State) : CupelOp :=
  (cupelHead s 0).getD { crew := 0, team := 0, ctx := 0, launch := 0, kind := .dense, block := [], home := 0, quad := 0, opId := 0, promise := 0 }

theorem witness_CopyEngine :
    (let s := copying id
     (copyHead s 0).isSome = true ∧ (exCopy s).started = false ∧ (exCopy s).startAt = none) ∧
    (let s := copying fun o => { o with startAt := some 0 }
     (exCopy s).started = false ∧ (exCopy s).startAt = some 0 ∧ (0 : DWord).toNat ≤ s.now.toNat) ∧
    (let s := copying fun o => { o with started := true }
     (exCopy s).cancelled = false ∧ (exCopy s).mayRun s.now = true ∧ (exCopy s).reduce = none) ∧
    (let s := copying fun o => { o with cancelled := true }
     (copyHead s 0).isSome = true ∧ (exCopy s).cancelled = true) ∧ (exCopy (copying id)).cancelled = false := by decide +kernel

/-- A unit of another node: two elements of INT32, to be added at the first RAM bytes. -/
def farUnit (rootq : Bool) : ReduceUnit :=
  { node := 7, core := 1, transfer := 3, unit := 0, dest := 0x20000000000, elem := 5, op := 0, rootq := rootq, key := 2,
    firstElem := 0, data := [1, 0, 0, 0, 2, 0, 0, 0] }

theorem unitNew_of {s : State} {q : ReduceUnit} (h : (s.domainUp && decide (q.elem.toNat ∈ [0, 5, 6, 10, 12]) &&
    decide (q.op ∈ [0, 4, 5]) && ((List.range q.data.length).all fun i => (s.tierOf (q.dest + i)).isSome) &&
    decide (s.seen (q.node * 65536 + q.core) q.transfer q.unit = .new) &&
    ((List.range q.data.length).all fun i => !s.poisoned (q.dest + i))) = true) : UnitNew s q := by
  simp only [Bool.and_eq_true, decide_eq_true_eq, List.all_eq_true, List.mem_range, Bool.not_eq_true'] at h
  obtain ⟨⟨⟨⟨⟨h1, h2⟩, h3⟩, h4⟩, h5⟩, h6⟩ := h
  exact ⟨h1, h2, h3, h4, h5, h6⟩

/-- What has arrived of a sum of two contributions. -/
def half : State := { linked with reds := [(unitAcc (farUnit true), { count := 1, remotes := 1 })] }

theorem witness_ReduceUnits :
    UnitNew linked (farUnit false) ∧ UnitNew linked (farUnit true) ∧ UnitNew half (farUnit true) ∧
    (((linked.reds.read {} (unitAcc (farUnit true))).count + 1 < (farUnit true).key.toNat % 4096) ∧
      ¬ ((half.reds.read {} (unitAcc (farUnit true))).count + 1 < (farUnit true).key.toNat % 4096)) ∧
    ¬ UnitLies linked { farUnit false with dest := 0x1FFFFFFFFFF } ∧
    (let s := { linked with redSeen := [(7 * 65536 + 1, 3, 0)] }
     s.seen (7 * 65536 + 1) 3 0 = .dup) ∧
    (let s := { linked with reds := [(9, { places := [{ addr := 64, tier := 0, fmt := 0, geom := 0, pm := false, node := 7, gen := 0 }] })] }
     (s.reds.get? 9).any (fun a => a.places.length == [(5 : Byte)].length && !a.places.isEmpty) = true) := by
  refine ⟨unitNew_of (by decide +kernel), unitNew_of (by decide +kernel), unitNew_of (by decide +kernel),
    by decide +kernel, fun h => ?_, by decide +kernel, by decide +kernel⟩
  exact absurd (h 0 (by decide)) (by decide +kernel)

def exSlice : Slice :=
  { team := 0, src := 0, dst := 64, len := 256, off := 0, dp := false, sp := false, mask := 1, quad := 1, opId := 1, promise := 9,
    cluster := 0 }

theorem witness_ReduceEngine :
    (let s := copying fun o => { o with started := true, reduce := some (0, 0, false, 0) }
     (exCopy s).started = true ∧ (exCopy s).resume = none ∧ (exCopy s).since = none ∧ (exCopy s).reduce = some (0, 0, false, 0) ∧
       (exCopy s).cancelled = false ∧ (exCopy s).mayRun s.now = true ∧ (exCopy s).total ≤ (exCopy s).unit ∧ s.delivered (exCopy s) = true) ∧
    (let s := copying fun o => { o with started := true, reduce := some (0, 0, false, 0), slices := [exSlice] }
     (exCopy s).unit < (exCopy s).total) ∧ linked.domainUp = true := by decide +kernel

theorem witness_CupelEngine :
    (let s := cupeling id
     let v := s.retakeTile 0 (exCupel s)
     (cupelHead s 0).isSome = true ∧ (v.crews.get? 1).isSome = true ∧ (exCupel s).started = false ∧ (exCupel s).held = false ∧
       (exCupel s).cancelled = false ∧ (exCupel s).isLoop = true ∧ blockAq (exCupel s).block = true ∧ v.cupelRefusal 0 (exCupel s) = none) ∧
    (let s := cupeling fun o => { o with block := [0x20000, 0, 0, 0] }
     ((s.retakeTile 0 (exCupel s)).cupelRefusal 0 (exCupel s)).isSome = true) ∧
    (let s := cupeling fun o => { o with kind := .wbload }
     (exCupel s).isLoop = false ∧ (s.retakeTile 0 (exCupel s)).cupelRefusal 0 (exCupel s) = none) ∧
    (let s := cupeling fun o => { o with cancelled := true }
     (exCupel s).cancelled = true) ∧
    (let s := cupeling fun o => { o with bad := true }
     (exCupel s).cancelled = false ∧ s.bereft (exCupel s) = false ∧ (exCupel s).bad = true) ∧
    (let s := (cupeling fun o => { o with started := true }).updTeam placedParty fun t => { t with retired := true }
     s.bereft (exCupel s) = true) ∧
    (let s := cupeling fun o => { o with block := [0x10000, 0, 0, 0, 0], kept := some [5] }
     (s.retakeTile 0 (exCupel s)).loopRows (exCupel s) = some [5]) ∧
    (let s := { cupeling (fun o => { o with block := [0x10000, 0, 0, 0, 0] }) with crews := [] }
     let v := s.retakeTile 0 (exCupel s)
     v.cupelRefusal 0 (exCupel s) = none ∧ (exCupel s).isLoop = true ∧ v.loopRows (exCupel s) = none) ∧
    (let s := cupeling fun o => { o with started := true, kind := .wbload, block := [] }
     s.bereft (exCupel s) = false ∧ (exCupel s).bad = false ∧ (exCupel s).cancelled = false ∧ (exCupel s).started = true ∧ (exCupel s).hunger = 0 ∧ (exCupel s).since = none) := by
  decide +kernel

end Sys2Proof.Tests

/-! ### Decoding (R220, R226, R227, R229)

The words are written from the opcode rows of R229 and the bit places of R226: D = 5, A = 42, B or S = 17; IMM = 0x2A11;
WIN = 6 and IMM = 9; OFF = 0x12345; A = 5, C3 = 6 and OFF = 0x355. -/

namespace Sys2Proof.Tests

open Sys2Proof Machine Claims

set_option maxRecDepth 100000
set_option Elab.async false

/-- A word stands alone for an instruction. -/
def reads (ws : List Word) (i : Instr) : Bool := match decode ws with
  | .ok (j, []) => j == i
  | _ => false

theorem test_words_00 : ([
      reads [0x00091A28] (.bra (bo 0x12345)),
      reads [0x010B9AA8] (.brc (bc 5 6 0x355)),
      reads [0x020B9AA8] (.brm (bc 5 6 0x355)),
      reads [0x03000000] (.join (fz)),
      reads [0x04091A28] (.call (bo 0x12345)),
      reads [0x05000000] (.ret (fz)),
      reads [0x060AA888] (.jmpi (rrr 5 42 17)),
      reads [0x070B9AA8] (.loop (bc 5 6 0x355)),
      reads [0x08000000] (.exit (fz)),
      reads [0x09000000] (.yield (fz)),
      reads [0x0A0B5088] (.sleep (ri 5 0x2A11)),
      reads [0x0B0AA888] (.wait (rrs 5 42 17)),
      reads [0x0C000000] (.nop (fz)),
      reads [0x0D0B5088] (.part (ri 5 0x2A11)),
      reads [0x0E0AA888] (.mset (rrs 5 42 17)),
      reads [0x0F0AA888] (.mand (rrr 5 42 17))].all id) = true := by decide +kernel

theorem test_words_10 : ([
      reads [0x100AA888] (.mor (rrr 5 42 17)),
      reads [0x110AA888] (.mxor (rrr 5 42 17)),
      reads [0x120AA888] (.mnot (rrr 5 42 17)),
      reads [0x130AA888] (.mmov (rrr 5 42 17)),
      reads [0x140AA888] (.mpop (rrr 5 42 17)),
      reads [0x150AA888] (.mfind (rrr 5 42 17)),
      reads [0x160AA888] (.many (rrr 5 42 17)),
      reads [0x170AA888] (.mall (rrr 5 42 17)),
      reads [0x180AA888] (.mexec (rrr 5 42 17)),
      reads [0x190B5088] (.setix (ri 5 0x2A11)),
      reads [0x1A0AA888] (.srd (rrs 5 42 17)),
      reads [0x1B0AA888] (.swr (rrs 5 42 17))].all id) = true := by decide +kernel

theorem test_words_20 : ([
      reads [0x200AA888] (.smov (rrr 5 42 17)),
      reads [0x210B5088] (.smovi (ri 5 0x2A11)),
      reads [0x220AA888] (.sadd (rrr 5 42 17)),
      reads [0x230AA888] (.ssub (rrr 5 42 17)),
      reads [0x240AA888] (.smul (rrr 5 42 17)),
      reads [0x250AA888] (.smulh (rrr 5 42 17)),
      reads [0x260AA888] (.smad (rrr 5 42 17)),
      reads [0x270AA888] (.sdiv (rrr 5 42 17)),
      reads [0x280AA888] (.srem (rrr 5 42 17)),
      reads [0x290AA888] (.sand (rrr 5 42 17)),
      reads [0x2A0AA888] (.sor (rrr 5 42 17)),
      reads [0x2B0AA888] (.sxor (rrr 5 42 17)),
      reads [0x2C0AA888] (.sshl (rrr 5 42 17)),
      reads [0x2D0AA888] (.sshr (rrr 5 42 17)),
      reads [0x2E0AA888] (.ssar (rrr 5 42 17)),
      reads [0x2F0AA888] (.smin (rrr 5 42 17))].all id) = true := by decide +kernel

theorem test_words_30 : ([
      reads [0x300AA888] (.smax (rrr 5 42 17)),
      reads [0x310AA888] (.scmp (rrr 5 42 17)),
      reads [0x320AA888] (.ssel (rrr 5 42 17)),
      reads [0x330AA888] (.sclz (rrr 5 42 17)),
      reads [0x340AA888] (.spopc (rrr 5 42 17)),
      reads [0x350AA888] (.sbfe (rrr 5 42 17)),
      reads [0x360AA888] (.sbfi (rrr 5 42 17)),
      reads [0x370AA888] (.sadd64 (rrr 5 42 17)),
      reads [0x380AA888] (.qpush (rrs 5 42 17)),
      reads [0x390AA888] (.qpop (rrs 5 42 17))].all id) = true := by decide +kernel

theorem test_words_40 : ([
      reads [0x400AA888] (.vadd (rrr 5 42 17)),
      reads [0x410AA888] (.vsub (rrr 5 42 17)),
      reads [0x420AA888] (.vmul (rrr 5 42 17)),
      reads [0x430AA888] (.vmulh (rrr 5 42 17)),
      reads [0x440AA888] (.vmad (rrr 5 42 17)),
      reads [0x450AA888] (.vand (rrr 5 42 17)),
      reads [0x460AA888] (.vor (rrr 5 42 17)),
      reads [0x470AA888] (.vxor (rrr 5 42 17)),
      reads [0x480AA888] (.vnot (rrr 5 42 17)),
      reads [0x490AA888] (.vshl (rrr 5 42 17)),
      reads [0x4A0AA888] (.vshr (rrr 5 42 17)),
      reads [0x4B0AA888] (.vsar (rrr 5 42 17)),
      reads [0x4C0AA888] (.vmin (rrr 5 42 17)),
      reads [0x4D0AA888] (.vmax (rrr 5 42 17)),
      reads [0x4E0AA888] (.vabs (rrr 5 42 17)),
      reads [0x4F0AA888] (.vcmp (rrr 5 42 17))].all id) = true := by decide +kernel

theorem test_words_50 : ([
      reads [0x500AA888] (.vsel (rrr 5 42 17)),
      reads [0x510AA888] (.vclz (rrr 5 42 17)),
      reads [0x520AA888] (.vpopc (rrr 5 42 17)),
      reads [0x530AA888] (.vbfe (rrr 5 42 17)),
      reads [0x540AA888] (.vbfi (rrr 5 42 17)),
      reads [0x550AA888] (.vperm (rrr 5 42 17)),
      reads [0x560AA888] (.vdot4 (rrr 5 42 17))].all id) = true := by decide +kernel

theorem test_words_60 : ([
      reads [0x600AA888] (.fadd (rrr 5 42 17)),
      reads [0x610AA888] (.fsub (rrr 5 42 17)),
      reads [0x620AA888] (.fmul (rrr 5 42 17)),
      reads [0x630AA888] (.fma (rrr 5 42 17)),
      reads [0x640AA888] (.fnma (rrr 5 42 17)),
      reads [0x650AA888] (.fmin (rrr 5 42 17)),
      reads [0x660AA888] (.fmax (rrr 5 42 17)),
      reads [0x670AA888] (.fneg (rrr 5 42 17)),
      reads [0x680AA888] (.fabs (rrr 5 42 17)),
      reads [0x690AA888] (.fcmp (rrr 5 42 17)),
      reads [0x6A0AA888] (.fclass (rrr 5 42 17)),
      reads [0x6B0AA888] (.fscale (rrr 5 42 17)),
      reads [0x6C0AA888] (.frcp (rrr 5 42 17)),
      reads [0x6D0AA888] (.frsq (rrr 5 42 17)),
      reads [0x6E0AA888] (.fsqrt (rrr 5 42 17)),
      reads [0x6F0AA888] (.fexp2 (rrr 5 42 17))].all id) = true := by decide +kernel

theorem test_words_70 : ([
      reads [0x700AA888] (.flog2 (rrr 5 42 17)),
      reads [0x710AA888] (.fsin (rrr 5 42 17)),
      reads [0x720AA888] (.fcos (rrr 5 42 17)),
      reads [0x730AA888] (.ftanh (rrr 5 42 17))].all id) = true := by decide +kernel

theorem test_words_80 : ([
      reads [0x800AA888] (.cvt (rrr 5 42 17)),
      reads [0x810AA888] (.cvtn (rrr 5 42 17)),
      reads [0x820AA888] (.cvtw (rrr 5 42 17)),
      reads [0x830AA888] (.qnt (rrr 5 42 17)),
      reads [0x840AA888] (.dqnt (rrr 5 42 17))].all id) = true := by decide +kernel

theorem test_words_90 : ([
      reads [0x900AA888] (.shfl (rrr 5 42 17)),
      reads [0x910AA888] (.shflu (rrr 5 42 17)),
      reads [0x920AA888] (.shfld (rrr 5 42 17)),
      reads [0x930AA888] (.shflx (rrr 5 42 17)),
      reads [0x940AA888] (.vote (rrs 5 42 17)),
      reads [0x950AA888] (.ballot (rrs 5 42 17)),
      reads [0x960AA888] (.vred (rrr 5 42 17)),
      reads [0x970AA888] (.vscan (rrr 5 42 17)),
      reads [0x980AA888] (.tred (rrr 5 42 17)),
      reads [0x990AA888] (.bcast (rrr 5 42 17)),
      reads [0x9A0AA888] (.compact (rrr 5 42 17)),
      reads [0x9B0AA888] (.vrand (rrr 5 42 17))].all id) = true := by decide +kernel

theorem test_words_A0 : ([
      reads [0xA00AA888] (.dcvt (rrr 5 42 17)),
      reads [0xA10AA888] (.dexp (rrr 5 42 17)),
      reads [0xA20AA888] (.ddot (rrr 5 42 17)),
      reads [0xA30AA888] (.ddotf (rrr 5 42 17)),
      reads [0xA40AA888] (.dscal (rrr 5 42 17)),
      reads [0xA50AA888] (.dadd (rrr 5 42 17)),
      reads [0xA60AA888] (.dsub (rrr 5 42 17)),
      reads [0xA70AA888] (.dmix (rrr 5 42 17)),
      reads [0xA80AA888] (.dneg (rrr 5 42 17)),
      reads [0xA90AA888] (.dmov (rrr 5 42 17)),
      reads [0xAA0AA888] (.dnrd (rrr 5 42 17)),
      reads [0xAB0AA888] (.dnwr (rrr 5 42 17)),
      reads [0xAC0AA888] (.dzero (rrr 5 42 17)),
      reads [0xAD0B5088] (.dspan (ri 5 0x2A11)),
      reads [0xAE0AAB48] (.dld { mw 5 42 6 with imm := 9 }),
      reads [0xAF0AAB48] (.dst { mw 5 42 6 with imm := 9 })].all id) = true := by decide +kernel

theorem test_words_B0 : ([
      reads [0xB00AA888] (.wlalloc (rrs 5 42 17)),
      reads [0xB10AA888] (.wlfree (rrs 5 42 17)),
      reads [0xB20AA888] (.wlclr (rrs 5 42 17)),
      reads [0xB30AA888] (.wlins (rrr 5 42 17)),
      reads [0xB40AA888] (.vtopk (rrr 5 42 17)),
      reads [0xB50AA888] (.wlmerge (rrr 5 42 17)),
      reads [0xB60AA888] (.wlrd (rrr 5 42 17)),
      reads [0xB70AA888] (.wlst (rrr 5 42 17)),
      reads [0xB80AA888] (.wlld (rrr 5 42 17)),
      reads [0xB90AA888] (.ssect (rrr 5 42 17)),
      reads [0xBA0AA888] (.pksi (rrr 5 42 17)),
      reads [0xBB0AA888] (.unpksi (rrr 5 42 17)),
      reads [0xBC0AA888] (.gwnorm (rrr 5 42 17)),
      reads [0xBD0AA888] (.smxacc (rrr 5 42 17)),
      reads [0xBE0AA888] (.smxfin (rrr 5 42 17))].all id) = true := by decide +kernel

theorem test_words_C0 : ([
      reads [0xC00AAB48] (.ld { mw 5 42 6 with imm := 9 }),
      reads [0xC10AAB48] (.st { mw 5 42 6 with imm := 9 }),
      reads [0xC20AA888] (.ldg (rrr 5 42 17)),
      reads [0xC30AA888] (.stg (rrr 5 42 17)),
      reads [0xC40AA888] (.ldp (rrr 5 42 17)),
      reads [0xC60AA888] (.stp (rrr 5 42 17)),
      reads [0xC70AA888] (.kvld (rrr 5 42 17)),
      reads [0xC80AA888] (.wmap (rrr 5 42 17)),
      reads [0xC90AA888] (.winv (rrs 5 42 17)),
      reads [0xCA0AAB48] (.pref { mw 5 42 6 with imm := 9 }),
      reads [0xCB0AA888] (.cwb (rrr 5 42 17)),
      reads [0xCC0AA888] (.cinv (rrr 5 42 17)),
      reads [0xCD0AA888] (.ipref (rrr 5 42 17)),
      reads [0xCE0AA888] (.ipin (rrr 5 42 17)),
      reads [0xCF0AA888] (.iunpin (rrr 5 42 17))].all id) = true := by decide +kernel

theorem test_words_D0 : ([
      reads [0xD00AAB48] (.atom { mw 5 42 6 with imm := 9 }),
      reads [0xD10AAB48] (.cas { mw 5 42 6 with imm := 9 }),
      reads [0xD20AAB48] (.cas128 { mw 5 42 6 with imm := 9 }),
      reads [0xD30AA888] (.acq (rrr 5 42 17)),
      reads [0xD40AA888] (.rel (rrr 5 42 17)),
      reads [0xD50AA888] (.bind (rrr 5 42 17)),
      reads [0xD60AA888] (.unbind (rrs 5 42 17)),
      reads [0xD7000000] (.fence (fz)),
      reads [0xD8000000] (.fencePt (fz)),
      reads [0xD90AA888] (.shoot (rrr 5 42 17)),
      reads [0xDA0AA888] (.bar (rrs 5 42 17)),
      reads [0xDB0AA888] (.bara (rrs 5 42 17)),
      reads [0xDC0AA888] (.barw (rrs 5 42 17)),
      reads [0xDD000000] (.gbar (fz))].all id) = true := by decide +kernel

theorem test_words_E0 : ([
      reads [0xE00AA888] (.qcfg (rrs 5 42 17)),
      reads [0xE10AA888] (.qstat (rrs 5 42 17)),
      reads [0xE20AA888] (.xcopy (rrr 5 42 17)),
      reads [0xE30AA888] (.xred (rrr 5 42 17)),
      reads [0xE40AA888] (.wbload (rrr 5 42 17)),
      reads [0xE50AA888] (.mloop (rrr 5 42 17)),
      reads [0xE60AA888] (.ctopk (rrr 5 42 17)),
      reads [0xE70AA888] (.cbin (rrr 5 42 17)),
      reads [0xE80AA888] (.cepi (rrr 5 42 17)),
      reads [0xE90AA888] (.cstat (rrs 5 42 17)),
      reads [0xEA0AA888] (.spawn (rrr 5 42 17)),
      reads [0xEB0AA888] (.nodefl (rrr 5 42 17)),
      reads [0xEC000000] (.repack (fz)),
      reads [0xED0AA888] (.chgo (rrr 5 42 17)),
      reads [0xEE000000] (.chstop (fz)),
      reads [0xEF0AA888] (.phase (rrs 5 42 17))].all id) = true := by decide +kernel

theorem test_words_F0 : ([
      reads [0xF00AA888] (.trap (rrs 5 42 17)),
      reads [0xF1000000] (.tret (fz)),
      reads [0xF20AA888] (.trld (rrr 5 42 17)),
      reads [0xF30AA888] (.trst (rrr 5 42 17)),
      reads [0xF40AA888] (.bpset (rrr 5 42 17)),
      reads [0xF50AA888] (.wpset (rrr 5 42 17)),
      reads [0xF60AA888] (.step (rrs 5 42 17)),
      reads [0xF7000000] (.snap (fz)),
      reads [0xF80AA888] (.finj (rrr 5 42 17)),
      reads [0xF9000000] (.tsbegin (fz)),
      reads [0xFA000000] (.tsend (fz)),
      reads [0xFB0AA888] (.tbrd (rrr 5 42 17)),
      reads [0xFC000000] (.halt (fz))].all id) = true := by decide +kernel

/-- The words of the spec's listings. -/
theorem test_listed_words : (listedWords.all fun e => reads e.1 e.2) = true := by decide +kernel

/-- More words of the spec's listings and examples: a branch on a mask, a loop, moves, a reduction, a shuffle, direction
instructions, pair accesses, an engine copy. -/
theorem test_more_words : ([
    reads [0x21040002, 0x64] (.smovi (ri 2 0 none (some 0x64))),
    reads [0x0E020818] (.mset (rrs 1 2 3)),
    reads [0x90060002, 9] (.shfl (rrr 3 0 0 none (some 9))),
    reads [0xA2160410] (.ddot (rrr 11 1 2)),
    reads [0xA4020402, 0x100] (.dscal (rrr 1 1 0 none (some 0x100))),
    reads [0xAA1A0400] (.dnrd (rrr 13 1 0)),
    reads [0xC6020010] (.stp (rrr 1 0 2)),
    reads [0xC4080018] (.ldp (rrr 4 0 3)),
    reads [0xE2100802, 1] (.xcopy (rrr 8 2 0 none (some 1))),
    reads [0x4F022002, 0] (.vcmp (rrr 1 8 0 none (some 0))),
    reads [0x49000002, 2] (.vshl (rrr 0 0 0 none (some 2))),
    reads [0x02008031, 0x30000000] (.brm { bc 0 2 6 with m := some { pmk := 1, pe := true, pn := false, td := 0, ts := 0, rmode := 0, sat := false, scope := 0, fx := 0, c := 0 } }),
    reads [0x96020001, 0x30000000] (.vred { rrr 1 0 0 with m := some { pmk := 1, pe := true, pn := false, td := 0, ts := 0, rmode := 0, sat := false, scope := 0, fx := 0, c := 0 } })].all id) = true := by
  decide +kernel

/-- 0xC5 is permanently unassigned and 0xFF permanently illegal; a word whose M or L announces a suffix that is not there
gives no instruction. -/
theorem test_no_instruction : decode [0xC5000000] = .error (.opcode 0xC5) ∧ decode [0xFF000000] = .error (.opcode 0xFF) ∧
    decode [0x40080801] = .error .suffix ∧ decode [] = .error .noWord := ⟨rfl, rfl, rfl, rfl⟩

/-! ### Well-formedness (R230): an ill-formed term for each check, which the check refuses -/

theorem test_wellFormed : WellFormed (.vadd (rrr 1 2 3)) = true ∧ WellFormed (.srd (rrs 2 0 0)) = true ∧
    WellFormed (.brm (bc 0 2 6)) = true ∧ WellFormed (.atom (mw 1 2 0 (md 0 0 6 5))) = true := by decide +kernel

/-- ATOM with FX = 7 (order 2, SUBOP). -/
theorem test_illFormed_subop : checkInstr false (.atom (mw 1 2 0 (md 0 0 7 5))) = some .subop ∧
    WellFormed (.atom (mw 1 2 0 (md 0 0 7 5))) = false := by decide +kernel
/-- VADD with type code 19, and CVT with no type (order 3, TYPE). -/
theorem test_illFormed_type : checkInstr false (.vadd (rrr 1 2 3 (md 19 0 0 0))) = some .type ∧
    checkInstr false (.cvt (rrr 1 2 0)) = some .type ∧ WellFormed (.cvt (rrr 1 2 0)) = false := by decide +kernel
/-- A scope on an instruction that takes none, bits 23:2 of a Z word, and W on an instruction that writes no register
(order 4, RSV_BITS). -/
theorem test_illFormed_rsv :
    checkInstr false (.vadd (rrr 1 2 3 (some { (decodeMod 0) with scope := 2 }))) = some .rsvBits ∧
    checkInstr false (.join { fz with rsv := 1 }) = some .rsvBits ∧
    checkInstr false (.mset { rrs 1 2 3 with w := true }) = some .rsvBits ∧
    WellFormed (.join { fz with rsv := 1 }) = false := by decide +kernel
/-- SRD of a number that no special register has (order 5, SPECIAL_REG). -/
theorem test_illFormed_special : checkInstr false (.srd (rrs 2 0 127)) = some .specialReg ∧
    WellFormed (.srd (rrs 2 0 127)) = false := by decide +kernel

end Sys2Proof.Tests

/-! ### One step (expected values from the spec's worked examples and rules) -/

namespace Sys2Proof.Tests

open Sys2Proof Machine Claims

set_option maxRecDepth 100000
set_option Elab.async false

/-- The placed team after one step on the words of an instruction, its state before changed by `f`. -/
def after (f : Team → Team) (ws : List Word) : Team :=
  match step ((State.reset.place ws).updTeam placedParty f) with
  | .next s => (s.team? placedParty).getD {}
  | _ => {}

def withV (rs : List (Nat × Nat × Word)) (t : Team) : Team :=
  rs.foldl (fun t r => { t with v := t.v.write 0 (vkey r.1 r.2.1) r.2.2 }) t

/-- R58: STRANDS 3, VREGS 63, TEAMS 3, SCRATCH 1,024, WLISTS 2. -/
theorem test_capacity : crewsPerCore 4 4 64 1024 2 = 4 ∧
    4 * (up .full 0).countedCores = 1488 ∧ 4 * ((up .full 0).updCore 160 fun k => { k with retired := true }).countedCores = 1484 := by
  decide +kernel

/-- R20: die 3 returns 3,000 grains and takes 3,500; with 6,000 on the token it takes 7,000 and 2,000 move on. -/
theorem test_token_turn : turn 3 14000 500 11000 18000 = (14500, 0) ∧ turn 3 14000 6000 11000 18000 = (18000, 2000) := by
  decide +kernel

/-- R179: (+1, 0, -1, -1, +1) is 0xA7. -/
theorem test_ternary : (List.range 5).map (tern5 0xA7) = [1, 0, -1, -1, 1] ∧
    [(0, 1), (1, 0), (2, -1), (3, -1), (4, 1)].foldl (fun b e => tern5Put b e.1 e.2) 0x79 = 0xA7 := by decide +kernel

/-- SRD v8, laneid (chapter 14): lane l holds l. -/
theorem test_srd_laneid : (after id [0x1A100000]).readV 8 5 = 5 ∧ (after id [0x1A100000]).readV 8 31 = 31 := by decide +kernel

/-- VCMP.EQ m1, v8, 0 selects lane 0 alone. -/
theorem test_vcmp_literal :
    ((after (withV [(8, 1, 1), (8, 2, 2)]) [0x4F022002, 0]).m.get? 1).map (fun m => [0, 1, 2, 3].map fun l => m.getLsbD l) =
      some [true, false, false, true] := by decide +kernel

/-- VADD.U32 v9, v9, 0x40400000 ?m1 writes lane 0 alone. -/
theorem test_vadd_predicated :
    (let t := after (fun t => { t with m := [(1, 1)] }) [0x40122403, 0x30000000, 0x40400000]
     (t.readV 9 0, t.readV 9 1)) = (0x40400000, 0) := by decide +kernel

/-- DCVT d1, v9, v10 of (3, 4): components 9,830 and 13,107, norm 594. -/
theorem test_dcvt : (let t := after (withV [(9, 0, 0x40400000), (10, 0, 0x40800000)]) [0xA0022450]
    (t.readV 1 0, t.readN 1 0)) = (0x33332666, 0x0252) := by decide +kernel

/-- Directions (3, 4) in d1 and (4, 3) in d2. -/
def twoDirections (t : Team) : Team :=
  let u := withV [(1, 0, 0x33332666), (2, 0, 0x26663333)] t
  (u.writeN 1 [0] 0x0252).writeN 2 [0] 0x0252

theorem test_ddot : (after twoDirections [0xA2160410]).readV 11 31 = 0x3F75BF0A ∧
    (after twoDirections [0xA2180408]).readV 12 7 = 0x3F7FFCCD := by decide +kernel

/-- DSCAL d1, d1, 256: the norm becomes 850. -/
theorem test_dscal : (let t := after twoDirections [0xA4020402, 0x100]
    (t.readV 1 0, t.readN 1 0)) = (0x33332666, 0x0352) := by decide +kernel

/-- Division by zero gives all ones, and the remainder is A; the most negative number by -1 gives itself. -/
theorem test_sdiv : (after (withS [(2, 7)]) [0x27080818]).th.readS 4 = 0xFFFFFFFF ∧
    (after (withS [(2, 7)]) [0x28080818]).th.readS 4 = 7 := by decide +kernel

/-- SADD wraps. -/
theorem test_sadd_wraps : (after (withS [(2, 0xFFFFFFFF), (3, 2)]) [0x22080818]).th.readS 4 = 1 := by decide +kernel

/-- CVT .E4M3 from .F32 of 1,000.0: NaN, and 448 with .SAT; 2^-10 lies halfway between 0 and 2^-9, and gives +0. -/
theorem test_cvt_e4m3 :
    (after (withV [(2, 0, 0x447A0000)]) [0x80080801, 15 * 2 ^ 22 + 10 * 2 ^ 17]).readV 4 0 = 0x7F ∧
    (after (withV [(2, 0, 0x447A0000)]) [0x80080801, 15 * 2 ^ 22 + 10 * 2 ^ 17 + 2 ^ 13]).readV 4 0 = 0x7E ∧
    (after (withV [(2, 0, 0x3A800000)]) [0x80080801, 15 * 2 ^ 22 + 10 * 2 ^ 17]).readV 4 0 = 0 := by decide +kernel

/-- CVT .U32 from .S8 of -1: all ones, and 0 with .SAT. -/
theorem test_cvt_signs :
    (after (withV [(2, 0, 0xFF)]) [0x80080801, 6 * 2 ^ 22 + 1 * 2 ^ 17]).readV 4 0 = 0xFFFFFFFF ∧
    (after (withV [(2, 0, 0xFF)]) [0x80080801, 6 * 2 ^ 22 + 1 * 2 ^ 17 + 2 ^ 13]).readV 4 0 = 0 := by decide +kernel

/-- The ring at work (chapter 2): the header 0x0000_0007_0104_CA01, fetched at index 6 of a ring of four slots. -/
theorem test_packet_header : (let p : Packet := { queue := 0, index := 6, ctx := 1, bytes := bytesOf 64 0x000000070104CA01 }
    (p.type, p.pri, p.af, p.rf, p.ph, p.tag, p.headBad) = (1, 2, true, true, true, 7, false)) ∧
    (6 / 2 ^ 2 % 2 == 1) = true := by decide +kernel

/-- Reset: no crew, nothing in memory, the time base at zero, no service. -/
theorem test_reset : State.reset.mem = [] ∧ State.reset.crews = [] ∧ State.reset.now = 0 ∧ State.reset.mod.service = .off := by
  decide +kernel

end Sys2Proof.Tests
end

section
/-! The bytes of a number and the number of a list of bytes (R6), bytes written and read back (R92), and code words through
the instruction caches (R231, R233). -/

namespace Sys2Proof.Machine

open Sys2Proof

/-! ### Bytes of numbers (R6) -/

@[simp] theorem bytesOf_zero (x : Nat) : bytesOf 0 x = [] := rfl

theorem bytesOf_succ (n x : Nat) : bytesOf (n + 1) x = BitVec.ofNat 8 x :: bytesOf n (x / 256) := by
  have shift (i : Nat) : x >>> (8 * (i + 1)) = (x / 256) >>> (8 * i) := by
    rw [show 8 * (i + 1) = 8 + 8 * i by ring, Nat.shiftRight_add, Nat.shiftRight_eq_div_pow x 8]
  simp [bytesOf, List.range_succ_eq_map, Function.comp_def, shift]

@[simp] theorem length_bytesOf (n x : Nat) : (bytesOf n x).length = n := by simp [bytesOf]

theorem natOf_bytesOf (n : Nat) : ∀ x, natOf (bytesOf n x) = x % 256 ^ n := by
  induction n with
  | zero => intro x; simp [natOf, Nat.mod_one]
  | succ n ih =>
    intro x
    rw [bytesOf_succ, natOf, ih, BitVec.toNat_ofNat, pow_succ' 256 n, Nat.mod_mul]

theorem natOf_lt : ∀ bs : List Byte, natOf bs < 256 ^ bs.length
  | [] => by simp [natOf]
  | b :: bs => by
    have := natOf_lt bs
    have := b.isLt
    simp only [natOf, List.length_cons, pow_succ]
    omega

/-- Dropping the `k` least significant bytes divides by 256^k. -/
theorem natOf_drop : ∀ (k : Nat) (bs : List Byte), natOf (bs.drop k) = natOf bs / 256 ^ k
  | 0, bs => by simp
  | k + 1, [] => by simp [natOf]
  | k + 1, b :: bs => by
    have : (b.toNat + 256 * natOf bs) / 256 = natOf bs := by have := b.isLt; omega
    rw [List.drop_succ_cons, natOf_drop k bs, natOf, pow_succ', ← Nat.div_div_eq_div_mul, this]

/-- Keeping the `k` least significant bytes is the remainder modulo 256^k. -/
theorem natOf_take : ∀ (k : Nat) (bs : List Byte), natOf (bs.take k) = natOf bs % 256 ^ k
  | 0, bs => by simp [natOf, Nat.mod_one]
  | k + 1, [] => by simp [natOf]
  | k + 1, b :: bs => by
    have low : (b.toNat + 256 * natOf bs) % 256 = b.toNat := by have := b.isLt; omega
    have high : (b.toNat + 256 * natOf bs) / 256 = natOf bs := by have := b.isLt; omega
    rw [List.take_succ_cons, natOf, natOf, natOf_take k bs, pow_succ', Nat.mod_mul, low, high]

theorem le_eq_div_mod (bs : List Byte) (o n : Nat) : le bs o n = natOf bs / 256 ^ o % 256 ^ n := by
  rw [le, natOf_take, natOf_drop]

/-! ### Bytes in memory (R92) -/

@[simp] theorem State.length_readBytes (s : State) (a n : Nat) : (s.readBytes a n).length = n := by
  simp [State.readBytes]

/-- A run of bytes reads back. -/
theorem State.readBytes_writeBytes (s : State) (a : Nat) (bs : List Byte) :
    (s.writeBytes a bs).readBytes a bs.length = bs := by
  apply List.ext_getElem (by simp)
  intro i _ hi
  simpa [State.readBytes] using State.readByte_writeBytes_in bs s a hi

/-- A number written as `n` bytes reads back modulo 256^n. -/
theorem State.readNat_writeBytes_bytesOf (s : State) (a n v : Nat) :
    (s.writeBytes a (bytesOf n v)).readNat a n = v % 256 ^ n := by
  have read := State.readBytes_writeBytes s a (bytesOf n v)
  rw [length_bytesOf] at read
  rw [State.readNat, read, natOf_bytesOf]

/-- The `k` bytes at offset `o` of a run are a run of their own. -/
theorem State.take_drop_readBytes (s : State) (a : Nat) {o k n : Nat} (h : o + k ≤ n) :
    ((s.readBytes a n).drop o).take k = s.readBytes (a + o) k := by
  apply List.ext_getElem
  · simp; omega
  · intro i _ _
    simp [State.readBytes, Nat.add_assoc]

theorem State.readNat_lt (s : State) (a n : Nat) : s.readNat a n < 256 ^ n := by
  simpa [State.readNat] using natOf_lt (s.readBytes a n)

/-- A number of `n` bytes fits in a bit vector of 8n bits. -/
theorem State.toNat_ofNat_readNat (s : State) (a : Nat) {w n : Nat} (h : w = 8 * n) :
    (BitVec.ofNat w (s.readNat a n)).toNat = s.readNat a n := by
  have fits : s.readNat a n < 2 ^ w := by
    rw [h, pow_mul]
    exact s.readNat_lt a n
  rw [BitVec.toNat_ofNat, Nat.mod_eq_of_lt fits]

/-- The `k` bytes at offset `o` of a number in memory are the number that stands there. -/
theorem State.readNat_div_mod (s : State) (a : Nat) {o k n : Nat} (h : o + k ≤ n) :
    s.readNat a n / 256 ^ o % 256 ^ k = s.readNat (a + o) k := by
  rw [State.readNat, ← le_eq_div_mod, le, State.take_drop_readBytes s a h, State.readNat]

@[simp] theorem State.cluster_writeBytes (cl : Nat) (bs : List Byte) : ∀ (s : State) (a : Nat),
    (s.writeBytes a bs).cluster cl = s.cluster cl := by
  induction bs with
  | nil => intro s a; rfl
  | cons b bs ih => intro s a; exact ih (s.writeByte a b) (a + 1)

/-! ### Code words through the caches (R231, R233) -/

/-- A line read at its home is the number of its 128 bytes. -/
theorem State.toNat_homeLine (s : State) (a : Nat) :
    (s.homeLine a).data.toNat = s.readNat (a / 128 * 128) 128 :=
  s.toNat_ofNat_readNat _ (w := 1024) (n := 128) rfl

/-- A word of a line read at its home is the word in memory there. -/
theorem State.lineWord_homeLine (s : State) {a : Nat} (ha : a % 4 = 0) :
    lineWord (s.homeLine a).data a = BitVec.ofNat 32 (s.readNat a 4) := by
  have part := s.readNat_div_mod (a / 128 * 128) (o := a % 128) (k := 4) (n := 128) (by omega)
  rw [Nat.div_add_mod' a 128] at part
  apply BitVec.eq_of_toNat_eq
  rw [lineWord, BitVec.extractLsb'_toNat, State.toNat_homeLine, Nat.shiftRight_eq_div_pow, BitVec.toNat_ofNat, ← part,
    pow_mul]
  simp

/-- The line of code that a fetch of a cluster finds: in its own cache, else in its core's, else at its home. -/
def State.codeLine (s : State) (cl a : Nat) : BitVec 1024 :=
  ((s.cluster cl).icache.get? (a / 128)).getD
    (((s.core (coreOfCluster cl)).icache.get? (a / 128)).getD (s.homeLine a).data)

theorem State.codeWord_of_cluster_line {s : State} {cl a : Nat} {l : BitVec 1024}
    (h : (s.cluster cl).icache.get? (a / 128) = some l) : s.codeWord cl a = lineWord l a := by
  simp only [State.codeWord, h]

theorem State.codeWord_of_core_line {s : State} {cl a : Nat} {l : BitVec 1024}
    (hcl : (s.cluster cl).icache.get? (a / 128) = none)
    (hco : (s.core (coreOfCluster cl)).icache.get? (a / 128) = some l) : s.codeWord cl a = lineWord l a := by
  simp only [State.codeWord, hcl, hco]

theorem State.codeWord_of_uncached {s : State} {cl a : Nat} (ha : a % 4 = 0)
    (hcl : (s.cluster cl).icache.get? (a / 128) = none)
    (hco : (s.core (coreOfCluster cl)).icache.get? (a / 128) = none) :
    s.codeWord cl a = BitVec.ofNat 32 (s.readNat a 4) := by
  simp only [State.codeWord, hcl, hco]
  rw [show a / 4 * 4 = a by omega]

/-- A code word is a word of the line that the fetch finds. -/
theorem State.codeWord_eq_lineWord (s : State) (cl : Nat) {a : Nat} (ha : a % 4 = 0) :
    s.codeWord cl a = lineWord (s.codeLine cl a) a := by
  cases hcl : (s.cluster cl).icache.get? (a / 128) with
  | some l => simp [State.codeWord_of_cluster_line hcl, State.codeLine, hcl]
  | none =>
    cases hco : (s.core (coreOfCluster cl)).icache.get? (a / 128) with
    | some l => simp [State.codeWord_of_core_line hcl hco, State.codeLine, hcl, hco]
    | none => simp [State.codeWord_of_uncached ha hcl hco, State.codeLine, hcl, hco, State.lineWord_homeLine s ha]

@[simp] theorem State.cluster_updCore (s : State) (c : Nat) (f : Core → Core) (cl : Nat) :
    (s.updCore c f).cluster cl = s.cluster cl := rfl

@[simp] theorem State.cluster_unview (s : State) (die : Nat) (sel : Nat → Bool) (cl : Nat) :
    (s.unview die sel).cluster cl = s.cluster cl := by
  unfold State.unview; split <;> rfl

@[simp] theorem Cluster.takeLine_icache_same (k : Cluster) (line : Nat) (l : BitVec 1024) :
    (k.takeLine line l).icache.get? line = some l := Tbl.get?_put_same ..

/-- After a fill the cluster's cache holds the line that a fetch found before. -/
theorem State.fillCode_cluster_line (s : State) (cl a : Nat) :
    ((s.fillCode cl a).cluster cl).icache.get? (a / 128) = some (s.codeLine cl a) := by
  simp only [State.fillCode, State.codeLine]
  cases hcl : (s.cluster cl).icache.get? (a / 128) with
  | some l => cases (s.core (coreOfCluster cl)).icache.get? (a / 128) <;> simp [hcl]
  | none => cases (s.core (coreOfCluster cl)).icache.get? (a / 128) <;> simp [State.cluster_updCluster]

/-- A fill changes no code word of its own line. -/
theorem State.codeWord_fillCode (s : State) (cl : Nat) {a : Nat} (ha : a % 4 = 0) :
    (s.fillCode cl a).codeWord cl a = s.codeWord cl a := by
  rw [State.codeWord_of_cluster_line (s.fillCode_cluster_line cl a), State.codeWord_eq_lineWord s cl ha]

/-- No store changes a code word whose line the cluster's cache holds. -/
theorem State.codeWord_writeBytes {s : State} {cl a : Nat} {l : BitVec 1024}
    (h : (s.cluster cl).icache.get? (a / 128) = some l) (b : Nat) (bs : List Byte) :
    (s.writeBytes b bs).codeWord cl a = s.codeWord cl a := by
  rw [State.codeWord_of_cluster_line h, State.codeWord_of_cluster_line (by rwa [State.cluster_writeBytes])]

end Sys2Proof.Machine

namespace Sys2Proof.Claims

open Sys2Proof Sys2Proof.Machine

/-- Settles O38: the laws of memory byte by byte, and a fill that leaves in the cluster's cache the very line a fetch found
before, so that no store reaches it. -/
theorem memoryAndCode : Obligations.MemoryAndCode := by
  refine ⟨fun s a bs => ⟨s.readBytes_writeBytes a bs, ?_, ?_⟩, fun s cl a ha => ⟨?_, ?_, ?_⟩⟩
  · exact fun b outside => State.readByte_writeBytes_other bs s outside
  · intro n v fits
    rw [State.readNat_writeBytes_bytesOf, Nat.mod_eq_of_lt fits]
  · exact State.codeWord_of_uncached ha
  · exact s.codeWord_fillCode cl ha
  · intro b bs
    rw [State.codeWord_writeBytes (s.fillCode_cluster_line cl a), s.codeWord_fillCode cl ha]

end Sys2Proof.Claims
end

section
/-! The board, reset, the grain ring, bring-up and power (R8 to R10, R20 to R24, R27 to R30, R67, R68, R171): what a change
of holding or of clock rate, the passing of time and a core's assay leave of the dies and of the module. -/

namespace Sys2Proof.Machine

open Sys2Proof

/-! ### Folds that keep a part of the state -/

/-- What every step of a fold keeps, the fold keeps. -/
theorem foldl_keeps {σ α β : Type} (π : σ → β) {f : σ → α → σ} {l : List α} {s : σ}
    (hf : ∀ u a, π (f u a) = π u) :
    π (l.foldl f s) = π s :=
  List.foldlRecOn l f (motive := fun u => π u = π s) rfl fun u hu a _ => (hf u a).trans hu

/-! ### Dies -/

/-- A die is read from the die table alone. -/
theorem State.die_of_dies {s t : State} (h : s.dies = t.dies) (d : Nat) : s.die d = t.die d := by
  unfold State.die
  rw [h]

@[simp] theorem State.die_updDie (s : State) (d : Nat) (f : Die → Die) (j : Nat) :
    (s.updDie d f).die j = if j = d then f (s.die d) else s.die j := State.die_setDie ..

section
variable (l : List Nat) (s : State)

@[simp] theorem State.dies_foldl_settlePower : (l.foldl State.settlePower s).dies = s.dies :=
  foldl_keeps State.dies (f := State.settlePower) fun _ _ => rfl
@[simp] theorem State.mod_foldl_settlePower : (l.foldl State.settlePower s).mod = s.mod :=
  foldl_keeps State.mod (f := State.settlePower) fun _ _ => rfl
@[simp] theorem State.die_foldl_settlePower (d : Nat) : (l.foldl State.settlePower s).die d = s.die d :=
  State.die_of_dies (State.dies_foldl_settlePower ..) d

/-- Changes of clusters, one after the other, change no die and not the module. -/
@[simp] theorem State.die_foldl_updCluster (g : Nat → Cluster → Cluster) (d : Nat) :
    (l.foldl (fun u k => u.updCluster k (g k)) s).die d = s.die d :=
  State.die_of_dies (foldl_keeps State.dies (f := fun u k => u.updCluster k (g k)) fun _ _ => rfl) d
@[simp] theorem State.mod_foldl_updCluster (g : Nat → Cluster → Cluster) :
    (l.foldl (fun u k => u.updCluster k (g k)) s).mod = s.mod :=
  foldl_keeps State.mod (f := fun u k => u.updCluster k (g k)) fun _ _ => rfl

end

/-- A change of a compute die's holding settles its clusters, changes the grains, and changes the clusters' fill rates. -/
theorem State.setGrains_of_compute (s : State) {die : Nat} (g : Nat) (hd : ¬12 ≤ die) : ∃ f : Nat → Cluster → Cluster,
    s.setGrains die g = (clustersOf die).foldl (fun u k => u.updCluster k (f k))
      (((clustersOf die).foldl State.settlePower s).updDie die fun d => { d with grains := g }) := by
  rw [State.setGrains, if_neg hd]
  exact ⟨_, rfl⟩

/-- A change of holding changes the die's grains and nothing else of a die. -/
@[simp] theorem State.die_setGrains (s : State) (die g j : Nat) :
    (s.setGrains die g).die j = if j = die then { s.die die with grains := g } else s.die j := by
  by_cases hd : 12 ≤ die
  · rw [State.setGrains, if_pos hd, State.die_updDie]
  · obtain ⟨f, eq⟩ := s.setGrains_of_compute g hd
    simp [eq]

@[simp] theorem State.mod_setGrains (s : State) (die g : Nat) : (s.setGrains die g).mod = s.mod := by
  by_cases hd : 12 ≤ die
  · rw [State.setGrains, if_pos hd, State.updDie_mod]
  · obtain ⟨f, eq⟩ := s.setGrains_of_compute g hd
    rw [eq, State.mod_foldl_updCluster, State.updDie_mod, State.mod_foldl_settlePower]

/-- A change of holding that is left out because the die holds as much already comes to the same for every die. -/
theorem State.die_setGrains_unless (s : State) {die g : Nat} {P : Prop} [Decidable P] (held : P → g = (s.die die).grains)
    (j : Nat) : (if P then s else s.setGrains die g).die j = if j = die then { s.die die with grains := g } else s.die j := by
  by_cases h : P
  · rw [if_pos h, held h]
    split
    next hj => rw [hj]
    next => rfl
  · rw [if_neg h, State.die_setGrains]

/-! ### The grain ring (R20, R21) -/

/-- A turn as the statement writes it is the model's turn: what a die gives back is what it holds above its use and its
floor. -/
theorem turn_eq_afterTurn (die h c used request : Nat) :
    turn die h c used request = Claims.afterTurn die h c used request := by
  have back (m : Nat) : h - min h m = h - m := by omega
  by_cases hd : die < 12
  · simp only [turn, Claims.afterTurn, Config.floorGrains, Config.capGrains, hd, if_true, Nat.sub_sub_eq_min, back,
      min_right_comm _ _ (24000 - _)]
  · simp only [turn, Claims.afterTurn, Config.floorGrains, Config.capGrains, hd, if_false, Nat.sub_sub_eq_min, back,
      min_assoc, min_self]

/-- A turn conserves the grains of the die and of the token together. -/
theorem afterTurn_conserves (die h c used request : Nat) :
    (Claims.afterTurn die h c used request).1 + (Claims.afterTurn die h c used request).2 = h + c := by
  simp only [Claims.afterTurn]
  by_cases hd : die < 12 <;> simp only [hd, if_true, if_false] <;> omega

/-- A die that holds its floor holds it after a turn. -/
theorem floor_le_afterTurn {die h : Nat} (c used request : Nat) (floor : (if die < 12 then 4000 else 10000) ≤ h) :
    (if die < 12 then 4000 else 10000) ≤ (Claims.afterTurn die h c used request).1 := by
  simp only [Claims.afterTurn]
  exact (le_min floor (le_max_right _ _)).trans (Nat.le_add_right _ _)

/-- A compute die within its cap stays within it. -/
theorem afterTurn_le_cap {die h : Nat} (c used request : Nat) (hd : die < 12) (cap : h ≤ 24000) :
    (Claims.afterTurn die h c used request).1 ≤ 24000 := by
  simp only [Claims.afterTurn, hd, if_true]
  omega

end Sys2Proof.Machine

namespace Sys2Proof.Claims

open Sys2Proof Sys2Proof.Machine

/-- An event that answers a next state of which `P` holds becomes such a state. -/
theorem becomes_of {i : Instr} {s t : State} {P : State → Prop} (next : exec i s = .next t) (holds : P t) :
    Becomes i s P := ⟨t, next, holds⟩

/-- A token turn that is due: the token goes on with the count that `turn` gives, the die takes its holding and its new
table, and no other die changes. -/
theorem execTokenTurn_eq {s : State} (used request : Nat) (good : s.mod.good = true) (due : s.roundDue = true) :
    let r := turn s.token.die (s.die s.token.die).grains s.token.count used request
    ∃ u : State, exec (.tokenTurn used request) s = .next { u with
        token := { die := (s.token.die + 1) % 16, count := r.2,
                   round := if s.token.die = 0 then some s.now else s.token.round } } ∧
      ∀ j, u.die j = if j = s.token.die then { s.die j with
        grains := r.1, table := (s.die j).newTable.getD (s.die j).table, newTable := none, tokenSeen := s.now,
        dropped := false } else s.die j := by
  have settled (j : Nat) :
      (if s.token.die < 12 then (clustersOf s.token.die).foldl State.settlePower s else s).die j = s.die j := by
    split <;> simp
  refine ⟨_, if_neg (by simp [good, due]), fun j => (State.die_setGrains_unless _ (fun same => ?_) j).trans ?_⟩
  · simp only [Bool.and_eq_true, decide_eq_true_eq] at same
    rw [State.die_updDie, if_pos rfl, settled]
    exact same.1
  · rw [State.die_updDie, State.die_updDie, settled, settled, if_pos rfl]
    split
    next hj => rw [hj]; rfl
    next => rfl

/-- Settles O48: a turn is the model's `turn`, whose arithmetic conserves the pool and keeps floors and caps; the loss and the
rebuilding of the token are read off their events. -/
theorem grainRing : Obligations.GrainRing := by
  refine ⟨fun s used request good _ due => ?_, fun die h c used request =>
    ⟨afterTurn_conserves die h c used request, floor_le_afterTurn c used request, afterTurn_le_cap c used request⟩,
    fun s die good hdie kept lost => ?_, fun s good dropped => ?_⟩
  · obtain ⟨u, next, dies⟩ := execTokenTurn_eq used request good due
    rw [turn_eq_afterTurn] at next dies
    have seen := (dies s.token.die).trans (if_pos rfl)
    exact becomes_of next ⟨congrArg Die.grains seen, rfl, rfl, congrArg Die.tokenSeen seen, congrArg Die.dropped seen,
      fun d hd => (dies d).trans (if_neg hd)⟩
  · refine becomes_of (if_neg (by simp [good, kept, hdie, lost, -BitVec.toNat_sub])) ⟨?_, ?_, fun d hd => ?_⟩
    · simp [Config.floorGrains]
    · simp
    · simp [hd]
  · exact if_pos (by simpa [good] using dropped)

end Sys2Proof.Claims

namespace Sys2Proof.Machine

open Sys2Proof

/-! ### Standby (R24, R29, R30) -/

/-- Dropping entries by their keys: a key that is kept reads as before, any other key reads nothing. -/
theorem Tbl.get?_filter_keys {α : Type} (keep : Nat → Bool) (t : Tbl α) (k : Nat) :
    Tbl.get? (t.filter fun e => keep e.1) k = if keep k then Tbl.get? t k else none := by
  induction t with
  | nil => simp
  | cons e t ih =>
    obtain ⟨j, v⟩ := e
    by_cases hk : k = j
    · subst hk
      by_cases h : keep k <;> simp_all [Tbl.get?]
    · by_cases h : keep j <;> simp_all [Tbl.get?]

/-- In standby a byte that is kept reads as before, any other one as memory that nothing has written (log 1). -/
theorem State.readByte_standby (s : State) (keep : Nat → Bool) (a : Nat) :
    (s.standby keep).readByte a = if keep a then s.readByte a else memDefault := by
  show (Tbl.get? (s.mem.filter fun e => keep e.1) a).getD memDefault = _
  rw [Tbl.get?_filter_keys]
  split <;> rfl

/-! ### Boot (R23) -/

/-- Whether a slot passes the checks of R23, as one condition. -/
theorem FlashSlot.check_eq_none (f : FlashSlot) (rollback : Nat) :
    f.check rollback = none ↔ (f.digestOk && f.signatureOk && decide (rollback ≤ f.version)) = true := by
  unfold FlashSlot.check
  cases f.digestOk <;> cases f.signatureOk <;> simp

/-- A check keeps the hub dies in reset exactly when neither slot passes. -/
theorem Module.bootCheck_eq_none (m : Module) :
    m.bootCheck = none ↔ m.slotA.check m.rollback = none ∨ m.slotB.check m.rollback = none := by
  unfold Module.bootCheck Module.firstSlot Module.otherSlot
  cases m.firstB <;> cases hA : m.slotA.check m.rollback <;> cases hB : m.slotB.check m.rollback <;> simp [hA, hB]

theorem Module.boot_good (m : Module) : m.boot.good = true := by
  unfold Module.boot
  split <;> rfl

theorem Module.boot_of_check {m : Module} {c : BootCheck} (h : m.bootCheck = some c) :
    m.boot.hubUp = 0 ∧ m.boot.bootFail.map (·.1) = [12, 13, 14, 15] := by
  simp [Module.boot, h]

theorem Module.boot_of_passed {m : Module} (h : m.bootCheck = none) :
    m.boot.hubUp = 0xF ∧ m.boot.bootFail = [] ∧
      m.boot.service = if m.configOk then .off else .recovery := by
  simp [Module.boot, h]

end Sys2Proof.Machine

namespace Sys2Proof.Claims

open Sys2Proof Sys2Proof.Machine

/-- Settles O39: the values that `State.reset` writes down, and those of a team that nothing has written (R10, R74). -/
theorem resetState : Obligations.ResetState := by
  refine ⟨rfl, rfl, rfl, by decide, by decide, rfl, rfl, rfl, rfl, rfl, rfl, reset_memWf, ?_⟩
  rintro t rfl
  exact ⟨fun _ _ => rfl, fun _ _ => rfl, rfl, rfl⟩

/-- The state field of a service that the statement lists. -/
theorem state_of_listed {v : Service} {k : Nat}
    (h : (v, k) ∈ [(Service.recovery, 0), (.reduced, 1), (.full, 2), (.degraded, 3)]) : v.state = some k := by
  cases v <;> simp_all [Service.state]

/-- POWER_GOOD of a package that is powered, not held and not good yet: the time base starts, and the hub dies boot. -/
theorem becomes_powerGood {s : State} (powered : s.mod.powered = true) (held : s.mod.held = false)
    (good : s.mod.good = false) :
    Becomes .powerGood s fun t => t.now = 0 ∧ t.mod = s.mod.boot :=
  becomes_of (if_neg (by simp [powered, held, good])) ⟨rfl, rfl⟩

/-- The boot as the statement tells it: by whether one of the slots passes its checks. -/
theorem boot_spec (m : Module) :
    let ok (f : FlashSlot) : Bool := f.digestOk && f.signatureOk && decide (m.rollback ≤ f.version)
    if ok m.slotA || ok m.slotB then
      m.boot.hubUp = 0xF ∧ m.boot.bootFail = [] ∧ (m.configOk = false → m.boot.service = .recovery)
    else m.boot.hubUp = 0 ∧ m.boot.bootFail.map (·.1) = [12, 13, 14, 15] := by
  intro ok
  have passes := m.bootCheck_eq_none
  rw [FlashSlot.check_eq_none, FlashSlot.check_eq_none, ← Bool.or_eq_true] at passes
  cases hc : m.bootCheck with
  | none =>
    obtain ⟨up, clean, service⟩ := Module.boot_of_passed hc
    rw [if_pos (passes.mp hc)]
    exact ⟨up, clean, fun bad => by rw [service, bad]; rfl⟩
  | some c =>
    rw [if_neg fun h => by simp [passes.mpr h] at hc]
    exact Module.boot_of_check hc

/-- Settles O47: the commands one by one; standby keeps the bytes that its test keeps, and power-good boots from a slot that
passes. -/
theorem boardEvents : Obligations.BoardEvents := by
  intro s
  have idle (u : State) (keep : Nat → Bool) : Idle ((u.standby keep).reply .done) :=
    ⟨rfl, rfl, rfl, rfl, rfl, rfl, rfl, rfl, rfl⟩
  refine ⟨becomes_of rfl ⟨rfl, rfl, rfl, rfl⟩, becomes_of rfl ⟨rfl, idle _ _, rfl, fun a => ?_⟩,
    becomes_of rfl ⟨rfl, idle _ _, rfl, fun a => ?_⟩, fun _ _ _ => becomes_of rfl ⟨rfl, rfl⟩,
    becomes_of rfl ⟨_, rfl, fun k hk => ?_⟩, fun _ => becomes_of rfl ⟨rfl, rfl⟩, becomes_of rfl rfl, fun c hc => ?_,
    fun powered held good => ?_⟩
  case refine_1 =>
    exact (State.readByte_standby _ outsidePackage a).trans (by simp [outsidePackage]; rfl)
  case refine_2 => exact State.readByte_standby _ (fun _ => true) a
  case refine_3 => rw [state_of_listed hk]; rfl
  case refine_4 => exact if_neg (by simpa [boardCodes] using hc)
  case refine_5 =>
    obtain ⟨t, next, now, mod⟩ := becomes_powerGood powered held good
    refine becomes_of next ⟨now, ?_⟩
    rw [mod]
    exact ⟨s.mod.boot_good, boot_spec s.mod⟩

end Sys2Proof.Claims
end

section
/-! What accesses of memory, the writes of the packet processors, the end of a packet and the halt of a team leave of the
module, the dies, the launches and the queues (R40, R49, R50, R82, R94, R104, R124, R167). -/

namespace Sys2Proof.Machine

open Sys2Proof

/-! ### The tables that an access of memory leaves alone -/

/-- The module, the dies and the launches. -/
def State.fixtures (s : State) : Module × Tbl Die × Tbl Launch := (s.mod, s.dies, s.launches)

/-- The module, the dies, the launches and the queues: what no access of memory and no change of a team touches. -/
def State.tables (s : State) : (Module × Tbl Die × Tbl Launch) × Tbl UQueue := (s.fixtures, s.queues)

section
variable {s t : State}

theorem State.fixtures_of_tables (h : s.tables = t.tables) : s.fixtures = t.fixtures := congrArg Prod.fst h
theorem State.queues_of_tables (h : s.tables = t.tables) : s.queues = t.queues := congrArg Prod.snd h
theorem State.mod_of_fixtures (h : s.fixtures = t.fixtures) : s.mod = t.mod := congrArg Prod.fst h
theorem State.dies_of_fixtures (h : s.fixtures = t.fixtures) : s.dies = t.dies := congrArg (·.2.1) h
theorem State.launches_of_fixtures (h : s.fixtures = t.fixtures) : s.launches = t.launches := congrArg (·.2.2) h
theorem State.launches_of_tables (h : s.tables = t.tables) : s.launches = t.launches :=
  State.launches_of_fixtures (State.fixtures_of_tables h)

end

section
variable (s : State)

@[simp] theorem State.tables_setCore (c : Nat) (k : Core) : (s.setCore c k).tables = s.tables := rfl
@[simp] theorem State.tables_updCore (c : Nat) (f : Core → Core) : (s.updCore c f).tables = s.tables := rfl
@[simp] theorem State.tables_updCluster (c : Nat) (f : Cluster → Cluster) : (s.updCluster c f).tables = s.tables := rfl
@[simp] theorem State.tables_updCrew (c : Nat) (f : Crew → Crew) : (s.updCrew c f).tables = s.tables := rfl
@[simp] theorem State.tables_updContext (c : Nat) (f : Context → Context) : (s.updContext c f).tables = s.tables := rfl
@[simp] theorem State.tables_setOwner (f o : Nat) : (s.setOwner f o).tables = s.tables := rfl
@[simp] theorem State.tables_send (x : Sent) : (s.send x).tables = s.tables := rfl
@[simp] theorem State.tables_writeByte (a : Nat) (b : Byte) : (s.writeByte a b).tables = s.tables := rfl
@[simp] theorem State.tables_writeHome (h : HomeByte) : (s.writeHome h).tables = s.tables := rfl
@[simp] theorem State.tables_takeFreeN (n : Nat) : (s.takeFreeN n).2.tables = s.tables := rfl

@[simp] theorem State.tables_setTeam (p : Party) (t : Team) : (s.setTeam p t).tables = s.tables := by
  unfold State.setTeam; split <;> rfl
@[simp] theorem State.tables_updTeam (p : Party) (f : Team → Team) : (s.updTeam p f).tables = s.tables := by
  unfold State.updTeam; split <;> simp
@[simp] theorem State.tables_updThread (p : Party) (f : Thread → Thread) : (s.updThread p f).tables = s.tables :=
  State.tables_updTeam ..
@[simp] theorem State.tables_updCopies (p : Party) (f : Team → Team) : (s.updCopies p f).tables = s.tables :=
  s.tables_updTeam p f

end

/-! ### Memory at its home, and what dies see of it -/

section
variable (s : State)

@[simp] theorem State.tables_writeBytes (bs : List Byte) (a : Nat) : (s.writeBytes a bs).tables = s.tables := by
  induction bs generalizing s a with
  | nil => rfl
  | cons b bs ih => exact ih (s.writeByte a b) (a + 1)

@[simp] theorem State.tables_unview (die : Nat) (sel : Nat → Bool) : (s.unview die sel).tables = s.tables := by
  unfold State.unview; split <;> rfl

@[simp] theorem State.tables_writeHomes (hs : List HomeByte) : (s.writeHomes hs).tables = s.tables :=
  foldl_keeps State.tables (f := State.writeHome) fun _ _ => rfl

@[simp] theorem State.tables_spread (sel : Replica → Bool) : (s.spread sel).tables = s.tables := by
  unfold State.spread
  exact foldl_keeps State.tables (f := fun u (r : Replica) => u.writeHomes _) fun _ _ => State.tables_writeHomes ..

@[simp] theorem State.tables_spreadAt (sel : Nat → Bool) : (s.spreadAt sel).tables = s.tables := by
  unfold State.spreadAt; split <;> simp

@[simp] theorem State.tables_engineWrite (die : Nat) (y : Phys) (b : Byte) :
    (s.engineWrite die y b).tables = s.tables := by
  unfold State.engineWrite State.partyWrite State.writePlace
  rw [State.tables_unview, foldl_keeps State.tables fun _ _ => State.tables_writeHome ..]
  split <;> simp

/-! ### L1 lines (R94) -/

@[simp] theorem State.tables_cleanLine (cl line : Nat) (sel : Nat → Bool) :
    (s.cleanLine cl line sel).tables = s.tables := by
  unfold State.cleanLine
  split
  · rfl
  · refine foldl_keeps State.tables fun u i => ?_
    split <;> simp

@[simp] theorem State.tables_evictLine (cl line : Nat) : (s.evictLine cl line).tables = s.tables :=
  s.tables_cleanLine cl line fun _ => true

@[simp] theorem State.tables_writeBack (cl : Nat) (sel : Nat → Bool) : (s.writeBack cl sel).tables = s.tables :=
  foldl_keeps State.tables fun _ _ => State.tables_cleanLine ..

@[simp] theorem State.tables_invalidate (cl : Nat) (sel : Nat → Bool) : (s.invalidate cl sel).tables = s.tables :=
  foldl_keeps State.tables fun _ _ => State.tables_evictLine ..

@[simp] theorem State.tables_invalidateAt (scope cl : Nat) (sel : Nat → Bool) :
    (s.invalidateAt scope cl sel).tables = s.tables := by
  unfold State.invalidateAt State.renew; split <;> simp

/-! ### Loads and stores of a thread that complete (R222, R312) -/

@[simp] theorem State.tables_performStore (cl : Nat) (st : PendingStore) : (s.performStore cl st).tables = s.tables := by
  have cleaned : (st.cached.foldl (fun u a => u.cleanLine cl (a / 128) (· == a)) s).tables = s.tables :=
    foldl_keeps State.tables fun _ _ => State.tables_cleanLine ..
  unfold State.performStore
  split <;> simp [cleaned]

@[simp] theorem State.tables_drainStores (p : Party) : (s.drainStores p).tables = s.tables := by
  unfold State.drainStores
  split
  · rfl
  · rw [State.tables_updThread, foldl_keeps State.tables fun _ _ => State.tables_performStore ..]

@[simp] theorem State.tables_deliver (p : Party) (ld : PendingLoad) : (s.deliver p ld).tables = s.tables := by
  unfold State.deliver
  split
  · simp
  · split
    · exact s.tables_updTeam p _
    · simp

@[simp] theorem State.tables_drainLoads (p : Party) : (s.drainLoads p).tables = s.tables := by
  unfold State.drainLoads
  split
  · rfl
  · rw [State.tables_updThread, foldl_keeps State.tables fun _ _ => State.tables_deliver ..]

@[simp] theorem State.tables_settleParty (p : Party) : (s.settleParty p).tables = s.tables := by
  simp [State.settleParty]

/-! ### The writes of the processors and the service (R40, R49, R51) -/

@[simp] theorem State.tables_commitFill (g : Agent) (x : Phys) : (s.commitFill g x).tables = s.tables := by
  have seen (page : Nat) : (s.seeWalk g page).tables = s.tables := by
    unfold State.seeWalk; split <;> simp
  unfold State.commitFill
  split
  · rfl
  · next e _ =>
    have written (P : Prop) [Decidable P] (a : Nat) (bs : List Byte) :
        (if P then (s.seeWalk g e.page).writeBytes a bs else s.seeWalk g e.page).tables = s.tables := by
      split <;> simp [seen]
    cases g.core <;> exact written _ _ _

@[simp] theorem State.tables_commitFills (g : Agent) (xs : List Phys) : (s.commitFills g xs).tables = s.tables :=
  foldl_keeps State.tables fun _ _ => State.tables_commitFill ..

@[simp] theorem State.tables_writePiece (x : Phys) (bs : List Byte) : (s.writePiece x bs).tables = s.tables := by
  unfold State.writePiece
  rw [foldl_keeps State.tables fun _ _ => State.tables_writeBytes ..]
  split <;> simp

@[simp] theorem State.tables_writePieces (ps : List (Phys × Nat)) (bs : List Byte) :
    (s.writePieces ps bs).tables = s.tables := by
  induction ps generalizing s bs with
  | nil => rfl
  | cons p ps ih => simp [State.writePieces, ih]

/-- A write of a context that is performed is an access of memory. -/
theorem State.tables_of_ctxWrite {s t : State} {g : Agent} {p : DWord} {bs : List Byte}
    (h : s.ctxWrite g p bs = .ok t) : t.tables = s.tables := by
  unfold State.ctxWrite at h
  split at h
  · cases h
  · cases h; simp

@[simp] theorem State.tables_postWrite (w : PostedWrite) : (s.postWrite w).tables = s.tables := by
  unfold State.postWrite
  split
  · rfl
  · split
    · rfl
    · split
      next performed => exact State.tables_of_ctxWrite performed
      next => split <;> rfl

@[simp] theorem State.tables_tryWrite (ctx : Nat) (p : DWord) (bs : List Byte) : (s.tryWrite ctx p bs).tables = s.tables :=
  State.tables_postWrite ..

@[simp] theorem State.tables_record (p : Packet) (ws : List (Nat × Nat × Nat)) : (s.record p ws).tables = s.tables := by
  unfold State.record
  split
  · rfl
  · exact foldl_keeps State.tables fun _ _ => State.tables_tryWrite ..

@[simp] theorem State.tables_notify (p : Packet) (state status : Nat) : (s.notify p state status).tables = s.tables := by
  unfold State.notify; split <;> simp

@[simp] theorem State.tables_showQueue (q : Nat) : (s.showQueue q).tables = s.tables := by
  unfold State.showQueue; split <;> simp

end

/-! ### The end of a packet and of a context (R36, R50) -/

section
variable (s : State)

@[simp] theorem State.tables_cancelContext (ctx : Nat) : (s.cancelContext ctx).tables = s.tables := by
  unfold State.cancelContext
  refine (foldl_keeps State.tables fun u c => ?_ : State.tables (List.foldl _ _ _) = _)
  rw [State.tables_updCrew, State.tables_updCore]

@[simp] theorem State.fixtures_endContext (ctx : Nat) : (s.endContext ctx).fixtures = s.fixtures := by
  have cancelled (l : Tbl Session) :
      ((l.foldl (fun u e => u.dropSnapshot e.1) s).cancelContext ctx).fixtures = s.fixtures :=
    (State.fixtures_of_tables (State.tables_cancelContext ..)).trans
      (foldl_keeps State.fixtures (f := fun u (e : Nat × Session) => u.dropSnapshot e.1) fun _ _ => rfl)
  have answered {α : Type} (l : List α) (u : State) : (l.foldl (fun u _ => u.send .rdmaError) u).fixtures = u.fixtures :=
    foldl_keeps State.fixtures (f := fun u (_ : α) => u.send .rdmaError) fun _ _ => rfl
  unfold State.endContext
  split
  · rfl
  · split <;> exact (answered _ _).trans (cancelled _)

@[simp] theorem State.fixtures_closeCheck (ctx : Nat) : (s.closeCheck ctx).fixtures = s.fixtures := by
  unfold State.closeCheck
  split
  · split <;> simp
  · rfl

@[simp] theorem State.fixtures_packetDone (key status : Nat) (detail : DWord) (together : Bool) :
    (s.packetDone key status detail together).fixtures = s.fixtures := by
  unfold State.packetDone
  split
  · rfl
  · rw [State.fixtures_closeCheck]
    exact State.fixtures_of_tables (((s.record _ _).tables_notify _ _ _).trans (s.tables_record _ _))

end

/-! ### A team that halts or retires (R56, R82, R167, R168) -/

section
variable (s : State)

@[simp] theorem State.tables_dropClause (p : Party) : (s.dropClause p).tables = s.tables := by
  unfold State.dropClause
  split
  · rfl
  · show State.tables (match p.kind with | .chaser => _ | _ => _) = _
    split <;> simp

@[simp] theorem State.tables_acquireBar (crew : Crew) (t : Team) (k : Nat) :
    (s.acquireBar crew t k).tables = s.tables := State.tables_invalidateAt ..

@[simp] theorem State.tables_barComplete (crew k : Nat) : (s.barComplete crew k).tables = s.tables := by
  unfold State.barComplete
  split
  · rfl
  · dsimp only
    split
    · rfl
    · refine (foldl_keeps State.tables fun u e => ?_).trans (State.tables_updCrew ..)
      split <;> simp

@[simp] theorem State.tables_abandonBars (crew : Nat) : (s.abandonBars crew).tables = s.tables := rfl

@[simp] theorem State.tables_abandonTree (launch : Nat) : (s.abandonTree launch).tables = s.tables := by
  unfold State.abandonTree; split <;> rfl

@[simp] theorem State.tables_treeArrive (crew : Nat) : (s.treeArrive crew).tables = s.tables := by
  unfold State.treeArrive
  split
  · rfl
  · split
    · rfl
    · split <;> rfl

@[simp] theorem State.tables_acceptCopy (op : CopyOp) : (s.acceptCopy op).tables = s.tables := by
  unfold State.acceptCopy
  split
  · rfl
  · exact (foldl_keeps State.tables fun _ _ => State.tables_updCopies ..).trans (State.tables_setCore ..)

@[simp] theorem State.tables_acceptReady (crew : Nat) : (s.acceptReady crew).tables = s.tables := by
  unfold State.acceptReady
  split
  · rfl
  · exact (foldl_keeps State.tables fun _ _ => State.tables_acceptCopy ..).trans (State.tables_updCrew ..)

@[simp] theorem State.tables_cancelCupel (crew team : Nat) : (s.cancelCupel crew team).tables = s.tables := by
  unfold State.cancelCupel; split <;> rfl

@[simp] theorem State.tables_unblockCopies (crew team : Nat) : (s.unblockCopies crew team).tables = s.tables := rfl

@[simp] theorem State.tables_keepSources (crew : Nat) : (s.keepSources crew).tables = s.tables := by
  unfold State.keepSources
  split
  · rfl
  · dsimp only
    split <;> rfl

@[simp] theorem State.tables_freeTrack (core launch : Nat) : (s.freeTrack core launch).tables = s.tables := by
  unfold State.freeTrack
  split
  · rfl
  · split <;> rfl

@[simp] theorem State.tables_subStores (core launch n : Nat) : (s.subStores core launch n).tables = s.tables := by
  simp [State.subStores]

@[simp] theorem State.tables_dropBacklog (ctx : Nat) : (s.dropBacklog ctx).tables = s.tables := by
  unfold State.dropBacklog
  refine foldl_keeps State.tables fun u n => ?_
  exact (foldl_keeps State.tables fun _ _ => State.tables_subStores ..).trans rfl

@[simp] theorem State.launches_restartScan (core : Nat) : (s.restartScan core).launches = s.launches := rfl

@[simp] theorem State.launches_dropPair (p : Party) : (s.dropPair p).launches = s.launches := by
  unfold State.dropPair
  split
  · rfl
  · exact State.launches_of_tables (s := s.dropClause _) (s.tables_dropClause { p with kind := .trail })

@[simp] theorem State.launches_freeCrew (crew : Nat) (st : CrewState) : (s.freeCrew crew st).launches = s.launches := by
  have owned (l : List Nat) (c : Nat) (u : State) :
      (l.foldl (fun u g => u.setOwner (granuleAddr c g / 65536) 0) u).launches = u.launches :=
    foldl_keeps State.launches (f := fun u g => u.setOwner (granuleAddr c g / 65536) 0) fun _ _ => rfl
  have slots (l : List Nat) (c : Nat) (g : Cluster → Cluster) (u : State) :
      (l.foldl (fun u i => u.updCluster (4 * c + i) g) u).launches = u.launches :=
    foldl_keeps State.launches (f := fun u i => u.updCluster (4 * c + i) g) fun _ _ => rfl
  unfold State.freeCrew
  split
  · rfl
  · rw [State.launches_restartScan]
    split
    · exact (slots ..).trans (owned ..)
    · exact (State.updCore_launches ..).trans ((slots ..).trans (owned ..))

@[simp] theorem State.launches_retireCrew (crew : Nat) : (s.retireCrew crew).launches = s.launches := by
  unfold State.retireCrew
  split
  · rfl
  · split
    · rfl
    · rw [State.launches_of_tables (State.tables_freeTrack ..), State.launches_freeCrew,
        State.launches_of_tables (State.tables_keepSources ..)]

@[simp] theorem State.launches_retireTeam (p : Party) : (s.retireTeam p).launches = s.launches := by
  unfold State.retireTeam
  split
  · rfl
  · split
    · rfl
    · extract_lets s1 s2 s3 s4 s5 s6
      have completed : s4.tables = s3.tables := foldl_keeps State.tables fun _ _ => State.tables_barComplete ..
      have settled : s5.tables = s.tables := by simp [s5, completed, s3, s2, s1]
      have dropped : s6.launches = s.launches := (s5.launches_dropPair p).trans (State.launches_of_tables settled)
      split
      · exact dropped
      · split
        · rw [State.launches_retireCrew, dropped]
        · exact dropped

end

/-! ### What a close makes of its launches (R36) -/

/-- Whether a launch ended with its context, and how far its placement has come: what no halt of a team changes. -/
def State.closing (s : State) (id : Nat) : Option (Bool × Nat) := (s.launches.get? id).map fun l => (l.closed, l.next)

theorem State.closing_of_launches {s t : State} (h : s.launches = t.launches) (id : Nat) : s.closing id = t.closing id := by
  rw [State.closing, State.closing, h]

section
variable (s : State)

@[simp] theorem State.closing_haltTeam (p : Party) (id : Nat) : (s.haltTeam p).closing id = s.closing id := by
  unfold State.haltTeam
  split
  · rfl
  · next c _ =>
    extract_lets lead s1 s2 s3 s4
    have halted : s4.tables = s1.tables := by simp [s4, s3, s2]
    rw [State.closing_of_launches (State.launches_retireTeam ..),
      State.closing_of_launches (State.launches_of_tables ((s4.tables_abandonTree c.launch).trans halted))]
    simp only [State.closing, s1, State.launch_updLaunch]
    split
    next hid => rw [hid, Option.map_map]; rfl
    next => rfl

@[simp] theorem State.closing_haltCrew (crew id : Nat) : (s.haltCrew crew).closing id = s.closing id := by
  unfold State.haltCrew
  split
  · rfl
  · refine foldl_keeps (State.closing · id) fun u t => ?_
    split <;> simp

@[simp] theorem State.tables_spoilHub (p : Packet) : (s.spoilHub p).tables = s.tables := by
  unfold State.spoilHub
  refine foldl_keeps State.tables fun u i => ?_
  split
  · refine (foldl_keeps State.tables fun w e => ?_).trans (u.tables_takeFreeN _)
    split <;> simp
  · rfl

@[simp] theorem State.launches_closePacket (k : Nat) : (s.closePacket k).launches = s.launches := by
  unfold State.closePacket
  split
  · rfl
  · split
    · rfl
    · rw [State.launches_of_fixtures (State.fixtures_packetDone ..)]
      split
      · exact State.launches_of_tables (s.tables_spoilHub _)
      · rfl

end

end Sys2Proof.Machine
end

section
/-! Bring-up, re-planning, the passing of time and the assay of cores (R22, R27, R67, R68, R171): which dies are trained or
left out, and the service offered, after each. -/

namespace Sys2Proof.Machine

open Sys2Proof

/-! ### Which dies are trained or left out (R27) -/

/-- Whether a die is trained, and whether it was left out. -/
def State.standing (s : State) (d : Nat) : Bool × Bool := ((s.die d).trained, (s.die d).failed)

section
variable {s t : State}

theorem State.standing_of_dies (h : s.dies = t.dies) (d : Nat) : s.standing d = t.standing d := by
  rw [State.standing, State.standing, State.die_of_dies h]

theorem State.trained_of_standing (h : ∀ d, s.standing d = t.standing d) (d : Nat) :
    (s.die d).trained = (t.die d).trained := congrArg Prod.fst (h d)

theorem State.allTrained_of_standing (h : ∀ d, s.standing d = t.standing d) : s.allTrained = t.allTrained := by
  simp only [State.allTrained, State.trained_of_standing h]

theorem State.hubsTrained_of_standing (h : ∀ d, s.standing d = t.standing d) : s.hubsTrained = t.hubsTrained := by
  simp only [State.hubsTrained, State.trained_of_standing h]

end

section
variable (s : State)

@[simp] theorem State.standing_setGrains (die g d : Nat) : (s.setGrains die g).standing d = s.standing d := by
  rw [State.standing, State.die_setGrains]
  split
  next h => rw [h]; rfl
  next => rfl

/-- A change of service moves fill rates, and leaves every die as trained as it was. -/
theorem State.reclock_spec (v : Service) :
    (s.reclock v).mod = { s.mod with service := v } ∧ ∀ d, (s.reclock v).standing d = s.standing d := by
  have settled (l : List Nat) :
      (l.foldl (fun u d => (clustersOf d).foldl State.settlePower u) s).fixtures = s.fixtures :=
    foldl_keeps State.fixtures fun u d => foldl_keeps State.fixtures (f := State.settlePower) fun _ _ => rfl
  unfold State.reclock
  extract_lets dies s1 s2
  constructor
  · refine (foldl_keeps State.mod fun _ _ => State.mod_setGrains ..).trans ?_
    show { s1.mod with service := v } = _
    rw [State.mod_of_fixtures (settled dies)]
  · intro d
    refine (foldl_keeps (State.standing · d) fun _ _ => State.standing_setGrains ..).trans ?_
    exact State.standing_of_dies (s := s1) (State.dies_of_fixtures (settled dies)) d

@[simp] theorem State.fixtures_releaseCupel (core : Nat) : (s.releaseCupel core).fixtures = s.fixtures :=
  State.fixtures_of_tables ((foldl_keeps State.tables fun _ _ => State.tables_updCopies ..).trans (s.tables_updCore ..))

@[simp] theorem State.fixtures_releaseImage (crew : Nat) : (s.releaseImage crew).fixtures = s.fixtures := by
  unfold State.releaseImage
  split
  · rfl
  · exact State.fixtures_of_tables
      ((foldl_keeps State.tables fun _ _ => State.tables_updCopies ..).trans (s.tables_updCrew ..))

/-- Full service releases what was held, and leaves the module, the dies and the launches as the change of service did. -/
theorem State.fixtures_fullService (v : Service) : (s.fullService v).fixtures = (s.reclock v).fixtures :=
  (foldl_keeps State.fixtures fun _ _ => State.fixtures_releaseImage ..).trans
    (foldl_keeps State.fixtures fun _ _ => State.fixtures_releaseCupel ..)

theorem State.fullService_spec (v : Service) :
    (s.fullService v).mod.service = v ∧ ∀ d, (s.fullService v).standing d = s.standing d := by
  obtain ⟨mod, standing⟩ := s.reclock_spec v
  refine ⟨?_, fun d => ?_⟩
  · rw [State.mod_of_fixtures (s.fixtures_fullService v), mod]
  · rw [State.standing_of_dies (State.dies_of_fixtures (s.fixtures_fullService v)), standing]

/-- The service that is offered: full with every die trained, reduced with the hub dies and die 0. -/
theorem State.offer_spec :
    (∀ d, s.offer.standing d = s.standing d) ∧ (s.allTrained = true → s.offer.mod.service = .full) ∧
    (s.allTrained = false → s.mod.service = .off → s.hubsTrained = true → (s.die 0).trained = true →
      s.offer.mod.service = .reduced) := by
  unfold State.offer
  split
  next all =>
    obtain ⟨service, standing⟩ := s.fullService_spec .full
    exact ⟨standing, fun _ => service, by simp [all]⟩
  next some =>
    split
    next =>
      obtain ⟨mod, standing⟩ := s.reclock_spec .reduced
      exact ⟨standing, fun all => absurd all some, fun _ _ _ _ => by rw [mod]⟩
    next none => exact ⟨fun _ => rfl, fun all => absurd all some, fun _ off hubs zero => by simp [off, hubs, zero] at none⟩

/-! ### The count of R58 again -/

/-- A launch that no longer fits completes: its packet's end, or its node's status, touches no die and not the module. -/
theorem State.overflow_spec (id : Nat) (l : Launch) : (s.overflow id l).mod = s.mod ∧ (s.overflow id l).dies = s.dies := by
  unfold State.overflow
  split
  · constructor
    · exact (State.mod_of_fixtures (State.fixtures_packetDone ..)).trans rfl
    · exact (State.dies_of_fixtures (State.fixtures_packetDone ..)).trans rfl
  · exact ⟨rfl, rfl⟩

@[simp] theorem State.mod_recheck : s.recheck.mod = s.mod := by
  refine foldl_keeps State.mod fun u e => ?_
  split
  · exact (u.overflow_spec e.1 e.2).1
  · rfl

@[simp] theorem State.dies_recheck : s.recheck.dies = s.dies := by
  refine foldl_keeps State.dies fun u e => ?_
  split
  · exact (u.overflow_spec e.1 e.2).2
  · rfl

@[simp] theorem State.die_planned (die reason core d : Nat) : (s.planned die reason core).die d = s.die d := rfl

@[simp] theorem State.core_updDie (die : Nat) (f : Die → Die) (c : Nat) : (s.updDie die f).core c = s.core c := rfl

/-- A core that passes keeps its place in placement, with the tick at which the pass began. -/
theorem State.core_passCore (core : Nat) (began : DWord) :
    (s.passCore core began).core core = { s.core core with lastPass := began, launches := [] } := by
  rw [State.passCore, State.core_updCore, if_pos rfl]

@[simp] theorem State.die_passCore (core : Nat) (began : DWord) (d : Nat) : (s.passCore core began).die d = s.die d := rfl

/-! ### Dies that come up, and dies that are left out (R8, R27) -/

theorem State.fixtures_startClusters (die : Nat) : (s.startClusters die).fixtures = s.fixtures := by
  unfold State.startClusters
  refine foldl_keeps State.fixtures ?_
  intros
  rfl

theorem State.fixtures_linkUp (die : Nat) : (s.linkUp die).fixtures = s.fixtures := by
  unfold State.linkUp
  split <;> rfl

/-- The dies of a list are left out when they are not trained; which dies are trained does not change. -/
theorem State.standing_leaveOut (l : List Nat) (d : Nat) :
    (l.foldl (fun u d => u.updDie d fun x => { x with failed := !x.trained }) s).standing d =
      ((s.die d).trained, if d ∈ l then !(s.die d).trained else (s.die d).failed) := by
  induction l generalizing s with
  | nil => rfl
  | cons a l ih =>
    rw [List.foldl_cons, ih, State.die_updDie]
    by_cases h : d = a
    · subst h; simp
    · simp [h]

/-! ### The passing of time (R68) -/

/-- Some ticks pass: the time base moves on by as many. -/
theorem State.now_elapse (n : Nat) : (s.elapse n).now = BitVec.ofNat 64 (s.now.toNat + n) := by
  have passed (k fin : Nat) : ∀ u : State, (u.passTo k fin).now = BitVec.ofNat 64 fin := by
    induction k with
    | zero => intro u; rfl
    | succ k ih => intro u; exact ih _
  exact passed _ _ s

end

end Sys2Proof.Machine

namespace Sys2Proof.Claims

open Sys2Proof Sys2Proof.Machine

theorem becomes_dieTrained {s : State} {die : Nat} (booted : s.booted = true) (served : s.mod.service ≠ .recovery)
    (hdie : die < 16) (untrained : (s.die die).trained = false) (there : (s.die die).failed = false)
    (hubs : die < 12 → s.hubsTrained = true) (zero : 0 < die → die < 12 → (s.die 0).trained = true) :
    Becomes (.dieTrained die) s fun t => (t.die die).trained = true ∧
      (t.allTrained = true → t.mod.service = .full) ∧
      (t.allTrained = false → s.mod.service = .off → t.hubsTrained = true → (t.die 0).trained = true →
        t.mod.service = .reduced) := by
  refine becomes_of (if_neg ?_) ?_
  · simpa [booted, served, hdie, untrained, there] using ⟨hubs, zero⟩
  · have came (u : State) : (if die < 12 then u.startClusters die else u.linkUp die).fixtures = u.fixtures := by
      split
      · exact u.fixtures_startClusters die
      · exact u.fixtures_linkUp die
    have came := came (s.updDie die fun d =>
      { d with trained := true, assayTick := s.now + BitVec.ofNat 64 Config.assayPeriod })
    generalize (if die < 12 then _ else State.linkUp _ die) = s2 at came ⊢
    obtain ⟨standing, full, reduced⟩ := s2.offer_spec
    refine ⟨?_, fun all => full ?_, fun all off hubs zero => reduced ?_ ?_ ?_ ?_⟩
    · rw [State.trained_of_standing standing, State.die_of_dies (State.dies_of_fixtures came)]
      simp
    · rw [← State.allTrained_of_standing standing, all]
    · rw [← State.allTrained_of_standing standing, all]
    · rw [State.mod_of_fixtures came]
      exact off
    · rw [← State.hubsTrained_of_standing standing, hubs]
    · rw [← State.trained_of_standing standing, zero]

/-- FULL_SERVICE_DEADLINE with a die still untrained. -/
theorem becomes_fullServiceDeadline {s : State} (booted : s.booted = true) (late : 612000000000 ≤ s.now.toNat)
    (untrained : s.allTrained = false) (serving : s.mod.service = .off ∨ s.mod.service = .reduced) :
    Becomes .fullServiceDeadline s fun t => t.mod.service = .degraded ∧
      ∀ d < 16, (t.die d).failed = !(s.die d).trained := by
  refine becomes_of (if_neg ?_) ⟨?_, fun d hd => ?_⟩
  · have late : ¬s.now.toNat < sixMinutes := by rw [sixMinutes]; omega
    rcases serving with h | h <;> simp [booted, untrained, late, h]
  · rw [State.mod_recheck, (State.fullService_spec _ _).1]
  · rw [State.die_of_dies (State.dies_recheck _)]
    refine (congrArg Prod.snd (((State.fullService_spec _ _).2 d).trans (s.standing_leaveOut _ d))).trans ?_
    simp [hd]

/-- REPLAN that is due. -/
theorem becomes_replan {s : State} {die : Nat} {reason : Replan} (table : List Byte) (booted : s.booted = true)
    (hdie : die < 16) (there : (s.die die).retired = false) (due : s.replanDue die reason = true) :
    (Becomes (.replan die reason table true) s fun t => (t.die die).newTable = some table ∧
      t.mod.plan.length = s.mod.plan.length + 1) ∧
    ∃ t, exec (.replan die reason table false) s = .next t := by
  have go : ¬(!s.booted || decide (16 ≤ die) || (s.die die).retired || !s.replanDue die reason) = true := by
    simp [booted, hdie, there, due]
  refine ⟨becomes_of (if_neg go) ⟨?_, ?_⟩, _, if_neg go⟩
  · rw [State.die_planned, State.die_updDie, if_pos rfl]
  · exact List.length_append

/-- The next step of a cluster's fill rate comes at the tick that `nextStep` gives. -/
theorem becomes_fillRateStep {s : State} {cl : Nat} (recent : (s.now - (s.cluster cl).changed).toNat < 1700)
    (moving : (s.cluster cl).fill ≠ (s.cluster cl).target) :
    Becomes (.fillRateStep cl) s fun t => t.now = (s.cluster cl).changed +
      BitVec.ofNat 64 (100 * ((s.now - (s.cluster cl).changed).toNat / 100 + 1)) := by
  generalize hc : s.cluster cl = c at recent moving
  have step : c.nextStep s.now = some (c.changed.toNat + 100 * ((s.now - c.changed).toNat / 100 + 1)) :=
    if_neg (by simp [moving, -BitVec.toNat_sub]; omega)
  have ahead : s.now.toNat ≤ c.changed.toNat + 100 * ((s.now - c.changed).toNat / 100 + 1) := by
    have : (s.now - c.changed).toNat = (2 ^ 64 - c.changed.toNat + s.now.toNat) % 2 ^ 64 := BitVec.toNat_sub ..
    omega
  refine becomes_of (by show execFillRateStep cl s = _; rw [execFillRateStep, hc, step]) ?_
  · show (s.elapse _).now = _
    rw [State.now_elapse, Nat.add_sub_cancel' ahead, BitVec.ofNat_add, BitVec.ofNat_toNat, BitVec.setWidth_eq]

/-- ASSAY_START of a die that works and whose period has come. -/
theorem becomes_assayStart {s : State} {die k : Nat} (works : s.dieWorks die = true) (free : (s.die die).assay = none)
    (due : (s.die die).assayTick.toNat ≤ s.now.toNat) (core : s.assayCore die = some k) :
    Becomes (.assayStart die) s fun t => (t.die die).assay = some (k, s.now, s.now) ∧
      (t.die die).assayNext = (k + 1) % 32 := by
  have go : ¬(!s.dieWorks die || (s.die die).assay.isSome || s.now.ult (s.die die).assayTick) = true := by
    simp [works, free, BitVec.ult, due]
  refine becomes_of (by show execAssayStart die s = _; rw [execAssayStart, if_neg go, core]) ?_
  simp

/-- ASSAY_RESULT of a core that has been left and scanned. -/
theorem becomes_assayResult {s : State} {die k : Nat} {began scan : DWord} (pass : Bool)
    (assay : (s.die die).assay = some (k, began, scan)) (left : s.onCore k = []) (trails : s.trailsOn k = [])
    (scanned : 680000 ≤ (s.now - scan).toNat) :
    Becomes (.assayResult die pass) s fun t => pass = true → (t.core k).lastPass = began ∧ (t.die die).assay = none ∧
      (t.core k).retired = (s.core k).retired := by
  have go : ¬(!(s.onCore k).isEmpty || !(s.trailsOn k).isEmpty || decide ((s.now - scan).toNat < Config.assayScan)) =
      true := by simp [left, trails, Config.assayScan, Nat.not_lt.mpr scanned, -BitVec.toNat_sub]
  refine becomes_of (by show execAssayResult die pass s = _; rw [execAssayResult, assay]; exact if_neg go) ?_
  rintro rfl
  rw [if_pos rfl, State.core_passCore, State.die_passCore, State.die_updDie, if_pos rfl]
  exact ⟨rfl, rfl, rfl⟩

/-- Settles O49: each event. -/
theorem bringUpAndPower : Obligations.BringUpAndPower := by
  refine ⟨fun s die booted served hdie untrained there hubs zero =>
      becomes_dieTrained booted served hdie untrained there hubs zero,
    fun s booted late untrained serving => becomes_fullServiceDeadline booted late untrained serving,
    fun s die reason table booted hdie there due => becomes_replan table booted hdie there due,
    fun s cl recent moving => becomes_fillRateStep recent moving, ?_, fun s good => if_pos good, ?_,
    fun s die k works free due core => becomes_assayStart works free due core,
    fun s die k began scan pass assay left trails scanned => becomes_assayResult pass assay left trails scanned⟩
  · intro s cl slot p t l w hslot hteam hlaunch te withheld long
    have since : s.withheldSince p = some w := by simp [State.withheldSince, hteam, hlaunch, te, withheld]
    show execThrottleLimit cl slot s = _
    rw [execThrottleLimit, hslot]
    dsimp only
    rw [since]
    exact if_neg (Nat.not_lt.mpr long)
  · intro s cl e w ws due
    show execEnergyDivide cl e s = _
    rw [execEnergyDivide, due]

end Sys2Proof.Claims
end

section
/-! The fabric ports, the domain and CXL devices (R12, R15 to R18): what an update of one port reads back as, and what
sending, acknowledging and replaying leave of a port. -/

namespace Sys2Proof.Machine

open Sys2Proof

/-! ### One port's update -/

section
variable (s : State)

@[simp] theorem State.port_updPort (k : Nat) (f : FabricPort → FabricPort) (j : Nat) :
    (s.updPort k f).port j = if j = k then f (s.port k) else s.port j := by
  unfold State.port State.updPort
  rw [Tbl.get?_put]
  split <;> rfl

/-- One update of every port of a list without repetitions. -/
theorem State.port_foldl_updPort (f : FabricPort → FabricPort) (j : Nat) : ∀ {l : List Nat} (s : State), l.Nodup →
    (l.foldl (fun u k => u.updPort k f) s).port j = if j ∈ l then f (s.port j) else s.port j
  | [], _, _ => rfl
  | k :: l, s, distinct => by
    obtain ⟨fresh, distinct⟩ := List.nodup_cons.mp distinct
    rw [List.foldl_cons, State.port_foldl_updPort f j _ distinct, State.port_updPort]
    by_cases h : j = k
    · subst h; simp [fresh]
    · simp [h]

/-- The request for a replay sends one flit, and the port discards until the lost flit comes. -/
theorem State.port_askReplay (k : Nat) : ∃ flit : List Byte,
    (s.askReplay k).port k = { s.port k with skipping := true, sent := (s.port k).sent ++ [flit] } :=
  ⟨_, (State.port_updPort ..).trans (if_pos rfl)⟩

end

/-! ### What sending leaves of a port (R16) -/

/-- What no flit that a port sends changes: its state, what it has received, and how it stands with replays. -/
def FabricPort.standing (p : FabricPort) : LinkState × BitVec 12 × Bool × Bool × Nat × List (List Byte) :=
  (p.state, p.rxNext, p.skipping, p.retraining, p.replays, p.received)

@[simp] theorem FabricPort.standing_pump (n : Nat) (p : FabricPort) : (p.pump n).standing = p.standing := by
  induction n generalizing p with
  | zero => rfl
  | succ n ih =>
    unfold FabricPort.pump
    split
    · rfl
    · split
      · rfl
      · exact (ih _).trans rfl

@[simp] theorem FabricPort.standing_carry (p : FabricPort) (bs : List (Nat × List Byte)) :
    (p.carry bs).standing = p.standing := (FabricPort.standing_pump ..).trans rfl

@[simp] theorem FabricPort.standing_acked (p : FabricPort) (ack : BitVec 12) : (p.acked ack).standing = p.standing := by
  unfold FabricPort.acked
  split
  · exact (FabricPort.standing_carry ..).trans rfl
  · rfl

@[simp] theorem FabricPort.standing_note (p : FabricPort) (f : List Byte) : (p.note f).standing = p.standing :=
  (FabricPort.standing_acked p _ : _)

section
variable (p : FabricPort)

@[simp] theorem FabricPort.rxNext_note (f : List Byte) : (p.note f).rxNext = p.rxNext :=
  congrArg (·.2.1) (p.standing_note f)
@[simp] theorem FabricPort.received_note (f : List Byte) : (p.note f).received = p.received :=
  congrArg (·.2.2.2.2.2) (p.standing_note f)

variable (bs : List (Nat × List Byte))

@[simp] theorem FabricPort.state_carry : (p.carry bs).state = p.state := congrArg (·.1) (p.standing_carry bs)
@[simp] theorem FabricPort.skipping_carry : (p.carry bs).skipping = p.skipping :=
  congrArg (·.2.2.1) (p.standing_carry bs)
@[simp] theorem FabricPort.retraining_carry : (p.carry bs).retraining = p.retraining :=
  congrArg (·.2.2.2.1) (p.standing_carry bs)
@[simp] theorem FabricPort.replays_carry : (p.carry bs).replays = p.replays :=
  congrArg (·.2.2.2.2.1) (p.standing_carry bs)

end

/-- A flit is corrupt exactly when it is not intact as R15 says. -/
theorem flitCorrupt_eq_false (f : List Byte) : flitCorrupt f = false ↔ Claims.Intact f := by
  simp only [flitCorrupt, Bool.or_eq_false_iff, decide_eq_false_iff_not, not_not, ne_eq, not_lt, not_le, and_assoc]
  simp only [Claims.Intact, flitCrc, flitVc, flitType, flitSeq, flitAck, eq_comm (a := le f 248 8)]

/-! ### A data flit (R15, R16) -/

section
variable {s : State} {k : Nat} {f : List Byte}

/-- The data flit that is due goes to the transaction layer. -/
theorem State.port_dataFlit_due (due : BitVec.ofNat 12 (flitSeq f) = (s.port k).rxNext) :
    (s.dataFlit k f).port k = { (s.port k).note f with
      received := (s.port k).received ++ [flitPayload f], rxNext := (s.port k).rxNext + 1, skipping := false } := by
  rw [State.dataFlit, if_pos due, State.port_updPort, if_pos rfl]

/-- Any other data flit is discarded: nothing is received, and the same flit stays due. -/
theorem State.port_dataFlit_other (other : BitVec.ofNat 12 (flitSeq f) ≠ (s.port k).rxNext) :
    ((s.dataFlit k f).port k).received = (s.port k).received ∧ ((s.dataFlit k f).port k).rxNext = (s.port k).rxNext := by
  obtain ⟨flit, asked⟩ := s.port_askReplay k
  rw [State.dataFlit, if_neg other]
  split
  · exact ⟨rfl, rfl⟩
  · split
    · rw [asked]; exact ⟨rfl, rfl⟩
    · rw [State.port_updPort, if_pos rfl]
      exact ⟨FabricPort.received_note .., FabricPort.rxNext_note ..⟩

/-- A gap asks for a replay, once. -/
theorem State.skipping_dataFlit_gap (other : BitVec.ofNat 12 (flitSeq f) ≠ (s.port k).rxNext)
    (first : (s.port k).skipping = false) (ahead : (BitVec.ofNat 12 (flitSeq f) - (s.port k).rxNext).toNat < 2048) :
    ((s.dataFlit k f).port k).skipping = true := by
  obtain ⟨flit, asked⟩ := s.port_askReplay k
  rw [State.dataFlit, if_neg other, first, if_neg Bool.false_ne_true, if_pos ahead, asked]

end

/-! ### Retraining (R16) -/

/-- The eighth replay of one flit in a row retrains the port. -/
theorem FabricPort.retraining_resend (p : FabricPort) (seq : BitVec 12) :
    (p.resend seq).retraining = true ↔ p.lastReplay = some seq ∧ p.replays = 7 := by
  unfold FabricPort.resend
  by_cases h : p.lastReplay = some seq <;> simp [h]

/-- A port that is taken down stays so: its traffic goes to another port. -/
theorem State.takeDown_spec (s : State) (k : Nat) :
    ((s.takeDown k).port k).state = .takenDown ∧ (s.takeDown k).mod.lossLog = s.mod.lossLog ++ [k] := by
  unfold State.takeDown
  extract_lets lost s1 m s2
  have down : (s2.port k).state = .takenDown := by
    show (s1.port k).state = _
    simp [s1]
  split
  next j other =>
    have apart : k ≠ j := by
      rintro rfl
      simpa using List.find?_some other
    refine ⟨?_, rfl⟩
    rw [State.port_updPort, if_neg apart, down]
  next => exact ⟨down, rfl⟩

end Sys2Proof.Machine

namespace Sys2Proof.Claims

open Sys2Proof Sys2Proof.Machine

/-! ### Flits -/

section
variable {s : State} {k : Nat} {f : List Byte} (hk : k < 64) (up : (s.port k).up = true)
include hk up

/-- A corrupt flit asks for a replay. -/
theorem flitReceive_of_corrupt (corrupt : ¬Intact f) : exec (.flitReceive k f) s = .next (s.askReplay k) := by
  have bad : flitCorrupt f = true := by
    rw [← Bool.not_eq_false, flitCorrupt_eq_false]
    exact corrupt
  show execFlitReceive k f s = _
  simp [execFlitReceive, hk, up, bad]

/-- An intact data flit goes to a port that carries load-store traffic; an isolated one takes none (R17). -/
theorem flitReceive_of_data (intact : Intact f) (data : le f 1 1 = 0) :
    exec (.flitReceive k f) s = .next (if (s.port k).live then s.dataFlit k f else s) := by
  have type : flitType f = 0 := data
  show execFlitReceive k f s = _
  simp [execFlitReceive, hk, up, (flitCorrupt_eq_false f).mpr intact, type]

/-- A port that is up makes something of every flit. -/
theorem flitReceive_completes : ∃ t, exec (.flitReceive k f) s = .next t := by
  by_cases intact : Intact f
  · show ∃ t, execFlitReceive k f s = .next t
    rw [execFlitReceive, if_neg (by simp [hk, up]), if_neg (by simp [(flitCorrupt_eq_false f).mpr intact])]
    split <;> exact ⟨_, rfl⟩
  · exact ⟨_, flitReceive_of_corrupt hk up intact⟩

end

/-- Settles O50: a corrupt flit asks for a replay and a data flit is taken when it is due; the other events update one port
each, and the domain every port of a trained hub die. -/
theorem linkEvents : Obligations.LinkEvents := by
  refine ⟨fun s k f hk up => ⟨flitReceive_completes hk up, fun intact data live due => ?_, fun intact data other => ?_,
      fun intact data live first other ahead => ?_, fun corrupt => ?_⟩, fun s k q hk up => ?_, fun s k retraining => ?_,
    fun s reduces dup booted served apart single => ?_, fun s k kind capacity hk booted hub => ?_⟩
  · refine becomes_of (flitReceive_of_data hk up intact data) ?_
    rw [live, if_pos rfl, State.port_dataFlit_due due]
    exact ⟨rfl, rfl, rfl⟩
  · refine becomes_of (flitReceive_of_data hk up intact data) ?_
    split
    · exact State.port_dataFlit_other other
    · exact ⟨rfl, rfl⟩
  · refine becomes_of (flitReceive_of_data hk up intact data) ?_
    rw [live, if_pos rfl]
    exact State.skipping_dataFlit_gap other first ahead
  · obtain ⟨flit, asked⟩ := s.port_askReplay k
    refine becomes_of (flitReceive_of_corrupt hk up corrupt) ?_
    rw [asked]
    exact ⟨rfl, rfl, rfl, List.length_append⟩
  · refine becomes_of (if_neg (by simp [hk, up])) ?_
    rw [State.port_updPort, if_pos rfl]
    exact ⟨rfl, FabricPort.retraining_resend ..⟩
  · constructor
    · refine becomes_of ((if_neg (by simp [retraining])).trans (if_pos rfl)) ?_
      simp +contextual
    · exact becomes_of ((if_neg (by simp [retraining])).trans (if_neg Bool.false_ne_true)) (s.takeDown_spec k)
  · refine becomes_of (if_neg (by simp [booted, served, apart, single])) ⟨rfl, rfl, rfl, fun k hk => ?_⟩
    have joined (st : LinkState) := State.port_foldl_updPort (fun p => { p with state := st }) k s
      (List.nodup_range.filter s.portHub : ((List.range 64).filter s.portHub).Nodup)
    have mem : k ∈ (List.range 64).filter s.portHub ↔ s.portHub k = true := by simp [hk]
    refine ⟨fun hub => congrArg FabricPort.state ((joined _).trans (if_pos (mem.mpr hub))), fun hub => ?_⟩
    exact (joined _).trans (if_neg (by simp [mem, hub]))
  · refine becomes_of (if_neg (by simp [Nat.not_le.mpr hk, booted, hub])) ⟨_, Tbl.get?_put_same .., ?_⟩
    obtain ⟨kind, slow⟩ := kind
    cases kind <;> simp

end Sys2Proof.Claims
end

section
/-! Inbound RDMA, notify registers and the accesses of other nodes (R14, R38, R39, R95, R96, R109): how each kind of
operation is answered, and the result of another node's atomic. -/

namespace Sys2Proof.Machine

open Sys2Proof

/-! ### An inbound RDMA operation (R14, R34, R35) -/

section
variable {s : State} {g : UecForm} {o : InboundOp}

theorem State.takeRdma_refused (refused : g.taken = false) : s.takeRdma g o = s.send .rdmaRefused := by
  simp [State.takeRdma, refused]

theorem State.takeRdma_performed {t : State} (taken : g.taken = true) (done : s.rdma o = .ok t) : s.takeRdma g o = t := by
  simp [State.takeRdma, taken, done]

theorem State.takeRdma_waits {x : XFault} (taken : g.taken = true) (wait : s.rdma o = .error x) :
    s.takeRdma g o = { s with inbounds := s.inbounds ++ [{ o with remote := x.isRemote }] } := by
  simp [State.takeRdma, taken, wait]

/-- Outside an exposure, or without its flag, the answer is the transport's access error. -/
theorem State.rdma_unexposed (outside : s.exposed o.handle.toNat o.offset o.len o.write.isSome = none) :
    s.rdma o = .ok (s.send .rdmaError) := by
  simp [State.rdma, outside]

variable {c : Nat} {p : DWord} (inside : s.exposed o.handle.toNat o.offset o.len o.write.isSome = some (c, p))
include inside

/-- An access that faults is answered with the access error, when nothing can change that. -/
theorem State.rdma_faults {x : XFault} {a : DWord}
    (fault : s.ctxPieces (engineAgent c) (if o.write.isSome then .store else .load) p o.len = .error (x, a))
    (final : x.patience = none) : s.rdma o = .ok (s.send .rdmaError) := by
  simp [State.rdma, inside, fault, final]

/-- An access that meets a migrating leaf, or an owner that does not answer, waits. -/
theorem State.rdma_patient {x : XFault} {a : DWord}
    (fault : s.ctxPieces (engineAgent c) (if o.write.isSome then .store else .load) p o.len = .error (x, a))
    (patient : x.patience.isSome = true) : s.rdma o = .error x := by
  simp [State.rdma, inside, fault, patient]

theorem State.rdma_writes {ps : List (Phys × Nat)} {bs : List Byte} (write : o.write = some bs)
    (pieces : s.ctxPieces (engineAgent c) .store p o.len = .ok ps) :
    s.rdma o = .ok (((s.commitFills (engineAgent c) (ps.map (·.1))).writePieces ps bs).send .rdmaDone) := by
  rw [State.rdma, inside]
  simp [write, pieces]

theorem State.rdma_reads {ps : List (Phys × Nat)} (read : o.write = none)
    (pieces : s.ctxPieces (engineAgent c) .load p o.len = .ok ps)
    (clean : ∀ x ∈ ps, ∀ i < x.2, s.poisoned (x.1.addr + i) = false) :
    s.rdma o = .ok ((s.commitFills (engineAgent c) (ps.map (·.1))).send
      (.rdmaData (ps.flatMap fun x => s.readBytes x.1.addr x.2))) := by
  have none : (ps.any fun x => (List.range x.2).any fun i => s.poisoned (x.1.addr + i)) = false := by
    simpa using clean
  rw [State.rdma, inside]
  simp [read, pieces, none]

end

/-- An exposure that does not allow the access, or ends before it does, opens nothing. -/
theorem State.exposed_eq_none {s : State} {h o n : Nat} {e : Exposure} (there : s.exposures.get? h = some e)
    (closed : e.write = false ∨ e.len < o + n) : s.exposed h o n true = none := by
  rcases closed with h | h <;> simp [State.exposed, there, h]

/-! ### Notify registers (R39, R41) -/

/-- A queue that is not overrun is left as it is. -/
theorem State.checkOverrun_of_room {s : State} {q : Nat} {u : UQueue} (there : s.queues.get? q = some u)
    (room : u.state ≠ .active ∨ u.wi.toNat - u.ri.toNat ≤ 2 ^ u.n) : s.checkOverrun q = s := by
  rcases room with h | h
  · simp [State.checkOverrun, there, h]
  · simp [State.checkOverrun, there, Nat.not_lt.mpr h]

/-- WI and a notified value: the greater one. -/
theorem toNat_raised (w x : DWord) : (if w.ult x then x else w).toNat = max w.toNat x.toNat := by
  simp only [BitVec.ult, decide_eq_true_eq]
  split <;> omega

/-- A read of a whole notify register returns WI. -/
theorem State.readNotify_whole (s : State) (u : UQueue) :
    s.readNotify u u.addr 8 = s.send (.rdmaData (bytesOf 8 u.wi.toNat)) := by
  have all : (bytesOf 8 u.wi.toNat).take 8 = bytesOf 8 u.wi.toNat := List.take_of_length_le (by simp)
  simp [State.readNotify, all]

/-! ### Another node's atomic (R95, R96, R201) -/

theorem remoteBits_eq_farBits (op : RemoteAtomic) : remoteBits op = Claims.farBits op := by
  cases op with
  | int wide sg o => cases wide <;> rfl
  | fadd => rfl
  | bfadd => rfl
  | cas k c => rfl

/-- Numbers of `n` bits that read the same as signed integers are the same. -/
theorem signed_inj {n x y : Nat} (hx : x < 2 ^ n) (hy : y < 2 ^ n) (h : signed n x = signed n y) : x = y := by
  simp only [signed, Nat.mod_eq_of_lt hx, Nat.mod_eq_of_lt hy] at h
  zify at hx hy
  split at h <;> split at h <;> omega

/-- A number of `n` bits as minima and maxima compare it. -/
def compared (n : Nat) (sg : Bool) (k : Nat) : Int := if sg then signed n k else k

theorem compared_inj {n : Nat} (sg : Bool) {x y : Nat} (hx : x < 2 ^ n) (hy : y < 2 ^ n)
    (h : compared n sg x = compared n sg y) :
    x = y := by
  cases sg with
  | true => exact signed_inj hx hy h
  | false => exact Int.ofNat_inj.mp h

/-- What the ALU writes, as the statements write it: a maximum of equal numbers is either of them. -/
theorem AluOp.eval_eq_atomicResult (o : AluOp) {n : Nat} (sg : Bool) {old v : Nat} (hold : old < 2 ^ n)
    (hv : v < 2 ^ n) : o.eval n sg old v = Claims.atomicResult o n sg old v := by
  have less : (if sg then decide (signed n v < signed n old) else decide (v < old)) =
      decide (compared n sg v < compared n sg old) := by cases sg <;> simp [compared]
  cases o with
  | min =>
    show (if (if sg then _ else _) = true then v else old) = if compared n sg v < compared n sg old then v else old
    simp [less]
  | max =>
    show (if ((if sg then _ else _) || v == old) = true then old else v) =
      if compared n sg old < compared n sg v then v else old
    rw [less]
    rcases lt_trichotomy (compared n sg v) (compared n sg old) with h | h | h
    · simp [h, h.le]
    · simp [compared_inj sg hv hold h]
    · have apart : v ≠ old := fun same => by simp [same] at h
      simp [h, h.le, apart]
  | _ => rfl

/-- Another node's atomic leaves what the statement says. -/
theorem remoteAlu_eval (op : RemoteAtomic) {old : Nat} (v : BitVec 128) (hold : old < 2 ^ Claims.farBits op) :
    (remoteAlu op).eval (Claims.farBits op) (remoteSigned op) old (v.toNat % 2 ^ Claims.farBits op) =
      Claims.farResult op old v := by
  rw [AluOp.eval_eq_atomicResult _ _ hold (Nat.mod_lt _ (Nat.two_pow_pos _))]
  cases op with
  | int wide sg o => rfl
  | fadd => rfl
  | bfadd => rfl
  | cas k c => rfl

theorem eight_dvd_farBits (op : RemoteAtomic) : 8 ∣ Claims.farBits op := by
  cases op with
  | int wide sg o => cases wide; exacts [⟨4, rfl⟩, ⟨8, rfl⟩]
  | fadd => exact ⟨4, rfl⟩
  | bfadd => exact ⟨4, rfl⟩
  | cas k c => exact (Dvd.intro 4 rfl : 8 ∣ 32).mul_right _

/-- The word of another node's atomic, read at its place, fits its width. -/
theorem State.readNat_lt_farBits (s : State) (a : Nat) (op : RemoteAtomic) :
    s.readNat a (Claims.farBits op / 8) < 2 ^ Claims.farBits op := by
  have bound := s.readNat_lt a (Claims.farBits op / 8)
  rwa [show 256 = 2 ^ 8 from rfl, ← pow_mul, Nat.mul_div_cancel' (eight_dvd_farBits op)] at bound

end Sys2Proof.Machine

namespace Sys2Proof.Claims

open Sys2Proof Sys2Proof.Machine

/-- A write, and a read, as they arrive. -/
def arrivingWrite (s : State) (h : Word) (o : Nat) (bs : List Byte) : InboundOp :=
  { handle := h, offset := o, write := some bs, len := bs.length, since := s.now, remote := false }
def arrivingRead (s : State) (h : Word) (o n : Nat) : InboundOp :=
  { handle := h, offset := o, write := none, len := n, since := s.now, remote := false }

theorem inboundRdmaWrite_eq {s : State} (g : UecForm) (h : Word) (o : Nat) (bs : List Byte) (up : s.uecUp = true) :
    exec (.inboundRdmaWrite ⟨h, g⟩ o bs) s = .next (s.takeRdma g (arrivingWrite s h o bs)) :=
  if_neg (by simp [up])

/-- A read under a handle of no notify register, or in a form that is refused, is an RDMA read. -/
theorem inboundRdmaRead_eq {s : State} {g : UecForm} {h : Word} (o n : Nat) (up : s.uecUp = true)
    (plain : s.notifyQueue h.toNat = none ∨ g.taken = false) :
    exec (.inboundRdmaRead ⟨h, g⟩ o n) s = .next (s.takeRdma g (arrivingRead s h o n)) := by
  show execInboundRdmaRead ⟨h, g⟩ o n s = _
  rw [execInboundRdmaRead, if_neg (by simp [up])]
  rcases plain with plain | plain <;> simp [plain, arrivingRead]

/-- RDMA writes, whether exposed or not. -/
theorem inboundRdmaWrite_taken {s : State} {g : UecForm} (h : Word) (o : Nat) (bs : List Byte) (up : s.uecUp = true)
    (taken : g.taken = true) :
    (s.exposed h.toNat o bs.length true = none →
      exec (.inboundRdmaWrite ⟨h, g⟩ o bs) s = .next (s.send .rdmaError)) ∧
    (∀ c p, s.exposed h.toNat o bs.length true = some (c, p) →
      (∀ ps, s.ctxPieces (engineAgent c) .store p bs.length = .ok ps → exec (.inboundRdmaWrite ⟨h, g⟩ o bs) s =
        .next (((s.commitFills (engineAgent c) (ps.map (·.1))).writePieces ps bs).send .rdmaDone)) ∧
      (∀ x i, s.ctxPieces (engineAgent c) .store p bs.length = .error (x, i) →
        (x.patience = none → exec (.inboundRdmaWrite ⟨h, g⟩ o bs) s = .next (s.send .rdmaError)) ∧
        (x.patience.isSome = true → exec (.inboundRdmaWrite ⟨h, g⟩ o bs) s = .next { s with inbounds := s.inbounds ++
          [{ handle := h, offset := o, write := some bs, len := bs.length, since := s.now, remote := x.isRemote }] }))) := by
  have next := inboundRdmaWrite_eq g h o bs up
  refine ⟨fun outside => ?_, fun c p inside => ⟨fun ps pieces => ?_, fun x i fault => ⟨fun final => ?_, fun patient => ?_⟩⟩⟩
  · rw [next, State.takeRdma_performed taken (State.rdma_unexposed (o := arrivingWrite s h o bs) outside)]
  · rw [next, State.takeRdma_performed taken (State.rdma_writes (o := arrivingWrite s h o bs) inside rfl pieces)]
  · rw [next, State.takeRdma_performed taken (State.rdma_faults (o := arrivingWrite s h o bs) inside fault final)]
  · rw [next, State.takeRdma_waits taken (State.rdma_patient (o := arrivingWrite s h o bs) inside fault patient)]
    rfl

/-- NOTIFY_WRITE in a form that is taken, under a handle of a notify register. -/
theorem notifyWrite_eq {s : State} {g : UecForm} {h : DWord} (a : DWord) (bs : List Byte) {q : Nat} {u : UQueue}
    (up : s.uecUp = true) (taken : g.taken = true) (reg : s.notifyQueue h.toNat = some (q, u)) :
    exec (.notifyWrite ⟨h, g⟩ a bs) s =
      if a.toNat < u.addr || u.addr + 8 < a.toNat + bs.length then .next (s.send .rdmaError)
      else if a.toNat ≠ u.addr || bs.length ≠ 8 then .next (((s.updQueue q UQueue.dropWrite).showQueue q).send .rdmaDone)
      else .next (((s.updQueue q fun u => { u with
        wi := if u.wi.ult (BitVec.ofNat 64 (le bs 0 8)) then BitVec.ofNat 64 (le bs 0 8) else u.wi }).checkOverrun q).send
          .rdmaDone) := by
  show execNotifyWrite ⟨h, g⟩ a bs s = _
  rw [execNotifyWrite, if_neg (by simp [up]), if_neg (by simp [taken]), reg]

/-- NOTIFY_WRITE of a whole word to an active notify register: WI rises, and never falls. -/
theorem becomes_notifyWrite {s : State} {g : UecForm} {h a : DWord} {bs : List Byte} {q : Nat} {u : UQueue}
    (up : s.uecUp = true) (taken : g.taken = true) (reg : s.notifyQueue h.toNat = some (q, u))
    (there : s.queues.get? q = some u) (addr : a.toNat = u.addr) (whole : bs.length = 8)
    (room : u.state ≠ .active ∨ max u.wi.toNat (BitVec.ofNat 64 (le bs 0 8)).toNat - u.ri.toNat ≤ 2 ^ u.n) :
    Becomes (.notifyWrite ⟨h, g⟩ a bs) s fun t => (t.queues.get? q).map (·.wi) =
      some (if u.wi.toNat < (BitVec.ofNat 64 (le bs 0 8)).toNat then BitVec.ofNat 64 (le bs 0 8) else u.wi) := by
  refine becomes_of ((notifyWrite_eq a bs up taken reg).trans
    ((if_neg (by simp [addr, whole])).trans (if_neg (by simp [addr, whole])))) ?_
  generalize BitVec.ofNat 64 (le bs 0 8) = x at room ⊢
  have raised : (s.updQueue q fun u => { u with wi := if u.wi.ult x then x else u.wi }).queues.get? q =
      some { u with wi := if u.wi.ult x then x else u.wi } := by simp [State.updQueue, there]
  rw [State.send_queues, State.checkOverrun_of_room raised (by rwa [toNat_raised]), raised]
  simp [BitVec.ult]

/-- Settles O51. -/
theorem inboundEvents : Obligations.InboundEvents := by
  refine ⟨fun s g h o n bs up refused => ⟨?_, ?_⟩, fun s g h o bs up taken => ?_,
    fun s g h o n up taken plain => ⟨fun outside => ?_, fun c p ps inside pieces clean => ?_⟩,
    fun s g h q u up taken reg => ?_, fun s g h a bs up refused => ?_, fun s g h a bs q u up taken reg there => ?_,
    fun s a down => ?_, fun s a n up => ?_, fun s a bs up => ?_, fun s a op v up => ?_⟩
  · rw [inboundRdmaWrite_eq g h o bs up, State.takeRdma_refused refused]
  · rw [inboundRdmaRead_eq o n up (.inr refused), State.takeRdma_refused refused]
  · obtain ⟨outside, inside⟩ := inboundRdmaWrite_taken h o bs up taken
    exact ⟨outside, inside, fun e there closed => outside (State.exposed_eq_none there closed)⟩
  · rw [inboundRdmaRead_eq o n up (.inl plain),
      State.takeRdma_performed taken (State.rdma_unexposed (o := arrivingRead s h o n) outside)]
  · rw [inboundRdmaRead_eq o n up (.inl plain),
      State.takeRdma_performed taken (State.rdma_reads (o := arrivingRead s h o n) inside rfl pieces clean)]
  · show execInboundRdmaRead ⟨h, g⟩ u.addr 8 s = _
    rw [execInboundRdmaRead, if_neg (by simp [up]), reg, taken, ← State.readNotify_whole]
  · show execNotifyWrite ⟨h, g⟩ a bs s = _
    rw [execNotifyWrite, if_neg (by simp [up]), if_pos (by simp [refused])]
  · refine ⟨fun addr whole => becomes_notifyWrite up taken reg there addr whole, fun outside => ?_, ?_⟩
    · rw [notifyWrite_eq a bs up taken reg, if_pos (by simpa using outside)]
    · rw [notifyWrite_eq a bs up taken reg]
      split
      · exact ⟨_, rfl⟩
      · split <;> exact ⟨_, rfl⟩
  · show execRemoteAccess a s = _
    cases a <;> simp [execRemoteAccess, down]
  · show execRemoteAccess (.read a n) s = _
    simp [execRemoteAccess, up]
  · show execRemoteAccess (.write a bs) s = _
    simp [execRemoteAccess, up]
  · intro n opened clean
    have sound : ((List.range (n / 8)).any fun i => s.poisoned (a + i)) = false := by simpa using clean
    show execRemoteAccess (.atomic a op v) s = _
    simp only [execRemoteAccess, remoteBits_eq_farBits, remoteAlu_eval op v (s.readNat_lt_farBits a op)]
    simp [up, opened, sound, n]

end Sys2Proof.Claims
end

section
/-! Requests of the resident service (R14, R25, R31 to R41): how the transport and the header of a request decide its
answer, and what each request does once it is served. -/

namespace Sys2Proof.Machine

open Sys2Proof

/-! ### What the service hears (R14, R24, R33) -/

section
variable {s : State} {r : Request} {code : Nat} {k : Host.Outcome State Fault Refusal} (on : s.mod.service ≠ .off)
  (runs : s.serviceRuns = true) (up : s.uecUp = true)
include on runs up

theorem State.hear_refused (refused : r.form.taken = false) : s.hear code r k = .next (s.send .rdmaRefused) := by
  simp [State.hear, on, runs, up, refused]

omit on in
theorem State.hear_recovery (taken : r.form.taken = true) (recovery : s.mod.service = .recovery) (other : code ≠ 0xC) :
    s.hear code r k = .next (s.respond r code 6 []) := by
  simp [State.hear, runs, up, taken, recovery, other]

theorem State.hear_served (taken : r.form.taken = true) (served : s.mod.service ≠ .recovery ∨ code = 0xC) :
    s.hear code r k = k := by
  rcases served with h | h <;> simp [State.hear, on, runs, up, taken, h]

/-! ### Requests that name a context (R31 to R33) -/

variable {len : Nat} {bad : Bool} {act : Context → State → State} (taken : r.form.taken = true)
  (served : s.mod.service ≠ .recovery)
include taken served

/-- A header or a body that is malformed, and context 0 or one above 255, are BAD_REQUEST. -/
theorem State.serve_malformed (wrong : r.malformed len = true ∨ r.ctx = 0 ∨ 255 < r.ctx.toNat) :
    s.serve code r len bad act = .next (s.respond r code 1 []) := by
  rw [State.serve, State.hear_served on runs up taken (.inl served), if_pos]
  rcases wrong with h | h | h <;> simp [h]

/-- A request of a context that is closing is BAD_REQUEST or BUSY. -/
theorem State.serve_closing {c : Context} (there : s.contexts.get? r.ctx.toNat = some c) (closing : c.closing.isSome = true) :
    s.serve code r len bad act = .next (s.respond r code 1 []) ∨
      s.serve code r len bad act = .next (s.respond r code 4 []) := by
  rw [State.serve, State.hear_served on runs up taken (.inl served)]
  split
  · exact .inl rfl
  · simp [there, closing]

/-- A request of a context that is not there is BAD_REQUEST or NO_CONTEXT. -/
theorem State.serve_unknown (gone : s.contexts.get? r.ctx.toNat = none) :
    s.serve code r len bad act = .next (s.respond r code 1 []) ∨
      s.serve code r len bad act = .next (s.respond r code 2 []) := by
  rw [State.serve, State.hear_served on runs up taken (.inl served)]
  split
  · exact .inl rfl
  · simp [gone]

end

end Sys2Proof.Machine

namespace Sys2Proof.Claims

open Sys2Proof Sys2Proof.Machine

/-- The request that an event is, of which code and with a body of which length at least. -/
noncomputable def listedRequests (r : Request) : List (Instr × Nat × Nat) :=
  [(Instr.closeContext r, 2, 8), (.setRegion r, 3, 24), (.map r, 4, 32), (.unmap r, 5, 16), (.expose r, 6, 24),
    (.createQueue r, 7, 24), (.destroyQueue r, 8, 8), (.resumeQueue r, 9, 16), (.detachDebug r, 0xB, 8),
    (.registerNotify r, 0xE, 16), (.debugStop r, 0xA, 48), (.debugRelease r, 0xA, 48), (.debugStep r, 0xA, 48),
    (.debugRead r, 0xA, 48), (.debugWrite r, 0xA, 48), (.armSnap r, 0xA, 48), (.readSnap r, 0xA, 48)]

/-- Each of them is served as a request that names a context; SET_REGION, MAP and UNMAP are, once no engine works on a page
of the context. -/
theorem listedRequests_served {s : State} {r : Request} (held : NoneHeld s r) : ∀ e ∈ listedRequests r,
    e.2.1 ≠ 0xC ∧ ∃ bad act, exec e.1 s = s.serve e.2.1 r e.2.2 bad act := by
  simp only [listedRequests, List.forall_mem_cons]
  refine ⟨⟨by decide, _, _, execCloseContext.eq_1 r s⟩, ⟨by decide, _, _, if_neg (by simp [held _ _])⟩,
    ⟨by decide, _, _, if_neg (by simp [held _ _])⟩, ⟨by decide, _, _, if_neg (by simp [held _ _])⟩,
    ⟨by decide, _, _, execExpose.eq_1 r s⟩, ⟨by decide, _, _, execCreateQueue.eq_1 r s⟩,
    ⟨by decide, _, _, execDestroyQueue.eq_1 r s⟩, ⟨by decide, _, _, execResumeQueue.eq_1 r s⟩,
    ⟨by decide, _, _, execDetachDebug.eq_1 r s⟩, ⟨by decide, _, _, execRegisterNotify.eq_1 r s⟩,
    ⟨by decide, _, _, (execDebugStop.eq_1 r s).trans (State.serveDebug.eq_1 ..)⟩,
    ⟨by decide, _, _, (execDebugRelease.eq_1 r s).trans (State.serveDebug.eq_1 ..)⟩,
    ⟨by decide, _, _, (execDebugStep.eq_1 r s).trans (State.serveDebug.eq_1 ..)⟩,
    ⟨by decide, _, _, (execDebugRead.eq_1 r s).trans (State.serveDebug.eq_1 ..)⟩,
    ⟨by decide, _, _, (execDebugWrite.eq_1 r s).trans (State.serveDebug.eq_1 ..)⟩,
    ⟨by decide, _, _, execArmSnap.eq_1 r s⟩,
    ⟨by decide, _, _, execReadSnap.eq_1 r s⟩, by simp⟩

/-- Settles O52: every request of the list is served in one way, and that way answers as the statement says. -/
theorem requestsRefused : Obligations.RequestsRefused := by
  intro s r on runs up held e he
  obtain ⟨other, bad, act, served⟩ := listedRequests_served held e he
  rw [served]
  refine ⟨fun refused => State.hear_refused on runs up refused,
    fun taken recovery => State.hear_recovery runs up taken recovery other,
    fun taken normal wrong => State.serve_malformed on runs up taken normal wrong, ?_,
    fun taken normal gone => State.serve_unknown on runs up taken normal gone⟩
  rintro taken normal ⟨c, there, closing⟩
  exact State.serve_closing on runs up taken normal there closing

end Sys2Proof.Claims
end

section
/-! The requests of the resident service one by one (R25, R34 to R41), and the end of a close's grace period (R36). -/

namespace Sys2Proof

open Machine

/-! ### The fields of a request (R31) -/

theorem Request.num_lt (r : Request) (o n : Nat) : r.num o n < 256 ^ n := by
  refine (natOf_lt _).trans_le (Nat.pow_le_pow_right (by decide) ?_)
  simp

@[simp] theorem Request.toNat_ptr (r : Request) (o : Nat) : (r.ptr o).toNat = r.num o 8 := by
  rw [Request.ptr, BitVec.toNat_ofNat, Nat.mod_eq_of_lt ((r.num_lt o 8).trans_eq (by decide))]

theorem Request.ptr_eq_zero {r : Request} {o : Nat} (h : r.num o 8 = 0) : r.ptr o = 0 := by rw [Request.ptr, h]; rfl

end Sys2Proof

namespace Sys2Proof.Machine

open Sys2Proof

/-! ### A request that is served -/

section
variable {s : State} {r : Request} {len code : Nat} {c : Context}

/-- A served request of a context is performed on it. -/
theorem State.serve_served {bad : Bool} {act : Context → State → State} (served : Claims.Served s r len c)
    (good : bad = false) : s.serve code r len bad act = .next (act c s) := by
  obtain ⟨⟨on, runs, up, taken⟩, normal, wellFormed, low, high, there, open'⟩ := served
  have ctx : ¬r.ctx = 0#16 := by rintro h; simp [h] at low
  rw [State.serve, State.hear_served on runs up taken (.inl normal),
    if_neg (by simp [wellFormed, good, ctx, high]), there]
  simp [open']

/-- The last thing that is sent after an answer is the answer. -/
theorem State.answered_respond (s : State) (r : Request) (code status : Nat) (body : List Byte) :
    Claims.Answered (s.respond r code status body) r code status body := List.getLast?_concat

end

/-! ### The end of a close, and of its grace period (R36) -/

/-- A context that still has work is not at its end. -/
theorem State.closeCheck_of_busy {s : State} {ctx : Nat} (busy : s.busyContext ctx = true) : s.closeCheck ctx = s := by
  unfold State.closeCheck
  split
  · rw [if_pos busy]
  · rfl

/-- A change of values that keeps every key in its place. -/
theorem Tbl.get?_map_of_keys {α : Type} {f : Nat × α → Nat × α} (keys : ∀ e, (f e).1 = e.1) (t : Tbl α) (k : Nat) :
    Tbl.get? (t.map f) k = (Tbl.get? t k).map fun v => (f (k, v)).2 := by
  induction t with
  | nil => rfl
  | cons e t ih =>
    obtain ⟨j, v⟩ := e
    have image : f (j, v) = (j, (f (j, v)).2) := Prod.ext (keys (j, v)) rfl
    rw [List.map_cons, image]
    simp only [Tbl.get?]
    split
    next h => rw [h]; rfl
    next => exact ih

/-! ### The queues of a context (R40, R41) -/

/-- A queue that is a context's own is in the table. -/
theorem State.queues_of_queueOf {s : State} {ctx q : Nat} {u : UQueue} (there : s.queueOf ctx q = some u) :
    s.queues.get? q = some u := (Option.filter_eq_some_iff.mp there).1

/-- A queue after a change to it has been shown in its status record. -/
theorem State.queues_showQueue_updQueue {s : State} {q : Nat} {u : UQueue} (there : s.queues.get? q = some u)
    (f : UQueue → UQueue) :
    ((s.updQueue q f).showQueue q).queues.get? q = some (f u) := by
  rw [State.queues_of_tables (State.tables_showQueue _ q), State.updQueue, Tbl.get?_upd_same, there]
  rfl

end Sys2Proof.Machine

namespace Sys2Proof.Claims

open Sys2Proof Sys2Proof.Machine

/-- The launches of a context whose grace period ends: each that has teams left ends with the context, and none of its crews
is placed any more. -/
theorem becomes_closeGraceExpiry {s : State} {ctx : Nat} {c : Context} {d : DWord}
    (there : s.contexts.get? ctx = some c) (closing : c.closing = some d) (late : d.toNat ≤ s.now.toNat) :
    Becomes (.closeGraceExpiry ctx) s fun t => ∀ id l, s.launches.get? id = some l → l.ctx = ctx →
      t.closing id = some (l.closed || s.unfinished id l, l.total) := by
  have ended : ¬s.now.ult d = true := by simp [BitVec.ult, late]
  refine becomes_of (by
    show execCloseGraceExpiry ctx s = _
    rw [execCloseGraceExpiry, there, Option.bind_some, closing]
    exact if_neg ended) ?_
  intro id l launch owner
  rw [State.closing_of_launches (State.launches_of_fixtures (State.fixtures_closeCheck ..)),
    State.closing_of_launches (foldl_keeps State.launches fun _ _ => State.launches_closePacket ..),
    foldl_keeps (State.closing · id) fun _ _ => State.closing_haltCrew ..,
    State.closing_of_launches (State.launches_of_tables ((State.tables_dropBacklog ..).trans (State.tables_cancelContext ..)))]
  show (Tbl.get? (s.launches.map _) id).map _ = _
  rw [Tbl.get?_map_of_keys (fun e => by split <;> rfl), launch]
  simp [owner]

/-- OPEN_CONTEXT without a pool: the lowest free context opens with no region, and a frame for its table of tables. -/
theorem becomes_openContext {s : State} {r : Request} {k : Nat} (arrives : Arrives s r) (normal : s.mod.service ≠ .recovery)
    (wellFormed : r.malformed 24 = false) (ctx : r.ctx = 0) (aligned : r.num 0 8 % 4 = 0)
    (canon : canonical (r.ptr 0) = true) (pool : r.num 8 8 = 0) (va : r.num 16 8 = 0) (free : s.freeContext = some k)
    (frames : ∃ x, s.takeFrames 2 1 1 = some x) :
    Becomes (.openContext r) s fun t =>
      (t.contexts.get? k).map (fun c => (c.handler, c.regions)) = some (r.ptr 0, []) ∧
      Answered t { r with ctx := BitVec.ofNat 16 k } 1 0 [] := by
  obtain ⟨on, runs, up, taken⟩ := arrives
  obtain ⟨x, frames⟩ := frames
  have base : r.ptr 16 = 0 := Request.ptr_eq_zero va
  have good : ¬(r.malformed 24 || decide (r.ctx ≠ 0) || decide ((r.ptr 0).toNat % 4 ≠ 0) || !canonical (r.ptr 0) ||
      decide (8191 < r.num 8 8) || decide ((r.ptr 16).toNat % 65536 ≠ 0) || !canonical (r.ptr 16) ||
      (decide (r.num 8 8 = 0) && decide (r.ptr 16 ≠ 0))) = true := by
    rw [base, wellFormed, ctx, canon, pool, Request.toNat_ptr, aligned]
    decide
  refine becomes_of (by
    show execOpenContext r s = _
    rw [execOpenContext, State.hear_served on runs up taken (.inl normal), if_neg good, free]
    simp only [frames, Option.bind_some, State.makePool, pool, if_true]
    rfl) ?_
  exact ⟨congrArg (Option.map _) (Tbl.get?_put_same ..), State.answered_respond ..⟩

/-- CLOSE_CONTEXT of a context with work left: it is closing until its grace period ends. -/
theorem closeContext_busy {s : State} {r : Request} {c : Context} (served : Served s r 8 c) (grace : r.num 0 8 ≤ 10000000)
    (busy : s.busyContext r.ctx.toNat = true) :
    exec (.closeContext r) s = .next (s.updContext r.ctx.toNat fun c =>
      { c with closing := some (s.now + BitVec.ofNat 64 (1700 * r.num 0 8)), closeReq := some r }) := by
  refine (execCloseContext.eq_1 r s).trans ((State.serve_served served (by simpa using grace)).trans ?_)
  exact congrArg Host.Outcome.next (State.closeCheck_of_busy busy)

/-- SET_REGION of an entry whose fields are in range. -/
theorem setRegion_ok {s : State} {r : Request} {c : Context} (served : Served s r 24 c) (held : NoneHeld s r)
    (rsv : r.num 1 7 = 0) {e : BitVec 128} (entry : BitVec.ofNat 128 (r.num 8 16) = e) (high : e.extractLsb' 96 32 = 0)
    (mid : e.extractLsb' 8 24 = 0) (low : e.getLsbD 6 = false) (bounds : regionBase e ≤ regionLimit e) :
    exec (.setRegion r) s = .next (((shootRegion r.ctx.toNat e
      (shootRegion r.ctx.toNat (c.regions.read 0 (r.num 0 1)) s)).updContext r.ctx.toNat fun c =>
        { c with regions := c.regions.write 0 (r.num 0 1) e }).respond r 3 0 []) := by
  subst entry
  refine (if_neg (by simp [held _ _])).trans (State.serve_served served ?_)
  simp only [rsv, high, mid, low, Nat.not_lt.mpr bounds]
  decide

/-- MAP with frames and tables at hand. -/
theorem map_ok {s : State} {r : Request} {c : Context} (served : Served s r 32 c) (held : NoneHeld s r)
    (good : (mapBody r).bad r = false)
    (inRegion : s.inRegion r.ctx.toNat (mapBody r).va (65536 * (mapBody r).pages) = true)
    (own : (mapBody r).frame = 0 → (mapBody r).node = s.node) {f : Nat} {v u : State}
    (frames : (mapBody r).frames s r.ctx.toNat = some (f, v))
    (leaves : ((mapBody r).at f).all ((mapBody r).leafOk s) = true) (applied : (mapBody r).apply r.ctx.toNat s = some (f, u)) :
    exec (.map r) s = .next (u.respond r 4 0 (bytesOf 8 f)) := by
  have fits : ¬(!s.inRegion r.ctx.toNat (mapBody r).va (65536 * (mapBody r).pages) ||
      (decide ((mapBody r).frame = 0) && decide ((mapBody r).node ≠ s.node)) ||
      (decide ((mapBody r).frame ≠ 0) && !((mapBody r).at (mapBody r).frame).all ((mapBody r).leafOk s))) = true := by
    by_cases zero : (mapBody r).frame = 0
    · simp [inRegion, zero, own zero]
    · have client : f = (mapBody r).frame := by
        rw [MapBody.frames, if_pos zero, Option.some.injEq, Prod.mk.injEq] at frames
        exact frames.1.symm
      rw [← client]
      simp [inRegion, leaves, client ▸ zero]
  refine (if_neg (by simp [held _ _])).trans ((State.serve_served served good).trans (congrArg Host.Outcome.next ?_))
  refine (if_neg fits).trans ?_
  simp only [frames, leaves, applied]
  rfl

/-- EXPOSE of a range that lies in a region. -/
theorem becomes_expose {s : State} {r : Request} {c : Context} (served : Served s r 24 c) (some' : 1 ≤ r.num 8 8)
    (most : r.num 8 8 ≤ 2 ^ 40) (flags : r.num 16 1 ≤ 3) (rsv : r.num 17 7 = 0)
    (inRegion : s.inRegion r.ctx.toNat (r.ptr 0) (r.num 8 8) = true) :
    Becomes (.expose r) s fun t => Answered t r 6 0 (bytesOf 4 s.nextHandle ++ bytesOf 4 0) ∧
      t.exposures.get? s.nextHandle = some {
        ctx := r.ctx.toNat, base := r.ptr 0, len := r.num 8 8,
        read := (r.num 16 1).testBit 0, write := (r.num 16 1).testBit 1 } := by
  have good : (decide (r.num 8 8 = 0) || decide (2 ^ 40 < r.num 8 8) || decide (3 < r.num 16 1) ||
      decide (r.num 17 7 ≠ 0)) = false := by
    simp [rsv]
    omega
  refine becomes_of ((execExpose.eq_1 r s).trans ((State.serve_served served good).trans
    (congrArg Host.Outcome.next (if_neg (by simp [inRegion]))))) ?_
  exact ⟨State.answered_respond .., Tbl.get?_put_same ..⟩

/-- CREATE_QUEUE with a queue number at hand. -/
theorem becomes_createQueue {s : State} {r : Request} {c : Context} {q : Nat} (served : Served s r 24 c)
    (low : 1 ≤ r.num 16 1) (high : r.num 16 1 ≤ 16) (cap : r.num 17 1 ≤ 3) (rsv : r.num 18 6 = 0)
    (status : r.num 8 8 % 16 = 0) (ring : r.num 0 8 % (min (64 * 2 ^ r.num 16 1) 65536) = 0)
    (ringW : s.inWritable r.ctx.toNat (r.ptr 0) (64 * 2 ^ r.num 16 1) = true)
    (statusW : s.inWritable r.ctx.toNat (r.ptr 8) 16 = true) (free : s.freeQueue = some q) :
    Becomes (.createQueue r) s fun t => (t.queues.get? q).map (fun u => (u.ctx, u.ring, u.status, u.n, u.cap)) =
        some (r.ctx.toNat, r.ptr 0, r.ptr 8, r.num 16 1, r.num 17 1) ∧
      (t.queues.get? q).map (fun u => (u.wi, u.ri, u.state)) = some (0, 0, .active) := by
  have good : (decide (r.num 16 1 = 0) || decide (16 < r.num 16 1) || decide (3 < r.num 17 1) || decide (r.num 18 6 ≠ 0) ||
      decide ((r.ptr 8).toNat % 16 ≠ 0) || decide ((r.ptr 0).toNat % (min (64 * 2 ^ r.num 16 1) 65536) ≠ 0)) = false := by
    rw [Request.toNat_ptr, Request.toNat_ptr, status, ring, rsv]
    simp [Nat.ne_of_gt low, high, cap]
  refine becomes_of (by
    rw [show exec (.createQueue r) s = _ from (execCreateQueue.eq_1 r s).trans (State.serve_served served good),
      if_neg (by simp [ringW, statusW]), free]) ?_
  exact ⟨congrArg (Option.map _) (Tbl.get?_put_same ..), congrArg (Option.map _) (Tbl.get?_put_same ..)⟩

/-- DESTROY_QUEUE of a queue that is not destroyed yet. -/
theorem becomes_destroyQueue {s : State} {r : Request} {c : Context} {u : UQueue} (served : Served s r 8 c)
    (zero : r.num 4 4 = 0) (there : s.queueOf r.ctx.toNat (r.num 0 4) = some u) (live : u.state ≠ .destroyed) :
    Becomes (.destroyQueue r) s fun t => (t.queues.get? (r.num 0 4)).map (fun u => (u.state, u.held)) =
      some (.destroyed, false) ∧ Answered t r 8 0 [] := by
  refine becomes_of (by
    rw [show exec (.destroyQueue r) s = _ from
      (execDestroyQueue.eq_1 r s).trans (State.serve_served served (by simp [zero])), there]
    exact congrArg Host.Outcome.next (if_neg live)) ⟨?_, State.answered_respond ..⟩
  exact congrArg (Option.map _) (State.queues_showQueue_updQueue (State.queues_of_queueOf there) _)

/-- RESUME_QUEUE of a stopped queue whose write index, given or kept, leaves room in the ring. -/
theorem becomes_resumeQueue {s : State} {r : Request} {c : Context} {u : UQueue} (served : Served s r 16 c)
    (flags : r.num 4 4 ≤ 1) (there : s.queueOf r.ctx.toNat (r.num 0 4) = some u) (stopped : u.state = .stopped)
    (behind : r.num 4 4 = 1 → u.ri.toNat ≤ (if r.num 4 4 = 1 then r.ptr 8 else u.wi).toNat)
    (room : (if r.num 4 4 = 1 then r.ptr 8 else u.wi).toNat - u.ri.toNat ≤ 2 ^ u.n) :
    Becomes (.resumeQueue r) s fun t => (t.queues.get? (r.num 0 4)).map (fun v => (v.state, v.cause, v.held, v.wi)) =
      some (.active, 0, false, if r.num 4 4 = 1 then r.ptr 8 else u.wi) ∧ Answered t r 9 0 [] := by
  have taken : ¬(decide (r.num 4 4 = 1) &&
      (decide ((r.ptr 8).toNat < u.ri.toNat) || decide (u.ri.toNat + 2 ^ u.n < (r.ptr 8).toNat))) = true := by
    by_cases given : r.num 4 4 = 1
    · rw [if_pos given] at behind room
      have low := behind given
      simp only [given, decide_true, Bool.true_and, Bool.or_eq_true, decide_eq_true_eq]
      omega
    · simp [given]
  have resumed := fun f => State.queues_showQueue_updQueue (State.queues_of_queueOf there) f
  refine becomes_of (by
    rw [show exec (.resumeQueue r) s = _ from
      (execResumeQueue.eq_1 r s).trans (State.serve_served served (by simp [flags])), there]
    simp only [stopped]
    rw [if_neg taken, State.checkOverrun_of_room (resumed _) (.inr room)]) ⟨?_, State.answered_respond ..⟩
  exact congrArg (Option.map _) (resumed _)

/-- Settles O53: each request that is served is performed by its own lemma above, and a request of context 0 or of an unknown
code is heard or refused by the transport's lemmas. -/
theorem serviceRequests : Obligations.ServiceRequests := by
  intro s r
  refine ⟨?_, ?_, ?_, ?_, ?_, ?_, ?_, ?_, ?_, ?_, ?_, ?_, ?_⟩
  · intro arrives normal wellFormed ctx aligned canon pool va k free frames
    exact becomes_openContext arrives normal wellFormed ctx aligned canon pool va free frames
  · exact fun c served grace busy => closeContext_busy served grace busy
  · exact fun ctx c d there closing late => becomes_closeGraceExpiry there closing late
  · exact fun c served held rsv high mid low bounds => setRegion_ok served held rsv rfl high mid low bounds
  · exact fun c served held good inRegion own f v u frames leaves applied =>
      map_ok served held good inRegion own frames leaves applied
  · intro c served held aligned inRegion u unmapped
    refine (if_neg (by simp [held _ _])).trans ((State.serve_served served (by simp [aligned])).trans ?_)
    simp [inRegion, unmapped]
  · exact fun c served some' most flags rsv inRegion => becomes_expose served some' most flags rsv inRegion
  · exact fun c q served low high cap rsv status ring ringW statusW free =>
      becomes_createQueue served low high cap rsv status ring ringW statusW free
  · exact fun c u served zero there live => becomes_destroyQueue served zero there live
  · exact fun c u served flags there stopped behind room => becomes_resumeQueue served flags there stopped behind room
  · rintro ⟨on, runs, up, taken⟩ wellFormed ctx
    exact (State.hear_served on runs up taken (.inr rfl)).trans (if_neg (by simp [wellFormed, ctx]))
  · intro c served
    exact (execRegisterNotify.eq_1 r s).trans (State.serve_served served rfl)
  · rintro code ⟨on, runs, up, taken⟩ other
    have unlisted : ¬(decide (1 ≤ code.toNat) && decide (code.toNat ≤ 0xE)) = true := by
      rcases other with h | h <;> simp [h]
    refine (if_neg unlisted).trans ?_
    by_cases recovery : s.mod.service = .recovery
    · rw [State.hear_recovery runs up taken recovery (by omega), if_pos recovery]
    · rw [State.hear_served on runs up taken (.inl recovery), if_neg recovery]

end Sys2Proof.Claims
end

section
/-! The packet processors (R41 to R50, R59 to R61): reading a slot, starting a packet, what each packet does, and how launches
and packets end. -/

namespace Sys2Proof.Machine

open Sys2Proof

/-! ### The time base under the acquire of a packet (R45) -/

section
variable (s : State)

@[simp] theorem State.now_unview (die : Nat) (sel : Nat → Bool) : (s.unview die sel).now = s.now := by
  unfold State.unview; split <;> rfl

@[simp] theorem State.now_cleanLine (cl line : Nat) (sel : Nat → Bool) : (s.cleanLine cl line sel).now = s.now := by
  unfold State.cleanLine
  split
  · rfl
  · refine foldl_keeps State.now fun u i => ?_
    split <;> simp

@[simp] theorem State.now_invalidate (cl : Nat) (sel : Nat → Bool) : (s.invalidate cl sel).now = s.now :=
  foldl_keeps State.now fun _ _ => State.now_cleanLine ..

/-- The acquire of a packet takes no time. -/
@[simp] theorem State.now_acquireAll : s.acquireAll.now = s.now :=
  (foldl_keeps State.now fun _ _ => State.now_unview ..).trans (foldl_keeps State.now fun _ _ => State.now_invalidate ..)

end

/-! ### Packets that stand in the table -/

section
variable {s : State} {q i type : Nat} {p : Packet}

theorem State.settled_of_packeted (there : Claims.Packeted s q i .settle type p) : s.settled q i type = some p := by
  obtain ⟨found, state, kind⟩ := there
  simp [State.settled, found, state, kind]

theorem State.running_of_packeted (there : Claims.Packeted s q i .running type p) : s.running q i type = some p := by
  obtain ⟨found, state, kind⟩ := there
  simp [State.running, found, state, kind]

/-- A packet that is changed reads back changed. -/
theorem State.packets_updPacket {k : Nat} (there : s.packets.get? k = some p) (f : Packet → Packet) :
    (s.updPacket k f).packets.get? k = some (f p) := by
  rw [State.updPacket, Tbl.get?_upd_same, there]
  rfl

/-- The status of a LAUNCH whose indirect parts were well formed and could be read (R47, R58). -/
theorem State.settleStatus_of_ok (ok : p.status = 0) {g : Nat × Nat × Nat} : s.settleStatus p g =
    if g.1 * g.2.1 * g.2.2 = 0 then some 1
    else if 2 ^ 32 < g.1 * g.2.1 * g.2.2 then some 2
    else if p.perCore = 0 || (p.co && p.perCore * s.countedCores < g.1 * g.2.1 * g.2.2) then some 3
    else none := if_neg (not_not_intro ok)

/-- An access that is not overdue goes on. -/
theorem Packet.inVain_eq_false (waits : overdue p.since p.remote s.now = false) : p.inVain false s.now = false := waits

end

/-! ### Fetching (R41, R42, R49) -/

section
variable {s s1 : State} {q : Nat} {u : UQueue} {c : Context} {again : Bool} {bs : List Byte}

/-- A context's read is an access of memory. -/
theorem State.tables_of_ctxRead {g : Agent} {a : DWord} {n : Nat} (h : s.ctxRead g a n = .ok (bs, s1)) :
    s1.tables = s.tables := by
  unfold State.ctxRead at h
  split at h
  · cases h
  · cases h; simp

theorem State.tables_of_slotBytes (h : s.slotBytes q u c = .ok (bs, s1)) : s1.tables = s.tables := by
  unfold State.slotBytes at h
  split at h
  · cases h; rfl
  · exact State.tables_of_ctxRead h

/-- What becomes of a slot whose bytes have been read: it is unwritten, its RECORD lies wrong, it is malformed, or it is taken. -/
def State.actOnSlot (s : State) (u : UQueue) (p : Packet) (s1 : State) : State :=
  if p.ph ≠ (u.ri.toNat / 2 ^ u.n % 2 == 1) then
    s1.updQueue p.queue fun u => { u with reread := some (s.now + 1700), since := none }
  else if !s.recordOk p then s1.stopQueue p.queue 4
  else if p.bad then s1.refusePacket p
  else s1.takePacket p

theorem State.fetch_of_fetchable (ready : Claims.Fetchable s q u c again bs s1) :
    s.fetch q again = some (s.actOnSlot u (Claims.slotPacket q u bs) s1) := by
  obtain ⟨queue, context, reread, due, waits, room, may, read⟩ := ready
  have early : u.reread.any (fun t => s.now.ult t) = false := by
    cases h : u.reread with
    | none => rfl
    | some t => simpa [BitVec.ult] using due t h
  unfold State.fetch
  simp only [queue, context]
  rw [if_neg (by simp [reread, early]), if_neg (by simp [room]), if_pos may, State.fetchSlot, if_neg (by simp [waits]), read]
  simp only [State.actOnSlot, apply_ite some]
  rfl

/-- A packet that is taken raises its queue's RI. -/
theorem State.queues_takePacket {p : Packet} (there : s.queues.get? p.queue = some u) :
    (s.takePacket p).queues.get? p.queue = some { u with ri := u.ri + 1, since := none, reread := none } := by
  show (State.queues (State.record _ p _)).get? p.queue = _
  rw [State.queues_of_tables ((State.tables_record ..).trans (State.tables_updContext ..)),
    State.queues_showQueue_updQueue there]

/-- A packet that is taken stands in the table. -/
theorem State.packets_takePacket (s : State) (p : Packet) :
    (s.takePacket p).packets.get? (packetKey p.queue p.index) = some p := Tbl.get?_put_same ..

end

end Sys2Proof.Machine

namespace Sys2Proof.Claims

open Sys2Proof Sys2Proof.Machine

/-! ### Reading a slot, starting a packet and settling a LAUNCH (R41, R42, R45, R47) -/

section
variable {s : State} {q i : Nat} {p : Packet}

/-- PACKET_FETCH and SLOT_REREAD act on the slot that they read. -/
theorem exec_of_fetchable {u : UQueue} {c : Context} {again : Bool} {bs : List Byte} {s1 : State}
    (ready : Fetchable s q u c again bs s1) :
    exec (if again then .slotReread q else .packetFetch q) s = .next (s.actOnSlot u (slotPacket q u bs) s1) := by
  have fetched := State.fetch_of_fetchable ready
  cases again with
  | true => show execSlotReread q s = _; rw [execSlotReread, fetched]
  | false => show execPacketFetch q s = _; rw [execPacketFetch, fetched]

/-- The acquire of a packet without parts to settle. -/
theorem packetAcquire_plain (there : s.packets.get? (packetKey q i) = some p) (fetched : p.state = .fetched)
    (may : s.mayStart p = true) (other : p.type ≠ 1) :
    exec (.packetAcquire q i) s = .next ((if p.af then s.acquireAll else s).updPacket (packetKey q i) fun p =>
      { p with state := .settle }) := by
  show execPacketAcquire q i s = _
  simp [execPacketAcquire, there, fetched, may, other]

/-- The acquire of a LAUNCH whose indirect parts can be read. -/
theorem packetAcquire_launch (there : s.packets.get? (packetKey q i) = some p) (fetched : p.state = .fetched)
    (may : s.mayStart p = true) (launch : p.type = 1) (waits : overdue p.since p.remote s.now = false)
    {g : Nat × Nat × Nat} {b : List Binding} {v : State}
    (parts : (if p.af then s.acquireAll else s).readIndirect p = .ok (g, b, v)) :
    exec (.packetAcquire q i) s = .next (v.updPacket (packetKey q i) fun p =>
      { p with state := .settle, grid := some g, binds := b, since := none }) := by
  have now : (if p.af then s.acquireAll else s).now = s.now := by split <;> simp
  have settles : (if p.af then s.acquireAll else s).settleParts (packetKey q i) p false =
      some (v.updPacket (packetKey q i) fun p =>
        { p with state := .settle, grid := some g, binds := b, since := none }) := by
    rw [State.settleParts, now, Packet.inVain_eq_false waits, parts]
    rfl
  show execPacketAcquire q i s = _
  simp [execPacketAcquire, there, fetched, may, launch, settles]

section
variable {u : UQueue} (there : Packeted s q i .settle 1 p) (queue : s.queues.get? q = some u)
include there queue

/-- A LAUNCH that starts no crew. -/
theorem launchSettle_ends {st : Nat} (ends : s.settleStatus p (p.grid.getD (0, 0, 0)) = some st) :
    exec (.launchSettle q i) s = .next (doneWith q i st p.detail s) := by
  show execLaunchSettle q i s = _
  simp only [execLaunchSettle, State.settled_of_packeted there, queue, ends]
  rfl

/-- A LAUNCH that is placed from now on. -/
theorem becomes_launchSettle (starts : s.settleStatus p (p.grid.getD (0, 0, 0)) = none) :
    let g := p.grid.getD (0, 0, 0)
    Becomes (.launchSettle q i) s fun t =>
      (t.launches.get? s.nextHandle).map (fun l => (l.total, l.gx, l.gy, l.gz, l.next)) =
        some (g.1 * g.2.1 * g.2.2, g.1, g.2.1, g.2.2, 0) ∧
      (t.packets.get? (packetKey q i)).map (fun p => (p.state, p.launch)) = some (.running, some s.nextHandle) := by
  intro g
  refine becomes_of (by
    show execLaunchSettle q i s = _
    simp only [execLaunchSettle, State.settled_of_packeted there, queue, starts]
    rfl) ⟨congrArg (Option.map _) (Tbl.get?_put_same ..), congrArg (Option.map _) (State.packets_updPacket there.1 _)⟩

end

end

/-- Settles O55: a fetch acts on the slot it reads by the three checks of R42 and R49; the acquire and the settling of a
LAUNCH are read off their events, with the status that `settleStatus` gives. -/
theorem packetFetchAndStart : Obligations.PacketFetchAndStart := by
  refine ⟨fun s q u c again bs s1 ready => ?_, fun _ _ _ _ => packetAcquire_plain,
    fun _ _ _ _ there fetched may launch waits _ _ _ => packetAcquire_launch there fetched may launch waits,
    fun s q i p u there queue => ?_⟩
  · intro event packet
    have acts : exec event s = .next (s.actOnSlot u packet s1) := exec_of_fetchable ready
    refine ⟨fun unwritten => ?_, fun written misplaced => ?_, fun written placed bad => ?_, fun written placed good => ?_⟩
    · rw [acts, State.actOnSlot, if_pos unwritten]
      rfl
    · rw [acts, State.actOnSlot, if_neg (not_not_intro written), if_pos (by simp [misplaced])]
      rfl
    · rw [acts, State.actOnSlot, if_neg (not_not_intro written), if_neg (by simp [placed]), if_pos bad]
    · rw [State.actOnSlot, if_neg (not_not_intro written), if_neg (by simp [placed]), if_neg (by simp [good])] at acts
      obtain ⟨queue, _, _, _, _, _, _, read⟩ := ready
      rw [← State.queues_of_tables (State.tables_of_slotBytes read)] at queue
      exact becomes_of acts ⟨rfl, s1.packets_takePacket packet, _, State.queues_takePacket (p := packet) queue, rfl, rfl⟩
  · intro g
    refine ⟨fun refused => launchSettle_ends there queue (if_pos refused), fun ok empty => ?_, fun ok large => ?_,
      fun ok positive most coop short => ?_, fun ok positive most fits room => ?_⟩
    · exact launchSettle_ends there queue ((State.settleStatus_of_ok (g := g) ok).trans (if_pos empty))
    · refine launchSettle_ends there queue ((State.settleStatus_of_ok (g := g) ok).trans ?_)
      rw [if_neg (by omega), if_pos large]
    · refine launchSettle_ends there queue ((State.settleStatus_of_ok (g := g) ok).trans ?_)
      rw [if_neg (by omega), if_neg (by omega), if_pos (by simp [coop, short])]
    · refine becomes_launchSettle there queue ((State.settleStatus_of_ok (g := g) ok).trans ?_)
      rw [if_neg (by omega), if_neg (by omega), if_neg (by simpa [fits] using room)]

/-! ### NOP, SIGNAL, WAIT and COPY (R41, R48) -/

section
variable {s : State} {q i : Nat} {p : Packet} {y : Phys}

theorem nopPacket_done (there : Packeted s q i .settle 0 p) : exec (.nopPacket q i) s = .next (doneWith q i 0 0 s) := by
  show execNopPacket q i s = _
  rw [execNopPacket, State.settled_of_packeted there]
  rfl

theorem signalValue_eq_signalled (op : Nat) (old x : DWord) : signalValue op old x = signalled op old x := by
  unfold signalValue signalled
  split <;> simp_all

section
variable (there : Packeted s q i .settle 3 p) (word : s.translate (engineAgent p.ctx) .atomic p.word = .ok y)
  (page : signalPage y true = true) (sound : s.poisoned y.addr = false) (waits : overdue p.since p.remote s.now = false)
include there word page sound waits

/-- A SIGNAL whose word can be reached stores what its operation makes of the word, and is DONE. -/
theorem signalDue_done : s.signalDue q i p.op = some (doneWith q i 0 0 ((s.commitFill (engineAgent p.ctx) y).writeBytes y.addr
    (bytesOf 8 (signalled p.op (BitVec.ofNat 64 (s.readNat y.addr 8)) p.operand).toNat))) := by
  simp only [State.signalDue, State.settled_of_packeted there, Option.some_or, if_true, State.signal,
    Packet.inVain_eq_false waits, word, page, sound, signalValue_eq_signalled]
  rfl

/-- The three events of a SIGNAL, each for its operation. -/
theorem signal_done : ∀ e ∈ [(Instr.signalSet q i, 0), (.signalAdd q i, 1), (.signalSub q i, 2)], p.op = e.2 →
    exec e.1 s = .next (doneWith q i 0 0 ((s.commitFill (engineAgent p.ctx) y).writeBytes y.addr
      (bytesOf 8 (signalled e.2 (BitVec.ofNat 64 (s.readNat y.addr 8)) p.operand).toNat))) := by
  have due {o : Nat} (op : p.op = o) := op ▸ signalDue_done there word page sound waits
  simp only [List.forall_mem_cons]
  refine ⟨fun op => ?_, fun op => ?_, fun op => ?_, by simp⟩
  · show execSignalSet q i s = _
    rw [execSignalSet, due op]
  · show execSignalAdd q i s = _
    rw [execSignalAdd, due op]
  · show execSignalSub q i s = _
    rw [execSignalSub, due op]

end

/-- A WAIT starts its watch, and its timeout runs from now. -/
theorem becomes_waitPacket (there : Packeted s q i .settle 4 p) : Becomes (.waitPacket q i) s fun t =>
    (t.packets.get? (packetKey q i)).map (fun p => (p.state, p.deadline)) =
      some (.running, if p.timeout = 0 ∨ 2 ^ 64 ≤ s.now.toNat + p.timeout.toNat then none
        else some (s.now + p.timeout)) := by
  refine becomes_of (by
    show execWaitPacket q i s = _
    rw [execWaitPacket, State.settled_of_packeted there]) ?_
  rw [State.packets_updPacket there.1]
  simp [State.timeoutAt]

/-- A WAIT whose word can be read and meets the condition is DONE. -/
theorem waitPacketMet_done (there : Packeted s q i .running 4 p)
    (word : s.translate (engineAgent p.ctx) .load p.word = .ok y) (page : signalPage y false = true)
    (sound : s.poisoned (y.readAddr 12) = false)
    (met : waitCond p.op (BitVec.ofNat 64 (s.readNat (y.readAddr 12) 8)) p.operand = true)
    (waits : overdue p.since p.remote s.now = false) :
    exec (.waitPacketMet q i) s = .next (doneWith q i 0 0 (s.commitFill (engineAgent p.ctx) y)) := by
  have done : s.watch (packetKey q i) p false = some (doneWith q i 0 0 (s.commitFill (engineAgent p.ctx) y)) := by
    simp only [State.watch, Packet.inVain_eq_false waits, word, page, sound, met]
    rfl
  show execWaitPacketMet q i s = _
  rw [execWaitPacketMet, State.running_of_packeted there]
  simp only [done]

/-- A WAIT whose timeout ends is DONE with TIMEOUT, and its queue stops. -/
theorem waitTimeout_done {d : DWord} {u : UQueue} (there : Packeted s q i .running 4 p) (deadline : p.deadline = some d)
    (late : d.toNat ≤ s.now.toNat) (queue : s.queues.get? q = some u) :
    let s1 := s.updQueue q fun u => { u with held := u.held || u.state != .destroyed }
    exec (.waitTimeout q i) s = .next (doneWith q i 7 0 (if u.state = .active then s1.stopQueue q 3 else s1)) := by
  intro s1
  have ended : ¬s.now.ult d = true := by simp [BitVec.ult, late]
  have held : s1.queues.get? q = some { u with held := u.held || u.state != .destroyed } := by
    rw [show s1.queues = s.queues.upd q _ from rfl, Tbl.get?_upd_same, queue]
    rfl
  show execWaitTimeout q i s = _
  simp only [execWaitTimeout, State.running_of_packeted there, deadline, if_neg ended]
  rw [held]
  rfl

/-- A COPY of nothing is DONE, one of overlapping ranges ends with OVERLAP, and any other starts. -/
theorem copyPacket_starts (there : Packeted s q i .settle 5 p) :
    exec (.copyPacket q i) s = .next (if p.len = 0 then doneWith q i 0 0 s
      else if namedOverlap p.slice p.slice then doneWith q i 8 0 s
      else s.updPacket (packetKey q i) fun p => { p with state := .running }) := by
  show execCopyPacket q i s = _
  simp only [execCopyPacket, State.settled_of_packeted there, apply_ite Host.Outcome.next]
  rfl

theorem copyPacketDone_runs (there : Packeted s q i .running 5 p) :
    exec (.copyPacketDone q i) s = .next (State.runHub (packetKey q i) false (units p.len - p.unit) p s) := by
  show execCopyPacketDone q i s = _
  rw [execCopyPacketDone, State.running_of_packeted there]

end

/-! ### NODE (R48, R59, R61) -/

section
variable {s : State} {q i k : Nat} {p : Packet} {n : Node}

section
variable {u : UQueue} {bs : List Byte} {s1 : State} (there : Packeted s q i .settle 2 p) (op : p.op = 0)
  (queue : s.queues.get? q = some u) (read : s.ctxRead (plainAgent p.ctx) p.nodeTemplate 64 = .ok (bs, s1))
  (room : s.nodes.length < 4096) (waits : overdue p.since p.remote s.now = false)
include there op queue

/-- NODE_DEFINE does what `State.define` answers. -/
theorem nodeDefine_eq {t : State} (defined : s.define (packetKey q i) p u.cap false = some t) :
    exec (.nodeDefine q i) s = .next t := by
  show execNodeDefine q i s = _
  simp only [execNodeDefine, State.settled_of_packeted there, Option.some_or, queue, op, ne_eq, not_true_eq_false, if_false,
    defined]

include waits

/-- DEFINE of a key that names a node already. -/
theorem nodeDefine_known (known : (s.findNode p.ctx p.key).isSome = true) :
    exec (.nodeDefine q i) s = .next (doneWith q i 4 0 s) := by
  refine nodeDefine_eq there op queue ?_
  rw [State.define, if_neg (by simp [Packet.inVain_eq_false waits]), if_pos known]
  rfl

include read room

/-- DEFINE of a new key, from a template that a launch can be made from. -/
theorem nodeDefine_new (new : s.findNode p.ctx p.key = none) (good : ({ p with bytes := bs } : Packet).templateBad = false) :
    exec (.nodeDefine q i) s = .next (doneWith q i 0 0
      { s1 with nodes := s1.nodes.put s1.nextHandle (p.node bs u.cap), nextHandle := s1.nextHandle + 1 }) := by
  refine nodeDefine_eq there op queue ?_
  rw [State.define, if_neg (by simp [Packet.inVain_eq_false waits]), if_neg (by simp [new]), if_neg (by omega), read]
  simp only [good]
  rfl

end

/-- ARM of a known node. -/
theorem nodeArm_done (there : Packeted s q i .settle 2 p) (known : s.findNode p.ctx p.key = some k) (op : p.op = 1) :
    exec (.nodeArm q i) s =
      .next (doneWith q i 0 0 (((s.updNode k fun n => { n with armed := true }).launchTiles k).serveSpawns k)) := by
  show execNodeArm q i s = _
  simp only [execNodeArm, State.settled_of_packeted there, known, op, ne_eq, not_true_eq_false, if_false]
  rfl

/-- DISARM of a known node launches what is queued, and runs until that is drained. -/
theorem runs_nodeDisarm (there : Packeted s q i .settle 2 p) (known : s.findNode p.ctx p.key = some k) (op : p.op = 2) :
    exec (.nodeDisarm q i) s =
      .next ((((s.flushNode k).updNode k fun n => { n with armed := false }).serveSpawns k).updPacket (packetKey q i) fun p =>
        { p with state := .running }) := by
  show execNodeDisarm q i s = _
  simp only [execNodeDisarm, State.settled_of_packeted there, known, op, ne_eq, not_true_eq_false, if_false]

/-- A DISARM ends with the node's status once the node is drained (R62). -/
theorem nodeDisarmDrained_done (there : Packeted s q i .running 2 p) (op : p.op = 2)
    (known : s.findNode p.ctx p.key = some k) (node : s.nodes.get? k = some n) (empty : n.queued = 0)
    (drained : n.launches = []) :
    exec (.nodeDisarmDrained q i) s = .next (doneWith q i n.status.toNat n.detail
      (s.updNode k fun n => { n with status := 0, detail := 0 })) := by
  show execNodeDisarmDrained q i s = _
  simp only [execNodeDisarmDrained, State.running_of_packeted there, known, node]
  exact if_neg (by simp [op, empty, drained])

/-- The flush timer of an armed node that is due. -/
theorem flushTimer_flushes {d : DWord} (node : s.nodes.get? k = some n) (deadline : n.deadline = some d)
    (armed : n.armed = true) (late : d.toNat ≤ s.now.toNat) :
    exec (.flushTimer k) s = .next (((s.updNode k fun n => { n with deadline := none }).flushNode k).serveSpawns k) := by
  show execFlushTimer k s = _
  simp only [execFlushTimer, node, deadline]
  exact if_neg (by simp [armed, BitVec.ult, late])

end

/-! ### The ends of launches and of packets (R49, R50, R59) -/

section
variable {s : State} {q i id : Nat} {l : Launch}

theorem outcome_eq_endOf (l : Launch) : l.outcome = endOf l := rfl

section
variable (there : s.launches.get? id = some l) (drained : s.drained id l = true)
include there drained

/-- A packet's launch that has drained: the packet is DONE, and CONFIRMED with it when it used no core. -/
theorem launchDrained_packet (source : l.source = .packet q i) (entry : s.awaitsEntry l = false)
    (clean : l.tainted = false) :
    exec (.launchDrained id) s = .next (((((s.releaseCores l.cores).dropLaunch id).updPacket (packetKey q i) fun p =>
      { p with cores := l.cores.map fun c => (c, l.placed.getD 0) }).packetDone
        (packetKey q i) (endOf l).1 (endOf l).2 l.cores.isEmpty)) := by
  show execLaunchDrained id s = _
  simp only [execLaunchDrained, there, drained, entry, source, clean, outcome_eq_endOf]
  rfl

/-- A node's launch that has drained: the node keeps its status and may take more records (R60, R62). -/
theorem launchDrained_node {n : Nat} (source : l.source = .node n) :
    let s1 := (s.releaseCores l.cores).dropLaunch id
    exec (.launchDrained id) s =
      .next ((((if (endOf l).1 = 0 then s1 else s1.nodeStatus n (endOf l).1 (endOf l).2).updNode n fun n =>
        { n with launches := n.launches.filter fun e => e.1 != id }).serveSpawns n).closeCheck l.ctx) := by
  have free : s.awaitsEntry l = false := by simp [State.awaitsEntry, source]
  show execLaunchDrained id s = _
  simp only [execLaunchDrained, there, drained, free, source, outcome_eq_endOf]
  rfl

end

/-- A packet whose cores have all passed an assay since it began is CONFIRMED, and leaves the table. -/
theorem becomes_packetConfirmed {p : Packet} (there : s.packets.get? (packetKey q i) = some p) (state : p.state = .confirming)
    (passed : ∀ c ∈ p.cores, c.2.toNat < (s.core c.1).lastPass.toNat) :
    Becomes (.packetConfirmed q i) s fun t => t.packets.get? (packetKey q i) = none := by
  have all : p.cores.all (fun c => c.2.ult (s.core c.1).lastPass) = true := by simpa [BitVec.ult] using passed
  refine becomes_of (by
    show execPacketConfirmed q i s = _
    simp only [execPacketConfirmed, there]
    exact if_pos (by simp [state, all])) ?_
  exact (Tbl.get?_del ..).trans (if_pos rfl)

end

/-- Settles O56: each packet's action and each end of a launch by its own lemma above. -/
theorem packetActions : Obligations.PacketActions := by
  refine ⟨fun _ _ _ _ => nopPacket_done, fun _ _ _ _ _ => signal_done, fun _ _ _ _ => becomes_waitPacket,
    fun _ _ _ _ _ => waitPacketMet_done, fun _ _ _ _ _ there deadline late _ queue => waitTimeout_done there deadline late queue,
    fun s q i p there => ?_, fun _ _ _ _ => copyPacketDone_runs,
    fun _ _ _ _ _ _ _ there op queue read room waits =>
      ⟨nodeDefine_known there op queue waits, nodeDefine_new there op queue read room waits⟩,
    fun _ _ _ _ _ there known => ⟨nodeArm_done there known, runs_nodeDisarm there known⟩,
    fun _ _ _ _ _ _ => nodeDisarmDrained_done, fun _ _ _ _ => flushTimer_flushes,
    fun _ _ _ there drained => ⟨fun _ _ => launchDrained_packet there drained, fun _ => launchDrained_node there drained⟩,
    fun _ _ _ _ => becomes_packetConfirmed⟩
  rw [copyPacket_starts there]
  refine ⟨fun empty => ?_, fun more overlap => ?_, fun more apart => ?_⟩
  · rw [if_pos empty]
  · rw [if_neg more, if_pos overlap]
  · rw [if_neg more, if_neg (by simp [apart])]

end Sys2Proof.Claims
end

section
/-! Collective events (R64 to R66, R71, R175, R176, R246, R348): releases of the barrier tree and the epoch tick, meeting
points, the end of a touchstone epoch, and the choice of the clause that issues. -/

namespace Sys2Proof.Machine

open Sys2Proof

/-! ### Folds that reach a property -/

/-- What one step of a fold establishes and every step keeps holds after the fold. -/
theorem foldl_reaches {σ α : Type} {P : σ → Prop} {f : σ → α → σ} {l : List α} {a : α} (ha : a ∈ l)
    (sets : ∀ u, P (f u a)) (keeps : ∀ u b, P u → P (f u b)) (s : σ) : P (l.foldl f s) := by
  obtain ⟨before, after, rfl⟩ := List.append_of_mem ha
  rw [List.foldl_append, List.foldl_cons]
  exact List.foldlRecOn after f (sets _) fun u hu b _ => keeps u b hu

/-! ### Scalar registers -/

theorem readS_writeS (th : Thread) (r : Nat) (v : Word) (j : Nat) :
    (th.writeS r v).readS j = if j = r then v else th.readS j := Tbl.read_write ..

/-- Copying a scalar register from a thread makes it equal there, and unmakes no such equality. -/
theorem readS_writeS_copy_same (th other : Thread) (r : Nat) : (th.writeS r (other.readS r)).readS r = other.readS r := by
  rw [readS_writeS, if_pos rfl]

theorem readS_writeS_copy {th other : Thread} {j : Nat} (r : Nat) (h : th.readS j = other.readS j) :
    (th.writeS r (other.readS r)).readS j = other.readS j := by
  rw [readS_writeS]
  split
  next same => rw [same]
  next => exact h

/-! ### Waits that end (R126, R348) -/

/-- No wait that was dropped is left, in the thread or in a clause in progress. -/
theorem Team.any_allWaits_dropWaits (t : Team) (f : Wait → Bool) : (t.dropWaits f).allWaits.any f = false := by
  have kept (ws : List Wait) : ∀ w ∈ ws.filter (!f ·), f w = false := fun w hw => by simpa using (List.mem_filter.mp hw).2
  simp only [List.any_eq_false, Bool.not_eq_true]
  intro w hw
  simp only [Team.allWaits, Team.dropWaits, List.mem_append, List.mem_flatMap, List.mem_map] at hw
  rcases hw with (hw | hw) | ⟨_, ⟨c, _, rfl⟩, hw⟩
  · exact kept _ w hw
  · cases hi : t.th.issue <;> simp only [hi, Option.map_none, Option.map_some] at hw
    case none => cases hw
    case some c => exact kept _ w hw
  · exact kept _ w hw

/-- The status that a wait for a GBAR leaves as its team goes. -/
def Team.passGbar (t : Team) (w : Wait) : Team :=
  match w with
  | .gbar sd => t.writeStatus (some sd) 0
  | _ => t

theorem Team.leaveGbar_eq (t : Team) : t.leaveGbar = (t.allWaits.foldl Team.passGbar t).dropWaits Claims.isGbar := rfl

/-- A status of 0 stays 0, whatever else the team waits for. -/
theorem Team.readS_passGbar {t : Team} {sd : Nat} (w : Wait) (h : t.th.readS sd = 0) : (t.passGbar w).th.readS sd = 0 := by
  cases w with
  | gbar r => exact (readS_writeS ..).trans (by simp [h])
  | _ => exact h

/-- Every GBAR that a team leaves has its status written. -/
theorem Team.readS_leaveGbar {t : Team} {sd : Nat} (h : .gbar sd ∈ t.allWaits) : t.leaveGbar.th.readS sd = 0 := by
  rw [Team.leaveGbar_eq]
  refine foldl_reaches (P := fun u : Team => u.th.readS sd = 0) h (fun u => ?_) (fun u w => Team.readS_passGbar w) t
  exact (readS_writeS ..).trans (if_pos rfl)

/-! ### Releases of the barrier tree (R64, R65, R348) -/

section
variable {s : State} {ch : Nat} {c : Channel} {l : Launch} (there : s.channels.get? ch = some c)
  (launch : s.launches.get? c.launch = some l) (live : c.abandoned = false) (arrivals : c.arrived ≠ [])
  (full : s.treeFull c.launch l = true) (copies : c.phase % 2 = 0 ∨ s.exchanging c.launch = false)
include there launch live arrivals full copies

/-- A round that is full ends by the kinds with which its crews arrived. -/
theorem barrierTreeRelease_eq :
    exec (.barrierTreeRelease ch) s =
      if c.arrived.all fun a => a.2 == .gbar then .next ((s.teamsOf c.launch).foldl (fun u e =>
        if e.2.allWaits.any Claims.isGbar then (u.updCopies e.1 Team.leaveGbar).fenceSC e.1 e.2.cluster 4 else u)
        (s.leaveRound c.launch ch))
      else if c.arrived.all fun a => a.2 == .phase then
        .next (((s.teamsOf c.launch).map (·.1)).foldl (fun u p => u.updCopies p (Team.enterEpoch · (s.now + 64) (c.phase + 1)))
          { s.leaveRound c.launch ch with channels := (s.leaveRound c.launch ch).channels.upd ch fun x =>
            { x with phase := c.phase + 1, epoch := s.now + 64 } })
      else .next (((s.teamsOf c.launch).map (·.1)).foldl (fun u p => u.updCopies p Team.releaseTree)
        (s.leaveRound c.launch ch)) := by
  have runs : ¬(c.abandoned || c.arrived.isEmpty || !s.treeFull c.launch l ||
      (c.phase % 2 == 1 && s.exchanging c.launch)) = true := by
    rcases copies with h | h <;> simp [live, arrivals, full, h]
  show execBarrierTreeRelease ch s = _
  rw [execBarrierTreeRelease, there]
  dsimp only
  rw [launch]
  exact if_neg runs

end

/-! ### Meeting points (R176) -/

/-- A copy that is not released reaches its meeting point: it holds there with its operands. -/
theorem performMeet_holds {i : Instr} {oc : Exe → State → Option Cause} {body : Exe → State → Res State} {s s1 : State}
    {x x1 : Exe} (h : s.issuer? i = some x) (paired : x.paired s = true) (waits : ¬Claims.released x)
    (hp : prepare i oc x s = .go x1 s1) : performMeet i oc body s =
      .next ((holdSlot x.p .meet s1).updClause x.p fun c => { c with meet := some (0, x1.operandWords s1 i) }) := by
  have unreleased : ¬(x.p.kind == .team && x.cl.meet.any fun m => m.1 == 1) = true := fun both =>
    waits (by simpa only [Claims.released, Bool.and_eq_true, beq_iff_eq] using both)
  obtain ⟨view, settled⟩ := prepare_go_view hp
  rw [performMeet, h]
  dsimp only
  rw [if_neg (by simp [paired]), if_neg unreleased, reachMeet, hp]
  dsimp only
  rw [← settled, ← view]

/-- The fields of an issuer's instruction. -/
theorem parts_of_issuer {s : State} {i : Instr} {x : Exe} (h : s.issuer? i = some x) : x.parts = (partsOf i).getD {} := by
  obtain ⟨_, _, _, _, _, _, parts, _⟩ := issuer_cases h
  exact parts

/-- A second arrival as the statements write it is the model's. -/
theorem arriveCheck_eq : arriveCheck = Claims.secondArrival := by
  have number (f : BitVec 7) : base f = f.toNat % 64 := by simp [base, BitVec.extractLsb'_toNat]
  funext x s
  refine if_congr ?_ rfl rfl
  simp only [Exe.barGone, Exe.barHere, Exe.barNo, Claims.barrierRec, Claims.arrived, Claims.barrierNo, number,
    Bool.and_eq_true, Bool.not_eq_true']

/-! ### What a meeting point gives the trailing copy (R176) -/

/-- One operand of a meeting point's instruction: a scalar destination takes the registers of the leading copy. -/
def Exe.giveScalars (x : Exe) (b u : Team) (o : Opnd) : Team :=
  if o.dst && o.cls == .s then
    let r := x.regNum .s (x.parts.at o.pos)
    (List.range o.len).foldl (fun u k => { u with th := u.th.writeS (r + k) (b.th.readS (r + k)) }) u
  else u

theorem Team.readS_receive (t : Team) (x : Exe) (ops : List Opnd) (a b : Team) (r : Nat) :
    (t.receive x ops a b).th.readS r = (ops.foldl (x.giveScalars b) t).th.readS r := rfl

/-- A register that agrees with the leading copy's goes on to agree. -/
theorem Exe.readS_giveScalars {x : Exe} {b u : Team} (o : Opnd) {r : Nat} (h : u.th.readS r = b.th.readS r) :
    (x.giveScalars b u o).th.readS r = b.th.readS r := by
  unfold Exe.giveScalars
  split
  · exact List.foldlRecOn _ _ (motive := fun u : Team => u.th.readS r = b.th.readS r) h
      fun u hu k _ => readS_writeS_copy _ hu
  · exact h

/-- Every register of a scalar destination agrees with the leading copy's. -/
theorem Team.readS_receive_dst {x : Exe} {ops : List Opnd} {o : Opnd} {k : Nat} (t a b : Team) (ho : o ∈ ops)
    (dst : o.dst = true) (scalar : o.cls = .s) (hk : k < o.len) :
    (t.receive x ops a b).th.readS (x.regNum .s (x.parts.at o.pos) + k) =
      b.th.readS (x.regNum .s (x.parts.at o.pos) + k) := by
  rw [Team.readS_receive]
  generalize hr : x.regNum .s (x.parts.at o.pos) + k = r
  refine foldl_reaches (P := fun u : Team => u.th.readS r = b.th.readS r) ho (fun u => ?_)
    (fun u o' => Exe.readS_giveScalars o') t
  rw [Exe.giveScalars, if_pos (by simp [dst, scalar])]
  refine foldl_reaches (P := fun u : Team => u.th.readS r = b.th.readS r) (List.mem_range.mpr hk) (fun u => ?_)
    (fun u j => readS_writeS_copy _) u
  rw [← hr]
  exact readS_writeS_copy_same ..

/-! ### The end of a touchstone epoch (R175, R176, R372) -/

section
variable {s : State} {p : Party} {q : Pair} {t : Team} (pair : s.pair p = some q) (lead : s.team? (asLead p) = some t)
include pair lead

/-- Both copies stand at a meeting point. -/
theorem touchstoneEpochEnd_met {a b : List Word} (ha : t.meeting = some a) (hb : q.trail.meeting = some b) :
    exec (.touchstoneEpochEnd p) s = if a = b && q.slack = 0 && q.verified then
      .next ((s.endEpoch p q).updClause (asLead p) fun c => { c with meet := some (1, a) })
    else .next (s.rollback p) := by
  show execTouchstoneEpochEnd p s = _
  rw [execTouchstoneEpochEnd, pair, lead]
  dsimp only
  rw [ha, hb]

/-- The leading copy has stalled at a boundary, and the trailing copy has caught up with it. -/
theorem touchstoneEpochEnd_stalled (ha : t.meeting = none) (straight : q.trail.strayed = false) (stalled : q.stalled = true)
    (idle : t.th.issue = none) (level : q.slack = 0) (trailIdle : q.trail.th.issue = none) :
    exec (.touchstoneEpochEnd p) s = .next (if q.verified then s.endEpoch p q else s.rollback p) := by
  show execTouchstoneEpochEnd p s = _
  rw [execTouchstoneEpochEnd, pair, lead]
  simp [ha, straight, stalled, idle, level, trailIdle]

end

/-! ### The clause that issues (R66, R71, R246) -/

theorem clauseIssue_team {s : State} {cl : Nat} (free : (s.cluster cl).holder = none) :
    exec (.clauseIssue cl none) s = .next (s.issueTeam cl) := by
  show execClauseIssue cl none s = _
  simp [execClauseIssue, free]

/-- The slot whose turn it is has a plan, and its chaser does not stand back. -/
theorem State.chaserTurn_spec {s : State} {cl slot : Nat} (h : s.chaserTurn cl = some slot) :
    ∃ p pl, s.planSlotChaser cl slot = some (p, pl) ∧ pl.ready = true ∧ s.standsBack cl slot p = false := by
  have found := List.find?_some h
  obtain ⟨⟨p, pl⟩, plan, ready⟩ := (Option.any_eq_true ..).mp found
  rw [Bool.and_eq_true, Bool.not_eq_true'] at ready
  exact ⟨p, pl, plan, ready.1, ready.2⟩

section
variable {s u : State} {cl slot : Nat} {p : Party} (turn : s.chaserTurn cl = some slot)
include turn

theorem clauseIssue_chaser_acts (plan : s.planSlotChaser cl slot = some (p, .act u)) :
    exec (.clauseIssue cl (some slot)) s = .next (u.passSlot cl slot) := by
  show execClauseIssue cl (some slot) s = _
  rw [execClauseIssue, if_neg (not_not.mpr turn), plan]

theorem clauseIssue_chaser_issues {n : Nat} (plan : s.planSlotChaser cl slot = some (p, .go n u)) :
    exec (.clauseIssue cl (some slot)) s = .next ((u.charge cl n).passSlot cl slot) := by
  show execClauseIssue cl (some slot) s = _
  rw [execClauseIssue, if_neg (not_not.mpr turn), plan]

end

/-! ### The choice among ready teams (R66) -/

theorem le_greatest {n : Nat} {ns : List Nat} (h : n ∈ ns) : n ≤ greatest ns := by
  obtain ⟨m, hm⟩ := Option.isSome_iff_exists.mp (List.isSome_max?_of_mem h)
  rw [greatest, hm]
  exact (List.max?_eq_some_iff.mp hm).2 n h

theorem greatest_mem {n : Nat} {ns : List Nat} (h : n ∈ ns) : greatest ns ∈ ns := by
  obtain ⟨m, hm⟩ := Option.isSome_iff_exists.mp (List.isSome_max?_of_mem h)
  rw [greatest, hm]
  exact List.max?_mem hm

/-- The entries of a list whose measure is the greatest. -/
theorem mem_filter_greatest {α : Type} {f : α → Nat} {l : List α} {c : α} :
    c ∈ l.filter (fun d => f d == greatest (l.map f)) ↔ c ∈ l ∧ ∀ d ∈ l, f d ≤ f c := by
  rw [List.mem_filter, beq_iff_eq]
  refine and_congr_right fun hc => ⟨fun top d hd => ?_, fun top => ?_⟩
  · exact top ▸ le_greatest (List.mem_map_of_mem hd)
  · obtain ⟨d, hd, most⟩ := List.mem_map.mp (greatest_mem (List.mem_map_of_mem (f := f) hc))
    exact le_antisymm (le_greatest (List.mem_map_of_mem hc)) (most ▸ top d hd)

/-- The candidates of the highest priority, and among them those of the largest age. -/
def firstRank (cs : List Cand) : List Cand := cs.filter fun c => c.prio == greatest (cs.map (·.prio))
def topCands (cs : List Cand) : List Cand :=
  (firstRank cs).filter fun c => c.age == greatest ((firstRank cs).map (·.age))

theorem pickCand_eq (ptr : Nat) (cs : List Cand) :
    pickCand ptr cs = ((topCands cs).find? fun c => ptr ≤ c.slot).or (topCands cs).head? := rfl

theorem mem_topCands {cs : List Cand} {c : Cand} : c ∈ topCands cs ↔
    c ∈ cs ∧ (∀ d ∈ cs, d.prio ≤ c.prio) ∧ ∀ d ∈ cs, d.prio = c.prio → d.age ≤ c.age := by
  rw [topCands, mem_filter_greatest, firstRank, mem_filter_greatest, and_assoc]
  refine and_congr_right fun hc => and_congr_right fun top => forall_congr' fun d => ?_
  rw [mem_filter_greatest]
  constructor
  · exact fun age hd level => age ⟨hd, fun e he => level ▸ top e he⟩
  · exact fun age ⟨hd, level⟩ => age hd (le_antisymm (top d hd) (level c hc))

/-- In slot order, the pick is the first slot at or after the pointer, or the first of all where there is none. -/
theorem pick_slot {ptr : Nat} {l : List Cand} {c d : Cand} (pick : (l.find? fun c => ptr ≤ c.slot).or l.head? = some c)
    (sorted : l.Pairwise fun a b => a.slot < b.slot) (hd : d ∈ l) :
    (ptr ≤ d.slot → ptr ≤ c.slot ∧ c.slot ≤ d.slot) ∧ (c.slot < ptr → c.slot ≤ d.slot) := by
  cases found : l.find? fun c => ptr ≤ c.slot with
  | some e =>
    rw [found] at pick
    cases pick
    obtain ⟨after, before, rest, rfl, passed⟩ := List.find?_eq_some_iff_append.mp found
    simp only [decide_eq_true_eq] at after
    refine ⟨fun hp => ⟨after, ?_⟩, fun lt => absurd after (Nat.not_le.mpr lt)⟩
    rcases List.mem_append.mp hd with early | late
    · exact absurd hp (by simpa using passed d early)
    · rcases List.mem_cons.mp late with same | later
      · rw [same]
      · exact ((List.pairwise_cons.mp (List.pairwise_append.mp sorted).2.1).1 d later).le
  | none =>
    rw [found, Option.none_or] at pick
    obtain ⟨rest, rfl⟩ := List.head?_eq_some_iff.mp pick
    refine ⟨fun hp => absurd hp (by simpa using List.find?_eq_none.mp found d hd), fun _ => ?_⟩
    rcases List.mem_cons.mp hd with same | later
    · rw [same]
    · exact ((List.pairwise_cons.mp sorted).1 d later).le

theorem mem_of_pick {ptr : Nat} {l : List Cand} {c : Cand} (pick : (l.find? fun c => ptr ≤ c.slot).or l.head? = some c) :
    c ∈ l := by
  rcases Option.or_eq_some_iff.mp pick with found | ⟨_, first⟩
  · exact List.mem_of_find?_eq_some found
  · exact List.mem_of_mem_head? first

/-- The team that R66 picks: of the highest priority, of the largest age among those, and among those the first in slot order
from the pointer on. -/
theorem pickCand_spec {ptr : Nat} {cs : List Cand} {c : Cand} (pick : pickCand ptr cs = some c) :
    c ∈ cs ∧ (∀ d ∈ cs, d.prio ≤ c.prio) ∧ (∀ d ∈ cs, d.prio = c.prio → d.age ≤ c.age) ∧
    ((cs.map (·.slot)).Pairwise (· < ·) → ∀ d ∈ cs, d.prio = c.prio → d.age = c.age →
      (ptr ≤ d.slot → ptr ≤ c.slot ∧ c.slot ≤ d.slot) ∧ (c.slot < ptr → c.slot ≤ d.slot)) := by
  rw [pickCand_eq] at pick
  obtain ⟨hc, prio, age⟩ := mem_topCands.mp (mem_of_pick pick)
  refine ⟨hc, prio, age, fun sorted d hd samePrio sameAge => pick_slot pick ?_ ?_⟩
  · exact (List.pairwise_map.mp sorted).sublist (List.filter_sublist.trans List.filter_sublist)
  · exact mem_topCands.mpr ⟨hd, fun e he => samePrio ▸ prio e he, fun e he level =>
      sameAge ▸ age e he (level.trans samePrio)⟩

end Sys2Proof.Machine

namespace Sys2Proof.Claims

open Sys2Proof Sys2Proof.Machine

/-- The channel after a round of PHASE: one phase further, its epoch tick 64 ticks on, and no arrival (R348). -/
theorem becomes_phaseRelease {s : State} {ch : Nat} {c : Channel} {l : Launch} (there : s.channels.get? ch = some c)
    (launch : s.launches.get? c.launch = some l) (live : c.abandoned = false) (arrivals : c.arrived ≠ [])
    (full : s.treeFull c.launch l = true) (copies : c.phase % 2 = 0 ∨ s.exchanging c.launch = false)
    (phases : ∀ a ∈ c.arrived, a.2 = .phase) : Becomes (.barrierTreeRelease ch) s fun t =>
      (t.channels.get? ch).map (fun x => (x.phase, x.epoch, x.arrived)) = some (c.phase + 1, s.now + 64, []) := by
  obtain ⟨a, ha⟩ := List.exists_mem_of_ne_nil _ arrivals
  have notGbar : ¬(c.arrived.all fun a => a.2 == .gbar) = true := fun all => by
    have := List.all_eq_true.mp all a ha
    simp [phases a ha] at this
  refine becomes_of ((barrierTreeRelease_eq there launch live arrivals full copies).trans
    ((if_neg notGbar).trans (if_pos (by simpa using phases)))) ?_
  rw [foldl_keeps State.channels fun u p => State.updCopies_channels u p _]
  simp [State.leaveRound, there]

/-- The epoch tick of a channel whose launch has teams that wait for it (R348). -/
theorem phaseEpoch_due {s : State} {ch : Nat} {c : Channel} (there : s.channels.get? ch = some c)
    (past : c.epoch.toNat ≤ s.now.toNat) (waits : ∃ e ∈ s.teamsOf c.launch, ∃ w ∈ e.2.allWaits, ∃ t d v, w = .epoch t d v) :
    exec (.phaseEpoch ch) s = .next (((s.teamsOf c.launch).filter fun e => e.2.allWaits.any isEpoch).foldl
      (fun u e => (u.updCopies e.1 Team.beginPhase).fenceSC e.1 e.2.cluster 4) s) := by
  obtain ⟨e, he, _, hw, t, d, v, rfl⟩ := waits
  have due : e ∈ (s.teamsOf c.launch).filter fun e => e.2.allWaits.any isEpoch :=
    List.mem_filter.mpr ⟨he, List.any_eq_true.mpr ⟨_, hw, rfl⟩⟩
  have early : s.now.ult c.epoch = false := by simpa [BitVec.ult] using past
  have some : ((s.teamsOf c.launch).filter fun e => e.2.allWaits.any isEpoch).isEmpty = false := by
    simpa using List.ne_nil_of_mem due
  show execPhaseEpoch ch s = _
  rw [execPhaseEpoch, there]
  exact if_neg (Bool.eq_false_iff.mp (Bool.or_eq_false_iff.mpr ⟨some, early⟩))

/-- An instruction that executes as a meeting point holds at it (R176). -/
theorem holdsAtMeeting_of_performMeet {i : Instr} {oc : Exe → State → Option Cause} {reaches : Exe → Prop}
    {body : Exe → State → Res State}
    (meets : ∀ s x, s.issuer? i = some x → reaches x → exec i s = performMeet i oc body s) : HoldsAtMeeting i oc reaches :=
  fun s x0 _ _ issuer reached paired waits ready => (meets s x0 issuer reached).trans (performMeet_holds issuer paired waits ready)

/-- The same of one that is a meeting point in every form. -/
theorem holdsAtMeeting_always {i : Instr} {oc : Exe → State → Option Cause} {body : Exe → State → Res State}
    (meets : ∀ s, exec i s = performMeet i oc body s) : HoldsAtMeeting i oc fun _ => True :=
  holdsAtMeeting_of_performMeet fun s _ _ _ => meets s

/-- LDP is a meeting point in its atomic forms. -/
theorem holdsAtMeeting_ldp (f : RRR) : HoldsAtMeeting (.ldp f) noCheck fun x => x.parts.fx ∉ [0, 2] :=
  holdsAtMeeting_of_performMeet fun s x issuer atomic => by
    have fields : x.parts = Parts.ofRRR f := parts_of_issuer issuer
    rw [fields] at atomic
    exact if_neg (by simpa using atomic)

/-- EXIT is a meeting point when it retires its team (log 14). -/
theorem holdsAtMeeting_exit (f : FZ) : HoldsAtMeeting (.exit f) noCheck retires :=
  holdsAtMeeting_of_performMeet fun s x issuer ⟨placed, last, outside⟩ => by
    show execExit f s = _
    rw [execExit]
    dsimp only
    rw [issuer]
    exact if_pos (by simp [placed, last, outside])

/-- A second arrival is checked at BAR and BARA as the statements write it. -/
theorem holdsAtMeeting_bar (f : RRS) :
    HoldsAtMeeting (.bar f) secondArrival (fun _ => True) ∧ HoldsAtMeeting (.bara f) secondArrival fun _ => True := by
  rw [← arriveCheck_eq]
  exact ⟨holdsAtMeeting_always fun _ => rfl, holdsAtMeeting_always fun _ => rfl⟩

/-- Settles O59: the releases by the kinds of the arrivals, every meeting point by the one lemma on `performMeet`, an epoch's end
by where the copies stand, and the pick among ready teams by the two filters that leave the top candidates. -/
theorem collectiveEvents : Obligations.CollectiveEvents := by
  refine ⟨⟨fun s ch c l there launch live arrivals full copies => ?_, fun s ch c there past waits => phaseEpoch_due there past waits,
    fun t => ⟨Team.any_allWaits_dropWaits _ isEpoch, Team.any_allWaits_dropWaits _ isGbar, Team.any_allWaits_dropWaits _ Wait.isTree⟩,
    fun t sd waits => Team.readS_leaveGbar waits, ?_, fun t x ops a b =>
      ⟨fun o ho dst scalar k hk => Team.readS_receive_dst t a b ho dst scalar hk, rfl, rfl⟩,
    fun s p q t a pair lead ha hb level verified => ?_, fun s p q t a b pair lead ha hb differ => ?_,
    fun s p q t pair lead ha straight stalled idle level trailIdle =>
      touchstoneEpochEnd_stalled pair lead ha straight stalled idle level trailIdle,
    fun s cl free => clauseIssue_team free, fun s cl slot turn => ?_⟩, fun ptr cs c pick => pickCand_spec pick⟩
  case refine_1 =>
    have release := barrierTreeRelease_eq there launch live arrivals full copies
    refine ⟨fun gbars => release.trans (if_pos (by simpa using gbars)), fun notGbar notPhase =>
      release.trans ((if_neg (by simpa using notGbar)).trans (if_neg (by simpa using notPhase))),
      becomes_phaseRelease there launch live arrivals full copies⟩
  case refine_2 =>
    refine ⟨fun f => ?_, fun f => ?_, fun f => ?_, holdsAtMeeting_ldp, fun f => ?_, fun f => ?_, fun z => ?_, fun z => ?_,
      fun r => (holdsAtMeeting_bar r).1, fun r => (holdsAtMeeting_bar r).2, fun r => ?_, fun z => ?_, fun r => ?_, fun f => ?_,
      fun f => ?_, fun f => ?_, fun f => ?_, fun f => ?_, fun f => ?_, fun f => ?_, fun f => ?_, fun z => ?_,
      holdsAtMeeting_exit⟩
    all_goals exact holdsAtMeeting_always fun _ => rfl
  case refine_3 => exact (touchstoneEpochEnd_met pair lead ha hb).trans (if_pos (by simp [level, verified]))
  case refine_4 =>
    refine (touchstoneEpochEnd_met pair lead ha hb).trans (if_neg ?_)
    rcases differ with h | h | h <;> simp [h]
  case refine_5 =>
    obtain ⟨p, pl, plan, ready, stands⟩ := State.chaserTurn_spec turn
    refine ⟨p, pl, plan, stands, ?_⟩
    cases pl with
    | no => cases ready
    | act u => exact .inl ⟨u, rfl, clauseIssue_chaser_acts turn plan⟩
    | go n u => exact .inr ⟨n, u, rfl, clauseIssue_chaser_issues turn plan⟩

end Sys2Proof.Claims
end

section
/-! Crew events (R53 to R58, R69, R70, R174): crews are placed, loaded, stopped, sealed and restored; acknowledgements;
and where a trailing copy stands. -/

namespace Sys2Proof.Machine

open Sys2Proof

/-! ### What the operations of a core leave of the crews -/

/-- The crews, the pairs, the launches and the next handle: what no access of memory and no change of a core touches. -/
def State.muster (s : State) : Tbl Crew × Tbl Pair × Tbl Launch × Nat := (s.crews, s.pairs, s.launches, s.nextHandle)

section
variable {s t : State} (h : s.muster = t.muster)
include h

theorem State.crews_of_muster : s.crews = t.crews := congrArg (·.1) h
theorem State.pairs_of_muster : s.pairs = t.pairs := congrArg (·.2.1) h
theorem State.launches_of_muster : s.launches = t.launches := congrArg (·.2.2.1) h
theorem State.nextHandle_of_muster : s.nextHandle = t.nextHandle := congrArg (·.2.2.2) h
theorem team?_of_muster (p : Party) : s.team? p = t.team? p :=
  team?_congr p (State.crews_of_muster h) (State.pairs_of_muster h)

end

section
variable (s : State)

@[simp] theorem State.muster_updCore (c : Nat) (f : Core → Core) : (s.updCore c f).muster = s.muster := rfl
@[simp] theorem State.muster_updCluster (c : Nat) (f : Cluster → Cluster) : (s.updCluster c f).muster = s.muster := rfl
@[simp] theorem State.muster_setOwner (f o : Nat) : (s.setOwner f o).muster = s.muster := rfl
@[simp] theorem State.muster_writeByte (a : Nat) (b : Byte) : (s.writeByte a b).muster = s.muster := rfl
@[simp] theorem State.muster_scramble (a n : Nat) : (s.scramble a n).muster = s.muster := rfl
@[simp] theorem State.muster_host (core launch : Nat) : (s.host core launch).muster = s.muster := rfl

@[simp] theorem State.muster_unview (die : Nat) (sel : Nat → Bool) : (s.unview die sel).muster = s.muster := by
  unfold State.unview; split <;> rfl

@[simp] theorem State.muster_cleanLine (cl line : Nat) (sel : Nat → Bool) :
    (s.cleanLine cl line sel).muster = s.muster := by
  unfold State.cleanLine
  split
  · rfl
  · refine foldl_keeps State.muster fun u i => ?_
    split <;> simp

@[simp] theorem State.muster_evictLine (cl line : Nat) : (s.evictLine cl line).muster = s.muster :=
  s.muster_cleanLine cl line fun _ => true

@[simp] theorem State.muster_writeBack (cl : Nat) (sel : Nat → Bool) : (s.writeBack cl sel).muster = s.muster :=
  foldl_keeps State.muster fun _ _ => State.muster_cleanLine ..

@[simp] theorem State.muster_invalidate (cl : Nat) (sel : Nat → Bool) : (s.invalidate cl sel).muster = s.muster :=
  foldl_keeps State.muster fun _ _ => State.muster_evictLine ..

@[simp] theorem State.muster_renew (cl : Nat) (sel : Nat → Bool) : (s.renew cl sel).muster = s.muster :=
  (State.muster_unview ..).trans (s.muster_invalidate cl sel)

@[simp] theorem State.muster_ownGranules (core ctx : Nat) (gs : List Nat) :
    (s.ownGranules core ctx gs).muster = s.muster :=
  foldl_keeps State.muster fun _ _ => rfl

@[simp] theorem State.muster_dropUnpinned (core : Nat) : (s.dropUnpinned core).muster = s.muster := by
  unfold State.dropUnpinned
  refine (foldl_keeps State.muster ?_).trans (s.muster_updCore ..)
  intros
  rfl

@[simp] theorem State.muster_showRecords (core : Nat) (l : Launch) : (s.showRecords core l).muster = s.muster := by
  unfold State.showRecords
  split
  · exact (State.muster_unview ..).trans (foldl_keeps State.muster fun _ _ => State.muster_invalidate ..)
  · rfl

@[simp] theorem State.muster_takeSlots (crew core t : Nat) (is : List Nat) :
    (s.takeSlots crew core t is).2.muster = s.muster := by
  induction is generalizing s t with
  | nil => rfl
  | cons i is ih => exact (ih ..).trans (s.muster_updCluster ..)

@[simp] theorem State.crews_restartScan (core : Nat) : (s.restartScan core).crews = s.crews := rfl

@[simp] theorem State.crews_keepSources (crew : Nat) : (s.keepSources crew).crews = s.crews := by
  unfold State.keepSources
  split
  · rfl
  · dsimp only
    split <;> rfl

@[simp] theorem State.crews_freeTrack (core launch : Nat) : (s.freeTrack core launch).crews = s.crews := by
  unfold State.freeTrack
  split
  · rfl
  · split <;> rfl

end

/-! ### Placing a crew (R55, R58, R74) -/

section
variable {s : State} {id core : Nat} {l : Launch} {is : List Nat}

/-- How the placing of a crew of a launch that does not cooperate ends: a record of the next number is put among the crews,
loading, and the launch moves on by one. -/
theorem State.placeCrew_eq (alone : l.co = false) : ∃ (u : State) (c : Crew) (f : Launch → Launch),
    s.placeCrew id l core is =
      (({ u with crews := u.crews.put s.nextHandle c } : State).useCore id core).updLaunch id f ∧
    u.launches = s.launches ∧ (∀ k, (f k).next = k.next + 1) ∧
    (c.ctx, c.launch, c.lin, c.core, c.state) = (l.ctx, id, l.next, core, .loading) ∧
    (c.x, c.y, c.z) = (l.next % l.gx, l.next / l.gx % l.gy, l.next / (l.gx * l.gy)) := by
  have shown : (s.showRecords core l).takeChannel id l = s.showRecords core l := by simp [State.takeChannel, alone]
  have number : (s.showRecords core l).nextHandle = s.nextHandle :=
    State.nextHandle_of_muster (s.muster_showRecords core l)
  unfold State.placeCrew
  rw [shown, ← number]
  refine ⟨_, _, _, if_neg (by simp [alone]), ?_, fun _ => rfl, by simp [alone], rfl⟩
  have records : (s.showRecords core l).launches = s.launches := State.launches_of_muster (s.muster_showRecords core l)
  refine (State.launches_of_muster (t := (s.showRecords core l).fresh.2) ?_).trans records
  refine (foldl_keeps State.muster fun _ _ => State.muster_scramble ..).trans ?_
  rw [State.muster_host, State.muster_ownGranules]
  split
  · exact (State.muster_dropUnpinned ..).trans (State.muster_takeSlots ..)
  · exact State.muster_takeSlots ..

@[simp] theorem State.crews_useCore (u : State) (launch core : Nat) : (u.useCore launch core).crews = u.crews := rfl

/-- A crew of a launch that does not cooperate, as it is placed: the next of its launch's index space, and loading. -/
theorem State.placeCrew_spec (alone : l.co = false) (there : s.launches.get? id = some l) :
    ((s.placeCrew id l core is).launches.get? id).map (·.next) = some (l.next + 1) ∧
    ((s.placeCrew id l core is).crews.get? s.nextHandle).map (fun c => (c.ctx, c.launch, c.lin, c.core, c.state)) =
      some (l.ctx, id, l.next, core, .loading) ∧
    ((s.placeCrew id l core is).crews.get? s.nextHandle).map (fun c => (c.x, c.y, c.z)) =
      some (l.next % l.gx, l.next / l.gx % l.gy, l.next / (l.gx * l.gy)) := by
  obtain ⟨u, c, f, placed, launches, moves, record, indices⟩ := State.placeCrew_eq (s := s) (id := id) (core := core) (is := is) alone
  have crew : (s.placeCrew id l core is).crews.get? s.nextHandle = some c := by rw [placed]; simp
  refine ⟨?_, ?_, ?_⟩
  · rw [placed, State.launch_updLaunch, if_pos rfl, State.useCore, State.launch_updLaunch, if_pos rfl]
    simp [launches, there, moves]
  · rw [crew, ← record]; rfl
  · rw [crew, ← indices]; rfl

end

/-! ### Loading, stopping and sealing (R56, R69, R169) -/

/-- A crew that is changed is the changed crew; every other one is as it was. -/
theorem State.crew_updCrew_same {s : State} {k : Nat} {c : Crew} (f : Crew → Crew) (h : s.crews.get? k = some c) :
    (s.updCrew k f).crews.get? k = some (f c) := by
  rw [State.crew_updCrew, if_pos rfl, h]
  rfl

theorem State.crew_updCrew_other {s : State} {k j : Nat} (f : Crew → Crew) (h : j ≠ k) :
    (s.updCrew k f).crews.get? j = s.crews.get? j := by
  rw [State.crew_updCrew, if_neg h]

/-- Freeing what a crew occupies writes its state in its record. -/
theorem State.crews_freeCrew {s : State} {k : Nat} {c : Crew} (st : CrewState) (h : s.crews.get? k = some c) :
    (s.freeCrew k st).crews = (s.updCrew k fun c => { c with state := st }).crews := by
  have slots (u : State) (g : Nat → Cluster → Cluster) (core : Nat) :
      ([0, 1, 2, 3].foldl (fun u i => u.updCluster (4 * core + i) (g i)) u).crews = u.crews :=
    foldl_keeps State.crews (f := fun u i => u.updCluster (4 * core + i) (g i)) fun _ _ => rfl
  have owned (u : State) (l : List Nat) (core : Nat) :
      (l.foldl (fun u g => u.setOwner (granuleAddr core g / 65536) 0) u).crews = u.crews :=
    foldl_keeps State.crews (f := fun u g => u.setOwner (granuleAddr core g / 65536) 0) fun _ _ => rfl
  unfold State.freeCrew
  rw [h]
  dsimp only
  rw [State.crews_restartScan]
  split
  · exact (slots ..).trans (owned ..)
  · exact (State.updCore_crews ..).trans ((slots ..).trans (owned ..))

/-- A crew that leaves its core keeps its record. -/
theorem State.crew_leaveCore {s : State} {k : Nat} {c : Crew} (c1 : Crew) (h : s.crews.get? k = some c) :
    (s.leaveCore k c1).crews.get? k = some { c with state := .saved } := by
  unfold State.leaveCore
  extract_lets s1 s2
  have freed : s2.crews = (s1.updCrew k fun c => { c with state := .saved }).crews :=
    (State.crews_freeTrack ..).trans (State.crews_freeCrew .saved (c := c) h)
  refine (congrArg (Tbl.get? · k) (foldl_keeps State.crews fun _ _ => ?_)).trans ?_
  · rfl
  · rw [freed, State.crew_updCrew_same _ (show s1.crews.get? k = some c from h)]

/-! ### The pair that TSBEGIN makes (R174, R355) -/

/-- A team that waits at TSBEGIN, as it goes on. -/
def Team.leading (t : Team) : Team := { t.dropWaits (· == .tsPlace) with role := .leading, tsRetry := 0 }

/-- The pair that a leading copy makes with a trailing copy on a core. -/
def Team.pairAt (t : Team) (core : Nat) : Pair :=
  { trail := t.trailing, core := core, leadCp := t, trailCp := t.trailing }

/-- A party's team leads, the stores it made before visible to both clusters. -/
def State.leadOff (s : State) (p : Party) (cluster trail : Nat) : State :=
  (((s.settleParty (asLead p)).writeBack cluster fun _ => true).renew trail fun _ => true).updTeam (asLead p) Team.leading

def State.startPair (s : State) (p : Party) (q : Pair) : State :=
  { s with pairs := s.pairs.put (pairKey p.crew p.team) q }

theorem State.pair_startPair (s : State) (p : Party) (q : Pair) : (s.startPair p q).pair p = some q := Tbl.get?_put_same ..

@[simp] theorem State.crews_startPair (s : State) (p : Party) (q : Pair) : (s.startPair p q).crews = s.crews := rfl

theorem State.pair_asLead (s : State) (p : Party) : s.pair p = s.pair (asLead p) := rfl

/-- The team leads as it is once its accesses are performed. -/
theorem State.team?_leadOff {s : State} {p : Party} {t : Team} (cluster trail : Nat)
    (settled : (s.settleParty (asLead p)).team? (asLead p) = some t) :
    (s.leadOff p cluster trail).team? (asLead p) = some t.leading :=
  team?_updTeam _ ((team?_of_muster ((State.muster_renew ..).trans (State.muster_writeBack ..)) _).trans settled)

/-! ### Where a trailing copy stands (R174, R355) -/

section
variable (s : State) (p : Party)

theorem State.pair_updPair (f : Pair → Pair) : (s.updPair p f).pair p = (s.pair p).map f := Tbl.get?_upd_same ..

@[simp] theorem State.crews_updPair (f : Pair → Pair) : (s.updPair p f).crews = s.crews := rfl

theorem State.pair_seatTrail (k : Nat) : (s.seatTrail p k).pair p = (s.pair p).map fun q =>
    { q with core := coreOfCluster k, trail := { q.trail with cluster := k, slot := (s.cluster k).freeSlot } } :=
  State.pair_updPair ..

@[simp] theorem State.crews_seatTrail (k : Nat) : (s.seatTrail p k).crews = s.crews := by
  simp [State.seatTrail]

@[simp] theorem State.crews_checkpoint : (s.checkpoint p).crews = s.crews := by
  unfold State.checkpoint; split <;> rfl

/-- A checkpoint is of both copies, and leaves both as they are. -/
theorem State.trail_checkpoint : ((s.checkpoint p).pair p).map (·.trail) = (s.pair p).map (·.trail) := by
  unfold State.checkpoint
  split
  · rw [State.pair_updPair, Option.map_map]
    rfl
  · rfl

end

/-- The team of a leading copy is read from the crews alone. -/
theorem team?_asLead_of_crews {s t : State} (p : Party) (h : s.crews = t.crews) : s.team? (asLead p) = t.team? (asLead p) := by
  rw [team?_of_kind (by simp [asLead]), team?_of_kind (by simp [asLead]), h]

end Sys2Proof.Machine

namespace Sys2Proof.Claims

open Sys2Proof Sys2Proof.Machine

/-- The state of a crew that is there. -/
theorem crewState_of_crew {s : State} {k : Nat} {c : Crew} (h : s.crews.get? k = some c) : crewState s k = some c.state := by
  rw [crewState, h]
  rfl

/-- A crew that loads becomes resident, and no other crew changes (R56). -/
theorem becomes_crewLoaded {s : State} {k : Nat} {c : Crew} (there : s.crews.get? k = some c) (loading : c.state = .loading) :
    Becomes (.crewLoaded k) s fun t => crewState t k = some .resident ∧ ∀ j, j ≠ k → t.crews.get? j = s.crews.get? j := by
  have next : ∃ f : Crew → Crew, exec (.crewLoaded k) s = .next (s.updCrew k f) ∧ (f c).state = .resident := by
    show ∃ f : Crew → Crew, execCrewLoaded k s = _ ∧ _
    rw [execCrewLoaded, there]
    exact ⟨_, if_neg (not_not.mpr loading), rfl⟩
  obtain ⟨f, next, resident⟩ := next
  refine becomes_of next ⟨?_, fun j hj => State.crew_updCrew_other f hj⟩
  rw [crewState_of_crew (State.crew_updCrew_same f there), resident]

/-- A crew that must leave its core stops, and its die notes it as the one in migration (R69). -/
theorem becomes_migrationTrigger {s : State} {k core : Nat} {c : Crew} (there : s.crews.get? k = some c)
    (resident : c.state = .resident) (here : c.core = core ∨ k ∈ s.trailsOn core) (leaves : s.mustLeave core = true)
    (first : s.migrating (dieOfCore core) = none) :
    Becomes (.migrationTrigger core k) s fun t => crewState t k = some .stopping ∧
      (t.die (dieOfCore core)).migrating = some k := by
  have next : exec (.migrationTrigger core k) s = .next ((s.updCrew k fun c => { c with
      state := .stopping, stoppedAt := s.now }).updDie (dieOfCore core) fun d => { d with migrating := some k }) := by
    show execMigrationTrigger core k s = _
    rw [execMigrationTrigger, there]
    refine if_neg ?_
    rcases here with h | h <;> simp [resident, leaves, first, h]
  refine becomes_of next ⟨?_, by rw [State.die_updDie, if_pos rfl]⟩
  exact crewState_of_crew (State.crew_updCrew_same _ there)

/-- A crew that is settled has its image sealed (R56, R169). -/
theorem becomes_imageSealed {s : State} {k : Nat} {c : Crew} (there : s.crews.get? k = some c) (stopping : c.state = .stopping)
    (still : s.sealable k c = true) (settled : ((s.settleCrew k c).crews.get? k).isSome = true) :
    Becomes (.imageSealed k) s fun t => crewState t k = some .saved := by
  obtain ⟨c1, record⟩ := Option.isSome_iff_exists.mp settled
  rw [← State.crews_keepSources _ k] at record
  have next : ∃ f : Crew → Crew, exec (.imageSealed k) s =
      .next ((((s.settleCrew k c).keepSources k).leaveCore k c1).updCrew k f) ∧ ∀ d, (f d).state = .saved := by
    show ∃ f : Crew → Crew, execImageSealed k s = _ ∧ _
    rw [execImageSealed, there]
    dsimp only
    rw [if_neg (by simp [stopping, still]), record]
    exact ⟨_, rfl, fun _ => rfl⟩
  obtain ⟨f, next, saved⟩ := next
  refine becomes_of next ?_
  rw [crewState_of_crew (State.crew_updCrew_same f (State.crew_leaveCore c1 record)), saved]

/-- An owner has performed a remote signal, or a SPAWN record (R57). -/
theorem outstandingAck_eq {s : State} {core id : Nat} {e : Track} (there : (s.core core).track.get? id = some e) :
    (e.signals ≠ 0 → exec (.outstandingAck core id true) s = .next ((s.updCore core fun k =>
      { k with track := k.track.put id { e with signals := e.signals - 1 } }).freeTrack core id)) ∧
    (e.spawned ≠ 0 → exec (.outstandingAck core id false) s = .next ((s.updCore core fun k =>
      { k with track := k.track.put id { e with stores := e.stores - 1, spawned := e.spawned - 1 } }).freeTrack core
        id)) := by
  constructor
  · intro signals
    show execOutstandingAck core id true s = _
    simp [execOutstandingAck, there, signals]
  · intro spawned
    show execOutstandingAck core id false s = _
    simp [execOutstandingAck, there, spawned]

/-- A core with room takes a crew that is saved, and its trailing copies find theirs (R69, R70). -/
theorem crewRestore_eq {s u : State} {k core : Nat} {c : Crew} {l : Launch} {is : List Nat} {b : Books}
    (there : s.crews.get? k = some c) (launch : s.launches.get? c.launch = some l) (saved : c.state = .saved)
    (quiet : c.shooting = false) (fits : s.fitsCore true c.launch l core = true)
    (room : (s.books core).fit l = some (is, b))
    (seated : (s.restore k c l core is (s.now - c.stoppedAt)).seatPairs l core (s.pairsOf k) = some u) :
    exec (.crewRestore k core) s = .next u := by
  show execCrewRestore k core s = _
  rw [execCrewRestore, there]
  dsimp only
  rw [launch]
  dsimp only
  rw [if_neg (by simp [saved, quiet, fits]), room]
  dsimp only
  rw [seated]

/-- The placing of a crew: of a launch that does not cooperate one crew, of a cooperative one the whole grid (R58). -/
theorem crewPlace_eq {s : State} {id core : Nat} {l : Launch} {is : List Nat} {b : Books} (there : s.launches.get? id = some l)
    (may : s.mayPlace (id, l) core = true) (room : (s.books core).fit l = some (is, b)) :
    exec (.crewPlace id core) s = if l.co = false then .next (s.placeCrew id l core is)
      else match (s.placeCrew id l core is).placeGrid id (l.total - l.next - 1) with
        | none => absent s
        | some t => .next t := by
  show execCrewPlace id core s = _
  rw [execCrewPlace, there]
  dsimp only
  rw [if_neg (by simp [may]), room]
  cases l.co <;> rfl

/-- A team that waits at TSBEGIN goes on as the leading copy, and its trailing copy stands in the cluster that has room. -/
theorem becomes_trailingCopyPlace {s : State} {p : Party} {c : Crew} {t : Team} {l : Launch} {core k : Nat}
    (there : s.crews.get? p.crew = some c) (team : s.team? (asLead p) = some t) (launch : s.launchOf? p.crew = some l)
    (resident : c.state = .resident) (waits : .tsPlace ∈ t.th.waits) (home : s.trailHome false l c.core core = some k)
    (settled : ((s.settleParty (asLead p)).team? (asLead p)).isSome = true) :
    Becomes (.trailingCopyPlace p core) s fun u => (u.team? (asLead p)).map (·.role) = some .leading ∧
      (u.pair p).map (fun q => (q.trail.role, q.trail.cluster)) = some (.trailing, k) := by
  obtain ⟨t1, settled⟩ := Option.isSome_iff_exists.mp settled
  have leads := State.team?_leadOff t.cluster k settled
  have next : exec (.trailingCopyPlace p core) s =
      .next ((((s.leadOff p t.cluster k).startPair p (t1.leading.pairAt core)).seatTrail (asLead p) k).checkpoint (asLead p)) := by
    show execTrailingCopyPlace p core s = _
    rw [execTrailingCopyPlace, there, team, launch]
    dsimp only
    rw [if_neg (by simp [resident, waits]), home]
    dsimp only
    split
    next gone => cases gone.symm.trans leads
    next found => cases found.symm.trans leads; rfl
  refine becomes_of next ⟨?_, ?_⟩
  · rw [team?_asLead_of_crews (t := s.leadOff p t.cluster k) p (by simp), leads]
    rfl
  · have trail := State.trail_checkpoint
      (((s.leadOff p t.cluster k).startPair p (t1.leading.pairAt core)).seatTrail (asLead p) k) (asLead p)
    rw [State.pair_seatTrail, ← State.pair_asLead, ← State.pair_asLead, State.pair_startPair] at trail
    simpa [Team.pairAt, Team.trailing] using congrArg (Option.map fun u => (u.role, u.cluster)) trail

/-- Settles O57, event by event: what the guard of each lets through, and the record of the crew or the pair that it leaves. -/
theorem crewEvents : Obligations.CrewEvents := by
  refine ⟨fun s id l core is b there may room alone => ?_, fun s id l core is b there may room co t grid => ?_,
    fun s k c there loading => becomes_crewLoaded there loading,
    fun s k c core there resident here leaves first => becomes_migrationTrigger there resident here leaves first,
    fun s k c there stopping still settled => becomes_imageSealed there stopping still settled,
    fun s k c l core is b u there launch saved quiet fits room seated =>
      crewRestore_eq there launch saved quiet fits room seated,
    fun s core id e there => outstandingAck_eq there,
    fun s p c t l core k there team launch resident waits home settled =>
      becomes_trailingCopyPlace there team launch resident waits home settled⟩
  · exact becomes_of ((crewPlace_eq there may room).trans (if_pos alone)) ⟨rfl, State.placeCrew_spec alone there⟩
  · rw [crewPlace_eq there may room, if_neg (by simp [co]), grid]

end Sys2Proof.Claims
end

section
/-! Engine events (R65, R151, R152, R329, R330, R335, R337): operations start in order and complete, and what a unit of a
reduction leaves in memory and in the accumulators of its root. -/

namespace Sys2Proof.Machine

open Sys2Proof

/-! ### Runs of bytes and of elements in memory (R6, R92) -/

/-- Writing bytes looks at the listed bytes alone. -/
theorem State.mem_writeBytes_congr : ∀ (bs : List Byte) {s t : State} (a : Nat), s.mem = t.mem →
    (s.writeBytes a bs).mem = (t.writeBytes a bs).mem
  | [], _, _, _, h => h
  | b :: bs, _, _, a, h => State.mem_writeBytes_congr bs (a + 1) (congrArg (Tbl.write memDefault · a b) h)

theorem State.writeBytes_append : ∀ (xs ys : List Byte) (s : State) (a : Nat),
    s.writeBytes a (xs ++ ys) = (s.writeBytes a xs).writeBytes (a + xs.length) ys
  | [], _, _, _ => rfl
  | x :: xs, ys, s, a => by
    rw [List.cons_append, State.writeBytes, State.writeBytes_append, State.writeBytes, List.length_cons,
      Nat.add_right_comm, Nat.add_assoc]

/-- A run of elements of `n` bytes, written one after the other. -/
theorem State.writeBytes_elements (s : State) (a n : Nat) (val : Nat → Nat) (cnt : Nat) :
    s.writeBytes a ((List.range cnt).flatMap fun i => bytesOf n (val i)) =
      (List.range cnt).foldl (fun u i => u.writeBytes (a + n * i) (bytesOf n (val i))) s := by
  induction cnt with
  | zero => rfl
  | succ k ih =>
    have length : ((List.range k).flatMap fun i => bytesOf n (val i)).length = n * k := by
      simp [List.length_flatMap, Nat.mul_comm]
    rw [List.range_succ, List.flatMap_append, State.writeBytes_append, ih, List.foldl_append, length]
    simp

/-- Elements of `n` bytes that are written one after the other read back, and no byte beside them changes. -/
theorem State.readNat_foldl_elements {step : State → Nat → State} {a n : Nat} {val : Nat → Nat} (s : State) :
    ∀ cnt, (∀ u, ∀ i < cnt, (step u i).mem = (u.writeBytes (a + n * i) (bytesOf n (val i))).mem) →
    (∀ i < cnt, ((List.range cnt).foldl step s).readNat (a + n * i) n = val i % 256 ^ n) ∧
      ∀ b, b < a ∨ a + n * cnt ≤ b → ((List.range cnt).foldl step s).readByte b = s.readByte b
  | 0, _ => ⟨fun _ hi => absurd hi (Nat.not_lt_zero _), fun _ _ => rfl⟩
  | k + 1, hstep => by
    obtain ⟨done, outside⟩ := State.readNat_foldl_elements s k fun u i hi => hstep u i (Nat.lt_succ_of_lt hi)
    rw [List.range_succ, List.foldl_append]
    simp only [List.foldl_cons, List.foldl_nil]
    generalize (List.range k).foldl step s = u at done outside
    have last := hstep u k (Nat.lt_succ_self k)
    have around (b : Nat) (h : b < a + n * k ∨ a + n * k + n ≤ b) : (step u k).readByte b = u.readByte b := by
      rw [State.readByte_of_mem last, State.readByte_writeBytes_other _ _ (by rwa [length_bytesOf])]
    refine ⟨fun i hi => ?_, fun b hb => ?_⟩
    · rcases Nat.lt_succ_iff_lt_or_eq.mp hi with earlier | rfl
      · rw [← done i earlier]
        have before : n * i + n ≤ n * k := by rw [← Nat.mul_succ]; exact Nat.mul_le_mul_left n earlier
        unfold State.readNat State.readBytes
        refine congrArg natOf (List.map_congr_left fun j hj => around _ (.inl ?_))
        have := List.mem_range.mp hj
        omega
      · rw [State.readNat_of_mem last, State.readNat_writeBytes_bytesOf]
    · rw [Nat.mul_succ] at hb
      rw [around b (by omega), outside b (by omega)]

/-! ### What an engine writes (R110, R123) -/

/-- What the writes of an engine leave alone beside memory: what was sent, the accumulators, and the duplicate filter. -/
def State.ledger (s : State) : List Sent × Tbl RedAcc × List (Nat × Nat × Nat) := (s.sent, s.reds, s.redSeen)

/-- A whole byte takes its new value, whatever it was. -/
theorem HomeByte.merge_whole (a : Nat) (b old : Byte) : ({ addr := a, bits := 0xFF, val := b } : HomeByte).merge old = b := by
  show (old &&& ~~~BitVec.allOnes 8) ||| (b &&& BitVec.allOnes 8) = b
  rw [BitVec.not_allOnes, BitVec.and_zero, BitVec.and_allOnes, BitVec.zero_or]

section
variable {y : Phys} (alone : y.pm = false)
include alone

/-- A byte of a page with one copy is written at its home. -/
theorem State.engineWrite_eq (s : State) (die : Nat) (b : Byte) :
    s.engineWrite die y b = (s.writeByte y.addr b).unview die fun a => y.storeAddrs.contains a := by
  unfold State.engineWrite State.partyWrite State.writePlace
  have home : y.storeAddrs = [y.addr] := by simp [Phys.storeAddrs, alone]
  rw [home, if_neg (by simp [alone])]
  simp only [List.foldl_cons, List.foldl_nil, State.writeHome, HomeByte.merge_whole]

theorem State.mem_engineWrite (s : State) (die : Nat) (b : Byte) :
    (s.engineWrite die y b).mem = (s.writeByte y.addr b).mem := by
  rw [State.engineWrite_eq alone, State.unview_mem]

theorem State.ledger_engineWrite (s : State) (die : Nat) (b : Byte) : (s.engineWrite die y b).ledger = s.ledger := by
  rw [State.engineWrite_eq alone]
  unfold State.unview
  split <;> rfl

end

/-- Consecutive bytes of memory, as the engine of another node names them (R337). -/
def homePlaces (node a n : Nat) : List Phys :=
  (List.range n).map fun i => { addr := a + i, tier := 0, fmt := 0, geom := 0, pm := false, node := node, gen := 0 }

theorem homePlaces_succ (node a n : Nat) : homePlaces node a (n + 1) =
    { addr := a, tier := 0, fmt := 0, geom := 0, pm := false, node := node, gen := 0 } :: homePlaces node (a + 1) n := by
  simp [homePlaces, List.range_succ_eq_map, Function.comp_def, Nat.add_right_comm, Nat.add_assoc]

/-- The places of a part of a run are a run. -/
theorem take_drop_homePlaces (node a : Nat) {k m n : Nat} (h : k + m ≤ n) :
    ((homePlaces node a n).drop k).take m = homePlaces node (a + k) m := by
  apply List.ext_getElem
  · simp [homePlaces]; omega
  · intro i _ _
    simp [homePlaces, Nat.add_assoc]

theorem map_readByte_homePlaces (s : State) (node a n : Nat) :
    ((homePlaces node a n).map fun y => s.readByte y.addr) = s.readBytes a n := by
  simp [homePlaces, State.readBytes]

/-- An engine that writes a run of bytes. -/
theorem State.foldl_engineWrite_homePlaces (die node : Nat) (bs : List Byte) :
    ∀ (s : State) (a : Nat) {n : Nat}, bs.length ≤ n →
      (((homePlaces node a n).zip bs).foldl (fun u p => u.engineWrite die p.1 p.2) s).mem = (s.writeBytes a bs).mem ∧
      (((homePlaces node a n).zip bs).foldl (fun u p => u.engineWrite die p.1 p.2) s).ledger = s.ledger := by
  induction bs with
  | nil => intro s a n _; simp [State.writeBytes]
  | cons b bs ih =>
    intro s a n h
    obtain ⟨n, rfl⟩ : ∃ m, n = m + 1 := Nat.exists_eq_succ_of_ne_zero (by simp at h; omega)
    rw [homePlaces_succ, List.zip_cons_cons, List.foldl_cons]
    obtain ⟨mem, ledger⟩ := ih (s.engineWrite die _ b) (a + 1) (Nat.le_of_succ_le_succ h)
    exact ⟨mem.trans (State.mem_writeBytes_congr bs (a + 1) (State.mem_engineWrite rfl s die b)),
      ledger.trans (State.ledger_engineWrite rfl s die b)⟩

/-! ### A unit of HOPQ (R194, R199, R202) -/

section
variable (die : Nat) (op : BitVec 3) (td : Nat) (key : Word) (first : Nat) (s : State)

/-- One element of a unit of HOPQ, on what stood there before the unit. -/
def State.hopStep (dst : List Phys) (data : List Byte) (u : State) (i : Nat) : State :=
  let n := redBytes td
  let at' := (dst.drop (n * i)).take n
  let v := hopElem op td key (first + i) (natOf (at'.map fun y => s.readByte y.addr)) (le data (n * i) n)
  (at'.zip (bytesOf n v)).foldl (fun u p => u.engineWrite die p.1 p.2) u

theorem State.hopUnit_eq (dst : List Phys) (data : List Byte) : s.hopUnit die op td key first dst data =
    (List.range (data.length / redBytes td)).foldl (State.hopStep die op td key first s dst data) s := rfl

/-- An element of a run is replaced in memory by its hop with what arrives. -/
theorem State.hopStep_spec (node a : Nat) (data : List Byte) (u : State) {i : Nat}
    (hi : i < data.length / redBytes td) :
    (State.hopStep die op td key first s (homePlaces node a data.length) data u i).mem =
      (u.writeBytes (a + redBytes td * i) (bytesOf (redBytes td) (hopElem op td key (first + i)
        (s.readNat (a + redBytes td * i) (redBytes td)) (le data (redBytes td * i) (redBytes td))))).mem ∧
    (State.hopStep die op td key first s (homePlaces node a data.length) data u i).ledger = u.ledger := by
  have inside : redBytes td * i + redBytes td ≤ data.length := by
    rw [← Nat.mul_succ]
    exact (Nat.mul_le_mul_left _ hi).trans (Nat.mul_div_le _ _)
  unfold State.hopStep
  dsimp only
  rw [take_drop_homePlaces node a inside, map_readByte_homePlaces]
  exact State.foldl_engineWrite_homePlaces die node _ u _ (by rw [length_bytesOf])

theorem State.ledger_hopUnit (node a : Nat) (data : List Byte) :
    (s.hopUnit die op td key first (homePlaces node a data.length) data).ledger = s.ledger := by
  rw [State.hopUnit_eq]
  exact List.foldlRecOn _ _ (motive := fun u : State => u.ledger = s.ledger) rfl fun u hu i hi =>
    (State.hopStep_spec die op td key first s node a data u (List.mem_range.mp hi)).2.trans hu

/-- A unit over a run replaces its elements there, each by the hop with what arrives, and no byte beside them. -/
theorem State.hopUnit_spec (node a : Nat) (data : List Byte) :
    let t := s.hopUnit die op td key first (homePlaces node a data.length) data
    let n := redBytes td
    (∀ i < data.length / n, t.readNat (a + n * i) n =
      hopElem op td key (first + i) (s.readNat (a + n * i) n) (le data (n * i) n) % 256 ^ n) ∧
    ∀ b, b < a ∨ a + n * (data.length / n) ≤ b → t.readByte b = s.readByte b := by
  intro t n
  exact State.readNat_foldl_elements s (data.length / n) fun u i hi =>
    (State.hopStep_spec die op td key first s node a data u hi).1

end

/-! ### The accumulators of a root (R202, R337) -/

/-- One element's contribution: a number joins the sum, anything else marks it. -/
def RedAcc.add (a : RedAcc) (e : Nat × Option Int) : RedAcc :=
  match e.2 with
  | some q => { a with sums := Tbl.write 0 a.sums e.1 (Tbl.read 0 a.sums e.1 + q) }
  | none => { a with specials := Tbl.write 0 a.specials e.1 1 }

theorem RedAcc.sums_add (a : RedAcc) (e : Nat × Option Int) (i : Nat) :
    Tbl.read 0 (a.add e).sums i = Tbl.read 0 a.sums i + if i = e.1 then e.2.getD 0 else 0 := by
  obtain ⟨j, _ | q⟩ := e
  · simp [RedAcc.add]
  · simp only [RedAcc.add, Tbl.read_write]
    split <;> simp [*]

theorem RedAcc.specials_add (a : RedAcc) (e : Nat × Option Int) (i : Nat) :
    (Tbl.read 0 (a.add e).specials i == 1) = (Tbl.read 0 a.specials i == 1 || decide (i = e.1) && e.2.isNone) := by
  obtain ⟨j, _ | q⟩ := e
  · simp only [RedAcc.add, Tbl.read_write]
    split <;> simp [*]
  · simp [RedAcc.add]

theorem RedAcc.count_add (a : RedAcc) (e : Nat × Option Int) : (a.add e).count = a.count := by
  obtain ⟨j, _ | q⟩ := e <;> rfl

/-- The contributions of the first elements. -/
def RedAcc.addAll (a : RedAcc) (g : Nat → Option Int) (cnt : Nat) : RedAcc :=
  ((List.range cnt).map fun i => (i, g i)).foldl RedAcc.add a

theorem RedAcc.addAll_succ (a : RedAcc) (g : Nat → Option Int) (cnt : Nat) :
    a.addAll g (cnt + 1) = (a.addAll g cnt).add (cnt, g cnt) := by
  simp [RedAcc.addAll, List.range_succ]

theorem RedAcc.addAll_spec (a : RedAcc) (g : Nat → Option Int) (cnt : Nat) :
    (a.addAll g cnt).count = a.count ∧ ∀ i,
      Tbl.read 0 (a.addAll g cnt).sums i = Tbl.read 0 a.sums i + (if i < cnt then (g i).getD 0 else 0) ∧
      (Tbl.read 0 (a.addAll g cnt).specials i == 1) = (Tbl.read 0 a.specials i == 1 || decide (i < cnt) && (g i).isNone) := by
  induction cnt with
  | zero => exact ⟨rfl, fun i => by simp [RedAcc.addAll]⟩
  | succ k ih =>
    obtain ⟨count, elems⟩ := ih
    rw [RedAcc.addAll_succ]
    refine ⟨(RedAcc.count_add ..).trans count, fun i => ?_⟩
    rw [RedAcc.sums_add, RedAcc.specials_add, (elems i).1, (elems i).2]
    rcases lt_trichotomy i k with h | rfl | h
    · simp [h, h.ne, Nat.lt_succ_of_lt h]
    · simp
    · simp [h.ne', Nat.not_lt.mpr h.le, Nat.not_lt.mpr (Nat.succ_le_of_lt h)]

/-! ### A unit of ROOTQ (R202, R337) -/

section
variable (s : State) (die td : Nat) (key : Word) (acc : Nat) (data : List Byte)

/-- What element `i` of a unit contributes, and what a root delivers of it. -/
def contribution (i : Nat) : Option Int :=
  rootElem td (key.extractLsb' 16 8).toInt (le data (redBytes td * i) (redBytes td))
def RedAcc.result (a : RedAcc) (i : Nat) : Nat :=
  rootResult td (key.extractLsb' 16 8).toInt (Tbl.read 0 a.sums i) (Tbl.read 0 a.specials i == 1)

/-- The accumulators of a unit once a contribution of another node has joined them. -/
def State.joined : RedAcc :=
  let a := (s.reds.read {} acc).addAll (contribution td key data) (data.length / redBytes td)
  { a with count := a.count + 1, remotes := a.remotes + 1 }

/-- The bytes that a root delivers from its accumulators. -/
def RedAcc.delivery (a : RedAcc) (cnt : Nat) : List Byte :=
  (List.range cnt).flatMap fun i => bytesOf (redBytes td) (a.result td key i)

/-- A contribution that is not the last waits in the accumulators. -/
theorem State.rootUnit_waits {dst : List Phys} (more : (s.joined td key acc data).count < field key.toNat 0 12) :
    s.rootUnit die td key acc dst data none = { s with reds := s.reds.put acc { s.joined td key acc data with
      places := if dst.any (·.node != s.node) then dst else [] } } :=
  if_pos more

/-- A contribution counts once, and joins the sums and the marks of its elements. -/
theorem State.joined_spec :
    (s.joined td key acc data).count = (s.reds.read {} acc).count + 1 ∧ ∀ i < data.length / redBytes td,
      Tbl.read 0 (s.joined td key acc data).sums i =
        Tbl.read 0 (s.reds.read {} acc).sums i + (contribution td key data i).getD 0 ∧
      (Tbl.read 0 (s.joined td key acc data).specials i == 1) =
        (Tbl.read 0 (s.reds.read {} acc).specials i == 1 || (contribution td key data i).isNone) := by
  obtain ⟨count, elems⟩ := RedAcc.addAll_spec (s.reds.read {} acc) (contribution td key data) (data.length / redBytes td)
  refine ⟨congrArg (· + 1) count, fun i hi => ?_⟩
  obtain ⟨sums, specials⟩ := elems i
  rw [if_pos hi] at sums
  rw [decide_eq_true hi, Bool.true_and] at specials
  exact ⟨sums, specials⟩

/-- Answers to other nodes leave everything but what was sent; the last of them stands there last. -/
theorem State.foldl_send (n : Nat) :
    ((List.range n).foldl (fun u _ => u.send .remoteDone) s).mem = s.mem ∧
    ((List.range n).foldl (fun u _ => u.send .remoteDone) s).reds = s.reds ∧
    ((List.range n).foldl (fun u _ => u.send .remoteDone) s).redSeen = s.redSeen ∧
    (0 < n → ((List.range n).foldl (fun u _ => u.send .remoteDone) s).sent.getLast? = some .remoteDone) := by
  refine ⟨foldl_keeps State.mem fun _ _ => rfl, foldl_keeps State.reds fun _ _ => rfl,
    foldl_keeps State.redSeen fun _ _ => rfl, fun some => ?_⟩
  obtain ⟨k, rfl⟩ := Nat.exists_eq_succ_of_ne_zero some.ne'
  rw [List.range_succ, List.foldl_append]
  simp [State.send]

/-- The delivery of a root over a run: each element in its place, and no byte beside them. -/
theorem State.deliverRoot_spec (a : RedAcc) (node base : Nat) :
    let t := s.deliverRoot die (homePlaces node base data.length) (a.delivery td key (data.length / redBytes td))
    let n := redBytes td
    t.ledger = s.ledger ∧ (∀ i < data.length / n, t.readNat (base + n * i) n = a.result td key i % 256 ^ n) ∧
    ∀ b, b < base ∨ base + n * (data.length / n) ≤ b → t.readByte b = s.readByte b := by
  intro t n
  have short : (a.delivery td key (data.length / n)).length ≤ data.length := by
    simpa [RedAcc.delivery, List.length_flatMap, Nat.mul_comm] using Nat.mul_div_le data.length n
  obtain ⟨mem, ledger⟩ := State.foldl_engineWrite_homePlaces die node _ s base short
  have written : t.mem = ((List.range (data.length / n)).foldl (fun u i =>
      u.writeBytes (base + n * i) (bytesOf n (a.result td key i))) s).mem :=
    mem.trans (by rw [RedAcc.delivery, State.writeBytes_elements])
  obtain ⟨elems, outside⟩ := State.readNat_foldl_elements (val := a.result td key) s (data.length / n)
    (step := fun u i => u.writeBytes (base + n * i) (bytesOf n (a.result td key i))) fun _ _ _ => rfl
  exact ⟨ledger, fun i hi => (State.readNat_of_mem written ..).trans (elems i hi),
    fun b hb => (State.readByte_of_mem written b).trans (outside b hb)⟩

/-- The last contribution has the sums delivered and the accumulators cleared, and its node answered with the others. -/
theorem State.rootUnit_delivers {dst : List Phys} (last : ¬(s.joined td key acc data).count < field key.toNat 0 12) :
    s.rootUnit die td key acc dst data none =
      let u := s.deliverRoot die dst ((s.joined td key acc data).delivery td key (data.length / redBytes td))
      (List.range (s.joined td key acc data).remotes).foldl (fun u _ => u.send .remoteDone)
        { u with reds := u.reds.del acc } := by
  unfold RedAcc.delivery
  rw [← List.flatMap_map (f := fun i => (i, contribution td key data i)) (g := fun e => bytesOf (redBytes td)
    ((s.joined td key acc data).result td key e.1))]
  exact if_neg last

/-- After the last contribution over a run the accumulators are gone, the answers are sent, each element stands in its place,
and no byte beside them has changed. -/
theorem State.rootUnit_delivers_spec {node base : Nat} (last : ¬(s.joined td key acc data).count < field key.toNat 0 12) :
    let t := s.rootUnit die td key acc (homePlaces node base data.length) data none
    let n := redBytes td
    t.redSeen = s.redSeen ∧ t.reds.get? acc = none ∧ t.sent.getLast? = some .remoteDone ∧
    (∀ i < data.length / n, t.readNat (base + n * i) n = (s.joined td key acc data).result td key i % 256 ^ n) ∧
    ∀ b, b < base ∨ base + n * (data.length / n) ≤ b → t.readByte b = s.readByte b := by
  intro t n
  obtain ⟨ledger, elems, outside⟩ := s.deliverRoot_spec die td key data (s.joined td key acc data) node base
  obtain ⟨u, delivered⟩ : ∃ u, u = s.deliverRoot die (homePlaces node base data.length)
    ((s.joined td key acc data).delivery td key (data.length / n)) := ⟨_, rfl⟩
  have answered : t = (List.range (s.joined td key acc data).remotes).foldl (fun u _ => u.send .remoteDone)
      { u with reds := u.reds.del acc } := delivered ▸ State.rootUnit_delivers s die td key acc data last
  rw [← delivered] at ledger elems outside
  obtain ⟨mem, reds, redSeen, sent⟩ := State.foldl_send { u with reds := u.reds.del acc } (s.joined td key acc data).remotes
  rw [← answered] at mem reds redSeen sent
  refine ⟨redSeen.trans (congrArg (·.2.2) ledger), ?_, sent (Nat.succ_pos _),
    fun i hi => (State.readNat_of_mem (t := u) mem ..).trans (elems i hi),
    fun b hb => (State.readByte_of_mem (t := u) mem b).trans (outside b hb)⟩
  rw [reds, Tbl.get?_del, if_pos rfl]

end

/-! ### A unit of another node (R337) -/

/-- A new unit is remembered, and joins what stands at its destination or in the accumulators of its root. -/
def State.takeUnit (s : State) (q : ReduceUnit) : State :=
  let s1 := s.remember (engineNo q.node q.core) q.transfer q.unit
  if q.rootq then s1.rootUnit 12 q.elem.toNat q.key (Claims.unitAcc q) (homePlaces s.node q.dest q.data.length) q.data none
  else (s1.hopUnit 12 q.op q.elem.toNat q.key q.firstElem (homePlaces s.node q.dest q.data.length) q.data).send .remoteDone

theorem State.mem_redSeen_remember (s : State) (e t u : Nat) : (e, t, u) ∈ (s.remember e t u).redSeen := by
  simp [State.remember]

theorem any_homePlaces (node a n : Nat) (f : Nat → Bool) :
    ((homePlaces node a n).any fun y => f y.addr) = true ↔ ∃ i < n, f (a + i) = true := by
  simp [homePlaces]

section
variable {s : State} {q : ReduceUnit} (up : s.domainUp = true) (elem : q.elem.toNat ∈ [0, 5, 6, 10, 12])
  (op : q.op ∈ [0, 4, 5])
include up elem op

/-- What becomes of a unit whose mode and type were checked where it was issued: its bytes, the duplicate filter and errors
there decide in turn. -/
theorem reduceUnitArrival_remote : exec (.reduceUnitArrival (.remote q)) s =
    if (homePlaces s.node q.dest q.data.length).any fun y => (s.tierOf y.addr).isNone then .next (s.send .remoteDenied)
    else match s.seen (engineNo q.node q.core) q.transfer q.unit with
      | .dup => .next (s.send .remoteDone)
      | .old => .next (s.send .remoteReplay)
      | .new => if (homePlaces s.node q.dest q.data.length).any fun y => s.poisoned y.addr then .next (s.send .remotePoison)
        else .next (s.takeUnit q) := by
  have runs : ¬(!(q.elem.toNat = 0 || q.elem.toNat = 5 || q.elem.toNat = 6 || q.elem.toNat = 10 || q.elem.toNat = 12) ||
      !(q.op = 0 || q.op = 4 || q.op = 5) || !s.domainUp) = true := by
    simp only [List.mem_cons, List.not_mem_nil, or_false] at elem op
    rcases elem with h | h | h | h | h <;> rcases op with g | g | g <;> simp [up, h, g]
  refine (if_neg runs).trans (if_congr Iff.rfl rfl ?_)
  cases s.seen (engineNo q.node q.core) q.transfer q.unit with
  | dup => rfl
  | old => rfl
  | new =>
    refine if_congr Iff.rfl rfl ?_
    unfold State.takeUnit
    cases q.rootq <;> rfl

/-- A unit whose bytes do not all lie in memory of this F7 is denied. -/
theorem reduceUnitArrival_denied (astray : ¬Claims.UnitLies s q) :
    exec (.reduceUnitArrival (.remote q)) s = .next (s.send .remoteDenied) := by
  refine (reduceUnitArrival_remote up elem op).trans (if_pos ((any_homePlaces _ _ _ fun b => (s.tierOf b).isNone).mpr ?_))
  simpa [Claims.UnitLies] using astray

variable (lies : Claims.UnitLies s q)
include lies

/-- A unit that lies in memory of this F7: the duplicate filter, then errors there, decide. -/
theorem reduceUnitArrival_lies : exec (.reduceUnitArrival (.remote q)) s =
    match s.seen (engineNo q.node q.core) q.transfer q.unit with
    | .dup => .next (s.send .remoteDone)
    | .old => .next (s.send .remoteReplay)
    | .new => if (homePlaces s.node q.dest q.data.length).any fun y => s.poisoned y.addr then .next (s.send .remotePoison)
      else .next (s.takeUnit q) := by
  refine (reduceUnitArrival_remote up elem op).trans (if_neg fun astray => ?_)
  obtain ⟨i, hi, none⟩ := (any_homePlaces _ _ _ fun b => (s.tierOf b).isNone).mp astray
  simpa [Option.isNone_iff_eq_none.mp none] using lies i hi

theorem reduceUnitArrival_dup (seen : s.seen (engineNo q.node q.core) q.transfer q.unit = .dup) :
    exec (.reduceUnitArrival (.remote q)) s = .next (s.send .remoteDone) := by
  rw [reduceUnitArrival_lies up elem op lies, seen]

theorem reduceUnitArrival_old (seen : s.seen (engineNo q.node q.core) q.transfer q.unit = .old) :
    exec (.reduceUnitArrival (.remote q)) s = .next (s.send .remoteReplay) := by
  rw [reduceUnitArrival_lies up elem op lies, seen]

variable (fresh : s.seen (engineNo q.node q.core) q.transfer q.unit = .new)
include fresh

theorem reduceUnitArrival_poison (bad : ∃ i < q.data.length, s.poisoned (q.dest + i) = true) :
    exec (.reduceUnitArrival (.remote q)) s = .next (s.send .remotePoison) := by
  rw [reduceUnitArrival_lies up elem op lies, fresh]
  exact if_pos ((any_homePlaces ..).mpr bad)

theorem reduceUnitArrival_taken (sound : ∀ i < q.data.length, s.poisoned (q.dest + i) = false) :
    exec (.reduceUnitArrival (.remote q)) s = .next (s.takeUnit q) := by
  rw [reduceUnitArrival_lies up elem op lies, fresh]
  refine if_neg fun bad => ?_
  obtain ⟨i, hi, poisoned⟩ := (any_homePlaces ..).mp bad
  simp [sound i hi] at poisoned

end

/-! ### Operations of the copy engine (R65, R329, R330, R335) -/

section
variable {s : State} {core : Nat} {o : CopyOp} (head : Claims.copyHead s core = some o)
include head

theorem copies_of_head : ∃ rest, (s.core core).copies = o :: rest := List.head?_eq_some_iff.mp head

theorem copyOperationStart_eq (idle : o.started = false) (live : o.cancelled = false) (now : o.startAt = none) :
    exec (.copyOperationStart core) s = .next (s.startCopy core o) := by
  obtain ⟨rest, copies⟩ := copies_of_head head
  show execCopyOperationStart core s = _
  simp [execCopyOperationStart, copies, idle, live, now]

theorem exchangeCopyStart_eq {e : DWord} (idle : o.started = false) (live : o.cancelled = false) (at' : o.startAt = some e)
    (past : e.toNat ≤ s.now.toNat) : exec (.exchangeCopyStart core) s = .next (s.startCopy core o) := by
  obtain ⟨rest, copies⟩ := copies_of_head head
  show execExchangeCopyStart core s = _
  simp [execExchangeCopyStart, copies, idle, live, at', BitVec.ult, past]

theorem copyComplete_cancelled (cancelled : o.cancelled = true) :
    exec (.copyComplete core) s = .next (s.abortCopy core { o with resume := none } false 4) := by
  obtain ⟨rest, copies⟩ := copies_of_head head
  show execCopyComplete core s = _
  simp [execCopyComplete, copies, cancelled]

variable (live : o.cancelled = false) (runs : o.mayRun s.now = true)
include live runs

/-- An operation that may run is driven. -/
theorem copyComplete_driven {t : State} (driven : s.driveCopy core o = some t) : exec (.copyComplete core) s = .next t := by
  obtain ⟨rest, copies⟩ := copies_of_head head
  show execCopyComplete core s = _
  simp [execCopyComplete, copies, live, runs, driven]

theorem reduceUnitArrival_own {r : BitVec 3 × BitVec 5 × Bool × Word} (free : o.resume = none) (reduce : o.reduce = some r)
    (left : o.unit < o.total) (served : r.2.2.1 = false ∨ s.mod.reduces = true) :
    exec (.reduceUnitArrival (.own core)) s = .next (s.ownUnit core o r) := by
  obtain ⟨rest, copies⟩ := copies_of_head head
  show execReduceUnitArrival (.own core) s = _
  rcases served with h | h <;> simp [execReduceUnitArrival, copies, reduce, runs, live, free, left, h]

end

theorem driveCopy_delivered {s : State} {core : Nat} {o : CopyOp} {r : BitVec 3 × BitVec 5 × Bool × Word}
    (reduce : o.reduce = some r) (free : o.resume = none) (done : o.total ≤ o.unit)
    (served : r.2.2.1 = false ∨ s.mod.reduces = true) (delivered : s.delivered o = true) :
    s.driveCopy core o = some (s.endCopy core o (copyWord o.unit false 0)) := by
  have left : ¬o.unit < o.total := Nat.not_lt.mpr done
  rcases served with h | h <;> simp [State.driveCopy, reduce, free, left, delivered, h]

/-! ### Operations of the Cupel engine (R135, R137, R141, R144, R152, R155) -/

section
variable {s : State} {core : Nat} {o : CupelOp} (head : Claims.cupelHead s core = some o)
include head

theorem cupel_of_head : ∃ rest, (s.core core).cupel = o :: rest := List.head?_eq_some_iff.mp head

theorem cupelComplete_cancelled (gone : o.cancelled = true ∨ s.bereft o = true) :
    exec (.cupelComplete core) s = .next (s.cancelHead core o) := by
  obtain ⟨rest, cupel⟩ := cupel_of_head head
  show execCupelComplete core s = _
  simp only [execCupelComplete, cupel]
  exact if_pos (by simpa using gone)

theorem cupelComplete_poisoned (live : o.cancelled = false) (fed : s.bereft o = false) (bad : o.bad = true) :
    exec (.cupelComplete core) s = .next ((s.retakeTile core o).poisonCupel core o 0) := by
  obtain ⟨rest, cupel⟩ := cupel_of_head head
  show execCupelComplete core s = _
  simp only [execCupelComplete, cupel]
  exact (if_neg (by simp [live, fed])).trans (if_pos bad)

theorem cupelComplete_driven (live : o.cancelled = false) (fed : s.bereft o = false) (good : o.bad = false)
    (started : o.started = true) (full : o.hunger = 0)
    (ready : o.since = none ∨ (o.remote = true ∧ overdue o.since true s.now = false)) :
    exec (.cupelComplete core) s = .next ((s.retakeTile core o).driveCupel core o) := by
  obtain ⟨rest, cupel⟩ := cupel_of_head head
  have now : (s.retakeTile core o).now = s.now := by
    unfold State.retakeTile
    split
    · split <;> rfl
    · rfl
  show execCupelComplete core s = _
  simp only [execCupelComplete, cupel]
  refine (if_neg (by simp [live, fed])).trans ((if_neg (by simp [good])).trans (if_neg ?_))
  rcases ready with h | ⟨h, g⟩
  · simp [started, full, h]
  · simp [started, full, h, g, now]

variable (idle : o.started = false) (free : o.held = false) (live : o.cancelled = false)
include idle free live

/-- An operation that is refused ends before it has read anything. -/
theorem cupelOperationStart_refused {w : DWord} (refused : (s.retakeTile core o).cupelRefusal core o = some w) :
    exec (.cupelOperationStart core) s = .next ((s.retakeTile core o).endCupel core o w) := by
  obtain ⟨rest, cupel⟩ := cupel_of_head head
  show execCupelOperationStart core s = _
  simp [execCupelOperationStart, cupel, idle, free, live, refused]

variable (taken : (s.retakeTile core o).cupelRefusal core o = none)
include taken

theorem cupelOperationStart_once (once : o.isLoop = false) :
    exec (.cupelOperationStart core) s = .next ((s.retakeTile core o).setCupelHead core { o with started := true }) := by
  obtain ⟨rest, cupel⟩ := cupel_of_head head
  show execCupelOperationStart core s = _
  simp [execCupelOperationStart, cupel, idle, free, live, taken, once]

variable (loop : o.isLoop = true)
include loop

theorem cupelOperationStart_poisoned (bad : (s.retakeTile core o).loopRows o = none) :
    exec (.cupelOperationStart core) s = .next ((s.retakeTile core o).poisonCupel core o 0) := by
  obtain ⟨rest, cupel⟩ := cupel_of_head head
  show execCupelOperationStart core s = _
  simp [execCupelOperationStart, cupel, idle, free, live, taken, loop, bad]

/-- A loop has its rows, and one that zeroes takes the tile. -/
theorem cupelOperationStart_loop {rows : List Byte} (rest : (s.retakeTile core o).loopRows o = some rows) :
    let v := (s.retakeTile core o).setCupelHead core { o with started := true, rows := rows }
    exec (.cupelOperationStart core) s = .next ((if blockZero o.block && Claims.topkKind o.kind == false then
        v.updCore core fun k =>
          { k with tile := [], tileOwner := some (o.crew, o.team), tileInt := intPair (blockPair o.block) }
      else v).feedCupel core) := by
  obtain ⟨_, cupel⟩ := cupel_of_head head
  show execCupelOperationStart core s = _
  simp only [execCupelOperationStart, cupel, idle, free, live, taken, loop, rest]
  cases o.kind <;> rfl

end

end Sys2Proof.Machine

namespace Sys2Proof.Claims

open Sys2Proof Sys2Proof.Machine

/-- A unit of HOPQ that is new: its elements are hopped on in memory, it is remembered, and its node is answered (R337). -/
theorem becomes_hopUnit {s : State} {q : ReduceUnit} (new : UnitNew s q) (hop : q.rootq = false) :
    Becomes (.reduceUnitArrival (.remote q)) s fun t =>
      let n := redBytes q.elem.toNat
      t.sent = s.sent ++ [.remoteDone] ∧ (q.node * 65536 + q.core, q.transfer, q.unit) ∈ t.redSeen ∧
      (∀ i < unitCount q, t.readNat (q.dest + n * i) n = hopElem q.op q.elem.toNat q.key (q.firstElem + i)
        (s.readNat (q.dest + n * i) n) (unitElem q i) % 256 ^ n) ∧
      ∀ a, a < q.dest ∨ q.dest + n * unitCount q ≤ a → t.readByte a = s.readByte a := by
  obtain ⟨up, elem, op, lies, fresh, sound⟩ := new
  have seen := s.mem_redSeen_remember (engineNo q.node q.core) q.transfer q.unit
  have kept := State.ledger_hopUnit 12 q.op q.elem.toNat q.key q.firstElem
    (s.remember (engineNo q.node q.core) q.transfer q.unit) s.node q.dest q.data
  obtain ⟨elems, outside⟩ := State.hopUnit_spec 12 q.op q.elem.toNat q.key q.firstElem
    (s.remember (engineNo q.node q.core) q.transfer q.unit) s.node q.dest q.data
  refine becomes_of (reduceUnitArrival_taken up elem op lies fresh sound) ?_
  rw [State.takeUnit, hop]
  refine ⟨congrArg (· ++ _) (congrArg (·.1) kept), ?_, elems, outside⟩
  exact (congrArg (·.2.2) kept : State.redSeen _ = _) ▸ seen

/-- A unit of ROOTQ that is new: its contribution waits with its root, or is the last, and the sums are delivered (R337). -/
theorem becomes_rootUnit {s : State} {q : ReduceUnit} (new : UnitNew s q) (root : q.rootq = true) :
    Becomes (.reduceUnitArrival (.remote q)) s fun t =>
      let n := redBytes q.elem.toNat
      let old := s.reds.read {} (unitAcc q)
      let sum (i : Nat) : Int := Tbl.read 0 old.sums i + (rootElem q.elem.toNat (unitScale q) (unitElem q i)).getD 0
      let special (i : Nat) : Bool :=
        Tbl.read 0 old.specials i == 1 || (rootElem q.elem.toNat (unitScale q) (unitElem q i)).isNone
      (q.node * 65536 + q.core, q.transfer, q.unit) ∈ t.redSeen ∧
      if old.count + 1 < q.key.toNat % 4096 then
        t.sent = s.sent ∧ (∀ a, t.readByte a = s.readByte a) ∧ ∃ new, t.reds.get? (unitAcc q) = some new ∧
          new.count = old.count + 1 ∧
          ∀ i < unitCount q, Tbl.read 0 new.sums i = sum i ∧ (Tbl.read 0 new.specials i == 1) = special i
      else
        t.reds.get? (unitAcc q) = none ∧ t.sent.getLast? = some .remoteDone ∧
          (∀ i < unitCount q, t.readNat (q.dest + n * i) n =
            rootResult q.elem.toNat (unitScale q) (sum i) (special i) % 256 ^ n) ∧
          ∀ a, a < q.dest ∨ q.dest + n * unitCount q ≤ a → t.readByte a = s.readByte a := by
  obtain ⟨up, elem, op, lies, fresh, sound⟩ := new
  refine becomes_of (reduceUnitArrival_taken up elem op lies fresh sound) ?_
  have seen := s.mem_redSeen_remember (engineNo q.node q.core) q.transfer q.unit
  rw [State.takeUnit, root]
  generalize hs1 : s.remember (engineNo q.node q.core) q.transfer q.unit = s1 at seen
  have sent : s1.sent = s.sent := by rw [← hs1]; rfl
  have reds : s1.reds = s.reds := by rw [← hs1]; rfl
  have mem : s1.mem = s.mem := by rw [← hs1]; rfl
  obtain ⟨count, elems⟩ := s1.joined_spec q.elem.toNat q.key (unitAcc q) q.data
  rw [reds] at count elems
  have number : field q.key.toNat 0 12 = q.key.toNat % 4096 := by simp [field]
  intro n old sum special
  rw [if_pos rfl]
  by_cases more : old.count + 1 < q.key.toNat % 4096
  · rw [if_pos more, State.rootUnit_waits _ _ _ _ _ _ (by rwa [count, number])]
    exact ⟨seen, sent, State.readByte_of_mem mem, _, Tbl.get?_put_same .., count, elems⟩
  · rw [if_neg more]
    obtain ⟨redSeen, gone, answered, delivered, outside⟩ := s1.rootUnit_delivers_spec 12 q.elem.toNat q.key (unitAcc q) q.data
      (node := s.node) (base := q.dest) (by rwa [count, number])
    refine ⟨redSeen ▸ seen, gone, answered, fun i hi => (delivered i hi).trans ?_,
      fun a ha => (outside a ha).trans (State.readByte_of_mem mem a)⟩
    rw [RedAcc.result, (elems i hi).1, (elems i hi).2]
    rfl

/-- Settles O60: the operations at the head of each engine, and the units of other nodes, of which HOPQ replaces elements in
memory and ROOTQ joins accumulators until the last contribution delivers them. -/
theorem engineEvents : Obligations.EngineEvents := by
  refine ⟨fun s core o head idle live => ⟨fun now => copyOperationStart_eq head idle live now,
      fun e at' past => exchangeCopyStart_eq head idle live at' past⟩,
    fun s core o head cancelled => copyComplete_cancelled head cancelled,
    fun s core o head live runs copy => copyComplete_driven head live runs (by simp only [State.driveCopy, copy]),
    fun s core o r head live runs free reduce left served => reduceUnitArrival_own head live runs free reduce left served,
    fun s core o r head live runs reduce free done served delivered =>
      copyComplete_driven head live runs (driveCopy_delivered reduce free done served delivered),
    fun s q up elem op => ⟨fun astray => reduceUnitArrival_denied up elem op astray, fun lies =>
      ⟨fun seen => reduceUnitArrival_dup up elem op lies seen, fun seen => reduceUnitArrival_old up elem op lies seen,
        fun fresh bad => reduceUnitArrival_poison up elem op lies fresh bad⟩⟩,
    fun s q new hop => becomes_hopUnit new hop, fun s q new root => becomes_rootUnit new root,
    fun s acc data a there places length => ?_, fun s core o head idle free live => ?_, fun s core o head => ?_⟩
  · show execReduceUnitArrival (.owner acc data) s = _
    simp [execReduceUnitArrival, there, places, length]
  · exact ⟨fun w refused => cupelOperationStart_refused head idle free live refused,
      fun taken once => cupelOperationStart_once head idle free live taken once,
      fun taken loop bad => cupelOperationStart_poisoned head idle free live taken loop bad,
      fun rows taken loop rest => cupelOperationStart_loop head idle free live taken loop rest⟩
  · exact ⟨fun gone => cupelComplete_cancelled head gone, fun live fed bad => cupelComplete_poisoned head live fed bad,
      fun live fed good started full ready => cupelComplete_driven head live fed good started full ready⟩

end Sys2Proof.Claims
end

section
/-! How an instruction ends once it goes on to its effect: complete, or with a trap of its own (R157, R176). -/

namespace Sys2Proof.Claims

open Sys2Proof Sys2Proof.Machine

variable {i : Instr} {oc : Exe → State → Option Cause} {body : Exe → State → Res State} {s u v : State} {x : Exe}
  {fin : State → State} {stop : Trap → State → State} {tr : Trap}

/-- It completes in the state that its effect leaves. -/
theorem Goes.exec_ok (run : exec i s = perform i oc body s) (goes : Goes i oc s x u) (ok : body x u = .ok v) :
    exec i s = .next (advance x v) := by
  obtain ⟨x0, s1, issuer, ready, rfl⟩ := goes
  exact run.trans (perform_go issuer ready ok)

/-- It traps in the state in which it went, and its effect is dropped. -/
theorem Goes.exec_trap (run : exec i s = perform i oc body s) (goes : Goes i oc s x u)
    (fails : body x u = .error (.trap tr)) :
    ∃ s1, u = setResult x .none s1 ∧ exec i s = .next (takeTrap x.p x.cl.path tr s1) := by
  obtain ⟨x0, s1, issuer, ready, rfl⟩ := goes
  exact ⟨s1, rfl, run.trans (perform_error issuer ready fails)⟩

/-- The fields that an instruction goes with are its own. -/
theorem parts_of_ready {x0 : Exe} {s1 : State} (issuer : s.issuer? i = some x0) (ready : prepare i oc x0 s = .go x s1) :
    x.parts = (partsOf i).getD {} := by
  rw [(prepare_go_view ready).1, refresh_parts]
  exact parts_of_issuer issuer

theorem Goes.parts (goes : Goes i oc s x u) : x.parts = (partsOf i).getD {} := by
  obtain ⟨x0, s1, issuer, ready, -⟩ := goes
  exact parts_of_ready issuer ready

theorem GoesMeet.parts (goes : GoesMeet i oc s x u fin stop) : x.parts = (partsOf i).getD {} := by
  obtain ⟨x0, s1, issuer, ready, -⟩ := goes
  exact parts_of_ready issuer ready

/-- A released meeting point is performed by the leading copy. -/
theorem performMeet_released {x0 : Exe} (issuer : s.issuer? i = some x0) (paired : x0.paired s = true)
    (free : released x0) :
    performMeet i oc body s = .next (performReleased i oc body x0 s) := by
  rw [performMeet, issuer]
  dsimp only
  rw [if_neg (by simp [paired]), if_pos (by simpa [released] using free)]

/-- A meeting point completes, in a pair for both copies. -/
theorem GoesMeet.exec_ok (run : exec i s = performMeet i oc body s) (goes : GoesMeet i oc s x u fin stop)
    (ok : body x u = .ok v) : exec i s = .next (fin v) := by
  obtain ⟨x0, s1, issuer, ready, rfl, ⟨alone, rfl, -⟩ | ⟨paired, free, rfl, -⟩⟩ := goes
  · exact run.trans ((performMeet_alone issuer alone).trans (perform_go issuer ready ok))
  · rw [run, performMeet_released issuer paired free, performReleased, ready]
    dsimp only
    rw [ok]

/-- A meeting point traps, in a pair in both copies. -/
theorem GoesMeet.exec_trap (run : exec i s = performMeet i oc body s) (goes : GoesMeet i oc s x u fin stop)
    (fails : body x u = .error (.trap tr)) : ∃ s1, u = setResult x .none s1 ∧ exec i s = .next (stop tr s1) := by
  obtain ⟨x0, s1, issuer, ready, rfl, ⟨alone, -, rfl⟩ | ⟨paired, free, -, rfl⟩⟩ := goes <;> refine ⟨s1, rfl, ?_⟩
  · exact run.trans ((performMeet_alone issuer alone).trans (perform_error issuer ready fails))
  · rw [run, performMeet_released issuer paired free, performReleased, ready]
    dsimp only
    rw [fails]
    rfl

end Sys2Proof.Claims
end

section
/-! The checks of the lanes of an access (R101, R157, R307): which lanes an access has, which of them fail, and the trap
of those that do. -/

namespace Sys2Proof.Machine

open Sys2Proof

/-! ### Masks and tables -/

@[simp] theorem Mask.lane_one {l k : Nat} : (Mask.one l).lane k = (decide (k < 1024) && decide (k = l)) := by
  rw [Mask.lane, Mask.one, BitVec.getLsbD_shiftLeft]
  rcases lt_trichotomy k l with h | rfl | h
  · simp [h, h.ne]
  · simp
  · have : k - l ≠ 0 := by omega
    simp [h.ne', this]

/-- The lanes of a list are those of its mask. -/
theorem Mask.lane_ofList {ls : List Nat} {k : Nat} (hk : k < 1024) : (Mask.ofList ls).lane k = decide (k ∈ ls) := by
  induction ls with
  | nil => simp [Mask.ofList, Mask.lane]
  | cons l ls ih =>
    have : (Mask.ofList (l :: ls)).lane k = ((Mask.ofList ls).lane k || (Mask.one l).lane k) := BitVec.getLsbD_or
    rw [this, ih, Mask.lane_one, Bool.eq_iff_iff]
    simp [hk, or_comm]

theorem Mask.lt_of_mem_lanes {m : Mask} {n l : Nat} (h : l ∈ m.lanes n) : l < 1024 :=
  BitVec.lt_of_getLsbD (List.mem_filter.mp h).2

theorem Mask.nodup_lanes (m : Mask) (n : Nat) : (m.lanes n).Nodup := List.nodup_range.filter _

/-- What a table holds at `k` once the values of a list are put, when all that are put there agree. -/
theorem Tbl.get?_foldl_put {α β : Type} (key : β → Nat) (val : β → α) {k : Nat} {c : α} (fs : List β) (t : Tbl α)
    (some' : (∃ f ∈ fs, key f = k) ∨ t.get? k = some c) (agree : ∀ f ∈ fs, key f = k → val f = c) :
    (fs.foldl (fun t f => t.put (key f) (val f)) t).get? k = some c := by
  induction fs generalizing t with
  | nil => simpa using some'
  | cons f fs ih =>
    refine ih _ ?_ fun g hg => agree g (List.mem_cons_of_mem _ hg)
    by_cases hf : key f = k
    · exact .inr (by rw [Tbl.get?_put, if_pos hf.symm, agree f List.mem_cons_self hf])
    · rw [Tbl.get?_put_other _ _ (Ne.symm hf)]
      refine some'.imp_left fun ⟨g, hg, hk⟩ => ⟨g, (List.mem_cons.mp hg).resolve_left ?_, hk⟩
      rintro rfl
      exact hf hk

/-! ### The lanes of an access -/

/-- A chaser accesses memory as lane 0, a team in its active lanes (R87). -/
def Exe.accessLanes (x : Exe) : List Nat := if x.ch then [0] else x.lanes

theorem Exe.nodup_lanes (x : Exe) : x.lanes.Nodup := Mask.nodup_lanes ..

theorem Exe.lt_of_mem_lanes {x : Exe} {l : Nat} (h : l ∈ x.lanes) : l < 1024 := Mask.lt_of_mem_lanes h

theorem Exe.nodup_accessLanes (x : Exe) : x.accessLanes.Nodup := by
  unfold Exe.accessLanes
  split
  · exact List.nodup_singleton 0
  · exact x.nodup_lanes

theorem Exe.lt_of_mem_accessLanes {x : Exe} {l : Nat} (h : l ∈ x.accessLanes) : l < 1024 := by
  unfold Exe.accessLanes at h
  split at h
  · simp_all
  · exact Exe.lt_of_mem_lanes h

theorem map_lane_map {f : Nat → LaneAddr} (h : ∀ l, (f l).lane = l) (ls : List Nat) :
    (ls.map f).map (·.lane) = ls := by
  rw [List.map_map]
  exact (List.map_congr_left fun l _ => h l).trans (List.map_id ls)

@[simp] theorem Exe.byWindow_lane (x : Exe) (s : State) (k : Access) (w : Window) (l : Nat) (o : Int) :
    (x.byWindow s k w l o).lane = l := rfl

theorem Exe.elemAccess_lane (x : Exe) (s : State) (k : Access) (l : Nat) : (x.elemAccess s k l).lane = l := by
  unfold Exe.elemAccess
  extract_lets
  split <;> exact Exe.byWindow_lane ..

theorem Exe.map_lane_byteAccess (x : Exe) (s : State) (k : Access) :
    (x.byteAccess s k).map (·.lane) = x.accessLanes := by
  unfold Exe.byteAccess Exe.accessLanes
  split
  · rfl
  · exact map_lane_map (fun _ => rfl) _

theorem Exe.map_lane_mwAccess (x : Exe) (s : State) (k : Access) : (x.mwAccess s k).map (·.lane) = x.accessLanes := by
  unfold Exe.mwAccess
  split
  · next elem =>
    have : x.ch = false := by simp_all
    rw [Exe.accessLanes, this, map_lane_map (x.elemAccess_lane s k)]
    rfl
  · exact x.map_lane_byteAccess s k

theorem Exe.map_lane_ptrAccess (x : Exe) (s : State) (k : Access) : (x.ptrAccess s k).map (·.lane) = x.accessLanes := by
  unfold Exe.ptrAccess Exe.accessLanes
  split
  · rfl
  · exact map_lane_map (fun _ => rfl) _

theorem Exe.map_lane_planeAccess (x : Exe) (s : State) : (x.planeAccess s).map (·.lane) = x.lanes :=
  map_lane_map (fun _ => rfl) _

end Sys2Proof.Machine

namespace Sys2Proof.Claims

open Sys2Proof Sys2Proof.Machine

/-! ### The elements that the lanes reach -/

/-- What the element of a lane keeps of its access. -/
theorem element_ok {x : Exe} {a : LaneAddr} {y : Phys} {e : Elem} (h : x.element a y = .ok e) :
    e.lane = a.lane ∧ e.addr = a.addr ∧ e.phys = y := by
  unfold Exe.element at h
  dsimp only at h
  repeat' split at h
  all_goals cases h
  all_goals exact ⟨rfl, rfl, rfl⟩

theorem mem_okLanes {as : List LaneAddr} {p : LaneAddr × Phys} : p ∈ okLanes as ↔ p.1 ∈ as ∧ p.1.res = .ok p.2 := by
  unfold okLanes
  rw [List.mem_filterMap]
  constructor
  · rintro ⟨a, ha, h⟩
    split at h
    · next y hy =>
      cases h
      exact ⟨ha, hy⟩
    · cases h
  · rintro ⟨ha, h⟩
    exact ⟨p.1, ha, by rw [h]⟩

theorem elemOf?_eq_some {x : Exe} {a : LaneAddr} {e : Elem} :
    elemOf? x a = some e ↔ ∃ y, a.res = .ok y ∧ x.element a y = .ok e := by
  unfold elemOf?
  constructor
  · intro h
    split at h
    · next y hy => exact ⟨y, hy, by cases hz : x.element a y <;> simp_all [Except.toOption]⟩
    · cases h
  · rintro ⟨y, hy, h⟩
    rw [hy]
    simp only [h, Except.toOption]

theorem mem_elemsOf {x : Exe} {as : List LaneAddr} {e : Elem} :
    e ∈ elemsOf x as ↔ ∃ a ∈ as, ∃ y, a.res = .ok y ∧ x.element a y = .ok e := by
  simp only [elemsOf, List.mem_filterMap, elemOf?_eq_some]

/-- The elements of the lanes are those of the statements. -/
theorem elements_fst (x : Exe) (as : List LaneAddr) : (x.elements as).1 = elemsOf x as := by
  rw [Exe.elements, elemsOf, okLanes, List.map_filterMap, List.filterMap_filterMap]
  refine List.filterMap_congr fun a _ => ?_
  rw [elemOf?]
  cases a.res <;> rfl

/-- The lanes that fail their own checks. -/
theorem mem_elements_snd {x : Exe} {as : List LaneAddr} {f : LaneFault} : f ∈ (x.elements as).2 ↔
    ∃ a ∈ as, ∃ y c, a.res = .ok y ∧ x.element a y = .error c ∧ f = ⟨a.lane, c, a.addr, y.gen⟩ := by
  rw [Exe.elements]
  simp only [List.mem_filterMap, List.mem_map]
  constructor
  · rintro ⟨r, ⟨p, hp, rfl⟩, h⟩
    obtain ⟨ha, hy⟩ := mem_okLanes.mp hp
    cases hc : x.element p.1 p.2 with
    | error c =>
      rw [hc] at h
      exact ⟨p.1, ha, p.2, c, hy, hc, (Option.some.inj h).symm⟩
    | ok e => rw [hc] at h; cases h
  · rintro ⟨a, ha, y, c, hy, hc, rfl⟩
    exact ⟨_, ⟨(a, y), mem_okLanes.mpr ⟨ha, hy⟩, rfl⟩, by simp only [hc]⟩

/-- When every access reaches an element, no lane fails its own checks. -/
theorem Reaches.elements_snd {x : Exe} {as : List LaneAddr} (reaches : Reaches x as) : (x.elements as).2 = [] := by
  refine List.eq_nil_iff_forall_not_mem.mpr fun f hf => ?_
  obtain ⟨a, ha, y, c, hy, hc, -⟩ := mem_elements_snd.mp hf
  obtain ⟨z, e, hz, he⟩ := reaches a ha
  obtain rfl : z = y := LaneRes.ok.inj (hz.symm.trans hy)
  rw [hc] at he
  cases he

theorem watched_ok {x : Exe} {u : State} {kind n : Nat} {as : List LaneAddr} (quiet : Unwatched x u kind n as) :
    x.watched u kind n as = .ok () := by
  rw [Exe.watched, quiet]

/-! ### Lanes that fail -/

/-- A list of faults is that of the lanes that fail a check, with their addresses. -/
def FaultsOf (check : LaneAddr → Phys → Option Cause) (as : List LaneAddr) (fs : List LaneFault) : Prop :=
  (∀ f ∈ fs, ∃ a ∈ as, f.lane = a.lane ∧ f.addr = a.addr ∧ laneCause check a = some f.cause) ∧
  ∀ a ∈ as, laneCause check a ≠ none → ∃ f ∈ fs, f.lane = a.lane

/-- The same of the lanes that translate and fail a check of their own. -/
def LateOf (check : LaneAddr → Phys → Option Cause) (as : List LaneAddr) (late : List LaneFault) : Prop :=
  (∀ f ∈ late, ∃ a ∈ as, ∃ y, a.res = .ok y ∧ f.lane = a.lane ∧ f.addr = a.addr ∧ check a y = some f.cause) ∧
  ∀ a ∈ as, ∀ y, a.res = .ok y → check a y ≠ none → ∃ f ∈ late, f.lane = a.lane

/-- The faults of translations. -/
def causeFault? (a : LaneAddr) : Option LaneFault :=
  match a.res with
  | .cause c g => some ⟨a.lane, c, a.addr, g⟩
  | _ => none

theorem causeFault?_eq_some {a : LaneAddr} {f : LaneFault} :
    causeFault? a = some f ↔ ∃ c g, a.res = .cause c g ∧ f = ⟨a.lane, c, a.addr, g⟩ := by
  unfold causeFault?
  cases a.res <;> simp [eq_comm]

/-- Late faults and those of the translations are all that fail. -/
theorem LateOf.faultsOf {check : LaneAddr → Phys → Option Cause} {as : List LaneAddr} {late : List LaneFault}
    (own : LateOf check as late) : FaultsOf check as (late ++ as.filterMap causeFault?) := by
  obtain ⟨sound, complete⟩ := own
  constructor
  · intro f hf
    rcases List.mem_append.mp hf with hf | hf
    · obtain ⟨a, ha, y, hy, lane, addr, cause⟩ := sound f hf
      exact ⟨a, ha, lane, addr, by rw [laneCause, hy]; exact cause⟩
    · obtain ⟨a, ha, h⟩ := List.mem_filterMap.mp hf
      obtain ⟨c, g, hc, rfl⟩ := causeFault?_eq_some.mp h
      exact ⟨a, ha, rfl, rfl, by rw [laneCause, hc]⟩
  · intro a ha fails
    cases hr : a.res with
    | ok y =>
      rw [laneCause, hr] at fails
      obtain ⟨f, hf, lane⟩ := complete a ha y hr fails
      exact ⟨f, List.mem_append_left _ hf, lane⟩
    | cause c g =>
      exact ⟨_, List.mem_append_right _ (List.mem_filterMap.mpr ⟨a, ha, causeFault?_eq_some.mpr ⟨c, g, hr, rfl⟩⟩), rfl⟩
    | migrating g => rw [laneCause, hr] at fails; exact absurd rfl fails
    | unreachable g => rw [laneCause, hr] at fails; exact absurd rfl fails

/-- The faults of a trap: the first of each lane, in lane order. -/
def sortedFaults (x : Exe) (fs : List LaneFault) : List LaneFault :=
  x.allLanes.filterMap fun l => fs.find? fun f => f.lane == l

theorem mem_of_mem_sortedFaults {x : Exe} {fs : List LaneFault} {f : LaneFault} (h : f ∈ sortedFaults x fs) : f ∈ fs := by
  obtain ⟨l, -, hf⟩ := List.mem_filterMap.mp h
  exact List.mem_of_find?_eq_some hf

theorem exists_sortedFaults {x : Exe} {fs : List LaneFault} {f : LaneFault} (hf : f ∈ fs)
    (hl : f.lane < 32 * x.launch.strands) :
    ∃ g ∈ sortedFaults x fs, g.lane = f.lane := by
  have found : (fs.find? fun g => g.lane == f.lane).isSome = true :=
    List.find?_isSome.mpr ⟨f, hf, beq_self_eq_true _⟩
  obtain ⟨g, hg⟩ := Option.isSome_iff_exists.mp found
  exact ⟨g, List.mem_filterMap.mpr ⟨f.lane, List.mem_range.mpr hl, hg⟩, by simpa using List.find?_some hg⟩

/-- The lanes that wait for a migrating leaf, and those that wait for a remote owner. -/
def migratingFault? (a : LaneAddr) : Option LaneFault :=
  match a.res with
  | .migrating g => some ⟨a.lane, .migrating, a.addr, g⟩
  | _ => none
def unreachableFault? (a : LaneAddr) : Option LaneFault :=
  match a.res with
  | .unreachable g => some ⟨a.lane, .remoteUnreachable, a.addr, g⟩
  | _ => none

/-- The checks of every lane, with the faults of its translation by name. -/
theorem passLanes_eq (x : Exe) (as : List LaneAddr) (late : List LaneFault) : x.passLanes as late =
    (let faults := late ++ as.filterMap causeFault?
    let mig := as.filterMap migratingFault?
    let unr := as.filterMap unreachableFault?
    if !mig.isEmpty then .error (.hold (.migrating (x.laneTrap (sortedFaults x (faults ++ mig)))))
    else if !unr.isEmpty then .error (.hold (.remote (x.laneTrap (sortedFaults x (faults ++ unr)))))
    else if !faults.isEmpty then .error (.trap (x.laneTrap (sortedFaults x faults)))
    else .ok ()) := rfl

/-- With no lane that waits, the lanes pass or trap by their faults alone. -/
theorem passLanes_of_noneWaits {x : Exe} {as : List LaneAddr} (late : List LaneFault) (none_waits : NoneWaits as) :
    x.passLanes as late = if !(late ++ as.filterMap causeFault?).isEmpty
      then .error (.trap (x.laneTrap (sortedFaults x (late ++ as.filterMap causeFault?)))) else .ok () := by
  have mig : as.filterMap migratingFault? = [] := List.filterMap_eq_nil_iff.mpr fun a ha => by
    rcases none_waits a ha with ⟨y, h⟩ | ⟨c, g, h⟩ <;> rw [migratingFault?, h]
  have unr : as.filterMap unreachableFault? = [] := List.filterMap_eq_nil_iff.mpr fun a ha => by
    rcases none_waits a ha with ⟨y, h⟩ | ⟨c, g, h⟩ <;> rw [unreachableFault?, h]
  rw [passLanes_eq, mig, unr]
  rfl

/-- Lanes that all translate pass, when none fails later. -/
theorem passLanes_ok {x : Exe} {as : List LaneAddr} (all : ∀ a ∈ as, ∃ y, a.res = .ok y) : x.passLanes as [] = .ok () := by
  have causes : as.filterMap causeFault? = [] := List.filterMap_eq_nil_iff.mpr fun a ha => by
    obtain ⟨y, h⟩ := all a ha
    rw [causeFault?, h]
  rw [passLanes_of_noneWaits [] fun a ha => .inl (all a ha), causes]
  rfl

theorem Reaches.passLanes {x : Exe} {as : List LaneAddr} (reaches : Reaches x as) : x.passLanes as [] = .ok () :=
  passLanes_ok fun a ha => (reaches a ha).imp fun _ ⟨_, hy, _⟩ => hy

/-- What the trap of the failing lanes of an access records of each of them. -/
theorem laneTrap_records {x : Exe} {check : LaneAddr → Phys → Option Cause} {as : List LaneAddr} {fs : List LaneFault}
    (faults : FaultsOf check as fs) (distinct : (as.map (·.lane)).Nodup) (low : ∀ a ∈ as, a.lane < 1024) :
    let tr := x.laneTrap (sortedFaults x fs)
    tr.pos = x.cl.pos ∧ tr.tpc = x.cl.hdr ∧ ∀ a ∈ as, a.lane < 32 * x.launch.strands →
      tr.mask.lane a.lane = (laneCause check a).isSome ∧
      ∀ c, laneCause check a = some c → tr.causes.get? a.lane = some c ∧ tr.addr.get? a.lane = some a.addr := by
  obtain ⟨sound, complete⟩ := faults
  refine ⟨rfl, rfl, fun a ha hl => ?_⟩
  have own : ∀ f ∈ sortedFaults x fs, f.lane = a.lane → laneCause check a = some f.cause ∧ f.addr = a.addr := by
    intro f hf lane
    obtain ⟨b, hb, lane', addr, cause⟩ := sound f (mem_of_mem_sortedFaults hf)
    obtain rfl : b = a := List.inj_on_of_nodup_map distinct hb ha (lane'.symm.trans lane)
    exact ⟨cause, addr⟩
  have there : laneCause check a ≠ none → ∃ f ∈ sortedFaults x fs, f.lane = a.lane := by
    intro fails
    obtain ⟨f, hf, lane⟩ := complete a ha fails
    obtain ⟨g, hg, same⟩ := exists_sortedFaults hf (lane ▸ hl)
    exact ⟨g, hg, same.trans lane⟩
  constructor
  · have : (x.laneTrap (sortedFaults x fs)).mask = Mask.ofList ((sortedFaults x fs).map (·.lane)) := rfl
    rw [this, Mask.lane_ofList (low a ha), Bool.eq_iff_iff, decide_eq_true_iff, Option.isSome_iff_ne_none, List.mem_map]
    exact ⟨fun ⟨f, hf, lane⟩ => by simp [(own f hf lane).1], there⟩
  · intro c hc
    have some_there := there (by simp [hc])
    exact ⟨Tbl.get?_foldl_put _ _ _ _ (.inl some_there) fun f hf lane => Option.some.inj ((own f hf lane).1.symm.trans hc),
      Tbl.get?_foldl_put _ _ _ _ (.inl some_there) fun f hf lane => (own f hf lane).2⟩

/-- The lanes of an access are distinct, and there are as many as a team has at most. -/
def LanesDistinct (as : List LaneAddr) : Prop := (as.map (·.lane)).Nodup ∧ ∀ a ∈ as, a.lane < 1024

theorem lanesDistinct_of_map {as : List LaneAddr} {ls : List Nat} (lanes : as.map (·.lane) = ls) (distinct : ls.Nodup)
    (low : ∀ l ∈ ls, l < 1024) : LanesDistinct as :=
  ⟨lanes ▸ distinct, fun _ ha => low _ (lanes ▸ List.mem_map_of_mem ha)⟩

theorem lanesDistinct_mwAccess (x : Exe) (s : State) (k : Access) : LanesDistinct (x.mwAccess s k) :=
  lanesDistinct_of_map (x.map_lane_mwAccess s k) x.nodup_accessLanes fun _ => Exe.lt_of_mem_accessLanes

theorem lanesDistinct_ptrAccess (x : Exe) (s : State) (k : Access) : LanesDistinct (x.ptrAccess s k) :=
  lanesDistinct_of_map (x.map_lane_ptrAccess s k) x.nodup_accessLanes fun _ => Exe.lt_of_mem_accessLanes

theorem lanesDistinct_planeOf (x : Exe) (s : State) : LanesDistinct (planeOf x s) :=
  lanesDistinct_of_map (x.map_lane_planeAccess s) x.nodup_lanes fun _ => Exe.lt_of_mem_lanes

/-- An instruction whose lanes are checked as `check` says traps the lanes that fail. -/
theorem failingLanesTrap {i : Instr} {s u : State} {x : Exe} {stop : Trap → State → State} {as : List LaneAddr}
    {late : List LaneFault} {check : LaneAddr → Phys → Option Cause} (own : LateOf check as late) (lanes : LanesDistinct as)
    (traps : ∀ tr, x.passLanes as late = .error (.trap tr) → ∃ s1, u = setResult x .none s1 ∧ exec i s = .next (stop tr s1)) :
    FailingLanesTrap i s x u stop as check := by
  rintro none_waits ⟨a, ha, fails, -⟩
  have faults := own.faultsOf
  obtain ⟨f, hf, -⟩ := faults.2 a ha fails
  have passes := (passLanes_of_noneWaits (x := x) late none_waits).trans
    (if_pos (by simpa [List.isEmpty_iff] using List.ne_nil_of_mem hf))
  obtain ⟨s1, before, after⟩ := traps _ passes
  exact ⟨_, s1, before, after, laneTrap_records faults lanes.1 lanes.2⟩

end Sys2Proof.Claims
end

section
/-! Loads, stores and atomics whose lanes name their locations: what each does once its lanes have been checked (R307). -/

namespace Sys2Proof.Claims

open Sys2Proof Sys2Proof.Machine

/-! ### The parts of an access -/

/-- What a load does with the elements that its lanes reach. -/
def loadElements (x : Exe) (es : List Elem) (u : State) : Res State :=
  let v := u.commitFills x.agent (es.map (·.phys))
  if es.any fun e => (e.bytes (x.loadAddr e.phys)).any (x.loadPoison v (bypasses false e.phys)) then .error .poison
  else .ok (loadInto x ((es.head?.map (·.regs)).getD 1) (es.map fun e => (e.lane, loadedValue x (lined x es v) e))
    (lined x es v))

/-- What a store does with the elements that its lanes reach. -/
def storeElements (x : Exe) (es : List Elem) (u : State) : State :=
  storeBytes x (sortLanes (((es.filter fun e => !blockScaled e.phys.fmt).map fun e => ⟨e.lane, e.phys, x.storeElem e, none⟩) ++
    (scaleAddrs es).flatMap (x.storeBlock es))) (u.commitFills x.agent (es.map (·.phys)))

/-- The lanes whose word does not take an atomic. -/
def atomFaults (n : Nat) (arg : Nat → AluOp × Nat) (as : List LaneAddr) : List LaneFault :=
  (okLanes as).filterMap fun p => (atomCheck (arg p.1.lane).1 n p.2).map fun c => ⟨p.1.lane, c, p.1.addr, p.2.gen⟩

/-- What an atomic does at the words that its lanes reach. -/
def atomWords (x : Exe) (n : Nat) (sg : Bool) (arg : Nat → AluOp × Nat) (as : List LaneAddr) (u : State) : Res State :=
  if x.signalsFull u (farAtoms as u) then .error (.hold .engine)
  else if (okLanes as).any fun p => (List.range (n / 8)).any fun i => (atomStart x as u).poisoned (p.2.addr + i) then
    .error .poison
  else
    let r := (okLanes as).foldl (fun (acc : State × List (Nat × Nat)) p =>
      let g := arg p.1.lane
      let r := acc.1.atomic x.team.cluster g.1 n sg p.2.addr g.2
      (r.2, acc.2 ++ [(p.1.lane, r.1)])) (atomStart x as u, [])
    .ok (loadInto x (n / 32) r.2 r.1)

/-- The watchpoints of an access: a plane operand is checked against none (R162). -/
def watchStep (x : Exe) (translated : Bool) (kind n : Nat) (as : List LaneAddr) (u : State) : Res Unit :=
  if translated then x.watched u kind n as else .ok ()

theorem watchStep_ok {x : Exe} {translated : Bool} {kind n : Nat} {as : List LaneAddr} {u : State}
    (quiet : translated = true → Unwatched x u kind n as) : watchStep x translated kind n as u = .ok () := by
  cases translated with
  | false => rfl
  | true => exact watched_ok (quiet rfl)

/-- A load checks its watchpoints, then every lane, and then reads. -/
theorem loadLanes_eq (x : Exe) (translated : Bool) (as : List LaneAddr) (u : State) : loadLanes x translated as u =
    (watchStep x translated 7 (moved x) as u).bind fun _ => (x.passLanes as (x.elements as).2).bind fun _ =>
      loadElements x (x.elements as).1 u := by
  cases translated <;> rfl

/-- A store does the same, and fails too where an entry or a block is left partly written (R103, R310). -/
theorem storeLanes_eq (x : Exe) (translated : Bool) (as : List LaneAddr) (u : State) : storeLanes x translated as u =
    (watchStep x translated 8 (moved x) as u).bind fun _ =>
      (x.passLanes as ((x.elements as).2 ++ partialLanes (x.elements as).1)).bind fun _ =>
        .ok (storeElements x (x.elements as).1 u) := by
  cases translated <;> rfl

/-- An atomic does the same with the words of its lanes. -/
theorem atomLanes_eq (x : Exe) (translated : Bool) (n : Nat) (sg : Bool) (arg : Nat → AluOp × Nat) (as : List LaneAddr)
    (u : State) : atomLanes x translated n sg arg as u =
    (watchStep x translated 9 (n / 8) as u).bind fun _ => (x.passLanes as (atomFaults n arg as)).bind fun _ =>
      atomWords x n sg arg as u := by
  cases translated <;> rfl

/-! ### The lanes that fail the checks of their elements -/

theorem lateOf_load (x : Exe) (as : List LaneAddr) : LateOf (loadCheck x) as (x.elements as).2 := by
  constructor
  · intro f hf
    obtain ⟨a, ha, y, c, hy, hc, rfl⟩ := mem_elements_snd.mp hf
    exact ⟨a, ha, y, hy, rfl, rfl, by rw [loadCheck, hc]⟩
  · intro a ha y hy fails
    cases hc : x.element a y with
    | ok e => rw [loadCheck, hc] at fails; exact absurd rfl fails
    | error c => exact ⟨_, mem_elements_snd.mpr ⟨a, ha, y, c, hy, hc, rfl⟩, rfl⟩

/-- A lane that leaves an entry or a block partly written is that of one of the elements. -/
theorem mem_partialLanes {es : List Elem} {f : LaneFault} (h : f ∈ partialLanes es) :
    ∃ e ∈ es, f.lane = e.lane ∧ f.addr = e.addr ∧ f.cause = .partialBlock := by
  obtain ⟨e, he, h⟩ := List.mem_filterMap.mp h
  dsimp only at h
  repeat' split at h
  all_goals cases h
  all_goals exact ⟨e, he, rfl, rfl, rfl⟩

theorem lateOf_store (x : Exe) (as : List LaneAddr) :
    LateOf (storeCheck x as) as ((x.elements as).2 ++ partialLanes (x.elements as).1) := by
  rw [elements_fst]
  constructor
  · intro f hf
    rcases List.mem_append.mp hf with hf | hf
    · obtain ⟨a, ha, y, c, hy, hc, rfl⟩ := mem_elements_snd.mp hf
      exact ⟨a, ha, y, hy, rfl, rfl, by rw [storeCheck, hc]⟩
    · obtain ⟨e, he, lane, addr, cause⟩ := mem_partialLanes hf
      obtain ⟨a, ha, y, hy, hc⟩ := mem_elemsOf.mp he
      obtain ⟨lane', addr', -⟩ := element_ok hc
      refine ⟨a, ha, y, hy, lane.trans lane', addr.trans addr', ?_⟩
      rw [storeCheck, hc, cause]
      exact if_pos (List.any_eq_true.mpr ⟨f, hf, by simp [lane, lane']⟩)
  · intro a ha y hy fails
    cases hc : x.element a y with
    | error c => exact ⟨_, List.mem_append_left _ (mem_elements_snd.mpr ⟨a, ha, y, c, hy, hc, rfl⟩), rfl⟩
    | ok e =>
      rw [storeCheck, hc] at fails
      obtain ⟨f, hf, lane⟩ := List.any_eq_true.mp (of_not_not fun none => fails (if_neg none))
      exact ⟨f, List.mem_append_right _ hf, by simpa using lane⟩

theorem lateOf_atom (n : Nat) (arg : Nat → AluOp × Nat) (as : List LaneAddr) :
    LateOf (wordCheck n arg) as (atomFaults n arg as) := by
  constructor
  · intro f hf
    obtain ⟨p, hp, h⟩ := List.mem_filterMap.mp hf
    obtain ⟨ha, hy⟩ := mem_okLanes.mp hp
    obtain ⟨c, hc, rfl⟩ := Option.map_eq_some_iff.mp h
    exact ⟨p.1, ha, p.2, hy, rfl, rfl, hc⟩
  · intro a ha y hy fails
    obtain ⟨c, hc⟩ := Option.ne_none_iff_exists'.mp fails
    exact ⟨_, List.mem_filterMap.mpr ⟨(a, y), mem_okLanes.mpr ⟨ha, hy⟩, Option.map_eq_some_iff.mpr ⟨c, hc, rfl⟩⟩, rfl⟩

/-! ### Faults of the lanes trap -/

section
variable {i : Instr} {oc : Exe → State → Option Cause} {body : Exe → State → Res State} {s u : State} {x : Exe}
  {translated : Bool} {as : List LaneAddr}

theorem loads_trap (run : exec i s = perform i oc body s) (goes : Goes i oc s x u)
    (does : body x u = loadLanes x translated as u) (lanes : LanesDistinct as)
    (quiet : translated = true → Unwatched x u 7 (moved x) as) :
    FailingLanesTrap i s x u (takeTrap x.p x.cl.path) as (loadCheck x) :=
  failingLanesTrap (lateOf_load x as) lanes fun tr fails => goes.exec_trap run (by
    rw [does, loadLanes_eq, watchStep_ok quiet, fails]
    rfl)

theorem stores_trap (run : exec i s = perform i oc body s) (goes : Goes i oc s x u)
    (does : body x u = storeLanes x translated as u) (lanes : LanesDistinct as)
    (quiet : translated = true → Unwatched x u 8 (moved x) as) :
    FailingLanesTrap i s x u (takeTrap x.p x.cl.path) as (storeCheck x as) :=
  failingLanesTrap (lateOf_store x as) lanes fun tr fails => goes.exec_trap run (by
    rw [does, storeLanes_eq, watchStep_ok quiet, fails]
    rfl)

theorem atoms_trap {fin : State → State} {stop : Trap → State → State} {n : Nat} {sg : Bool} {arg : Nat → AluOp × Nat}
    (run : exec i s = performMeet i oc body s) (goes : GoesMeet i oc s x u fin stop)
    (does : body x u = atomLanes x translated n sg arg as u) (lanes : LanesDistinct as)
    (quiet : translated = true → Unwatched x u 9 (n / 8) as) : FailingLanesTrap i s x u stop as (wordCheck n arg) :=
  failingLanesTrap (lateOf_atom n arg as) lanes fun tr fails => goes.exec_trap run (by
    rw [does, atomLanes_eq, watchStep_ok quiet, fails]
    rfl)

end

/-! ### What each instruction performs (R307, R317, R321) -/

section
variable (mw : MW) (r : RRR) (s : State)

theorem exec_ld : exec (.ld mw) s = perform (.ld mw) windowCheck (fun x u => loadLanes x true (x.mwAccess u .load) u) s := rfl

theorem exec_ldg : exec (.ldg r) s = perform (.ldg r) noCheck (fun x u => loadLanes x true (x.ptrAccess u .load) u) s := rfl

theorem exec_st : exec (.st mw) s = perform (.st mw) windowCheck (fun x u => storeLanes x true (x.mwAccess u .store) u) s :=
  rfl

theorem exec_stg : exec (.stg r) s = perform (.stg r) noCheck (fun x u => storeLanes x true (x.ptrAccess u .store) u) s := rfl

theorem exec_stp : exec (.stp r) s = perform (.stp r) noCheck (fun x u => storeLanes x false (planeOf x u) u) s := rfl

theorem exec_atom : exec (.atom mw) s = performMeet (.atom mw) windowCheck (fun x u =>
    atomLanes x true x.parts.atomBits x.parts.atomSigned (x.atomArg x.parts.fx) (x.mwAccess u .atomic) u) s := rfl

theorem exec_cas : exec (.cas mw) s = performMeet (.cas mw) windowCheck (fun x u =>
    atomLanes x true x.parts.atomBits false (x.casArg (x.parts.atomBits / 32)) (x.mwAccess u .atomic) u) s := rfl

theorem exec_cas128 : exec (.cas128 mw) s = performMeet (.cas128 mw) windowCheck (fun x u =>
    atomLanes x true 128 false (x.casArg 4) (x.mwAccess u .atomic) u) s := rfl

end

theorem exec_ldp_load {r : RRR} {s u : State} {x : Exe} (goes : Goes (.ldp r) noCheck s x u)
    (load : x.parts.fx = 0 ∨ x.parts.fx = 2) :
    exec (.ldp r) s = perform (.ldp r) noCheck (fun x u => loadLanes x false (planeOf x u) u) s := by
  have fields : x.parts = Parts.ofRRR r := goes.parts
  rw [fields] at load
  exact if_pos (by simpa using load)

theorem exec_ldp_atom {r : RRR} {s u : State} {x : Exe} {fin : State → State} {stop : Trap → State → State}
    (goes : GoesMeet (.ldp r) noCheck s x u fin stop) (atomic : x.parts.fx ≠ 0 ∧ x.parts.fx ≠ 2) :
    exec (.ldp r) s = performMeet (.ldp r) noCheck (fun x u =>
      if x.parts.fx = 7 then
        atomLanes x false x.parts.atomBits false (x.casArg (x.parts.atomBits / 32)) (planeOf x u) u
      else atomLanes x false x.parts.atomBits x.parts.atomSigned (x.atomArg (ldpAtomOp x.parts.fx)) (planeOf x u) u) s := by
  have fields : x.parts = Parts.ofRRR r := goes.parts
  rw [fields] at atomic
  exact if_neg (by simpa using atomic)

/-- Settles O24: the lanes that fail trap with their own causes and addresses, by the checks that come before any lane is
performed; an atomic's trap is that of its meeting point. -/
theorem laneFaultsTrap : Obligations.LaneFaultsTrap := by
  constructor
  · intro mw r s x u
    exact ⟨fun goes quiet => loads_trap (exec_ld ..) goes rfl (lanesDistinct_mwAccess ..) fun _ => quiet,
      fun goes quiet => loads_trap (exec_ldg ..) goes rfl (lanesDistinct_ptrAccess ..) fun _ => quiet,
      fun goes load => loads_trap (exec_ldp_load goes load) goes rfl (lanesDistinct_planeOf ..) nofun,
      fun goes quiet => stores_trap (exec_st ..) goes rfl (lanesDistinct_mwAccess ..) fun _ => quiet,
      fun goes quiet => stores_trap (exec_stg ..) goes rfl (lanesDistinct_ptrAccess ..) fun _ => quiet,
      fun goes => stores_trap (exec_stp ..) goes rfl (lanesDistinct_planeOf ..) nofun⟩
  · intro mw r s x u fin stop n
    refine ⟨fun goes quiet => atoms_trap (exec_atom ..) goes rfl (lanesDistinct_mwAccess ..) fun _ => quiet,
      fun goes quiet => atoms_trap (exec_cas ..) goes rfl (lanesDistinct_mwAccess ..) fun _ => quiet,
      fun goes quiet => atoms_trap (exec_cas128 ..) goes rfl (lanesDistinct_mwAccess ..) fun _ => quiet,
      fun goes cas => ?_, fun goes op => ?_⟩
    · exact atoms_trap (exec_ldp_atom goes (by simp [cas])) goes (if_pos cas) (lanesDistinct_planeOf ..) nofun
    · simp only [List.mem_cons, List.not_mem_nil, or_false, not_or] at op
      exact atoms_trap (exec_ldp_atom goes ⟨op.1, op.2.1⟩) goes (if_neg op.2.2) (lanesDistinct_planeOf ..) nofun

end Sys2Proof.Claims
end

section
/-! Loads whose lanes all reach an element (R93, R94, R102, R307 to R310). -/

namespace Sys2Proof.Machine

open Sys2Proof

/-- The signed reading of the low bits of a number. -/
theorem signed_eq_toInt (n x : Nat) : signed n x = (BitVec.ofNat n x).toInt := by
  rw [BitVec.toInt_eq_toNat_cond, BitVec.toNat_ofNat, signed]
  cases n with
  | zero => simp [Nat.mod_one]
  | succ n =>
    refine if_congr ?_ rfl (by push_cast; rfl)
    rw [Nat.add_sub_cancel, pow_succ]
    omega

/-! ### Places without a walk -/

/-- A place that no walk has filled commits nothing. -/
theorem State.commitFill_none (s : State) (g : Agent) {y : Phys} (h : y.fill = none) : s.commitFill g y = s := by
  rw [State.commitFill, h]

theorem State.commitFills_none (s : State) (g : Agent) {ys : List Phys} (h : ∀ y ∈ ys, y.fill = none) :
    s.commitFills g ys = s := by
  induction ys with
  | nil => rfl
  | cons y ys ih =>
    rw [State.commitFills, List.foldl_cons, s.commitFill_none g (h y List.mem_cons_self)]
    exact ih fun z hz => h z (List.mem_cons_of_mem _ hz)

/-- The place of a plane operand: a byte of the core's own tier 0, whose translation walks nothing (R93). -/
theorem Exe.byPlane_ok {x : Exe} {s : State} {l : Nat} {w : Word} {y : Phys} (h : (x.byPlane s l w).res = .ok y) :
    y.tier = 0 ∧ y.fmt = 0 ∧ y.pm = false ∧ y.fill = none := by
  unfold Exe.byPlane at h
  dsimp only at h
  repeat' split at h
  all_goals cases h
  exact ⟨rfl, rfl, rfl, rfl⟩

/-! ### A byte as a load reads it -/

/-- Outside a pair a load reads its cluster's bytes. -/
theorem Exe.loadByte_alone {x : Exe} {v : State} (alone : x.pair? v = none) (bypass : Bool) (a : Nat) :
    x.loadByte v bypass a = if bypass then v.bypassByte x.team.cluster a else v.clusterByte x.team.cluster a := by
  rw [Exe.loadByte, Exe.overlay, alone]

theorem Exe.loadNat_alone {x : Exe} {v : State} (alone : x.pair? v = none) (bypass : Bool) (a n : Nat) :
    x.loadNat v bypass a n = natOf ((List.range n).map fun k =>
      if bypass then v.bypassByte x.team.cluster (a + k) else v.clusterByte x.team.cluster (a + k)) :=
  congrArg natOf (List.map_congr_left fun _ _ => x.loadByte_alone alone bypass _)

end Sys2Proof.Machine

namespace Sys2Proof.Claims

open Sys2Proof Sys2Proof.Machine

/-! ### Values of elements -/

/-- Elements of pages that hold bytes: their value is that of their bytes, extended by TD. -/
theorem value_rawLike {e : Elem} {td raw : Nat} (scale : Nat) (bytes : rawLike e.phys.fmt = true) :
    e.value td raw scale = rawValue td raw := by
  unfold Elem.value rawValue
  dsimp only
  rw [if_pos bytes]
  by_cases s8 : td = 1
  · subst s8
    exact congrArg (fun n : Int => (n % 2 ^ 32).toNat) (signed_eq_toInt 8 raw)
  · rw [if_neg s8]
    by_cases s16 : td = 3
    · subst s16
      exact congrArg (fun n : Int => (n % 2 ^ 32).toNat) (signed_eq_toInt 16 raw)
    · rw [if_neg s16]
      split
      · exact absurd rfl s8
      · exact absurd rfl s16
      · rfl

/-! ### Loads complete -/

/-- Elements that are all clean are read, and the load is counted with their values. -/
theorem loadElements_ok {x : Exe} {u : State} {as : List LaneAddr} (clean : Unpoisoned x u as) :
    let v := lined x (elemsOf x as) (reachedState x u as)
    loadElements x (elemsOf x as) u = .ok (loadInto x (((elemsOf x as).head?.map (·.regs)).getD 1)
      ((elemsOf x as).map fun e => (e.lane, loadedValue x v e)) v) := by
  refine if_neg fun bad => ?_
  obtain ⟨e, he, bad⟩ := List.any_eq_true.mp bad
  obtain ⟨b, hb, bad⟩ := List.any_eq_true.mp bad
  obtain ⟨a, ha, hea⟩ := List.mem_filterMap.mp he
  rw [elemsOf, clean a ha e hea b hb] at bad
  cases bad

section
variable {i : Instr} {oc : Exe → State → Option Cause} {body : Exe → State → Res State} {s u : State} {x : Exe}
  {translated : Bool} {as : List LaneAddr}

theorem loads_complete (run : exec i s = perform i oc body s) (goes : Goes i oc s x u)
    (does : body x u = loadLanes x translated as u) (quiet : translated = true → Unwatched x u 7 (moved x) as)
    (reaches : Reaches x as) (clean : Unpoisoned x u as) : Loads i s x u as :=
  goes.exec_ok run (by
    rw [does, loadLanes_eq, watchStep_ok quiet, reaches.elements_snd, reaches.passLanes, elements_fst]
    exact loadElements_ok clean)

end

/-! ### Plane operands (R93, R308) -/

/-- The elements of plane operands lie in tier 0, on pages that hold bytes. -/
theorem planeOf_elements {x : Exe} {u : State} {e : Elem} (h : e ∈ elemsOf x (planeOf x u)) :
    e.phys.tier = 0 ∧ e.phys.fmt = 0 ∧ e.phys.pm = false ∧ e.phys.fill = none := by
  obtain ⟨a, ha, y, hy, he⟩ := mem_elemsOf.mp h
  obtain ⟨l, -, rfl⟩ := List.mem_map.mp ha
  rw [(element_ok he).2.2]
  exact Exe.byPlane_ok hy

/-- They are reached without a walk. -/
theorem reachedState_planeOf (x : Exe) (u : State) : reachedState x u (planeOf x u) = u := by
  refine State.commitFills_none _ _ fun y hy => ?_
  obtain ⟨e, he, rfl⟩ := List.mem_map.mp hy
  exact (planeOf_elements he).2.2.2

theorem bypasses_tier0 {store : Bool} {y : Phys} (h : y.tier = 0) : bypasses store y = true := by simp [bypasses, h]

/-- A load that bypasses L1 fills no line. -/
theorem lined_of_bypasses {x : Exe} {es : List Elem} (h : ∀ e ∈ es, bypasses false e.phys = true) (v : State) :
    lined x es v = v := by
  induction es with
  | nil => rfl
  | cons e es ih =>
    rw [lined, List.foldl_cons, if_pos (h e List.mem_cons_self)]
    exact ih fun f hf => h f (List.mem_cons_of_mem _ hf)

/-- The element of a plain access to a page that holds bytes. -/
theorem element_rawLike {x : Exe} {a : LaneAddr} {y : Phys} {e : Elem} (h : x.element a y = .ok e)
    (bytes : rawLike y.fmt = true)
    (plain : x.parts.fx ≠ 2) : e.size = rawSize x.parts.td ∧ e.regs = if wide x.parts.td then 2 else 1 := by
  unfold Exe.element at h
  dsimp only at h
  rw [if_pos bytes, if_neg plain, if_neg plain] at h
  split at h
  · cases h
  · cases h
    exact ⟨rfl, rfl⟩

theorem planeOf_element {x : Exe} {u : State} {e : Elem} (plain : x.parts.fx ≠ 2) (h : e ∈ elemsOf x (planeOf x u)) :
    e.size = rawSize x.parts.td ∧ e.regs = if wide x.parts.td then 2 else 1 := by
  have bytes : rawLike e.phys.fmt = true := by rw [(planeOf_elements h).2.1]; rfl
  obtain ⟨a, -, y, -, he⟩ := mem_elemsOf.mp h
  exact element_rawLike he ((element_ok he).2.2 ▸ bytes) plain

/-- What a plain load of a plane operand outside a pair delivers. -/
theorem loadedValue_planeOf {x : Exe} {u : State} {e : Elem} (plain : x.parts.fx ≠ 2) (alone : x.pair? u = none)
    (h : e ∈ elemsOf x (planeOf x u)) : loadedValue x u e = rawValue x.parts.td (natOf ((List.range (rawSize x.parts.td)).map
      fun k => u.bypassByte x.team.cluster (x.loadAddr e.phys + k))) := by
  obtain ⟨tier, fmt, -⟩ := planeOf_elements h
  obtain ⟨size, -⟩ := planeOf_element plain h
  have bytes : rawLike e.phys.fmt = true := by rw [fmt]; rfl
  have read := x.loadNat_alone alone true (x.loadAddr e.phys) (rawSize x.parts.td)
  simp only [if_true] at read
  rw [loadedValue, bypasses_tier0 tier, size, value_rawLike _ bytes, read]

/-- A plain load of plane operands outside a pair, with its bytes. -/
theorem loads_planeOf {i : Instr} {s u : State} {x : Exe} (plain : x.parts.fx ≠ 2) (alone : x.pair? u = none)
    (loads : Loads i s x u (planeOf x u)) :
    exec i s = .next (advance x (loadInto x (if wide x.parts.td then 2 else 1)
      ((planeOf x u).filterMap fun a => (elemOf? x a).map fun e => (a.lane, rawValue x.parts.td
        (natOf ((List.range (rawSize x.parts.td)).map fun k => u.bypassByte x.team.cluster (x.loadAddr e.phys + k))))) u)) := by
  have unlined : lined x (elemsOf x (planeOf x u)) u = u :=
    lined_of_bypasses (fun e he => bypasses_tier0 (planeOf_elements he).1) u
  have vals : ((planeOf x u).filterMap fun a => (elemOf? x a).map fun e => (a.lane, rawValue x.parts.td
      (natOf ((List.range (rawSize x.parts.td)).map fun k => u.bypassByte x.team.cluster (x.loadAddr e.phys + k))))) =
      (elemsOf x (planeOf x u)).map fun e => (e.lane, loadedValue x u e) := by
    rw [elemsOf, List.map_filterMap]
    refine List.filterMap_congr fun a ha => ?_
    cases he : elemOf? x a with
    | none => rfl
    | some e =>
      obtain ⟨y, hy, hye⟩ := elemOf?_eq_some.mp he
      have mem : e ∈ elemsOf x (planeOf x u) := List.mem_filterMap.mpr ⟨a, ha, he⟩
      simp only [Option.map_some, (element_ok hye).1, loadedValue_planeOf plain alone mem]
  rw [Loads, reachedState_planeOf, unlined] at loads
  rw [loads, vals]
  cases hes : elemsOf x (planeOf x u) with
  | nil => rfl
  | cons e es =>
    have mem : e ∈ elemsOf x (planeOf x u) := hes ▸ List.mem_cons_self
    simp only [List.head?_cons, Option.map_some, Option.getD_some, (planeOf_element plain mem).2]

/-- Settles O22: a load whose lanes pass their checks is counted with the values of their elements; what those values are
is that of their bytes. -/
theorem loadsComplete : Obligations.LoadsComplete := by
  refine ⟨fun mw r s x u => ⟨?_, ?_, ?_⟩, fun e td raw scale bytes _ => value_rawLike scale bytes, fun x v b a n alone => ?_,
    fun r s x u goes load reaches clean alone => ?_⟩
  · exact fun goes reaches quiet clean => loads_complete (exec_ld ..) goes rfl (fun _ => quiet) reaches clean
  · exact fun goes reaches quiet clean => loads_complete (exec_ldg ..) goes rfl (fun _ => quiet) reaches clean
  · exact fun goes load reaches clean => loads_complete (exec_ldp_load goes load) goes rfl nofun reaches clean
  · exact x.loadNat_alone alone b a n
  · have loads := loads_complete (exec_ldp_load goes (.inl load)) goes rfl nofun reaches clean
    rw [loads_planeOf (by simp [load]) alone loads]
    have regs : (if wide x.parts.td then 2 else 1) = if x.parts.td = 7 ∨ x.parts.td = 8 ∨ x.parts.td = 9 then 2 else 1 := by
      simp [wide, or_assoc]
    rw [← regs]
    exact congrArg (fun v => Host.Outcome.next (advance x (loadInto x _ _ v))) (reachedState_planeOf x u).symm

end Sys2Proof.Claims
end

section
/-! Stores whose lanes all reach an element (R103, R307, R310, R311): which bits they write, and the lanes that leave an
entry or a block partly written. -/

namespace Sys2Proof.Machine

open Sys2Proof

/-- Byte `k` of a number. -/
theorem getD_bytesOf (n x : Nat) {k : Nat} (h : k < n) : (bytesOf n x).getD k 0 = BitVec.ofNat 8 (x / 256 ^ k) := by
  have power : 2 ^ (8 * k) = 256 ^ k := by rw [pow_mul]; norm_num
  simp [bytesOf, h, Nat.shiftRight_eq_div_pow, power]

/-- The bits of a byte that a slot of `n` bits at `k` writes, and those that it leaves (R311). -/
theorem HomeByte.getLsbD_merge_slot (a n k b : Nat) (old : Byte) {i : Nat} (hi : i < 8) :
    (({ addr := a, bits := BitVec.ofNat 8 ((2 ^ n - 1) <<< k), val := BitVec.ofNat 8 (b <<< k) } : HomeByte).merge old).getLsbD
      i = if k ≤ i ∧ i < k + n then b.testBit (i - k) else old.getLsbD i := by
  have slot : (decide (k ≤ i) && decide (i - k < n)) = decide (k ≤ i ∧ i < k + n) := by
    rw [Bool.eq_iff_iff]
    simp only [Bool.and_eq_true, decide_eq_true_eq]
    omega
  simp only [HomeByte.merge, BitVec.getLsbD_or, BitVec.getLsbD_and, BitVec.getLsbD_not, BitVec.getLsbD_ofNat, hi, decide_true,
    Bool.true_and, Nat.testBit_shiftLeft, Nat.testBit_two_pow_sub_one, slot]
  by_cases inside : k ≤ i ∧ i < k + n
  · simp [inside]
  · simp [inside]

/-- A digit of a ternary byte as a store writes it. -/
theorem HomeByte.merge_digit (a slot : Nat) (bits old : Byte) (v : Int) :
    ({ addr := a, bits := bits, val := BitVec.ofInt 8 (clamp (-1) 1 v + 1), digit := some slot } : HomeByte).merge old =
      BitVec.ofNat 8 (tern5Put old.toNat slot (max (-1) (min 1 v))) := by
  have clamped : clamp (-1) 1 v = max (-1) (min 1 v) := by
    unfold clamp
    split
    · omega
    · split <;> omega
  have code : (((BitVec.ofInt 8 (clamp (-1) 1 v + 1)).toNat : Nat) : Int) = clamp (-1) 1 v + 1 := by
    rw [BitVec.toNat_ofInt, clamped]
    omega
  simp only [HomeByte.merge]
  rw [code, clamped, Int.add_sub_cancel]

end Sys2Proof.Machine

namespace Sys2Proof.Claims

open Sys2Proof Sys2Proof.Machine

/-! ### The bytes of one element -/

theorem storeElem_raw {x : Exe} {e : Elem} (bytes : rawLike e.phys.fmt = true) (wraps : x.parts.md.sat = false) :
    x.storeElem e = (List.range e.size).map fun k =>
      { addr := e.phys.addr + k, bits := 0xFF, val := BitVec.ofNat 8 (x.storeValue e.lane e.regs / 256 ^ k) } := by
  unfold Exe.storeElem
  dsimp only
  rw [if_pos bytes, wraps, if_neg Bool.false_ne_true, wholeBytes, length_bytesOf]
  exact List.map_congr_left fun k hk => by rw [getD_bytesOf _ _ (List.mem_range.mp hk)]

/-- A page of elements smaller than a byte, other than ternary digits: the element takes the bits of its slot. -/
theorem storeElem_slot {x : Exe} {e : Elem} (whole : rawLike e.phys.fmt = false) (binary : e.phys.fmt ≠ 0x0E)
    (small : fmtBits e.phys.fmt < 8) :
    let n := fmtBits e.phys.fmt
    x.storeElem e = [
      { addr := e.phys.addr, bits := BitVec.ofNat 8 ((2 ^ n - 1) <<< (n * e.slot)),
        val := BitVec.ofNat 8 (elemEncode e.phys.fmt x.parts.md.sat (x.storeValue e.lane e.regs) <<< (n * e.slot)) }] := by
  unfold Exe.storeElem
  dsimp only
  rw [if_neg (by simp [whole]), if_neg binary, if_pos small]

theorem storeElem_ternary {x : Exe} {e : Elem} (ternary : e.phys.fmt = 0x0E) : x.storeElem e =
    [{ addr := e.phys.addr, bits := 0xFF,
       val := BitVec.ofInt 8 (clamp (-1) 1 (Machine.signed 32 (x.storeValue e.lane e.regs)) + 1), digit := some e.slot }] := by
  unfold Exe.storeElem
  dsimp only
  rw [if_neg (by rw [ternary]; decide), if_pos ternary]

/-- The formats whose slots are bits of a byte. -/
theorem slotFormats {f : Nat} (h : f ∈ [3, 4, 0xD, 0xF, 0x16]) : rawLike f = false ∧ f ≠ 0x0E ∧ fmtBits f < 8 := by
  simp only [List.mem_cons, List.not_mem_nil, or_false] at h
  rcases h with rfl | rfl | rfl | rfl | rfl <;> decide

/-- What a 4-bit integer element takes of a register, and what a 1-bit one takes. -/
theorem elemEncode_small (v : Nat) : elemEncode 3 false v = v % 16 ∧ elemEncode 4 false v = v % 16 ∧
    elemEncode 0xF false v = if v = 0 then 0 else 1 := by
  refine ⟨?_, ?_, rfl⟩
  · show ((Machine.signed 32 v) % (2 ^ 4 : Int)).toNat = v % 16
    rw [Machine.signed]
    split <;> omega
  · show ((v : Int) % (2 ^ 4 : Int)).toNat = v % 16
    omega

/-! ### Stores complete -/

section
variable {i : Instr} {oc : Exe → State → Option Cause} {body : Exe → State → Res State} {s u : State} {x : Exe}
  {translated : Bool} {as : List LaneAddr}

theorem stores_complete (run : exec i s = perform i oc body s) (goes : Goes i oc s x u)
    (does : body x u = storeLanes x translated as u) (quiet : translated = true → Unwatched x u 8 (moved x) as)
    (reaches : Reaches x as) (whole : partialLanes (elemsOf x as) = []) : Stores i s x u as :=
  goes.exec_ok run (by
    rw [does, storeLanes_eq, watchStep_ok quiet, reaches.elements_snd, elements_fst, whole, List.append_nil, reaches.passLanes]
    rfl)

/-- Lanes that leave an entry or a block partly written trap with PARTIAL_BLOCK. -/
theorem stores_partial (run : exec i s = perform i oc body s) (goes : Goes i oc s x u)
    (does : body x u = storeLanes x translated as u) (lanes : LanesDistinct as)
    (quiet : translated = true → Unwatched x u 8 (moved x) as) (reaches : Reaches x as)
    (part : ∃ f ∈ partialLanes (elemsOf x as), f.lane < 32 * x.launch.strands) :
    ∃ tr s1, u = setResult x .none s1 ∧ exec i s = .next (takeTrap x.p x.cl.path tr s1) ∧
      ∀ f ∈ partialLanes (elemsOf x as), f.lane < 32 * x.launch.strands →
        tr.mask.lane f.lane = true ∧ tr.causes.get? f.lane = some .partialBlock := by
  have cause : ∀ f ∈ partialLanes (elemsOf x as), ∃ a ∈ as, a.lane = f.lane ∧
      laneCause (storeCheck x as) a = some .partialBlock := by
    intro f hf
    obtain ⟨e, he, lane, -, -⟩ := mem_partialLanes hf
    obtain ⟨a, ha, y, hy, hc⟩ := mem_elemsOf.mp he
    have same : a.lane = f.lane := ((lane.trans (element_ok hc).1)).symm
    refine ⟨a, ha, same, ?_⟩
    rw [laneCause, hy]
    dsimp only
    rw [storeCheck, hc]
    exact if_pos (List.any_eq_true.mpr ⟨f, hf, by simp [same]⟩)
  have traps := stores_trap run goes does lanes quiet fun a ha => .inl ((reaches a ha).imp fun _ ⟨_, hy, _⟩ => hy)
  obtain ⟨f, hf, low⟩ := part
  obtain ⟨a, ha, lane, fails⟩ := cause f hf
  obtain ⟨tr, s1, before, after, -, -, records⟩ := traps ⟨a, ha, by simp [fails], lane ▸ low⟩
  refine ⟨tr, s1, before, after, fun g hg low => ?_⟩
  obtain ⟨b, hb, lane, fails⟩ := cause g hg
  obtain ⟨mask, causes⟩ := records b hb (lane ▸ low)
  exact ⟨by rw [← lane, mask, fails]; rfl, lane ▸ (causes _ fails).1⟩

end

/-- Plane operands leave nothing partly written. -/
theorem partialLanes_planeOf (x : Exe) (u : State) : partialLanes (elemsOf x (planeOf x u)) = [] := by
  refine List.filterMap_eq_nil_iff.mpr fun e he => ?_
  obtain ⟨-, fmt, -⟩ := planeOf_elements he
  dsimp only
  rw [fmt, if_neg (by decide), if_neg (by decide)]

/-- Settles O21: a store whose lanes pass their checks is counted with the bytes of their elements; which bits those are is
that of each page's format; lanes that leave an entry or a block partly written fail as late ones. -/
theorem storesComplete : Obligations.StoresComplete := by
  refine ⟨fun mw r s x u => ⟨?_, ?_, ?_⟩, fun x e => storeElem_raw, fun x e fmt => ?_, elemEncode_small, fun x e ternary => ?_,
    fun mw r s x u => ⟨?_, ?_⟩⟩
  · exact fun goes reaches quiet => stores_complete (exec_st ..) goes rfl (fun _ => quiet) reaches
  · exact fun goes reaches quiet => stores_complete (exec_stg ..) goes rfl (fun _ => quiet) reaches
  · exact fun goes reaches => stores_complete (exec_stp ..) goes rfl nofun reaches (partialLanes_planeOf x u)
  · obtain ⟨whole, binary, small⟩ := slotFormats fmt
    exact ⟨_, storeElem_slot whole binary small, rfl, fun old i hi => HomeByte.getLsbD_merge_slot _ _ _ _ _ hi⟩
  · exact ⟨_, storeElem_ternary ternary, rfl, fun old => HomeByte.merge_digit ..⟩
  · exact fun goes reaches quiet =>
      stores_partial (exec_st ..) goes rfl (lanesDistinct_mwAccess ..) (fun _ => quiet) reaches
  · exact fun goes reaches quiet =>
      stores_partial (exec_stg ..) goes rfl (lanesDistinct_ptrAccess ..) (fun _ => quiet) reaches

end Sys2Proof.Claims
end

section
/-! Atomics whose lanes all reach a word that takes them (R96, R317 to R321). -/

namespace Sys2Proof.Machine

open Sys2Proof

/-! ### Operands (R318) -/

theorem Exe.dataAt_lt (x : Exe) (f : BitVec 7) (n l : Nat) : x.dataAt f n l < 2 ^ (32 * n) := by
  have length : ∀ g : Nat → Word, ((List.range n).flatMap fun i => bytesOf 4 (g i).toNat).length = 4 * n := by
    intro g
    simp [List.length_flatMap, mul_comm]
  have bound := natOf_lt ((List.range n).flatMap fun i =>
    bytesOf 4 (if x.ch then (if n = 1 then x.s f else x.sAt f i) else (if n = 1 then x.v f l else x.vAt f i l)).toNat)
  rw [length, show (256 : Nat) = 2 ^ 8 from rfl, ← pow_mul, show 8 * (4 * n) = 32 * n by ring] at bound
  exact bound

theorem Exe.dataC_lt (x : Exe) (n l : Nat) : x.dataC n l < 2 ^ (32 * n) := by
  unfold Exe.dataC
  split
  · next one =>
    subst one
    exact BitVec.isLt _
  · exact x.dataAt_lt ..

/-- An atomic is of 32 or of 64 bits. -/
theorem Parts.atomBits_eq (p : Parts) : 32 * (p.atomBits / 32) = p.atomBits ∧ 8 ∣ p.atomBits := by
  unfold Parts.atomBits
  split <;> decide

theorem Exe.atomArg_lt (x : Exe) (fx l : Nat) : (x.atomArg fx l).2 < 2 ^ x.parts.atomBits := by
  have bound := x.dataC_lt (x.parts.atomBits / 32) l
  rwa [x.parts.atomBits_eq.1] at bound

theorem Exe.casArg_lt (x : Exe) (l : Nat) : (x.casArg (x.parts.atomBits / 32) l).2 < 2 ^ x.parts.atomBits := by
  have bound := x.dataC_lt (x.parts.atomBits / 32) l
  rwa [x.parts.atomBits_eq.1] at bound

end Sys2Proof.Machine

namespace Sys2Proof.Claims

open Sys2Proof Sys2Proof.Machine

variable {i : Instr} {oc : Exe → State → Option Cause} {body : Exe → State → Res State} {s u : State} {x : Exe}
  {fin : State → State} {stop : Trap → State → State} {translated : Bool} {n : Nat} {sg : Bool} {arg : Nat → AluOp × Nat}
  {as : List LaneAddr}

/-- One atomic of the model is that of the statements. -/
theorem atomic_eq_atomicAt (x : Exe) (o : AluOp) (sg : Bool) (a : Nat) {v : Nat} (u : State)
    (bytes : 8 ∣ n) (small : v < 2 ^ n) :
    u.atomic x.team.cluster o n sg a v = atomicAt x o n sg a v u := by
  have word : 256 ^ (n / 8) = 2 ^ n := by
    rw [show (256 : Nat) = 2 ^ 8 from rfl, ← pow_mul, Nat.mul_div_cancel' bytes]
  have old : (u.evictLine x.team.cluster (a / 128)).readNat a (n / 8) < 2 ^ n := word ▸ State.readNat_lt ..
  rw [State.atomic, atomicAt, AluOp.eval_eq_atomicResult o sg old small]

/-- The lanes of an atomic, one after the other, are those of the statements. -/
theorem foldl_atomic (x : Exe) (sg : Bool) (bytes : 8 ∣ n) (small : ∀ l, (arg l).2 < 2 ^ n) (ps : List (LaneAddr × Phys))
    (u : State) (olds : List (Nat × Nat)) :
    ps.foldl (fun (acc : State × List (Nat × Nat)) p =>
      let g := arg p.1.lane
      let r := acc.1.atomic x.team.cluster g.1 n sg p.2.addr g.2
      (r.2, acc.2 ++ [(p.1.lane, r.1)])) (u, olds) =
    ((atomicsFrom x n sg arg ps u).2, olds ++ (atomicsFrom x n sg arg ps u).1) := by
  induction ps generalizing u olds with
  | nil => rw [List.foldl_nil, atomicsFrom, List.append_nil]
  | cons p ps ih =>
    rw [List.foldl_cons]
    dsimp only
    rw [atomic_eq_atomicAt x _ sg _ u bytes (small _), ih, atomicsFrom]
    dsimp only
    rw [List.append_assoc, List.singleton_append]

/-- Words that all take their atomics make no lane fail. -/
theorem AtomsReach.atomFaults (reach : AtomsReach n arg as) : atomFaults n arg as = [] := by
  refine List.filterMap_eq_nil_iff.mpr fun p hp => ?_
  obtain ⟨ha, hy⟩ := mem_okLanes.mp hp
  obtain ⟨y, hy', ok⟩ := reach p.1 ha
  obtain rfl : p.2 = y := LaneRes.ok.inj (hy.symm.trans hy')
  rw [ok]
  rfl

/-- An instruction that performs an atomic in its lanes completes as R319 gives it. -/
theorem atoms_complete (run : exec i s = performMeet i oc body s) (goes : GoesMeet i oc s x u fin stop)
    (does : body x u = atomLanes x translated n sg arg as u) (quiet : translated = true → Unwatched x u 9 (n / 8) as)
    (bytes : 8 ∣ n) (small : ∀ l, (arg l).2 < 2 ^ n) : Atoms i s x u fin n sg arg as := by
  intro reach room clean
  have sound : ¬((okLanes as).any fun p => (List.range (n / 8)).any fun i =>
      (atomStart x as u).poisoned (p.2.addr + i)) = true := by
    intro bad
    obtain ⟨p, hp, bad⟩ := List.any_eq_true.mp bad
    obtain ⟨k, hk, bad⟩ := List.any_eq_true.mp bad
    rw [clean p hp k (List.mem_range.mp hk)] at bad
    cases bad
  have passes : x.passLanes as [] = .ok () := passLanes_ok fun a ha => (reach a ha).imp fun _ => And.left
  refine goes.exec_ok run ?_
  rw [does, atomLanes_eq, watchStep_ok quiet, reach.atomFaults, passes]
  show atomWords x n sg arg as u = _
  rw [atomWords, if_neg (by simp [room]), if_neg sound, foldl_atomic x sg bytes small, List.nil_append]

/-- Settles O23: every atomic of a lane is one act at its word, lane by lane; the trailing copy of a pair takes what the
leading one's performance gave. -/
theorem atomicsComplete : Obligations.AtomicsComplete := by
  intro mw r s x u fin stop
  have bytes := x.parts.atomBits_eq.2
  refine ⟨fun goes quiet => ?_, fun goes quiet => ?_, fun goes quiet => ?_, fun goes cas => ?_, fun goes op => ?_⟩
  · exact atoms_complete (exec_atom ..) goes rfl (fun _ => quiet) bytes (x.atomArg_lt _)
  · exact atoms_complete (exec_cas ..) goes rfl (fun _ => quiet) bytes x.casArg_lt
  · exact atoms_complete (exec_cas128 ..) goes rfl (fun _ => quiet) (by decide) (x.dataC_lt 4)
  · exact atoms_complete (exec_ldp_atom goes (by simp [cas])) goes (if_pos cas) nofun bytes x.casArg_lt
  · simp only [List.mem_cons, List.not_mem_nil, or_false, not_or] at op
    exact atoms_complete (exec_ldp_atom goes ⟨op.1, op.2.1⟩) goes (if_neg op.2.2) nofun bytes (x.atomArg_lt _)

end Sys2Proof.Claims
end

section
/-! What a step does (R108, R109, R220, R230; log 4). -/

namespace Sys2Proof.Claims

open Sys2Proof Sys2Proof.Machine

/-! ### Words at the position of a clause -/

theorem instr_of_decode {c : Clause} {i : Instr} {rest : List Word} (h : decode (c.words.drop (c.pos - 1)) = .ok (i, rest)) :
    c.instr = .ok i := by
  rw [Clause.instr, h]

theorem instr_of_decode_error {c : Clause} {e : DecodeError} (h : decode (c.words.drop (c.pos - 1)) = .error e) :
    c.instr = .error e := by
  rw [Clause.instr, h]

section
variable {s : State} {p : Party} {t : Team} {c : Clause}

/-- With an empty agenda, the step continues the clause of the party whose turn it is. -/
theorem step_turn (idle : s.agenda = []) (turn : s.turn = some p) : step s = stepParty p s := by
  rw [step, idle, turn]

/-- Words that decode to nothing take OPCODE. -/
theorem stepParty_undecoded {e : DecodeError} (team : s.team? p = some t) (issue : (t.thread p.kind).issue = some c)
    (bad : c.instr = .error e) : stepParty p s = .next (opcodeTrap p t c s) := by
  simp only [stepParty, team, issue, bad]

/-- An access that has waited longer than it may ends. -/
theorem stepParty_overdue {i : Instr} {w : Waiting} (team : s.team? p = some t)
    (issue : (t.thread p.kind).issue = some c) (good : c.instr = .ok i) (waits : s.waitingAccess p = some w)
    (late : overdue (some w.since) w.remote s.now = true) : stepParty p s = .next w.late := by
  simp only [stepParty, team, issue, good, waits, Option.filter_some, late, if_true]

/-- With no access overdue and no trailing copy that waits, the instruction executes. -/
theorem stepParty_executes {i : Instr} (team : s.team? p = some t) (issue : (t.thread p.kind).issue = some c)
    (good : c.instr = .ok i) (early : ∀ w, s.waitingAccess p = some w → overdue (some w.since) w.remote s.now = false)
    (free : s.trailHeld p i = none) : stepParty p s = exec i { s with turn := some p } := by
  have none_late : ((s.waitingAccess p).filter fun w => overdue (some w.since) w.remote s.now) = none := by
    cases waits : s.waitingAccess p with
    | none => rfl
    | some w => simp [early w waits]
  simp only [stepParty, team, issue, good, none_late, free]

end

/-- Only a trailing copy is held for its leading one. -/
theorem trailHeld_other {s : State} {p : Party} {i : Instr} (h : p.kind ≠ .trail) : s.trailHeld p i = none := by
  unfold State.trailHeld
  split
  · exact absurd ‹_› h
  · rfl

/-- Settles O37: a step is an act of the agenda, or the instruction of the clause in progress, or the choice of the focus
cluster. -/
theorem stepRunsDecoded : Obligations.StepRunsDecoded := by
  refine ⟨fun s p t c idle turn team issue => ⟨fun early => ⟨fun i rest good free => ?_, fun e bad => ?_⟩,
    fun w i rest waits late good => ?_⟩, fun s i rest row => ?_, fun s n rest row => ?_, fun s idle turn free => ?_⟩
  · have here : ({ s with turn := some p } : State) = s := by rw [← turn]
    rw [step_turn idle turn, stepParty_executes team issue (instr_of_decode good) early
      (free.elim trailHeld_other id), here]
  · exact (step_turn idle turn).trans (stepParty_undecoded team issue (instr_of_decode_error bad))
  · exact (step_turn idle turn).trans (stepParty_overdue team issue (instr_of_decode good) waits late)
  · rw [step, row]
    rfl
  · rw [step, row]
    rfl
  · rw [step, idle, turn]
    dsimp only
    rw [stepFocus, free]

end Sys2Proof.Claims
end

section
/-! WAIT, directions and list images in memory, and the key-value load (R111 to R113, R248, R292, R299, R313). -/

namespace Sys2Proof.Machine

open Sys2Proof

/-! ### Errors of memory (R167) -/

@[simp] theorem State.poison_unview (s : State) (die : Nat) (sel : Nat → Bool) : (s.unview die sel).poison = s.poison := by
  unfold State.unview
  split <;> rfl

@[simp] theorem State.poison_writeBytes (s : State) (a : Nat) (bs : List Byte) : (s.writeBytes a bs).poison = s.poison := by
  induction bs generalizing s a with
  | nil => rfl
  | cons b bs ih => exact (ih ..).trans (State.writeByte_poison ..)

@[simp] theorem State.poison_commitFill (s : State) (g : Agent) (y : Phys) : (s.commitFill g y).poison = s.poison := by
  have seen (page : Nat) : (s.seeWalk g page).poison = s.poison := by
    unfold State.seeWalk; split <;> simp
  unfold State.commitFill
  split
  · rfl
  · next e _ =>
    have written (P : Prop) [Decidable P] (a : Nat) (bs : List Byte) :
        (if P then (s.seeWalk g e.page).writeBytes a bs else s.seeWalk g e.page).poison = s.poison := by
      split <;> simp [seen]
    cases g.core <;> exact written _ _ _

@[simp] theorem State.poison_commitFills (s : State) (g : Agent) (ys : List Phys) : (s.commitFills g ys).poison = s.poison :=
  foldl_keeps State.poison fun _ _ => State.poison_commitFill ..

/-- A state without errors has none where a load reads. -/
theorem Exe.loadPoison_clean {x : Exe} {s : State} (clean : s.poison = []) (bypass : Bool) (a : Nat) :
    x.loadPoison s bypass a = false := by
  have word : s.poisoned a = false := by simp [State.poisoned, clean]
  unfold Exe.loadPoison State.clusterPoison
  split
  · exact word
  · split
    · simp [clean]
    · exact word

end Sys2Proof.Machine

namespace Sys2Proof.Claims

open Sys2Proof Sys2Proof.Machine

/-! ### WAIT, directions and list images -/

section
variable {s u v : State} {x : Exe} {bs : List Byte}

/-- An instruction completes as its effect does, for some value of what the effect leaves open. -/
theorem Goes.exec_ok_some {α : Type} {i : Instr} {oc : Exe → State → Option Cause} {body : Exe → State → Res State}
    {f : α → State} (run : exec i s = perform i oc body s) (goes : Goes i oc s x u) (ok : ∃ a, body x u = .ok (f a)) :
    ∃ a, exec i s = .next (advance x (f a)) :=
  ok.imp fun _ ok => goes.exec_ok run ok

theorem wait_complete {rs : RRS} {y : Phys} (goes : Goes (.wait rs) noCheck s x u)
    (quiet : x.watch u 7 8 (x.uniformLanes.map fun l => (l, x.pair x.parts.a)) = none)
    (reaches : x.uniform u .load (x.pair x.parts.a) waitWordCheck = .ok y)
    (clean : ∀ i < 8, (u.commitFills x.agent [y]).poisoned (x.loadAddr y + i) = false) :
    exec (.wait rs) s = .next (advance x
      (if waitCond x.parts.s (BitVec.ofNat 64 (x.loadNat (u.commitFills x.agent [y]) true (x.loadAddr y) 8)) (x.pair x.parts.d)
       then u.commitFills x.agent [y]
       else waitFrom x (.word x.parts.s (x.loadAddr y) (x.pair x.parts.d) x.cl.path x.cl.hdr x.cl.pos
         ((x.cl.words.drop (x.cl.pos - 1)).take x.parts.words)) (u.commitFills x.agent [y]))) := by
  have sound : ¬((List.range 8).any fun i => (u.commitFills x.agent [y]).poisoned (x.loadAddr y + i)) = true := by
    simpa using clean
  refine goes.exec_ok (show exec (.wait rs) s = execWait rs s from rfl) ?_
  simp only [quiet, reaches, bind, Except.bind, sound, Bool.false_eq_true, if_false]
  split <;> rfl

theorem dst_complete {mw : MW} {gs : List (Nat × List LaneAddr)} (goes : Goes (.dst mw) windowCheck s x u)
    (reaches : x.dirAccess u .store = .ok gs) : ∃ bs, exec (.dst mw) s = .next (advance x
      (storeBytes x bs (u.commitFills x.agent (gs.flatMap fun g => (okLanes g.2).map (·.2))))) := by
  refine goes.exec_ok_some (show exec (.dst mw) s = execDst mw s from rfl) ?_
  simp only [reaches, bind, Except.bind]
  exact ⟨_, rfl⟩

theorem dld_complete {mw : MW} {gs : List (Nat × List LaneAddr)} (goes : Goes (.dld mw) windowCheck s x u)
    (reaches : x.dirAccess u .load = .ok gs)
    (clean : ∀ e ∈ gs.flatMap fun g => okLanes g.2, ∀ k < 2,
      x.loadPoison (u.commitFills x.agent ((gs.flatMap fun g => okLanes g.2).map (·.2))) (bypasses false e.2)
        (x.loadAddr e.2 + k) = false) :
    ∃ (l : Latch) (ws : List RegWrite) (v : State), exec (.dld mw) s =
      .next (advance x (setResult x l (v.countLoad x.p { writes := ws }))) := by
  have sound : ¬((gs.flatMap fun g => okLanes g.2).any fun e => [x.loadAddr e.2, x.loadAddr e.2 + 1].any
      (x.loadPoison (u.commitFills x.agent ((gs.flatMap fun g => okLanes g.2).map (·.2))) (bypasses false e.2))) = true := by
    intro bad
    obtain ⟨e, he, bad⟩ := List.any_eq_true.mp bad
    have first := clean e he 0 (by decide)
    have second := clean e he 1 (by decide)
    rw [Nat.add_zero] at first
    simp [first, second] at bad
  obtain ⟨⟨l, ws, v⟩, done⟩ := goes.exec_ok_some (show exec (.dld mw) s = execDld mw s from rfl)
    (f := fun a : Latch × List RegWrite × State => setResult x a.1 (a.2.2.countLoad x.p { writes := a.2.1 })) (by
      simp only [reaches, bind, Except.bind, sound, Bool.false_eq_true, if_false]
      exact ⟨(_, _, _), rfl⟩)
  exact ⟨l, ws, v, done⟩

theorem wlst_complete {r : RRR} {ps : List (DWord × Nat × Phys)}
    (goes : Goes (.wlst r) (fun x u => x.listCheck u x.parts.d true) s x u) (reaches : x.imageAt u .store = .ok ps) :
    ∃ bs, exec (.wlst r) s = .next (advance x (storeBytes x bs (u.commitFills x.agent (ps.map (·.2.2))))) := by
  refine goes.exec_ok_some (show exec (.wlst r) s = execWlst r s from rfl) ?_
  simp only [reaches, bind, Except.bind]
  exact ⟨_, rfl⟩

theorem wlld_complete {r : RRR} (goes : Goes (.wlld r) (fun x u => x.listCheck u x.parts.d true) s x u)
    (read : x.readImage u = .ok (bs, v)) (rows : ((List.range 64).map (imageRow bs)).all imageRowOk = true) :
    ∃ t, exec (.wlld r) s = .next (advance x (v.countLoad x.p { writes := [], list := some (wlOf x.parts.d, t) })) := by
  refine goes.exec_ok_some (show exec (.wlld r) s = execWlld r s from rfl) ?_
  simp only [read, bind, Except.bind, rows, Bool.not_true, Bool.false_eq_true, if_false]
  exact ⟨_, rfl⟩

theorem wlmerge_complete {r : RRR} (goes : Goes (.wlmerge r) (fun x u => x.listCheck u x.parts.d true) s x u)
    (read : x.readImage u = .ok (bs, v)) (rows : ∀ i < 64, imageRowOk (imageRow bs i) = true)
    (agree : ∀ i < 64, statCount (x.row v (wlOf x.parts.d) i).stat = 0 ∨ statCount (imageRow bs i).2 = 0 ∨
      statK (x.row v (wlOf x.parts.d) i).stat = statK (imageRow bs i).2) :
    exec (.wlmerge r) s = .next (advance x ((List.range 64).foldl (fun v i =>
      setRow x (wlOf x.parts.d) i (mergeRow (x.row v (wlOf x.parts.d) i) (imageRow bs i)) v) v)) := by
  have passes : ¬((List.range 64).any fun i => !imageRowOk (imageRow bs i) ||
      (statCount (x.row v (wlOf x.parts.d) i).stat != 0 && statCount (imageRow bs i).2 != 0 &&
        statK (x.row v (wlOf x.parts.d) i).stat != statK (imageRow bs i).2)) = true := by
    intro bad
    obtain ⟨i, hi, bad⟩ := List.any_eq_true.mp bad
    have low : i < 64 := List.mem_range.mp hi
    rw [rows i low] at bad
    rcases agree i low with h | h | h <;> simp [h] at bad
  refine goes.exec_ok (show exec (.wlmerge r) s = execWlmerge r s from rfl) ?_
  simp only [read, bind, Except.bind, passes, Bool.false_eq_true, if_false]

end

/-! ### The parts of KVLD (R313) -/

/-- The accesses to the descriptor, lane by lane, and those of its lanes that fail alignment or format. -/
def kvAccess (x : Exe) (u : State) : List LaneAddr :=
  x.lanes.map fun l => { x.byPointer u .load l (x.pair x.parts.a) with lane := l }
def kvFaults (x : Exe) (as : List LaneAddr) : List LaneFault :=
  (okLanes as).filterMap fun e =>
    if (x.pair x.parts.a).toNat % 64 ≠ 0 then some ⟨e.1.lane, .align, x.pair x.parts.a, e.2.gen⟩
    else if !rawLike e.2.fmt then some ⟨e.1.lane, .formatOp, x.pair x.parts.a, e.2.gen⟩ else none

/-- The accesses to the map, of the lanes within its bounds. -/
def kvMapAccess (x : Exe) (d : KvDesc) (u : State) : List LaneAddr :=
  (x.kvLanes.filter d.within).map fun k => { x.byPointer u .kvmap k.lane (d.entry k) with lane := k.lane }

/-- Whether a lane's offset lies within an element, and the lanes that fail that or their entry's page. -/
def kvSkew (x : Exe) (d : KvDesc) (l : Nat) : Bool := x.kvLanes.any fun k => k.lane == l && k.off % (fmtBits d.fmt / 8) != 0
def kvMapFaults (x : Exe) (d : KvDesc) (as : List LaneAddr) : List LaneFault :=
  (okLanes as).filterMap (fun e =>
    if kvSkew x d e.1.lane then some ⟨e.1.lane, .align, e.1.addr, e.2.gen⟩
    else if e.2.fmt ≠ 2 || !leafP e.2.leaf then some ⟨e.1.lane, .formatOp, e.1.addr, e.2.gen⟩ else none) ++
  (x.kvLanes.filter fun k => !d.within k && kvSkew x d k.lane).map fun k => ⟨k.lane, .align, d.entry k, 0⟩

/-- The status of a lane and the place of its element, by its map entry. -/
def kvPlaceOf (x : Exe) (d : KvDesc) (as : List LaneAddr) (u : State) (k : KvLane) : Nat × Option Nat :=
  if !d.within k then (1, none)
  else match (okLanes as).find? fun e => e.1.lane == k.lane with
    | none => (1, none)
    | some e => u.kvPlace d k (x.loadNat u true (x.loadAddr e.2) 16)

/-- What each lane receives: its element and its status, read in `v` at places that `u` gives. -/
def kvVals (x : Exe) (d : KvDesc) (as : List LaneAddr) (u v : State) : List (Nat × Nat) :=
  x.kvLanes.map fun k =>
    let r := kvPlaceOf x d as u k
    let e := match r.2 with
      | none => 0
      | some a => elemDecode d.fmt (x.loadNat v (u.tierOf a == some 0) a (fmtBits d.fmt / 8))
    (k.lane, e % 2 ^ 32 + r.1 * 2 ^ 32)

/-- The elements of the lanes are read. -/
def kvElements (x : Exe) (d : KvDesc) (as : List LaneAddr) (u : State) : Res State :=
  let tier0 (a : Nat) : Bool := u.tierOf a == some 0
  let spots := x.kvLanes.filterMap fun k => (kvPlaceOf x d as u k).2
  if (okLanes as).any fun e => (List.range 16).any fun i => x.loadPoison u true (x.loadAddr e.2 + i) then .error .poison
  else if spots.any fun a => (List.range (fmtBits d.fmt / 8)).any fun i => x.loadPoison u (tier0 a) (a + i) then .error .poison
  else
    let v := spots.foldl (fun v a => if tier0 a then v else v.fillLine x.team.cluster a) u
    .ok (loadInto x 2 (kvVals x d as u v) v)

/-- The entries of the lanes are read. -/
def kvEntries (x : Exe) (d : KvDesc) (u : State) : Res State :=
  let as := kvMapAccess x d u
  (x.watched u 7 16 as).bind fun _ => (x.passLanes as (kvMapFaults x d as)).bind fun _ =>
    kvElements x d as (u.commitFills x.agent ((okLanes as).map (·.2)))

/-- The descriptor is read, at the first lane's place. -/
def kvDescriptor (x : Exe) (as : List LaneAddr) (u : State) : Res State :=
  match (okLanes as).head? with
  | none => .ok u
  | some (_, y) =>
    let u1 := u.commitFills x.agent [y]
    if (List.range 64).any fun i => x.loadPoison u1 (bypasses false y) (x.loadAddr y + i) then .error .poison
    else
      let u2 := if bypasses false y then u1 else u1.fillLine x.team.cluster (x.loadAddr y)
      match kvDesc (x.loadNat u2 (bypasses false y) (x.loadAddr y) 64) with
      | none => trapNow x .kvDescriptor
      | some d => kvEntries x d u2

theorem exec_kvld (r : RRR) (s : State) : exec (.kvld r) s = perform (.kvld r) noCheck (fun x u =>
    (x.watched u 7 64 (kvAccess x u)).bind fun _ =>
      (x.passLanes (kvAccess x u) (kvFaults x (kvAccess x u))).bind fun _ => kvDescriptor x (kvAccess x u) u) s := by
  show execKvld r s = _
  unfold execKvld
  congr 1

/-! ### KVLD completes -/

section
variable {s u : State} {x : Exe} {y : Phys} {d : KvDesc}

theorem map_fst_kvVals (as : List LaneAddr) (u v : State) : (kvVals x d as u v).map (·.1) = x.lanes := by
  rw [kvVals, Exe.kvLanes, List.map_map, List.map_map]
  exact List.map_id _

/-- A lane outside the bounds of the map receives element 0 and status 1 (R113). -/
theorem mem_kvVals_outside (as : List LaneAddr) (u v : State) {k : KvLane} (hk : k ∈ x.kvLanes)
    (outside : d.within k = false) :
    (k.lane, 2 ^ 32) ∈ kvVals x d as u v := by
  have placed : kvPlaceOf x d as u k = (1, none) := by rw [kvPlaceOf, outside]; rfl
  exact List.mem_map.mpr ⟨k, hk, by simp [placed]⟩

/-- A state without errors: the elements of the lanes are read. -/
theorem kvElements_ok (as : List LaneAddr) (clean : u.poison = []) :
    ∃ v, kvElements x d as u = .ok (loadInto x 2 (kvVals x d as u v) v) := by
  have sound {α : Type} (ls : List α) (bytes : α → List Nat) (bypass : α → Bool) (at' : α → Nat) :
      ¬(ls.any fun a => (bytes a).any fun i => x.loadPoison u (bypass a) (at' a + i)) = true := by
    simp [Exe.loadPoison_clean clean]
  rw [kvElements, if_neg (sound _ _ _ _), if_neg (sound _ _ _ _)]
  exact ⟨_, rfl⟩

theorem mem_kvMapAccess {a : LaneAddr} (h : a ∈ kvMapAccess x d u) : ∃ k ∈ x.kvLanes.filter d.within,
    a = { x.byPointer u .kvmap k.lane (d.entry k) with lane := k.lane } := by
  obtain ⟨k, hk, rfl⟩ := List.mem_map.mp h
  exact ⟨k, hk, rfl⟩

/-- No lane's offset lies within an element when all are multiples of its size. -/
theorem kvSkew_of_even (even : ∀ k ∈ x.kvLanes, k.off % (fmtBits d.fmt / 8) = 0) (l : Nat) : kvSkew x d l = false :=
  List.any_eq_false.mpr fun k hk => by simp [even k hk]

/-- The entries of the lanes are read when each lies on a map page that the supervisor protects. -/
theorem kvEntries_ok (even : ∀ k ∈ x.kvLanes, k.off % (fmtBits d.fmt / 8) = 0)
    (entries : ∀ k ∈ x.kvLanes.filter d.within, ∃ z, (x.byPointer u .kvmap k.lane (d.entry k)).res = .ok z ∧
      z.fmt = 2 ∧ leafP z.leaf = true)
    (quiet : x.watch u 7 16 ((x.kvLanes.filter d.within).map fun k => (k.lane, d.entry k)) = none) (clean : u.poison = []) :
    ∃ w v, kvEntries x d u = .ok (loadInto x 2 (kvVals x d (kvMapAccess x d u) w v) v) := by
  have unwatched : x.watched u 7 16 (kvMapAccess x d u) = .ok () := by
    refine watched_ok ?_
    rw [Unwatched, kvMapAccess, List.map_map]
    exact quiet
  have reached : ∀ a ∈ kvMapAccess x d u, ∃ z, a.res = .ok z ∧ z.fmt = 2 ∧ leafP z.leaf = true := by
    intro a ha
    obtain ⟨k, hk, rfl⟩ := mem_kvMapAccess ha
    exact entries k hk
  have faultless : kvMapFaults x d (kvMapAccess x d u) = [] := by
    have own : ∀ e ∈ okLanes (kvMapAccess x d u), e.2.fmt = 2 ∧ leafP e.2.leaf = true := by
      intro e he
      obtain ⟨ha, hy⟩ := mem_okLanes.mp he
      obtain ⟨z, hz, page⟩ := reached e.1 ha
      obtain rfl : e.2 = z := LaneRes.ok.inj (hy.symm.trans hz)
      exact page
    unfold kvMapFaults
    simp only [kvSkew_of_even even, Bool.and_false, List.filter_false, List.map_nil, List.append_nil, Bool.false_eq_true,
      if_false]
    exact List.filterMap_eq_nil_iff.mpr fun e he => by simp [own e he]
  have still_clean : (u.commitFills x.agent ((okLanes (kvMapAccess x d u)).map (·.2))).poison = [] := by simp [clean]
  obtain ⟨v, read⟩ := kvElements_ok (d := d) (kvMapAccess x d u) still_clean
  refine ⟨u.commitFills x.agent ((okLanes (kvMapAccess x d u)).map (·.2)), v, ?_⟩
  rw [kvEntries, unwatched, faultless, passLanes_ok fun a ha => (reached a ha).imp fun _ => And.left]
  exact read

/-- Every lane's access to the descriptor reaches one place. -/
theorem mem_okLanes_kvAccess (same : ∀ l ∈ x.lanes, (x.byPointer u .load l (x.pair x.parts.a)).res = .ok y)
    {e : LaneAddr × Phys} (h : e ∈ okLanes (kvAccess x u)) : e.2 = y := by
  obtain ⟨ha, hy⟩ := mem_okLanes.mp h
  obtain ⟨l, hl, he⟩ := List.mem_map.mp ha
  rw [← he] at hy
  exact LaneRes.ok.inj (hy.symm.trans (same l hl))

theorem okLanes_cons_ok {a : LaneAddr} (as : List LaneAddr) (h : a.res = .ok y) :
    okLanes (a :: as) = (a, y) :: okLanes as := by
  rw [okLanes, List.filterMap_cons, h]
  rfl

theorem kvDescriptor_eq (some_lane : x.lanes ≠ [])
    (same : ∀ l ∈ x.lanes, (x.byPointer u .load l (x.pair x.parts.a)).res = .ok y) :
    let u1 := u.commitFills x.agent [y]
    let u2 := if bypasses false y then u1 else u1.fillLine x.team.cluster (x.loadAddr y)
    (∀ i < 64, x.loadPoison u1 (bypasses false y) (x.loadAddr y + i) = false) →
    kvDesc (x.loadNat u2 (bypasses false y) (x.loadAddr y) 64) = some d →
    kvDescriptor x (kvAccess x u) u = kvEntries x d u2 := by
  intro u1 u2 clean read
  obtain ⟨l, ls, lanes⟩ := List.exists_cons_of_ne_nil some_lane
  have first : ∃ a, (okLanes (kvAccess x u)).head? = some (a, y) := by
    rw [kvAccess, lanes, List.map_cons]
    refine ⟨_, (congrArg List.head? (okLanes_cons_ok _ ?_)).trans rfl⟩
    exact same l (by simp [lanes])
  obtain ⟨a, first⟩ := first
  have sound : ¬((List.range 64).any fun i => x.loadPoison u1 (bypasses false y) (x.loadAddr y + i)) = true := by
    simpa using clean
  rw [kvDescriptor, first]
  dsimp only
  rw [if_neg sound, read]

theorem kvld_complete {r : RRR} (goes : Goes (.kvld r) noCheck s x u) (some_lane : x.lanes ≠ [])
    (same : ∀ l ∈ x.lanes, (x.byPointer u .load l (x.pair x.parts.a)).res = .ok y) (bytes : rawLike y.fmt = true)
    (aligned : (x.pair x.parts.a).toNat % 64 = 0)
    (quiet : x.watch u 7 64 (x.lanes.map fun l => (l, x.pair x.parts.a)) = none) :
    let u1 := u.commitFills x.agent [y]
    let u2 := if bypasses false y then u1 else u1.fillLine x.team.cluster (x.loadAddr y)
    (∀ i < 64, x.loadPoison u1 (bypasses false y) (x.loadAddr y + i) = false) →
    kvDesc (x.loadNat u2 (bypasses false y) (x.loadAddr y) 64) = some d →
    let live := x.kvLanes.filter d.within
    (∀ k ∈ x.kvLanes, k.off % (fmtBits d.fmt / 8) = 0) →
    (∀ k ∈ live, ∃ z, (x.byPointer u2 .kvmap k.lane (d.entry k)).res = .ok z ∧ z.fmt = 2 ∧ leafP z.leaf = true) →
    x.watch u2 7 16 (live.map fun k => (k.lane, d.entry k)) = none →
    u2.poison = [] →
    ∃ vals v, vals.map (·.1) = x.lanes ∧ exec (.kvld r) s = .next (advance x (loadInto x 2 vals v)) ∧
      ∀ k ∈ x.kvLanes, d.within k = false → (k.lane, 2 ^ 32) ∈ vals := by
  intro u1 u2 clean read live even entries quiet2 sound
  have unwatched : x.watched u 7 64 (kvAccess x u) = .ok () := by
    refine watched_ok ?_
    rw [Unwatched, kvAccess, List.map_map]
    exact quiet
  have faultless : kvFaults x (kvAccess x u) = [] := List.filterMap_eq_nil_iff.mpr fun e he => by
    simp [aligned, mem_okLanes_kvAccess same he, bytes]
  have passes : x.passLanes (kvAccess x u) [] = .ok () := passLanes_ok fun a ha => by
    obtain ⟨l, hl, rfl⟩ := List.mem_map.mp ha
    exact ⟨y, same l hl⟩
  obtain ⟨w, v, done⟩ := kvEntries_ok even entries quiet2 sound
  refine ⟨kvVals x d (kvMapAccess x d u2) w v, v, map_fst_kvVals _ w v,
    goes.exec_ok (exec_kvld r s) ?_,
    fun k hk outside => mem_kvVals_outside _ w v hk outside⟩
  rw [unwatched, faultless, passes]
  exact (kvDescriptor_eq some_lane same clean read).trans done

end

/-- Settles O25: each of them completes once its accesses have passed; KVLD by the descriptor, the entries and the elements
that it reads in turn. -/
theorem otherLoadsAndStores : Obligations.OtherLoadsAndStores :=
  ⟨fun _ _ _ _ _ _ => ⟨fun _ goes quiet reaches clean => wait_complete goes quiet reaches clean,
    fun _ goes reaches => dst_complete goes reaches,
    fun _ goes reaches clean => dld_complete goes reaches clean,
    fun _ goes reaches => wlst_complete goes reaches,
    fun _ _ goes read rows => wlld_complete goes read rows,
    fun _ _ goes read rows agree => wlmerge_complete goes read rows agree⟩,
  fun _ _ _ _ _ _ goes some_lane same bytes aligned quiet => kvld_complete goes some_lane same bytes aligned quiet⟩

end Sys2Proof.Claims
end

section
/-! Windows, prefetch, write-back, invalidation and pins (R106, R233, R234, R314 to R316). -/

namespace Sys2Proof.Claims

open Sys2Proof Sys2Proof.Machine

/-- An instruction that cannot stop once its operands have passed completes with its effect. -/
theorem does_of_performPure {i : Instr} {oc : Exe → State → Option Cause} {e : Exe → State → State}
    (run : State → Host.Outcome State Fault Refusal) (runs : ∀ s, exec i s = run s)
      (pure : ∀ s, run s = performPure i oc e s) :
    Does i oc e :=
  fun s _ _ goes => goes.exec_ok ((runs s).trans (pure s)) rfl

/-- Some bits of a pointer. -/
theorem extractLsb'_eq_div (p : DWord) (k n : Nat) : p.extractLsb' k n = BitVec.ofNat n (p.toNat / 2 ^ k) := by
  rw [BitVec.extractLsb', Nat.shiftRight_eq_div_pow]

/-- PREF's check is that of the statements. -/
theorem prefCheck_eq : (fun (x : Exe) (_ : State) =>
    if x.ch && x.parts.win ≠ 0 then some Cause.general else none) = prefCheck := by
  funext x s
  exact if_congr (by simp) rfl rfl

section
variable (f : RRR) (rs : RRS) (mw : MW)

theorem does_wmap : Does (.wmap f) noCheck (fun x u => u.updTeam x.p fun t =>
    t.setWindow (base x.parts.d) (windowPending x (t.window (base x.parts.d)))) := by
  refine does_of_performPure (execWmap f) (fun _ => rfl) fun s => ?_
  simp only [execWmap, winOf, windowPending, extractLsb'_eq_div]

theorem does_pref : Does (.pref mw) prefCheck (fun x u =>
    if x.ch = false ∧ x.win.state = .invalid then u
    else
      let ok := (okLanes (x.byteAccess u .load)).filter fun e => bypasses false e.2 == false
      let u1 := u.commitFills x.agent (ok.map (·.2))
      if x.parts.fx = 1 then u1
      else ok.foldl (fun v e => v.fillLine x.team.cluster (x.loadAddr e.2)) u1) := by
  rw [← prefCheck_eq]
  refine does_of_performPure (execPref mw) (fun _ => rfl) fun s => congrArg (performPure _ _ · s) ?_
  funext x u
  refine if_congr (by simp) rfl ?_
  have same : (fun e : LaneAddr × Phys => !bypasses false e.2) = fun e => bypasses false e.2 == false :=
    funext fun e => by cases bypasses false e.2 <;> rfl
  rw [same]

theorem does_cwb : Does (.cwb f) noCheck (fun x u => u.writeBack x.team.cluster
    (if x.parts.fx = 1 then fun _ => true else inSpans (rangeOf x u .load))) :=
  does_of_performPure (execCwb f) (fun _ => rfl) fun _ => rfl

end

/-- Settles O26: each completes with its effect, which the model and the statements write alike but for the bits of a
pointer and the tests of PREF. -/
theorem windowAndCacheResults : Obligations.WindowAndCacheResults := fun f rs mw =>
  ⟨does_wmap f,
    does_of_performPure (execWinv rs) (fun _ => rfl) fun _ => rfl,
    does_pref mw,
    does_cwb f,
    does_of_performPure (execCinv f) (fun _ => rfl) fun _ => rfl,
    does_of_performPure (execIpref f) (fun _ => rfl) fun _ => rfl,
    does_of_performPure (execIpin f) (fun _ => rfl) fun _ => rfl,
    does_of_performPure (execIunpin f) (fun _ => rfl) fun _ => rfl⟩

end Sys2Proof.Claims
end

section
/-! What the accesses of a cluster leave of the bytes that they do not touch: at their home, and as the cluster reads them
(R94, R110, R115, R116, R123). -/

namespace Sys2Proof.Machine

open Sys2Proof

/-! ### Bytes of a line -/

/-- Byte `i` of a line that holds given bytes. -/
theorem Line.byte_ofBytes (f : Nat → Byte) (dirty : BitVec 128) {i : Nat} (hi : i < 128) :
    ({ data := BitVec.ofNat 1024 (natOf ((List.range 128).map f)), dirty := dirty } : Line).byte i = f i := by
  have small : natOf ((List.range 128).map f) < 2 ^ 1024 := by
    have bound := natOf_lt ((List.range 128).map f)
    rwa [List.length_map, List.length_range, show (256 : Nat) = 2 ^ 8 from rfl, ← pow_mul] at bound
  have tail : ((List.range 128).map f).drop i = f i :: ((List.range 128).map f).drop (i + 1) := by
    rw [List.drop_eq_getElem_cons (by simpa using hi), List.getElem_map, List.getElem_range]
  apply BitVec.eq_of_toNat_eq
  rw [Line.byte, BitVec.extractLsb'_toNat, BitVec.toNat_ofNat, Nat.mod_eq_of_lt small, Nat.shiftRight_eq_div_pow, pow_mul,
    show (2 : Nat) ^ 8 = 256 from rfl, ← natOf_drop, tail, natOf, Nat.add_mul_mod_self_left]
  exact Nat.mod_eq_of_lt (f i).isLt

/-- A line as the die of a cluster sees it holds the bytes that the die sees. -/
theorem State.byte_dieLine (s : State) (cl : Nat) {a c : Nat} (same : a / 128 = c / 128) :
    (s.dieLine cl c).byte (a % 128) = s.seenByte (dieOfCluster cl) a := by
  have home : a / 128 * 128 + a % 128 = a := Nat.div_add_mod' a 128
  have low : a % 128 < 128 := Nat.mod_lt _ (by decide)
  unfold State.dieLine
  split
  · next none_lags =>
    have seen : s.seenByte (dieOfCluster cl) a = s.readByte a := by
      rw [State.seenByte, List.isEmpty_iff.mp none_lags]
      rfl
    rw [State.homeLine, State.readNat, State.readBytes, Line.byte_ofBytes _ _ low, ← same, home, seen]
  · rw [Line.byte_ofBytes _ _ low, ← same, home]

/-- Replacing one byte of a line leaves the others. -/
theorem Line.byte_setByte_other (l : Line) {i j : Nat} (b : Byte) (dirty : Bool) (other : i ≠ j) :
    (l.setByte j b dirty).byte i = l.byte i := by
  apply BitVec.eq_of_getLsbD_eq
  intro k hk
  have outside : 8 * i + k < 8 * j ∨ 8 ≤ 8 * i + k - 8 * j := by omega
  have ones : ∀ m, 8 ≤ m → (0xFF#1024).getLsbD m = false := by
    intro m hm
    have : Nat.testBit 255 m = false :=
      Nat.testBit_lt_two_pow (lt_of_lt_of_le (by decide) (Nat.pow_le_pow_right (by decide) hm))
    rw [BitVec.getLsbD_ofNat, this, Bool.and_false]
  have byte : ∀ m, 8 ≤ m → (b.setWidth 1024).getLsbD m = false := by
    intro m hm
    rw [BitVec.getLsbD_setWidth, BitVec.getLsbD_of_ge b m hm, Bool.and_false]
  simp only [Line.byte, Line.setByte, BitVec.getLsbD_extractLsb', BitVec.getLsbD_or, BitVec.getLsbD_and, BitVec.getLsbD_not,
    BitVec.getLsbD_shiftLeft]
  rcases outside with h | h
  · by_cases wide : 8 * i + k < 1024
    · simp [h, wide]
    · simp [BitVec.getLsbD_of_ge l.data _ (Nat.le_of_not_lt wide), h]
  · by_cases wide : 8 * i + k < 1024
    · simp [ones _ h, byte _ h, wide]
    · simp [BitVec.getLsbD_of_ge l.data _ (Nat.le_of_not_lt wide), byte _ h]

/-! ### A byte that an access leaves -/

/-- The byte that a line of the cluster holds, when it has the line. -/
def State.lineByte? (s : State) (cl a : Nat) : Option Byte := (s.line? cl a).map (·.byte (a % 128))

theorem State.clusterByte_eq (s : State) (cl a : Nat) :
    s.clusterByte cl a = (s.lineByte? cl a).getD (s.seenByte (dieOfCluster cl) a) := by
  unfold State.clusterByte State.lineByte?
  cases s.line? cl a <;> rfl

/-- A byte stays as it is at its home and as the cluster reads it. -/
def SameByte (cl a : Nat) (s t : State) : Prop := t.readByte a = s.readByte a ∧ t.clusterByte cl a = s.clusterByte cl a

/-- It stays so at its home, as the cluster's die sees it, and in the cluster's line. -/
structure KeepsByte (cl a : Nat) (s t : State) : Prop where
  home : t.readByte a = s.readByte a
  seen : t.seenByte (dieOfCluster cl) a = s.seenByte (dieOfCluster cl) a
  line : t.lineByte? cl a = s.lineByte? cl a

section
variable {cl a : Nat} {s t w : State}

theorem SameByte.refl (cl a : Nat) (s : State) : SameByte cl a s s := ⟨rfl, rfl⟩

theorem SameByte.trans (st : SameByte cl a s t) (tw : SameByte cl a t w) : SameByte cl a s w :=
  ⟨tw.1.trans st.1, tw.2.trans st.2⟩

theorem sameByte_foldl {α : Type} {f : State → α → State} {ls : List α} (s : State)
    (each : ∀ u, ∀ b ∈ ls, SameByte cl a u (f u b)) : SameByte cl a s (ls.foldl f s) :=
  List.foldlRecOn ls f (motive := SameByte cl a s) (.refl ..) fun u hu b hb => hu.trans (each u b hb)

theorem KeepsByte.refl (cl a : Nat) (s : State) : KeepsByte cl a s s := ⟨rfl, rfl, rfl⟩

theorem KeepsByte.trans (st : KeepsByte cl a s t) (tw : KeepsByte cl a t w) : KeepsByte cl a s w :=
  ⟨tw.home.trans st.home, tw.seen.trans st.seen, tw.line.trans st.line⟩

theorem keepsByte_foldl {α : Type} {f : State → α → State} {ls : List α} (s : State)
    (each : ∀ u, ∀ b ∈ ls, KeepsByte cl a u (f u b)) : KeepsByte cl a s (ls.foldl f s) :=
  List.foldlRecOn ls f (motive := KeepsByte cl a s) (.refl ..) fun u hu b hb => hu.trans (each u b hb)

theorem KeepsByte.sameByte (h : KeepsByte cl a s t) : SameByte cl a s t :=
  ⟨h.home, by rw [State.clusterByte_eq, State.clusterByte_eq, h.line, h.seen]⟩

/-! ### Writes of another byte -/

theorem keepsByte_writeByte (s : State) {c : Nat} (b : Byte) (other : a ≠ c) : KeepsByte cl a s (s.writeByte c b) := by
  have home := s.readByte_writeByte_other b other
  refine ⟨home, ?_, rfl⟩
  show (((s.dieView _).get? a).getD ((s.writeByte c b).readByte a)) = _
  rw [home]
  rfl

theorem keepsByte_unview (s : State) (die : Nat) {sel : Nat → Bool} (other : sel a = false) :
    KeepsByte cl a s (s.unview die sel) := by
  have mem : (s.unview die sel).mem = s.mem := by unfold State.unview; split <;> rfl
  have clusters : (s.unview die sel).clusters = s.clusters := by unfold State.unview; split <;> rfl
  have home := State.readByte_of_mem mem a
  refine ⟨home, ?_, by unfold State.lineByte? State.line? State.cluster; rw [clusters]⟩
  have view : ((s.unview die sel).dieView (dieOfCluster cl)).get? a = (s.dieView (dieOfCluster cl)).get? a := by
    unfold State.unview
    split
    · rfl
    · have kept : Tbl.get? ((s.dieView die).filter fun e => !sel e.1) a = (s.dieView die).get? a := by
        rw [Tbl.get?_filter_keys (fun k => !sel k), other]
        rfl
      unfold State.setView State.dieView
      dsimp only
      by_cases same : dieOfCluster cl = die
      · rw [same]
        rw [State.dieView] at kept
        split
        · next none_left =>
          rw [Tbl.get?_del, if_pos rfl, ← kept, List.isEmpty_iff.mp none_left]
          rfl
        · rw [Tbl.get?_put_same]
          exact kept
      · split
        · rw [Tbl.get?_del, if_neg same]
        · rw [Tbl.get?_put_other _ _ same]
  rw [State.seenByte, State.seenByte, view, home]

theorem keepsByte_updLine (s : State) (line : Nat) {g : Line → Line}
    (kept : line = a / 128 → ∀ l, (g l).byte (a % 128) = l.byte (a % 128)) :
    KeepsByte cl a s (s.updCluster cl fun k => { k with l1 := k.l1.upd line g }) := by
  refine ⟨rfl, rfl, ?_⟩
  unfold State.lineByte? State.line?
  rw [State.cluster_updCluster, if_pos rfl, Tbl.get?_upd]
  split
  · next same =>
    rw [← same, Option.map_map]
    exact congrArg (Option.map · _) (funext (kept same.symm))
  · rfl

/-- Writing back other bytes of a line. -/
theorem keepsByte_cleanLine (s : State) (line : Nat) {sel : Nat → Bool} (other : sel a = false) :
    KeepsByte cl a s (s.cleanLine cl line sel) := by
  unfold State.cleanLine
  split
  · exact .refl ..
  · refine keepsByte_foldl s fun u i _ => ?_
    split
    · next selected =>
      have apart : a ≠ line * 128 + i := by
        rintro rfl
        rw [other, Bool.and_false] at selected
        cases selected
      exact ((keepsByte_writeByte u _ apart).trans (keepsByte_unview _ _ (by simpa using apart))).trans
        (keepsByte_updLine _ line fun _ _ => rfl)
    · exact .refl ..

/-- A store of another byte that bypasses L1. -/
theorem keepsByte_storeThrough (s : State) {h : HomeByte} (other : a ≠ h.addr) : KeepsByte cl a s (s.storeThrough cl h) := by
  have apart : (a == h.addr) = false := by simpa using other
  have clean : KeepsByte cl a s (s.cleanLine cl (h.addr / 128) (· == h.addr)) := keepsByte_cleanLine s _ apart
  refine (clean.trans (keepsByte_writeByte _ _ other)).trans ((keepsByte_updLine _ _ fun same l => ?_).trans
    (keepsByte_unview (sel := (· == h.addr)) _ _ apart))
  exact l.byte_setByte_other _ _ fun place => other (by omega)

/-! ### Cached accesses -/

/-- Filling a line changes no byte as the cluster reads it. -/
theorem sameByte_fillLine (s : State) (c : Nat) : SameByte cl a s (s.fillLine cl c) := by
  unfold State.fillLine
  split
  · exact .refl ..
  · next absent =>
    split
    · refine ⟨rfl, ?_⟩
      rw [State.clusterByte_eq, State.clusterByte_eq, State.lineByte?, State.lineByte?, State.line?, State.line?,
        State.cluster_updCluster, if_pos rfl, Tbl.get?_put]
      split
      · next same =>
        have before : (s.cluster cl).l1.get? (a / 128) = none := same ▸ absent
        rw [before, Option.map_some, s.byte_dieLine cl same]
        rfl
      · rfl
    · exact .refl ..

theorem sameByte_fillLines (s : State) (as : List Nat) : SameByte cl a s (fillLines cl as s) :=
  sameByte_foldl s fun u b _ => sameByte_fillLine u b

/-- A cached store of another byte. -/
theorem sameByte_storeLine (s : State) {c : Nat} (b : Byte) (other : a ≠ c) : SameByte cl a s (s.storeLine cl c b) := by
  unfold State.storeLine
  dsimp only
  split
  · exact (sameByte_fillLine s c).trans
      (keepsByte_updLine _ _ fun same l => l.byte_setByte_other _ _ fun place => other (by omega)).sameByte
  · exact ((keepsByte_writeByte s _ other).trans (keepsByte_unview _ _ (by simpa using other))).sameByte

end

end Sys2Proof.Machine
end

section
/-! What an access leaves of the registers of the teams, and where it leaves its clause (R222, R225, R312). -/

namespace Sys2Proof.Machine

open Sys2Proof

/-! ### A part of every team that a change keeps -/

theorem team?_of_trail {s : State} {p : Party} (h : p.kind = .trail) :
    s.team? p = (s.pairs.get? (pairKey p.crew p.team)).map (·.trail) := by
  unfold State.team?
  rw [h]

theorem setTeam_of_trail {s : State} {p : Party} (t : Team) (h : p.kind = .trail) :
    s.setTeam p t = { s with pairs := s.pairs.upd (pairKey p.crew p.team) fun q => { q with trail := t } } := by
  unfold State.setTeam
  rw [h]

theorem setTeam_of_kind {s : State} {p : Party} (t : Team) (h : p.kind ≠ .trail) :
    s.setTeam p t = s.updCrew p.crew fun c => { c with teams := c.teams.upd p.team fun _ => t } := by
  unfold State.setTeam
  split
  · next e => exact absurd e h
  · rfl

/-- Changing what a table lists keeps what the change keeps. -/
theorem Tbl.map_get?_upd {α β : Type} (π : α → β) {f : α → α} {t : Tbl α} {k : Nat}
    (keeps : ∀ v, t.get? k = some v → π (f v) = π v) (j : Nat) : ((t.upd k f).get? j).map π = (t.get? j).map π := by
  rw [Tbl.get?_upd]
  split
  · next same =>
    rw [same]
    cases there : t.get? k with
    | none => rfl
    | some v => exact congrArg some (keeps v there)
  · rfl

/-- The team of a party, by the teams of its crew. -/
theorem team?_eq_teams {s : State} {p : Party} (h : p.kind ≠ .trail) :
    s.team? p = ((s.crews.get? p.crew).map (·.teams)).bind fun ts => ts.get? p.team := by
  rw [team?_of_kind h]
  cases s.crews.get? p.crew <;> rfl

/-- A change of a crew that keeps its teams keeps the team of every party. -/
theorem team?_updCrew {s : State} {k : Nat} {f : Crew → Crew} (keeps : ∀ c, (f c).teams = c.teams) (q : Party) :
    (s.updCrew k f).team? q = s.team? q := by
  by_cases hq : q.kind = .trail
  · rw [team?_of_trail hq, team?_of_trail hq]
    rfl
  · rw [team?_eq_teams hq, team?_eq_teams hq]
    exact congrArg (Option.bind · _) (Tbl.map_get?_upd _ (fun c _ => keeps c) _)

/-- A change of a pair that keeps its trailing copy keeps the team of every party. -/
theorem team?_updPairs {s : State} {k : Nat} {f : Pair → Pair} (keeps : ∀ r, (f r).trail = r.trail) (q : Party) :
    ({ s with pairs := s.pairs.upd k f } : State).team? q = s.team? q := by
  by_cases hq : q.kind = .trail
  · rw [team?_of_trail hq, team?_of_trail hq]
    exact Tbl.map_get?_upd _ (fun r _ => keeps r) _
  · rw [team?_of_kind hq, team?_of_kind hq]

/-- A change of one team keeps, in every team, whatever it keeps of that one. -/
theorem map_team?_updTeam {β : Type} (π : Team → β) {f : Team → Team} (keeps : ∀ t, π (f t) = π t) (s : State) (p q : Party) :
    ((s.updTeam p f).team? q).map π = (s.team? q).map π := by
  cases ht : s.team? p with
  | none => rw [updTeam_of_none f ht]
  | some t =>
    rw [updTeam_of_some f ht]
    by_cases hp : p.kind = .trail
    · rw [setTeam_of_trail _ hp]
      by_cases hq : q.kind = .trail
      · rw [team?_of_trail hp] at ht
        rw [team?_of_trail hq, team?_of_trail hq, Option.map_map, Option.map_map]
        refine Tbl.map_get?_upd _ (fun r there => ?_) _
        rw [there] at ht
        exact (keeps t).trans (congrArg π (Option.some.inj ht)).symm
      · rw [team?_of_kind hq, team?_of_kind hq]
    · rw [setTeam_of_kind _ hp]
      by_cases hq : q.kind = .trail
      · rw [team?_of_trail hq, team?_of_trail hq]
        rfl
      · rw [team?_of_kind hp] at ht
        have nested (o : Option Crew) : (o.bind fun c => c.teams.get? q.team).map π =
            (o.map fun c => (c.teams.get? q.team).map π).getD none := by cases o <;> rfl
        rw [team?_of_kind hq, team?_of_kind hq, nested, nested]
        refine congrArg (Option.getD · none) (Tbl.map_get?_upd _ (fun c crew => Tbl.map_get?_upd π (fun m there => ?_) _) _)
        rw [crew, Option.bind_some, there] at ht
        exact (keeps t).trans (congrArg π (Option.some.inj ht)).symm

/-! ### Clauses in progress while loads complete (R223) -/

/-- The clauses in progress of a team and of its chaser. -/
def Team.issues (t : Team) : Option Clause × Option Clause := (t.th.issue, t.chaser.th.issue)

theorem Team.issue_of_issues (t : Team) (k : PartyKind) :
    (t.thread k).issue = match k with | .chaser => t.issues.2 | _ => t.issues.1 := by
  cases k <;> rfl

theorem Team.issues_setThread (t : Team) (k : PartyKind) {th : Thread} (h : th.issue = (t.thread k).issue) :
    (t.setThread k th).issues = t.issues := by
  cases k <;> simp_all [Team.issues, Team.setThread, Team.thread]

theorem Team.issues_applyWrite (t : Team) (k : PartyKind) (w : RegWrite) : (t.applyWrite k w).issues = t.issues := by
  cases w with
  | lane r l v =>
    show (t.writeLanes r _).issues = _
    unfold Team.writeLanes
    dsimp only
    split
    · exact foldl_keeps Team.issues fun u lv => by split <;> rfl
    · rfl
  | scalar r v => exact t.issues_setThread k rfl
  | norm r g v => rfl

theorem State.issues_updThread (s : State) (p q : Party) {f : Thread → Thread} (keeps : ∀ th, (f th).issue = th.issue) :
    ((s.updThread p f).team? q).map Team.issues = (s.team? q).map Team.issues :=
  map_team?_updTeam Team.issues (fun t => t.issues_setThread p.kind (keeps _)) s p q

/-- A load that completes leaves every clause in progress. -/
theorem State.issues_deliver (s : State) (p q : Party) (ld : PendingLoad) :
    ((s.deliver p ld).team? q).map Team.issues = (s.team? q).map Team.issues := by
  have writes := map_team?_updTeam Team.issues (f := fun t => ld.writes.foldl (fun u w => u.applyWrite p.kind w) t)
    (fun t => foldl_keeps Team.issues fun u w => u.issues_applyWrite p.kind w) s p q
  unfold State.deliver
  dsimp only
  split
  · exact writes
  · refine (congrArg (Option.map Team.issues) ?_).trans writes
    split
    · exact team?_updPairs (by intro; rfl) q
    · exact team?_updCrew (by intro; rfl) q

/-- So do the loads that an instruction awaits. -/
theorem State.issues_drainLoads (s : State) (p q : Party) :
    ((s.drainLoads p).team? q).map Team.issues = (s.team? q).map Team.issues := by
  unfold State.drainLoads
  split
  · rfl
  · next t _ =>
    refine (State.issues_updThread _ p q (by intro; rfl)).trans ?_
    exact foldl_keeps (fun s : State => (s.team? q).map Team.issues) fun u ld => u.issues_deliver p q ld

theorem Exe.issues_settleLoads (x : Exe) (ops : List Opnd) (s : State) (q : Party) :
    ((x.settleLoads ops s).team? q).map Team.issues = (s.team? q).map Team.issues := by
  unfold Exe.settleLoads
  refine (foldl_keeps (fun s : State => (s.team? q).map Team.issues) fun u p => u.issues_drainLoads p q).trans ?_
  split
  · exact s.issues_drainLoads x.p q
  · rfl

/-! ### Registers -/

/-- The vector registers of a team, and the scalar ones of it and of its chaser. -/
def Team.regs (t : Team) : Tbl Word × Tbl Word × Tbl Word := (t.v, t.th.s, t.chaser.th.s)

/-- Two states hold the same registers in every team. -/
def SameRegs (s t : State) : Prop := ∀ q, (t.team? q).map Team.regs = (s.team? q).map Team.regs

theorem SameRegs.trans {s t w : State} (st : SameRegs s t) (tw : SameRegs t w) : SameRegs s w :=
  fun q => (tw q).trans (st q)

theorem sameRegs_of_muster {s t : State} (h : t.muster = s.muster) : SameRegs s t :=
  fun q => by rw [team?_of_muster h q]

theorem sameRegs_updThread (s : State) (p : Party) {f : Thread → Thread} (keeps : ∀ th, (f th).s = th.s) :
    SameRegs s (s.updThread p f) :=
  map_team?_updTeam Team.regs (fun t => by
    have kept := keeps (t.thread p.kind)
    cases hk : p.kind <;> simp_all [Team.regs, Team.setThread, Team.thread]) s p

theorem SameRegs.vreg {s t : State} (h : SameRegs s t) (p : Party) (r l : Nat) :
    Claims.State.vreg t p r l = Claims.State.vreg s p r l := by
  have read (w : State) : Claims.State.vreg w p r l =
    (((w.team? p).map Team.regs).map fun g => g.1.read 0 (vkey r l)).getD 0 := by
    unfold Claims.State.vreg
    cases w.team? p <;> rfl
  rw [read, read, h p]

theorem SameRegs.sreg {s t : State} (h : SameRegs s t) (p : Party) (r : Nat) :
    Claims.State.sreg t p r = Claims.State.sreg s p r := by
  have read (w : State) : Claims.State.sreg w p r = (((w.team? p).map Team.regs).map fun g =>
      (match p.kind with | .chaser => g.2.2 | _ => g.2.1).read 0 r).getD 0 := by
    unfold Claims.State.sreg
    cases w.team? p with
    | none => rfl
    | some m => cases hk : p.kind <;> rfl
  rw [read, read, h p]

/-! ### Memory as a cluster sees it -/

/-- What a cluster's view of memory depends on. -/
def State.sight (s : State) : Tbl Byte × Tbl (Tbl Byte) × Tbl Cluster := (s.mem, s.views, s.clusters)

theorem sameByte_of_sight {s t : State} (h : t.sight = s.sight) (cl a : Nat) : SameByte cl a s t := by
  have home := State.readByte_of_mem (congrArg (·.1) h : t.mem = s.mem) a
  have views : t.views = s.views := congrArg (·.2.1) h
  have clusters : t.clusters = s.clusters := congrArg (·.2.2) h
  refine ⟨home, ?_⟩
  unfold State.clusterByte State.line? State.cluster State.seenByte State.dieView
  rw [views, clusters, home]

theorem State.sight_updThread (s : State) (p : Party) (f : Thread → Thread) : (s.updThread p f).sight = s.sight := by
  simp [State.sight]

/-! ### Counted accesses, and the next position (R222, R225) -/

theorem State.countStore_of_room {s : State} {p : Party} {m : Team} (cl : Nat) (st : PendingStore) (team : s.team? p = some m)
    (room : (m.thread p.kind).stores.length < 63) :
    s.countStore p cl st = s.updThread p fun th => { th with stores := th.stores ++ [st] } := by
  unfold State.countStore
  simp only [team, if_neg (Nat.not_le.mpr room)]

theorem State.countLoad_of_room {s : State} {p : Party} {m : Team} (ld : PendingLoad) (team : s.team? p = some m)
    (room : (m.thread p.kind).loads.length < 63) :
    s.countLoad p ld = s.updThread p fun th => { th with loads := th.loads ++ [ld] } := by
  unfold State.countLoad
  simp only [team, if_neg (Nat.not_le.mpr room)]

/-- What a completed instruction writes afresh loses its errors, and nothing else changes. -/
theorem Exe.cleansed_eq (x : Exe) (s : State) : ∃ ps, x.cleansed s = { s with poison := ps } := by
  unfold Exe.cleansed
  split
  · exact ⟨s.poison, rfl⟩
  · exact ⟨s.poison, rfl⟩
  · split
    · exact ⟨s.poison, rfl⟩
    · exact ⟨_, rfl⟩

/-- An instruction that is not the last of its clause moves to the next position. -/
theorem advance_notLast {x : Exe} {s : State} {m : Team} (team : s.team? x.p = some m)
    (issue : (m.thread x.p.kind).issue = some x.cl) (unpaired : x.team.role = .off) (notLast : Claims.NotLast x) :
    ∃ ps, advance x s = ({ s with poison := ps } : State).updClause x.p fun c =>
      { c with pos := x.cl.pos + x.parts.words, hold := none, meet := none, moved := 0, taken := [] } := by
  obtain ⟨ps, clean⟩ : ∃ ps, (if s.poison.isEmpty then s else x.cleansed s) = { s with poison := ps } := by
    split
    · exact ⟨s.poison, rfl⟩
    · exact x.cleansed_eq s
  refine ⟨ps, ?_⟩
  have uncounted (w : State) : w.countRetired x.p x.team = w := by simp [State.countRetired, unpaired]
  have there : ({ s with poison := ps } : State).team? x.p = some m := team
  unfold advance
  dsimp only
  rw [clean, uncounted, there]
  dsimp only
  rw [issue]
  exact if_neg (Nat.not_lt.mpr notLast)

/-- Moving to the next position leaves every register and every byte. -/
theorem advance_keeps {x : Exe} {s : State} {m : Team} (team : s.team? x.p = some m)
    (issue : (m.thread x.p.kind).issue = some x.cl) (unpaired : x.team.role = .off) (notLast : Claims.NotLast x) :
    SameRegs s (advance x s) ∧ ∀ cl a, SameByte cl a s (advance x s) := by
  obtain ⟨ps, after⟩ := advance_notLast team issue unpaired notLast
  rw [after]
  constructor
  · refine SameRegs.trans (t := { s with poison := ps }) (sameRegs_of_muster rfl) ?_
    exact sameRegs_updThread _ _ (by intro; rfl)
  · exact fun cl a => sameByte_of_sight (State.sight_updThread ..) cl a

end Sys2Proof.Machine

namespace Sys2Proof.Claims

open Sys2Proof Sys2Proof.Machine

/-- Where an instruction goes, its clause in progress is still that of its party. -/
theorem Goes.issue {i : Instr} {oc : Exe → State → Option Cause} {s u : State} {x : Exe} (goes : Goes i oc s x u) :
    ∃ m, u.team? x.p = some m ∧ (m.thread x.p.kind).issue = some x.cl := by
  obtain ⟨x0, s1, issuer, ready, rfl⟩ := goes
  obtain ⟨-, -, team, -, thread, issue, -⟩ := issuer_cases issuer
  obtain ⟨view, settled⟩ := prepare_go_view ready
  have party : x.p = x0.p := by rw [view, refresh_p]
  have clause : x.cl = x0.cl := by rw [view, refresh_cl]
  have same : ((setResult x .none s1).team? x.p).map Team.issues = some x0.team.issues := by
    refine (State.issues_updThread s1 x.p x.p (by intro; rfl)).trans ?_
    rw [settled, Exe.issues_settleLoads, party, team]
    rfl
  obtain ⟨m, there, issues⟩ := Option.map_eq_some_iff.mp same
  refine ⟨m, there, ?_⟩
  rw [Team.issue_of_issues, issues, ← Team.issue_of_issues, party, clause, ← thread, issue]

end Sys2Proof.Claims
end

section
/-! Frames of loads and stores: what they leave of memory and of the registers (R94, R307, R310 to R312). -/

namespace Sys2Proof.Machine

open Sys2Proof

/-! ### What the accesses of a cluster leave beside memory -/

/-- The crews with all that belongs to them, and what the copies of replicated pages have still to take. -/
def State.beside (s : State) : (Tbl Crew × Tbl Pair × Tbl Launch × Nat) × List Replica := (s.muster, s.replicas)

section
variable (s : State) (cl : Nat)

theorem State.muster_of_beside {s t : State} (h : t.beside = s.beside) : t.muster = s.muster := congrArg (·.1) h

theorem State.replicas_of_beside {s t : State} (h : t.beside = s.beside) : t.replicas = s.replicas := congrArg (·.2) h

@[simp] theorem State.beside_unview (die : Nat) (sel : Nat → Bool) : (s.unview die sel).beside = s.beside := by
  unfold State.unview
  split <;> rfl

@[simp] theorem State.beside_cleanLine (line : Nat) (sel : Nat → Bool) : (s.cleanLine cl line sel).beside = s.beside := by
  unfold State.cleanLine
  split
  · rfl
  · refine foldl_keeps State.beside fun u i => ?_
    split
    · exact State.beside_unview (u.writeByte _ _) ..
    · rfl

@[simp] theorem State.beside_fillLine (a : Nat) : (s.fillLine cl a).beside = s.beside := by
  unfold State.fillLine
  split
  · rfl
  · split <;> rfl

@[simp] theorem State.beside_fillLines (as : List Nat) : (fillLines cl as s).beside = s.beside :=
  foldl_keeps State.beside fun _ _ => State.beside_fillLine ..

@[simp] theorem State.beside_storeLine (a : Nat) (b : Byte) : (s.storeLine cl a b).beside = s.beside := by
  unfold State.storeLine
  dsimp only
  split
  · exact s.beside_fillLine cl a
  · exact State.beside_unview (s.writeByte a b) ..

@[simp] theorem State.beside_storeThrough (h : HomeByte) : (s.storeThrough cl h).beside = s.beside := by
  have written (u : State) (f : Cluster → Cluster) : ((u.writeHome h).updCluster cl f).beside = u.beside := rfl
  unfold State.storeThrough
  exact (State.beside_unview ..).trans ((written ..).trans (s.beside_cleanLine ..))

end

/-! ### Stores of bytes -/

/-- What a store has done to a state before it is counted: it wrote at addresses of `P` alone, and left to the copies of the
other dies what they have still to take. -/
structure StoredOnly (cl : Nat) (P : Nat → Prop) (s t : State) : Prop where
  muster : t.muster = s.muster
  foreign : ∀ r ∈ t.replicas, r.die ≠ dieOfCluster cl
  bytes : ∀ a, ¬P a → SameByte cl a s t

section
variable {cl : Nat} {P : Nat → Prop} {s t w : State}

theorem StoredOnly.of_beside (before : StoredOnly cl P s t) (beside : w.beside = t.beside)
    (bytes : ∀ a, ¬P a → SameByte cl a t w) : StoredOnly cl P s w where
  muster := (State.muster_of_beside beside).trans before.muster
  foreign := State.replicas_of_beside beside ▸ before.foreign
  bytes a ha := (before.bytes a ha).trans (bytes a ha)

theorem StoredOnly.storeLines {hs : List HomeByte} (before : StoredOnly cl P s t) (mine : ∀ h ∈ hs, P h.addr) :
    StoredOnly cl P s (hs.foldl (fun u h => u.storeLine cl h.addr h.val) t) :=
  before.of_beside (foldl_keeps State.beside fun _ _ => State.beside_storeLine ..) fun a ha =>
    sameByte_foldl t fun u h hh => sameByte_storeLine u h.val fun same : a = h.addr => ha (same ▸ mine h hh)

theorem StoredOnly.storeThroughs {hs : List HomeByte} (before : StoredOnly cl P s t) (mine : ∀ h ∈ hs, P h.addr) :
    StoredOnly cl P s (hs.foldl (fun u h => u.storeThrough cl h) t) :=
  before.of_beside (foldl_keeps State.beside fun _ _ => State.beside_storeThrough ..) fun a ha =>
    sameByte_foldl t fun u h hh => (keepsByte_storeThrough u fun same : a = h.addr => ha (same ▸ mine h hh)).sameByte

/-- With nothing left for the copies of a die, nothing is performed there. -/
theorem State.spread_foreign (s : State) {die : Nat} (P : Replica → Bool) (foreign : ∀ r ∈ s.replicas, r.die ≠ die) :
    s.spread (fun r => r.die == die && P r) = s := by
  have other : ∀ r ∈ s.replicas.reverse, (r.die == die && P r) = false := fun r hr => by
    simp [foreign r (List.mem_reverse.mp hr)]
  have due : ∀ (touches : Replica → Replica → Bool), s.replicas.reverse.foldl (fun (d : List Replica) r =>
      if (r.die == die && P r) || d.any (touches r) then r :: d else d) [] = [] := fun touches =>
    List.foldlRecOn _ _ (motive := (· = [])) rfl fun d hd r hr => by simp [hd, other r hr]
  unfold State.spread
  dsimp only
  rw [due]
  simp

/-- A store of one lane that bypasses L1. -/
theorem StoredOnly.storeHome {x : Exe} {b : StoreBytes} (serial : Nat) (before : StoredOnly x.team.cluster P s t)
    (mine : ∀ h ∈ b.bytes, P h.addr) (copies : b.phys.pm = true → ∀ h ∈ b.bytes, ∀ d < 12, P (h.addr + d * copyStride)) :
    StoredOnly x.team.cluster P s (x.storeHome serial b t) := by
  unfold Exe.storeHome
  dsimp only
  split
  · next replicated =>
    rw [t.spread_foreign _ before.foreign]
    have own := (before.storeThroughs mine).storeThroughs
      (hs := if dieOfCluster x.team.cluster < 12 ∧ dieOfCluster x.team.cluster ≠ 0 then
        b.bytes.map fun h => { h with addr := h.addr + dieOfCluster x.team.cluster * copyStride } else [])
      fun h hh => by
        split at hh
        · next die =>
          obtain ⟨g, hg, rfl⟩ := List.mem_map.mp hh
          exact copies replicated g hg _ die.1
        · cases hh
    refine ⟨own.muster, fun r hr => ?_, fun a ha => (own.bytes a ha).trans (sameByte_of_sight rfl ..)⟩
    rcases List.mem_append.mp hr with hr | hr
    · exact own.foreign r hr
    · obtain ⟨d, hd, rfl⟩ := List.mem_map.mp hr
      exact (by simpa using (List.mem_filter.mp hd).2 : d ≠ 0 ∧ d ≠ dieOfCluster x.team.cluster).2
  · exact before.storeThroughs mine

end

end Sys2Proof.Machine

namespace Sys2Proof.Claims

open Sys2Proof Sys2Proof.Machine

/-! ### The addresses of a store -/

theorem element_size {x : Exe} {a : LaneAddr} {y : Phys} {e : Elem} (h : x.element a y = .ok e) : 1 ≤ e.size := by
  have raw : 1 ≤ rawSize x.parts.td := by unfold rawSize; split <;> decide
  unfold Exe.element at h
  dsimp only at h
  repeat' split at h
  all_goals cases h
  all_goals simp [raw]

theorem mem_bytes_of_lt {e : Elem} (a : Nat) {k : Nat} (h : k < e.size) : a + k ∈ e.bytes a :=
  List.mem_append_left _ (List.mem_map.mpr ⟨k, List.mem_range.mpr h, rfl⟩)

theorem mem_bytes_scale {e : Elem} (a : Nat) {k : Nat}
    (scaled : blockScaled e.phys.fmt = true) (h : k < scaleBytes e.phys.fmt) :
    (e.block a).2.2 + k ∈ e.bytes a := by
  refine List.mem_append_right _ ?_
  rw [if_pos scaled]
  exact List.mem_map.mpr ⟨k, List.mem_range.mpr h, rfl⟩

theorem mem_wholeBytes {a : Nat} {bs : List Byte} {h : HomeByte} (hh : h ∈ wholeBytes a bs) :
    ∃ k < bs.length, h.addr = a + k := by
  obtain ⟨k, hk, rfl⟩ := List.mem_map.mp hh
  exact ⟨k, List.mem_range.mp hk, rfl⟩

/-- The bytes of a lane's store lie where one of the elements lies. -/
def Within (es : List Elem) (b : StoreBytes) : Prop :=
  ∃ e ∈ es, b.phys = e.phys ∧ ∀ h ∈ b.bytes, h.addr ∈ e.bytes e.phys.addr

theorem addr_of_single {e : Elem} (size : 1 ≤ e.size) {h g : HomeByte} (first : g.addr = e.phys.addr) (hh : h ∈ [g]) :
    h.addr ∈ e.bytes e.phys.addr := by
  rw [List.mem_singleton.mp hh, first]
  exact mem_bytes_of_lt e.phys.addr size

theorem addr_of_whole {e : Elem} {c : Nat} {h : HomeByte} (hh : h ∈ wholeBytes e.phys.addr (bytesOf e.size c)) :
    h.addr ∈ e.bytes e.phys.addr := by
  obtain ⟨k, hk, addr⟩ := mem_wholeBytes hh
  rw [length_bytesOf] at hk
  exact addr ▸ mem_bytes_of_lt _ hk

theorem storeElem_within {x : Exe} {e : Elem} (size : 1 ≤ e.size) {h : HomeByte} (hh : h ∈ x.storeElem e) :
    h.addr ∈ e.bytes e.phys.addr := by
  unfold Exe.storeElem at hh
  dsimp only at hh
  split at hh
  · exact addr_of_whole hh
  · split at hh
    · exact addr_of_single size (by rfl) hh
    · split at hh
      · exact addr_of_single size (by rfl) hh
      · exact addr_of_whole hh

/-- The elements of a block are elements of its scale. -/
theorem mem_blockElems {es : List Elem} {scaleAt : Nat} {p : Nat × Elem} (h : p ∈ blockElems es scaleAt) :
    p.2 ∈ es.filter fun e => blockScaled e.phys.fmt && (e.block e.phys.addr).2.2 == scaleAt := by
  have all : (blockElems es scaleAt).all (fun p => decide (p.2 ∈ es.filter fun e =>
      blockScaled e.phys.fmt && (e.block e.phys.addr).2.2 == scaleAt)) = true :=
    List.foldlRecOn _ _ (motive := fun t : Tbl Elem => t.all (fun p => decide (p.2 ∈ es.filter fun e =>
      blockScaled e.phys.fmt && (e.block e.phys.addr).2.2 == scaleAt)) = true) rfl
      fun t ht e he => Tbl.all_put ht (decide_eq_true he)
  exact of_decide_eq_true (List.all_eq_true.mp all p h)

theorem storeBlock_within {x : Exe} {es : List Elem} (sizes : ∀ e ∈ es, 1 ≤ e.size) {scaleAt : Nat} {b : StoreBytes}
    (hb : b ∈ x.storeBlock es scaleAt) : Within es b := by
  unfold Exe.storeBlock at hb
  dsimp only at hb
  split at hb
  · cases hb
  · next i last hlast =>
    have mine := mem_blockElems (List.mem_of_getLast? hlast)
    obtain ⟨mem, own⟩ := List.mem_filter.mp mine
    obtain ⟨scaled, scale⟩ := Bool.and_eq_true_iff.mp own
    rcases List.mem_append.mp hb with hb | hb
    · obtain ⟨e, he, rfl⟩ := List.mem_map.mp hb
      have mem := (List.mem_filter.mp he).1
      refine ⟨e, mem, rfl, fun h hh => ?_⟩
      dsimp only at hh
      split at hh
      · split at hh
        · exact addr_of_single (sizes e mem) (by rfl) hh
        · exact addr_of_whole hh
      · cases hh
    · rw [List.mem_singleton.mp hb]
      refine ⟨last, mem, rfl, fun h hh => ?_⟩
      obtain ⟨k, hk, addr⟩ := mem_wholeBytes hh
      rw [length_bytesOf] at hk
      rw [addr, ← eq_of_beq scale]
      exact mem_bytes_scale _ scaled hk

theorem mem_placeLane {b c : StoreBytes} {bs : List StoreBytes} : b ∈ placeLane c bs ↔ b = c ∨ b ∈ bs := by
  induction bs with
  | nil => simp [placeLane]
  | cons d bs ih =>
    rw [placeLane]
    split
    · exact List.mem_cons
    · simp only [List.mem_cons, ih]
      exact or_left_comm

theorem mem_sortLanes {b : StoreBytes} {bs : List StoreBytes} : b ∈ sortLanes bs ↔ b ∈ bs := by
  induction bs with
  | nil => rfl
  | cons c bs ih =>
    show b ∈ placeLane c (sortLanes bs) ↔ _
    rw [mem_placeLane, ih, List.mem_cons]

/-- Everything that the lanes of a store write lies where their elements lie. -/
theorem mem_stored {x : Exe} {as : List LaneAddr} {b : StoreBytes} (hb : b ∈ stored x as) : Within (elemsOf x as) b := by
  have sizes : ∀ e ∈ elemsOf x as, 1 ≤ e.size := fun e he => by
    obtain ⟨a, -, y, -, h⟩ := mem_elemsOf.mp he
    exact element_size h
  rcases List.mem_append.mp (mem_sortLanes.mp hb) with hb | hb
  · obtain ⟨e, he, rfl⟩ := List.mem_map.mp hb
    have mem := (List.mem_filter.mp he).1
    exact ⟨e, mem, rfl, fun h hh => storeElem_within (sizes e mem) hh⟩
  · obtain ⟨scaleAt, -, hb⟩ := List.mem_flatMap.mp hb
    exact storeBlock_within sizes hb

/-! ### What an access keeps until its instruction is complete -/

/-- An access keeps every register, its party's clause, and every byte whose address does not satisfy `P`. -/
structure AccessKeeps (x : Exe) (P : Nat → Prop) (s t : State) : Prop where
  issues : (t.team? x.p).map Team.issues = (s.team? x.p).map Team.issues
  regs : SameRegs s t
  bytes : ∀ a, ¬P a → SameByte x.team.cluster a s t

section
variable {x : Exe} {P : Nat → Prop} {s t w : State}

theorem AccessKeeps.trans (st : AccessKeeps x P s t) (tw : AccessKeeps x P t w) : AccessKeeps x P s w :=
  ⟨tw.issues.trans st.issues, st.regs.trans tw.regs, fun a ha => (st.bytes a ha).trans (tw.bytes a ha)⟩

theorem accessKeeps_of_muster (muster : t.muster = s.muster) (bytes : ∀ a, ¬P a → SameByte x.team.cluster a s t) :
    AccessKeeps x P s t :=
  ⟨by rw [team?_of_muster muster], sameRegs_of_muster muster, bytes⟩

/-- A change of a thread that keeps its clause and its registers. -/
theorem accessKeeps_updThread (s : State) (p : Party) {f : Thread → Thread} (issue : ∀ th, (f th).issue = th.issue)
    (regs : ∀ th, (f th).s = th.s) : AccessKeeps x P s (s.updThread p f) :=
  ⟨State.issues_updThread s p x.p issue, sameRegs_updThread s p regs,
    fun _ _ => sameByte_of_sight (State.sight_updThread ..) ..⟩

/-- A store outside a pair, with nothing left for other copies and room for one more, keeps what it does not write. -/
theorem storeBytes_keeps {bs : List StoreBytes} {m : Team} (alone : x.pair? s = none) (none_left : s.replicas = [])
    (team : s.team? x.p = some m) (room : (m.thread x.p.kind).stores.length < 63) (mine : ∀ b ∈ bs, ∀ h ∈ b.bytes, P h.addr)
    (copies : ∀ b ∈ bs, b.phys.pm = true → ∀ h ∈ b.bytes, ∀ d < 12, P (h.addr + d * copyStride)) :
    AccessKeeps x P s (storeBytes x bs s) := by
  have start : StoredOnly x.team.cluster P s s := ⟨rfl, by simp [none_left], fun a _ => .refl ..⟩
  unfold storeBytes
  rw [alone]
  dsimp only
  have written := List.foldlRecOn bs (fun (acc : State × List Nat) b =>
      if bypasses true b.phys then (x.storeHome s.nextSerial b acc.1, acc.2)
      else (b.bytes.foldl (fun u h => u.storeLine x.team.cluster h.addr h.val) acc.1, acc.2 ++ b.bytes.map (·.addr)))
    (b := (s, [])) (motive := fun acc => StoredOnly x.team.cluster P s acc.1) start fun acc before b hb => by
      split
      · exact before.storeHome _ (mine b hb) (copies b hb)
      · exact before.storeLines (mine b hb)
  have there := (team?_of_muster written.muster x.p).trans team
  rw [State.countStore_of_room _ _ there room]
  exact (accessKeeps_of_muster written.muster written.bytes).trans
    (accessKeeps_updThread _ _ (by intro; rfl) (by intro; rfl))

/-- A load with room for one more keeps every byte. -/
theorem loadInto_keeps {m : Team} (regs : Nat) (vals : List (Nat × Nat)) (es : List Elem) (team : s.team? x.p = some m)
    (room : (m.thread x.p.kind).loads.length < 63) : AccessKeeps x P s (loadInto x regs vals (lined x es s)) := by
  have beside : (lined x es s).beside = s.beside := foldl_keeps State.beside fun u e => by
    split
    · rfl
    · exact u.beside_fillLines ..
  have bytes (a : Nat) : SameByte x.team.cluster a s (lined x es s) := sameByte_foldl s fun u e _ => by
    split
    · exact .refl ..
    · exact sameByte_fillLines ..
  have muster := State.muster_of_beside beside
  have there := (team?_of_muster muster x.p).trans team
  unfold loadInto
  dsimp only
  rw [State.countLoad_of_room _ there room]
  exact ((accessKeeps_of_muster muster fun a _ => bytes a).trans
    (accessKeeps_updThread _ _ (by intro; rfl) (by intro; rfl))).trans
    (accessKeeps_updThread _ _ (by intro; rfl) (by intro; rfl))

end

/-! ### Frames of an instruction -/

section
variable {i : Instr} {oc : Exe → State → Option Cause} {s u w t : State} {x : Exe} {P : Nat → Prop} {as : List LaneAddr}

/-- An instruction that completes after an access and is not the last of its clause keeps what its access keeps. -/
theorem frames_of_access (goes : Goes i oc s x u) (notLast : NotLast x) (unpaired : x.team.role = .off)
    (access : AccessKeeps x P u w) (done : exec i s = .next (advance x w)) (after : exec i s = .next t) :
    (∀ a, ¬P a → t.readByte a = u.readByte a ∧ t.clusterByte x.team.cluster a = u.clusterByte x.team.cluster a) ∧
    (∀ r l, State.vreg t x.p r l = State.vreg u x.p r l) ∧ (∀ q r, State.sreg t q r = State.sreg u q r) := by
  obtain rfl : advance x w = t := Host.Outcome.next.inj (done.symm.trans after)
  obtain ⟨m, team, issue⟩ := goes.issue
  obtain ⟨m', team', issues⟩ := Option.map_eq_some_iff.mp (access.issues.trans (congrArg (Option.map _) team))
  have issue' : (m'.thread x.p.kind).issue = some x.cl := by
    rw [Team.issue_of_issues, issues, ← Team.issue_of_issues, issue]
  obtain ⟨regs, bytes⟩ := advance_keeps team' issue' unpaired notLast
  have kept := access.regs.trans regs
  exact ⟨fun a ha => (access.bytes a ha).trans (bytes _ a), fun r l => kept.vreg x.p r l, fun q r => kept.sreg q r⟩

/-- Without a walk to commit, the elements are accessed where the instruction goes. -/
theorem reachedState_of_fills (fills : ∀ a ∈ as, ∀ y, a.res = .ok y → y.fill = none) : reachedState x u as = u := by
  refine State.commitFills_none _ _ fun y hy => ?_
  obtain ⟨e, he, rfl⟩ := List.mem_map.mp hy
  obtain ⟨a, ha, y, hy, h⟩ := mem_elemsOf.mp he
  exact (element_ok h).2.2 ▸ fills a ha y hy

/-- A store keeps every byte that it does not store, and every register. -/
theorem store_frames (goes : Goes i oc s x u) (notLast : NotLast x) (unpaired : x.team.role = .off) (quiet : Quiet x u as)
    (stores : Stores i s x u as) (after : exec i s = .next t) :
    (∀ a, ¬StoredAt x as a → t.readByte a = u.readByte a ∧
      t.clusterByte x.team.cluster a = u.clusterByte x.team.cluster a) ∧
    (∀ r l, State.vreg t x.p r l = State.vreg u x.p r l) ∧ (∀ q r, State.sreg t q r = State.sreg u q r) := by
  obtain ⟨alone, none_left, fills, m, team, -, room⟩ := quiet
  rw [Stores, reachedState_of_fills fills] at stores
  refine frames_of_access goes notLast unpaired (storeBytes_keeps alone none_left team room ?_ ?_) stores after
  · intro b hb h hh
    obtain ⟨e, he, -, within⟩ := mem_stored hb
    exact ⟨e, he, h.addr, within h hh, .inl rfl⟩
  · intro b hb replicated h hh d hd
    obtain ⟨e, he, phys, within⟩ := mem_stored hb
    exact ⟨e, he, h.addr, within h hh, .inr ⟨phys ▸ replicated, d, hd, rfl⟩⟩

/-- A load keeps every byte, and every register until it completes. -/
theorem load_frames (goes : Goes i oc s x u) (notLast : NotLast x) (unpaired : x.team.role = .off) (quiet : Quiet x u as)
    (loads : Loads i s x u as) (after : exec i s = .next t) :
    (∀ a, t.readByte a = u.readByte a ∧ t.clusterByte x.team.cluster a = u.clusterByte x.team.cluster a) ∧
    (∀ r l, State.vreg t x.p r l = State.vreg u x.p r l) ∧ (∀ q r, State.sreg t q r = State.sreg u q r) := by
  obtain ⟨-, -, fills, m, team, room, -⟩ := quiet
  rw [Loads, reachedState_of_fills fills] at loads
  obtain ⟨bytes, regs⟩ := frames_of_access (P := fun _ => False) goes notLast unpaired
    (loadInto_keeps _ _ _ team room) loads after
  exact ⟨fun a => bytes a not_false, regs⟩

end

/-- Settles O46: a store writes where its elements lie, a load nothing; the registers that a load gives are written when it
completes. -/
theorem memoryFrames : Obligations.MemoryFrames := by
  constructor
  · intro i mw f s x u as access goes notLast _ unpaired quiet t after reaches unwatched whole
    refine store_frames goes notLast unpaired quiet ?_ after
    simp only [List.mem_cons, Prod.mk.injEq, List.not_mem_nil, or_false] at access
    rcases access with ⟨rfl, rfl⟩ | ⟨rfl, rfl⟩ | ⟨rfl, rfl⟩
    · exact stores_complete (exec_st ..) goes rfl (fun _ => unwatched) reaches whole
    · exact stores_complete (exec_stg ..) goes rfl (fun _ => unwatched) reaches whole
    · exact stores_complete (exec_stp ..) goes rfl nofun reaches whole
  · intro i mw f s x u as access goes notLast _ unpaired quiet plain t after reaches unwatched clean
    refine load_frames goes notLast unpaired quiet ?_ after
    simp only [List.mem_cons, Prod.mk.injEq, List.not_mem_nil, or_false] at access
    rcases access with ⟨rfl, rfl⟩ | ⟨rfl, rfl⟩ | ⟨rfl, rfl⟩
    · exact loads_complete (exec_ld ..) goes rfl (fun _ => unwatched) reaches clean
    · exact loads_complete (exec_ldg ..) goes rfl (fun _ => unwatched) reaches clean
    · have load : x.parts.fx = 0 ∨ x.parts.fx = 2 := by simpa using plain
      exact loads_complete (exec_ldp_load goes load) goes rfl nofun reaches clean

end Sys2Proof.Claims
end

section
/-! ACQ, REL, bindings, fences and SHOOT (R117 to R120, R122, R128, R176, R322 to R325). -/

namespace Sys2Proof.Claims

open Sys2Proof Sys2Proof.Machine

/-- A meeting point that cannot stop once its operands have passed completes with its effect, in a pair for both copies. -/
theorem doesMeet_of_performMeet {i : Instr} {oc : Exe → State → Option Cause} {e : Exe → State → State}
    (run : ∀ s, exec i s = performMeet i oc (fun x u => .ok (e x u)) s) : DoesMeet i oc e :=
  fun s _ _ _ _ goes => goes.exec_ok (run s) rfl

/-- The 64 KiB page of a pointer stands in its bits 47:16 (R97). -/
theorem vpage_eq (p : DWord) : vpage p = p.toNat / 2 ^ 16 % 2 ^ 32 := by
  rw [vpage, extractLsb'_eq_div, BitVec.toNat_ofNat]

/-! ### Sync objects (R117, R120, R322) -/

section
variable {f : RRR} {s u : State} {x : Exe} {y : Phys} {fin : State → State} {stop : Trap → State → State}

/-- The model finds the word that a sync object's pointer reaches. -/
theorem SyncReaches.syncObj (reaches : SyncReaches x u y) : x.syncObj u = .ok y := by
  obtain ⟨quiet, word⟩ := reaches
  simp only [Exe.syncObj, quiet, bind, Except.bind]
  exact word

theorem acq_complete (goes : GoesMeet (.acq f) noCheck s x u fin stop) (reaches : SyncReaches x u y) :
    let u1 := ((u.commitFills x.agent [y]).evictLine x.team.cluster (y.addr / 128)).unview (ownDie x)
      (fun a => y.addr ≤ a && a < y.addr + 8)
    (∀ i < 8, u1.poisoned (y.addr + i) = false) →
    let v : DWord := BitVec.ofNat 64 (u1.readNat y.addr 8)
    exec (.acq f) s = .next (fin (setResult x (.scalar v.lo)
      ((u1.acquireObj x.crew x.team (x.pair x.parts.a) x.scope).countLoad x.p
        { writes := if x.parts.w then []
            else [.scalar (x.regNum .s x.parts.d) v.lo, .scalar (x.regNum .s x.parts.d + 1) v.hi] }))) := by
  intro u1 clean v
  have sound : ¬((List.range 8).any fun i => u1.poisoned (y.addr + i)) = true := by
    simpa using clean
  refine goes.exec_ok (show exec (.acq f) s = execAcq f s from rfl) ?_
  simp only [reaches.syncObj, bind, Except.bind]
  exact if_neg sound

theorem rel_complete (goes : GoesMeet (.rel f) noCheck s x u fin stop) (reaches : SyncReaches x u y) :
    exec (.rel f) s =
      .next (fin (x.relWrite y ((u.commitFills x.agent [y]).releaseObj x.p x.crew x.team (x.pair x.parts.a)))) := by
  refine goes.exec_ok (show exec (.rel f) s = execRel f s from rfl) ?_
  simp only [reaches.syncObj, bind, Except.bind]

end

/-! ### SHOOT (R128, R129, R325) -/

theorem does_shoot (f : RRR) : Does (.shoot f) noCheck (fun x u =>
    let u1 := (u.drainTeam x.p).unview (ownDie x) fun _ => true
    if x.sB.toNat = 0 then u1
    else waitFrom x (.shoot x.crew.ctx ((x.pair x.parts.a).toNat / 2 ^ 16 % 2 ^ 32) x.sB.toNat x.scope) u1) := by
  simp only [← vpage_eq]
  exact does_of_performPure (execShoot f) (fun _ => rfl) fun _ => rfl

/-- Settles O27: ACQ and REL once the word of their object is found; the others cannot stop once their operands have passed. -/
theorem orderingResults : Obligations.OrderingResults := fun f rs z =>
  ⟨fun _ _ _ _ _ _ goes reaches => acq_complete goes reaches,
    fun _ _ _ _ _ _ goes reaches => rel_complete goes reaches,
    does_of_performPure (execBind f) (fun _ => rfl) fun _ => rfl,
    does_of_performPure (execUnbind rs) (fun _ => rfl) fun _ => rfl,
    doesMeet_of_performMeet (i := .fence z) fun _ => rfl,
    doesMeet_of_performMeet (i := .fencePt z) fun _ => rfl,
    does_shoot f⟩

end Sys2Proof.Claims
end

section
/-! The order of winner-list rows and of packed pairs (R147, R295, R301). FP32 words that are no NaN compare as the integer
multiples of 2^-149 that they stand for, and both orders follow from that. -/

namespace Sys2Proof.Machine

open Sys2Proof

/-! ### FP32 words as integers (R180) -/

/-- The magnitude of the low 31 bits of an FP32 word in units of 2^-149; an infinity takes the unit after the largest. -/
def magnitude (n : Nat) : Nat :=
  if n / 2 ^ 23 = 0 then n % 2 ^ 23 else (n % 2 ^ 23 + 2 ^ 23) * 2 ^ (n / 2 ^ 23 - 1)

/-- An FP32 word that is no NaN in units of 2^-149. -/
def level (v : Word) : Int :=
  if v.getLsbD 31 then -(magnitude (v.toNat % 2 ^ 31) : Int) else magnitude (v.toNat % 2 ^ 31)

theorem magnitude_lt_succ (n : Nat) : magnitude n < magnitude (n + 1) := by
  unfold magnitude
  by_cases carry : (n + 1) % 2 ^ 23 = 0
  · have exp : (n + 1) / 2 ^ 23 = n / 2 ^ 23 + 1 := by omega
    have frac : n % 2 ^ 23 = 2 ^ 23 - 1 := by omega
    rw [exp, frac, carry]
    rcases Nat.eq_zero_or_eq_succ_pred (n / 2 ^ 23) with h | h <;> rw [h]
    · decide
    · have pos := Nat.two_pow_pos (n / 2 ^ 23).pred
      simp only [Nat.add_one_sub_one, Nat.succ_eq_add_one, if_neg (Nat.succ_ne_zero _), Nat.pow_succ _ (n / 2 ^ 23).pred]
      omega
  · have exp : (n + 1) / 2 ^ 23 = n / 2 ^ 23 := by omega
    have frac : (n + 1) % 2 ^ 23 = n % 2 ^ 23 + 1 := by omega
    rw [exp, frac]
    split
    · omega
    · exact Nat.mul_lt_mul_of_pos_right (by omega) (Nat.two_pow_pos _)

theorem magnitude_strictMono : StrictMono magnitude := strictMono_nat_of_lt_succ magnitude_lt_succ

/-- The unit at which the infinities stand. -/
def infinity : Nat := magnitude (255 * 2 ^ 23)

/-- The fields of an FP32 word decide what it stands for. -/
theorem f32_decode (v : Word) : f32.decode v.toNat =
    let n := v.toNat % 2 ^ 31
    if n / 2 ^ 23 = 255 then (if n % 2 ^ 23 = 0 then .inf (v.getLsbD 31) else .nan)
    else if n / 2 ^ 23 = 0 then .fin (v.getLsbD 31) (n % 2 ^ 23) (-149)
    else .fin (v.getLsbD 31) (n % 2 ^ 23 + 2 ^ 23) ((n / 2 ^ 23 : Nat) - 150) := by
  have exp : field v.toNat 23 8 = v.toNat % 2 ^ 31 / 2 ^ 23 := by
    rw [field, Nat.shiftRight_eq_div_pow]; omega
  have frac : field v.toNat 0 23 = v.toNat % 2 ^ 31 % 2 ^ 23 := by
    rw [field, Nat.shiftRight_zero]; omega
  have sign : v.toNat.testBit 31 = v.getLsbD 31 := rfl
  simp only [FFmt.decode, f32, exp, frac, sign]
  simp [sub_sub]

/-- A word that is no NaN is an infinity, or a multiple of 2^-149 below the infinities. -/
theorem f32_decode_number {v : Word} (number : wnan v = false) :
    (f32.decode v.toNat = .inf (v.getLsbD 31) ∧ magnitude (v.toNat % 2 ^ 31) = infinity) ∨
    ∃ m e, f32.decode v.toNat = .fin (v.getLsbD 31) m e ∧ -149 ≤ e ∧
      m * 2 ^ (e + 149).toNat = magnitude (v.toNat % 2 ^ 31) ∧ magnitude (v.toNat % 2 ^ 31) < infinity := by
  rw [wnan, f32_decode] at number
  rw [f32_decode]
  dsimp only at *
  have bound : v.toNat % 2 ^ 31 < 2 ^ 31 := Nat.mod_lt _ (by decide)
  generalize v.toNat % 2 ^ 31 = n at *
  by_cases top : n / 2 ^ 23 = 255
  · rw [if_pos top] at number ⊢
    by_cases inf : n % 2 ^ 23 = 0
    · exact .inl ⟨if_pos inf, congrArg magnitude (by omega)⟩
    · rw [if_neg inf] at number
      cases number
  · have below : magnitude n < infinity := magnitude_strictMono (by omega)
    rw [if_neg top]
    by_cases sub : n / 2 ^ 23 = 0
    · exact .inr ⟨_, _, if_pos sub, le_rfl, by rw [magnitude, if_pos sub]; exact Nat.mul_one _, below⟩
    · refine .inr ⟨_, _, if_neg sub, by omega, ?_, below⟩
      rw [magnitude, if_neg sub, show (((n / 2 ^ 23 : Nat) : Int) - 150 + 149).toNat = n / 2 ^ 23 - 1 by omega]

theorem numAt_scale (s : Bool) (m : Nat) {e q r : Int} (he : q ≤ e) (hq : r ≤ q) :
    numAt s m e r = numAt s m e q * 2 ^ (q - r).toNat := by
  have split : (e - r).toNat = (e - q).toNat + (q - r).toNat := by omega
  simp only [numAt, Nat.shiftLeft_eq, split, pow_add, ← mul_assoc]
  cases s <;> simp

/-- Finite values compare as their numerators over any common unit. -/
theorem FVal.cmp_fin {s s' : Bool} {m m' : Nat} {e e' q : Int} (he : q ≤ e) (he' : q ≤ e') :
    (FVal.fin s m e).cmp (.fin s' m' e') = some (compare (numAt s m e q) (numAt s' m' e' q)) := by
  have unit : q ≤ min e e' := le_min he he'
  rw [numAt_scale s m (min_le_left e e') unit, numAt_scale s' m' (min_le_right e e') unit, ← cmp_eq_compare,
    cmp_mul_pos_right (by positivity), cmp_eq_compare]
  rfl

theorem level_between {v : Word} {c : Nat} (h : magnitude (v.toNat % 2 ^ 31) < c) : -(c : Int) < level v ∧ level v < c := by
  unfold level
  split <;> omega

/-- An infinity stands beyond every level below its own. -/
theorem compare_infinity (s : Bool) {c x : Int} (between : -c < x ∧ x < c) :
    compare (if s then -c else c) x = if s then .lt else .gt := by
  cases s
  · exact compare_gt_iff_gt.2 between.2
  · exact compare_lt_iff_lt.2 between.1

theorem compare_infinities (s t : Bool) {c : Int} (pos : 0 < c) :
    compare (if s then -c else c) (if t then -c else c) = compare t.toNat s.toNat := by
  have less : -c < c := by omega
  cases s <;> cases t
  · exact Std.ReflCmp.compare_self
  · exact compare_gt_iff_gt.2 less
  · exact compare_lt_iff_lt.2 less
  · exact Std.ReflCmp.compare_self

/-- Words that are no NaN compare as their levels do. -/
theorem wcmp_eq_compare_level {a b : Word} (ha : wnan a = false) (hb : wnan b = false) :
    wcmp a b = some (compare (level a) (level b)) := by
  have unit {v : Word} {m : Nat} {e : Int} (h : m * 2 ^ (e + 149).toNat = magnitude (v.toNat % 2 ^ 31)) :
      numAt (v.getLsbD 31) m e (-149) = level v := by
    simp only [numAt, level, sub_neg_eq_add, Nat.shiftLeft_eq, h]
  have inf {v : Word} (h : magnitude (v.toNat % 2 ^ 31) = infinity) :
      level v = if v.getLsbD 31 then -(infinity : Int) else infinity := by rw [level, h]
  unfold wcmp
  rcases f32_decode_number ha with ⟨da, ia⟩ | ⟨m, e, da, le, ma, ba⟩ <;>
    rcases f32_decode_number hb with ⟨db, ib⟩ | ⟨m', e', db, le', mb, bb⟩ <;> rw [da, db]
  · have pos : (0 : Int) < infinity := by exact_mod_cast magnitude_strictMono (a := 0) (by decide)
    rw [inf ia, inf ib, compare_infinities _ _ pos]
    rfl
  · rw [inf ia, compare_infinity _ (level_between bb)]
    rfl
  · rw [inf ib, ← Int.compare_swap, compare_infinity _ (level_between ba)]
    cases b.getLsbD 31 <;> rfl
  · rw [FVal.cmp_fin le le', unit ma, unit mb]

theorem FVal.isNan_iff {v : FVal} : v.isNan = true ↔ v = .nan := by
  cases v <;> simp [FVal.isNan]

@[simp] theorem FVal.cmp_nan (v : FVal) : v.cmp .nan = none := by
  cases v <;> rfl

/-- Only words that are no NaN compare. -/
theorem number_of_wcmp {a b : Word} {o : Ordering} (h : wcmp a b = some o) : wnan a = false ∧ wnan b = false := by
  rw [wcmp] at h
  refine ⟨Bool.eq_false_iff.2 fun nan => ?_, Bool.eq_false_iff.2 fun nan => ?_⟩ <;> rw [FVal.isNan_iff.1 nan] at h
  · cases h
  · rw [FVal.cmp_nan] at h
    cases h

/-- The order of a pair of words read the other way (R147). -/
theorem wcmp_swap {a b : Word} {o : Ordering} (h : wcmp a b = some o) : wcmp b a = some o.swap := by
  obtain ⟨ha, hb⟩ := number_of_wcmp h
  rw [wcmp_eq_compare_level ha hb, Option.some_inj] at h
  rw [wcmp_eq_compare_level hb ha, ← h, Int.compare_swap]

/-! ### The order of a row (R147, R295) -/

theorem ahead_asymm {a b : DWord} (h : ahead a b = true) : ahead b a = false := by
  unfold ahead at h ⊢
  cases c : wcmp a.lo b.lo with
  | none => simp [c] at h
  | some o =>
    rw [wcmp_swap c]
    cases o with
    | lt => simp [c] at h
    | eq =>
      have less : a.hi.toNat < b.hi.toNat := by simpa [c, BitVec.ult] using h
      simpa [BitVec.ult] using less.le
    | gt => rfl

/-- Inserting an entry is the library's ordered insertion by the order of the row. -/
theorem insertEntry_eq (c : DWord) (es : List DWord) : insertEntry c es = es.orderedInsert (ahead · ·) c := by
  induction es with
  | nil => rfl
  | cons e t ih => rw [insertEntry, List.orderedInsert_cons, ih]

@[simp] theorem length_insertEntry (c : DWord) (es : List DWord) : (insertEntry c es).length = es.length + 1 := by
  rw [insertEntry_eq, List.orderedInsert_length]

@[simp] theorem mem_insertEntry {c e : DWord} {es : List DWord} : e ∈ insertEntry c es ↔ e = c ∨ e ∈ es := by
  rw [insertEntry_eq, List.mem_orderedInsert]

theorem head?_insertEntry {c d : DWord} {es : List DWord} (h : d ∈ (insertEntry c es).head?) :
    d = c ∨ d ∈ es.head? := by
  cases es with
  | nil => simpa [insertEntry, eq_comm] using h
  | cons e t =>
    rw [insertEntry] at h
    split at h
    · exact .inl (by simpa [eq_comm] using h)
    · exact .inr h

theorem ordered_iff {es : List DWord} : ordered es = true ↔ es.IsChain (fun a b => ahead b a = false) := by
  induction es with
  | nil => simp [ordered]
  | cons a t ih => cases t with
    | nil => simp [ordered]
    | cons b t => simp [ordered, ih]

/-- An entry goes in ahead of the first that it is ahead of, and so behind one that it is not ahead of. -/
theorem isChain_insertEntry (c : DWord) {es : List DWord} (h : es.IsChain fun a b => ahead b a = false) :
    (insertEntry c es).IsChain fun a b => ahead b a = false := by
  induction es with
  | nil => exact .singleton c
  | cons e t ih =>
    simp only [insertEntry]
    split
    case isTrue first => exact .cons_cons (ahead_asymm first) h
    case isFalse behind =>
      refine List.isChain_cons.2 ⟨fun d first => ?_, ih h.tail⟩
      obtain rfl | first := head?_insertEntry first
      · simpa using behind
      · exact (List.isChain_cons.1 h).1 d first

/-- What a row keeps after an offer of a number: the first of the entries and the candidate, as many as its limit. -/
theorem Row.offer_entries {r : Row} {c : DWord} (number : wnan c.lo = false) (index : c.hi ≠ 0xFFFFFFFF) :
    (r.offer c).entries = (insertEntry c r.entries).take r.k ∧ (r.offer c).k = r.k := by
  simp only [Row.offer, number, if_neg index, Bool.false_eq_true, if_false]
  split
  case h_1 fits => exact ⟨(List.take_of_length_le (List.drop_eq_nil_iff.1 fits)).symm, rfl⟩
  case h_2 => exact ⟨rfl, rfl⟩

theorem Row.offer_nan {r : Row} {c : DWord} (h : wnan c.lo = true) : r.offer c = { r with nan := true } := if_pos h

theorem Row.offer_dropped {r : Row} {c : DWord} (number : wnan c.lo = false) (h : c.hi = 0xFFFFFFFF) : r.offer c = r := by
  rw [Row.offer, number, if_neg Bool.false_ne_true, if_pos h]

/-- While there is room, an offer of a number keeps every entry and takes the candidate. -/
theorem Row.mem_offer {r : Row} {c e : DWord} (number : wnan c.lo = false) (index : c.hi ≠ 0xFFFFFFFF)
    (room : r.entries.length < r.k) : e ∈ (r.offer c).entries ↔ e = c ∨ e ∈ r.entries := by
  rw [(Row.offer_entries number index).1, List.take_of_length_le (by rw [length_insertEntry]; exact room), mem_insertEntry]

/-- An offer is one of a NaN, one of the index that is dropped, or one that the row ranks. -/
theorem Row.offer_cases (P : Row → Prop) {r : Row} {c : DWord} (nan : wnan c.lo = true → P { r with nan := true })
    (dropped : P r) (ranks : wnan c.lo = false → c.hi ≠ 0xFFFFFFFF → P (r.offer c)) : P (r.offer c) := by
  by_cases h : wnan c.lo = true
  · exact Row.offer_nan h ▸ nan h
  · by_cases index : c.hi = 0xFFFFFFFF
    · exact (Row.offer_dropped (by simpa using h) index).symm ▸ dropped
    · exact ranks (by simpa using h) index

/-! ### Packed pairs (R301) -/

theorem toNat_pair (lo hi : Word) : (Word.pair lo hi).toNat = hi.toNat * 2 ^ 32 + lo.toNat := by
  rw [Word.pair, BitVec.toNat_append, Nat.shiftLeft_eq, mul_comm, Nat.two_pow_add_eq_or_of_lt lo.isLt]

@[simp] theorem lo_pair (lo hi : Word) : (Word.pair lo hi).lo = lo := by
  apply BitVec.eq_of_toNat_eq
  rw [DWord.lo, BitVec.toNat_setWidth, toNat_pair]
  omega

@[simp] theorem hi_pair (lo hi : Word) : (Word.pair lo hi).hi = hi := by
  apply BitVec.eq_of_toNat_eq
  rw [DWord.hi, BitVec.toNat_setWidth, BitVec.toNat_ushiftRight, toNat_pair, Nat.shiftRight_eq_div_pow]
  omega

section
variable {v : Word}

theorem toNat_of_positive (pos : v.getLsbD 31 = false) : v.toNat < 2 ^ 31 := by
  rw [← BitVec.msb_eq_getLsbD_last] at pos
  exact BitVec.toNat_lt_of_msb_false pos

theorem toNat_of_negative (neg : v.getLsbD 31 = true) : 2 ^ 31 ≤ v.toNat := by
  rw [← BitVec.msb_eq_getLsbD_last] at neg
  exact BitVec.le_toNat_of_msb_true neg

theorem level_of_positive (pos : v.getLsbD 31 = false) : level v = magnitude v.toNat := by
  rw [level, pos, Nat.mod_eq_of_lt (toNat_of_positive pos), if_neg Bool.false_ne_true]

theorem level_of_negative (neg : v.getLsbD 31 = true) : level v = -magnitude (v.toNat - 2 ^ 31) := by
  have large := toNat_of_negative neg
  rw [level, if_pos neg, show v.toNat % 2 ^ 31 = v.toNat - 2 ^ 31 by omega]

theorem toNat_flipSign (pos : v.getLsbD 31 = false) : (v ^^^ 0x80000000).toNat = v.toNat + 2 ^ 31 := by
  have small := toNat_of_positive pos
  have top : (v ^^^ 0x80000000).toNat / 2 ^ 31 = 1 := by
    rw [BitVec.toNat_xor, Nat.xor_div_two_pow, Nat.div_eq_of_lt small]
    rfl
  have rest : (v ^^^ 0x80000000).toNat % 2 ^ 31 = v.toNat := by
    rw [BitVec.toNat_xor, Nat.xor_mod_two_pow, Nat.mod_eq_of_lt small]
    exact Nat.xor_zero _
  omega

theorem scoreKey_of_negative (number : wnan v = false) (neg : v.getLsbD 31 = true) : scoreKey v = ~~~v := by
  rw [scoreKey, number, if_neg Bool.false_ne_true, if_pos neg]

theorem scoreKey_of_positive (number : wnan v = false) (pos : v.getLsbD 31 = false) : scoreKey v = v ^^^ 0x80000000 := by
  rw [scoreKey, number, pos]
  rfl

end

/-- The keys of numbers rise with their levels: below 2^31 those of the negative numbers, above it those of the others. -/
theorem scoreKey_lt {a b : Word} (less : wcmp a b = some .lt) : (scoreKey a).toNat < (scoreKey b).toNat := by
  obtain ⟨ha, hb⟩ := number_of_wcmp less
  rw [wcmp_eq_compare_level ha hb, Option.some_inj, compare_lt_iff_lt] at less
  cases na : a.getLsbD 31 <;> cases nb : b.getLsbD 31
  · rw [level_of_positive na, level_of_positive nb, Nat.cast_lt, magnitude_strictMono.lt_iff_lt] at less
    rw [scoreKey_of_positive ha na, scoreKey_of_positive hb nb, toNat_flipSign na, toNat_flipSign nb]
    omega
  · rw [level_of_positive na, level_of_negative nb] at less
    omega
  · have large := toNat_of_negative na
    rw [scoreKey_of_negative ha na, scoreKey_of_positive hb nb, toNat_flipSign nb, BitVec.toNat_not]
    omega
  · have large := toNat_of_negative na
    rw [level_of_negative na, level_of_negative nb, neg_lt_neg_iff, Nat.cast_lt, magnitude_strictMono.lt_iff_lt] at less
    rw [scoreKey_of_negative ha na, scoreKey_of_negative hb nb, BitVec.toNat_not, BitVec.toNat_not]
    omega

/-- The key of a number is not 0, the key of a NaN, and its bit 31 tells how the number was changed. -/
theorem unpackKey_scoreKey (i a : Word) : unpackKey 0 (Word.pair i (scoreKey a)) = if wnan a then 0x7FC00000 else a := by
  rw [unpackKey, if_neg Nat.zero_ne_one, hi_pair]
  cases number : wnan a
  case true => simp [scoreKey, number]
  case false =>
    cases neg : a.getLsbD 31
    case false =>
      have high : (a ^^^ 0x80000000).getLsbD 31 = true := by rw [BitVec.getLsbD_xor, neg]; rfl
      have nonzero : a ^^^ 0x80000000 ≠ 0 := fun zero => by rw [zero] at high; cases high
      rw [scoreKey_of_positive number neg, if_neg nonzero, if_pos high, BitVec.xor_assoc, BitVec.xor_self, BitVec.xor_zero]
      rfl
    case true =>
      have low : (~~~a).getLsbD 31 = false := by rw [BitVec.getLsbD_not, neg]; rfl
      have nonzero : ~~~a ≠ 0 := fun zero => by
        rw [BitVec.not_eq_comm.1 zero] at number
        revert number
        decide
      rw [scoreKey_of_negative number neg, if_neg nonzero, low, if_neg Bool.false_ne_true, BitVec.not_not]
      rfl

end Sys2Proof.Machine

namespace Sys2Proof.Claims

open Sys2Proof Sys2Proof.Machine

theorem Ranked.offer {r : Row} (c : DWord) (h : Ranked r) : Ranked (r.offer c) := by
  refine Row.offer_cases Ranked (fun _ => h) h fun number index => ?_
  obtain ⟨-, order, numbers⟩ := h
  obtain ⟨entries, k⟩ := Row.offer_entries (r := r) number index
  refine ⟨?_, ?_, fun e he => ?_⟩ <;> rw [entries] at *
  · rw [k]
    exact List.length_take_le ..
  · exact ordered_iff.2 ((isChain_insertEntry c (ordered_iff.1 order)).take r.k)
  · obtain rfl | he := mem_insertEntry.1 (List.mem_of_mem_take he)
    · exact number
    · exact numbers e he

theorem packed_lt_of_score {a b : Word} (less : wcmp a b = some .lt) (i j : Word) :
    (packed a i).toNat < (packed b j).toNat := by
  have keys := scoreKey_lt less
  rw [packed, packed, toNat_pair, toNat_pair]
  omega

theorem packed_lt_of_index (a : Word) {i j : Word} (less : i.toNat < j.toNat) :
    (packed a j).toNat < (packed a i).toNat := by
  rw [packed, packed, toNat_pair, toNat_pair]
  bv_omega

theorem unpackKey_index (a i : Word) : unpackKey 1 (packed a i) = i := by
  rw [unpackKey, packed, if_pos rfl, lo_pair]
  bv_omega

/-- Settles O20: an offered candidate goes in ahead of the first entry it beats and only what passes the limit is dropped;
the keys of packed pairs rise with the levels of their scores. -/
theorem rowAndPairOrder : Obligations.RowAndPairOrder := by
  refine ⟨fun r c ranked => ⟨ranked.offer c, Row.offer_nan, Row.offer_dropped,
      fun number index room => (Row.mem_offer number index room).2 (.inl rfl), fun e he => ?_, fun e he room => ?_⟩,
    fun a b i j less => packed_lt_of_score less i j, fun a i j less => packed_lt_of_index a less, unpackKey_index,
    fun a i => unpackKey_scoreKey _ a⟩
  · revert he
    refine Row.offer_cases (fun u => e ∈ u.entries → e = c ∨ e ∈ r.entries) (fun _ => .inr) .inr
      fun number index he => ?_
    rw [(Row.offer_entries number index).1] at he
    exact mem_insertEntry.1 (List.mem_of_mem_take he)
  · exact Row.offer_cases (fun u => e ∈ u.entries) (fun _ => he) he
      fun number index => (Row.mem_offer number index room).2 (.inr he)

end Sys2Proof.Claims
end

section
/-! Acceptance of Cupel operations (R151, R329, R338 to R342): with room, an issue is accepted with its promise. -/

namespace Sys2Proof.Claims

open Sys2Proof Sys2Proof.Machine

section
variable {x : Exe} {u : State} {role : BitVec 3} {n : Nat}

/-- The model's block is the one that the statements write out. -/
theorem blockOf_eq_block (x : Exe) (n : Nat) : blockOf x n = x.block n := rfl

theorem EngineRoom.notFull (room : EngineRoom x u role n) : x.engineFull role = false := by
  obtain ⟨counter, queue, -⟩ := room
  rw [Exe.engineFull, Bool.or_eq_false_iff]
  refine ⟨by simpa using counter, ?_⟩
  cases bound : x.team.queueOfRole role with
  | none => rfl
  | some q => simpa using queue q bound

theorem EngineRoom.storesFit (room : EngineRoom x u role n) : x.storesFull u n = false := by
  obtain ⟨-, -, stores⟩ := room
  unfold Exe.storesFull
  cases tracked : (u.core x.crew.core).track.get? x.crew.launch with
  | none => rfl
  | some e => simpa using stores e tracked

/-- The engine accepts an operation for which there is room. -/
theorem issueCupel_of_room (room : EngineRoom x u 6 n) (kind : CupelKind) (b : List Word) (ticks : Nat)
    (sp : List (Nat × Nat)) : issueCupel x kind b ticks n sp u = .ok (cupelIssued x kind b ticks n sp u) := by
  unfold issueCupel
  rw [room.notFull, room.storesFit]
  rfl

theorem rowsFault_of_reach {b : List Word} (reach : RowsReach x u b) : x.rowsFault u b = none := by
  unfold Exe.rowsFault
  obtain fed | rows := reach
  · rw [if_pos fed]
  · have reached := List.findSome?_eq_none_iff.2 fun r hr => rows r (List.mem_range.1 hr)
    rw [reached]
    exact ite_self _

/-- A loop whose A rows can be read raises no protection trap and is accepted as well. -/
theorem issueCupel_of_reach {b : List Word} (room : EngineRoom x u 6 n) (reach : RowsReach x u b) (kind : CupelKind)
    (ticks : Nat) (sp : List (Nat × Nat)) :
    (match x.rowsFault u b with
      | some k => Except.error k
      | none => issueCupel x kind b ticks n sp u) = .ok (cupelIssued x kind b ticks n sp u) := by
  rw [rowsFault_of_reach reach]
  exact issueCupel_of_room room ..

end

section
variable {f : RRR} {s u : State} {x : Exe} {fin : State → State} {stop : Trap → State → State}

/-- A load of the weight buffer is accepted; its N is the low 16 bits of the block's sixth word. -/
theorem wbload_accepted (goes : GoesMeet (.wbload f) wbloadCheck s x u fin stop) (room : EngineRoom x u 6 0) :
    let b := x.block 6
    let n := blockWord b 5 % 65536
    let rate := (u.endRate x.crew.ctx false (loadPtr b)).1
    exec (.wbload f) s = .next (fin (cupelIssued x .wbload b
      (2 * (64 + (n * columnData (blockPair b) (blockS b) + rate - 1) / rate)) 0
      ((List.range n).flatMap fun j => x.pieces u false (loadColumn b j) (columnData (blockPair b) (blockS b))) u)) :=
  goes.exec_ok (show exec (.wbload f) s = execWbload f s from rfl) (issueCupel_of_room room ..)

/-- A register epilogue whose registers the allotment holds is accepted. -/
theorem cepi_accepted_registers (goes : GoesMeet (.cepi f) noCheck s x u fin stop) (good : cepiBad x = none)
    (registers : x.parts.fx = 0)
    (allotted : x.regNum .v x.parts.b + x.epiRegs (blockM (x.block 2)) ≤ x.launch.vregs) (room : EngineRoom x u 6 0) :
    exec (.cepi f) s = .next (fin (cupelIssued x (.epiReg x.parts.td (x.regNum .v x.parts.b)) (x.block 2)
      (2 * (64 + 16 * blockM (x.block 2))) 0 [] u)) := by
  refine goes.exec_ok (show exec (.cepi f) s = execCepi f s from rfl) ?_
  refine (if_neg (by simp [allotted])).trans ?_
  rw [good]
  exact (if_pos registers).trans (issueCupel_of_room room ..)

/-- A memory epilogue whose row table can be read is accepted. -/
theorem cepi_accepted_memory {rows : List DWord} (goes : GoesMeet (.cepi f) noCheck s x u fin stop)
    (good : cepiBad x = none) (memory : x.parts.fx ≠ 0)
    (reaches : u.planeFault x.crew x.launch.scratch (blockWord (x.block 2) 1) (8 * blockM (x.block 2)) = none)
    (table : u.rowTable x.crew x.launch.scratch (blockWord (x.block 2) 1) (blockM (x.block 2)) = some rows)
    (room : EngineRoom x u 6 (blockM (x.block 2))) :
    exec (.cepi f) s = .next (fin (cupelIssued x .epiMem (x.block 2)
      (2 * (64 + 16 * blockM (x.block 2)) + if rows.any (u.remoteRow x.crew.ctx) then 3400 else 0)
      (blockM (x.block 2)) ((rows.filter (· != 0)).flatMap fun p => x.elemPieces u p 512) u)) := by
  refine goes.exec_ok (show exec (.cepi f) s = execCepi f s from rfl) ?_
  refine (if_neg (by simp [memory])).trans ?_
  rw [good]
  refine (if_neg memory).trans ?_
  rw [reaches, table]
  exact issueCupel_of_room room ..

end

/-- Settles O32: nothing stops an issue whose operands and block pass, whose rows can be read and for which there is room. -/
theorem cupelIssue : Obligations.CupelIssue := by
  intro f s x u fin stop
  simp only [blockOf_eq_block]
  exact ⟨wbload_accepted,
    fun goes room reach => goes.exec_ok (show exec (.mloop f) s = execMloop f s from rfl) (issueCupel_of_reach room reach ..),
    fun goes room reach => goes.exec_ok (show exec (.cbin f) s = execCbin f s from rfl) (issueCupel_of_reach room reach ..),
    fun goes room reach => goes.exec_ok (show exec (.ctopk f) s = execCtopk f s from rfl) (issueCupel_of_reach room reach ..),
    cepi_accepted_registers, fun _ => cepi_accepted_memory⟩

end Sys2Proof.Claims
end

section
/-! The checks before an instruction's effect (R157, R230): when an instruction goes to its effect, which of its operands stop
it, and what an empty mask leaves of one that acts in lanes (R79, R225). -/

namespace Sys2Proof.Machine

open Sys2Proof

/-! ### Operands (R76, R224, R225, R243) -/

section
variable {x : Exe} {i : Instr} {ops : List Opnd} {oc : Option Cause}

/-- The link pair comes before every operand field. -/
theorem Exe.operandStop_of_link (uses : usesLink i x.parts = true) (few : x.allot .s < 2) :
    x.operandStop i ops oc = some (x.trapOf .allotBounds 1) := by
  simp [Exe.operandStop, uses, few]

/-- The first operand beyond its allotment comes before every other check of the operands. -/
theorem Exe.operandStop_of_allot {r : Nat} (link : ¬(usesLink i x.parts = true ∧ x.allot .s < 2))
    (beyond : ops.findSome? x.allotFault = some r) :
    x.operandStop i ops oc = some (x.trapOf .allotBounds (BitVec.ofNat 32 r)) := by
  rw [Exe.operandStop.eq_def, if_neg (by simpa using link), Option.none_or, beyond]

/-- The operands pass when each passes its three checks, the instruction's own condition holds, and the link pair, where it is
used, is there. -/
theorem Exe.operandStop_eq_none_iff : x.operandStop i ops oc = none ↔
    ((∀ o ∈ ops, x.allotFault o = none ∧ x.operandFault o = none ∧ x.latchFault o = none) ∧ oc = none ∧
      ¬(usesLink i x.parts = true ∧ x.allot .s < 2)) := by
  by_cases link : usesLink i x.parts = true ∧ x.allot .s < 2
  · simp [Exe.operandStop_of_link link.1 link.2, link]
  cases allot : ops.findSome? x.allotFault with
  | some r =>
    obtain ⟨o, mem, beyond⟩ := List.exists_of_findSome?_eq_some allot
    rw [Exe.operandStop_of_allot link allot]
    exact iff_of_false nofun fun ⟨pass, _⟩ => by simp [(pass o mem).1] at beyond
  | none =>
    rw [Exe.operandStop.eq_def, if_neg (by simpa using link), Option.none_or, allot]
    dsimp only
    rw [List.findSome?_eq_none_iff] at allot
    cases field : ops.findSome? x.operandFault with
    | some c =>
      obtain ⟨o, mem, fault⟩ := List.exists_of_findSome?_eq_some field
      exact iff_of_false nofun fun ⟨pass, _⟩ => by simp [(pass o mem).2.1] at fault
    | none =>
      rw [List.findSome?_eq_none_iff] at field
      have latches : (∀ o ∈ ops, x.allotFault o = none ∧ x.operandFault o = none ∧ x.latchFault o = none) ↔
          ∀ o ∈ ops, x.latchFault o = none :=
        forall₂_congr fun o mem => by simp [allot o mem, field o mem]
      have readable : (∀ o ∈ ops, x.latchFault o = none) ↔ (ops.any fun o => x.latchFault o == some .vector) = false ∧
          ops.findSome? (fun o => match x.latchFault o with | some (.stale k) => some k | _ => none) = none := by
        rw [List.any_eq_false, List.findSome?_eq_none_iff, ← forall₂_and]
        exact forall₂_congr fun o _ => by rcases x.latchFault o with _ | _ | _ <;> simp
      rw [latches, readable]
      dsimp only
      cases vector : ops.any fun o => x.latchFault o == some .vector with
      | true => simp
      | false =>
        rw [if_neg Bool.false_ne_true]
        cases oc with
        | some c => simp
        | none =>
          dsimp only
          cases stale : ops.findSome? fun o => match x.latchFault o with | some (.stale k) => some k | _ => none with
          | some k => simp
          | none => simpa using link

/-- A source whose latch holds no value is stale. -/
theorem Exe.latchFault_of_stale {o : Opnd} {k : Nat} (source : o.dst = false) (own : ¬(o.pos = .c ∧ x.parts.m = none))
    (names : latchCode (x.parts.at o.pos) = some k) (empty : x.th.latch k = .none) :
    x.latchFault o = some (.stale k) := by
  have latch : x.latchOf o = some k := by
    rw [Exe.latchOf, if_neg (by simpa [source] using own), names]
  rw [Exe.latchFault, latch]
  simp only [empty]

end

/-! ### Going to the effect (R79, R157, R223, R230) -/

section
variable {i : Instr} {oc : Exe → State → Option Cause} {x x1 : Exe} {s s1 : State}

/-- Once the words and the issuer pass, an empty mask leaves an instruction that acts in lanes without effect. -/
theorem prepare_empty (words : checkInstr x.ch i = none) (context : contextFault x i = none) (team : x.ch = false)
    (lanes : perLane i x.parts = true) (mask : x.eff = 0) : prepare i oc x s = .empty := by
  rw [prepare, words, context]
  exact if_pos (by simp [team, lanes, mask])

/-- An instruction goes to its effect exactly when every check passes, in the state in which what it awaits is there. -/
theorem prepare_eq_go_iff : prepare i oc x s = .go x1 s1 ↔
    (checkInstr x.ch i = none ∧ contextFault x i = none ∧ ¬(x.ch = false ∧ perLane i x.parts = true ∧ x.eff = 0) ∧
      x.awaitsEngine s (x.engineOps s i) = false ∧ s1 = x.settleLoads (x.loadOps i) s ∧ x1 = s1.refresh x ∧
      x1.operandStop i (ruleOf x.ch i x.parts).ops (oc x1 s1) = none ∧ x1.poisoned s1 i = false) := by
  cases words : checkInstr x.ch i with
  | some c => simp [prepare, words]
  | none =>
    cases context : contextFault x i with
    | some c => simp [prepare, words, context]
    | none =>
      by_cases empty : x.ch = false ∧ perLane i x.parts = true ∧ x.eff = 0
      · simp [prepare_empty words context empty.1 empty.2.1 empty.2.2, empty]
      · rw [prepare, words, context]
        dsimp only
        rw [if_neg (by simpa only [Bool.and_eq_true, Bool.not_eq_true', decide_eq_true_eq, and_assoc] using empty)]
        cases waits : x.awaitsEngine s (x.engineOps s i) with
        | true => simp
        | false =>
          rw [if_neg Bool.false_ne_true]
          cases stop : ((x.settleLoads (x.loadOps i) s).refresh x).operandStop i (ruleOf x.ch i x.parts).ops
              (oc ((x.settleLoads (x.loadOps i) s).refresh x) (x.settleLoads (x.loadOps i) s)) with
          | some t =>
            refine iff_of_false nofun ?_
            rintro ⟨-, -, -, -, rfl, rfl, pass, -⟩
            exact Option.some_ne_none t (stop.symm.trans pass)
          | none =>
            cases bad : ((x.settleLoads (x.loadOps i) s).refresh x).poisoned (x.settleLoads (x.loadOps i) s) i with
            | true =>
              refine iff_of_false nofun ?_
              rintro ⟨-, -, -, -, rfl, rfl, -, pass⟩
              exact Bool.false_ne_true (pass.symm.trans bad)
            | false =>
              rw [if_neg Bool.false_ne_true, Ready.go.injEq]
              constructor
              · rintro ⟨rfl, rfl⟩
                exact ⟨rfl, rfl, empty, rfl, rfl, rfl, stop, bad⟩
              · rintro ⟨-, -, -, -, rfl, rfl, -, -⟩
                exact ⟨rfl, rfl⟩

end

/-! ### An empty mask (R79) -/

/-- How the table performs an instruction: alone, at a meeting point, or pass by pass. -/
inductive Performed (i : Instr) (s : State) : Prop
  | alone {oc body} (runs : exec i s = perform i oc body s)
  | meets {oc body} (runs : exec i s = performMeet i oc body s)
  | passes {oc body} (runs : exec i s = performPasses i oc body s)

/-- However it is performed, outside a pair an instruction with an empty mask only moves on, and its latch holds no value. -/
theorem Performed.exec_of_empty {i : Instr} {s : State} {x : Exe} (performed : Performed i s) (issuer : s.issuer? i = some x)
    (alone : x.paired s = false) (empty : ∀ oc, prepare i oc x s = .empty) :
    exec i s = .next (advance x (setResult x .none s)) := by
  cases performed with
  | alone runs => rw [runs, perform_empty issuer (empty _)]
  | meets runs => rw [runs, performMeet_alone issuer alone, perform_empty issuer (empty _)]
  | passes runs => simp only [runs, performPasses, issuer, empty]

theorem Performed.pure {i : Instr} {s : State} {oc : Exe → State → Option Cause} {body : Exe → State → State}
    (runs : exec i s = performPure i oc body s) : Performed i s := .alone runs

/-- EXIT is a meeting point when it retires its team (log 14). -/
theorem performed_exit (f : FZ) (s : State) : Performed (.exit f) s := by
  have run : exec (.exit f) s = execExit f s := rfl
  rw [execExit.eq_1] at run
  dsimp only at run
  split at run
  · split at run
    · exact .meets run
    · exact .pure run
  · exact .pure run

theorem performed_ldp (f : RRR) (s : State) : Performed (.ldp f) s := by
  by_cases load : (Parts.ofRRR f).fx = 0 || (Parts.ofRRR f).fx = 2
  · exact .alone (if_pos load)
  · exact .meets (if_neg load)

/-- Every instruction that acts in lanes is performed in one of the three ways. -/
theorem performed_of_perLane {i : Instr} {p : Parts} (lanes : perLane i p = true) (s : State) : Performed i s := by
  cases i
  all_goals try exact absurd lanes Bool.false_ne_true
  case exit f => exact performed_exit f s
  case ldp f => exact performed_ldp f s
  case qpush | qpop => exact .passes rfl
  case atom | cas | cas128 | spawn => exact .meets rfl
  case ld f => exact .alone (Claims.exec_ld f s)
  case ldg f => exact .alone (Claims.exec_ldg f s)
  case st f => exact .alone (Claims.exec_st f s)
  case stg f => exact .alone (Claims.exec_stg f s)
  case stp f => exact .alone (Claims.exec_stp f s)
  case shfl f => exact .alone (execShfl.eq_1 f s)
  case kvld f => exact .alone (execKvld.eq_1 f s)
  case dld f => exact .alone (execDld.eq_1 f s)
  case dst f => exact .alone (execDst.eq_1 f s)
  case brm f => exact .pure (execBrm.eq_1 f s)
  case cvt f => exact .pure (execCvt.eq_1 f s)
  case dnwr f => exact .pure (execDnwr.eq_1 f s)
  case gwnorm f => exact .pure (execGwnorm.eq_1 f s)
  case pref f => exact .pure (execPref.eq_1 f s)
  case qnt f => exact .pure (execQnt.eq_1 f s)
  case smxacc f => exact .pure (execSmxacc.eq_1 f s)
  case srd f => exact .pure (execSrd.eq_1 f s)
  case vrand f => exact .pure (execVrand.eq_1 f s)
  case vtopk f => exact .pure (execVtopk.eq_1 f s)
  case wlins f => exact .pure (execWlins.eq_1 f s)
  case wlrd f => exact .pure (execWlrd.eq_1 f s)
  all_goals exact .pure rfl

end Sys2Proof.Machine

namespace Sys2Proof.Claims

open Sys2Proof Sys2Proof.Machine

/-- Settles O41: the checks by the branches of `prepare` and of the operands' stop; an empty mask by the three ways in which the
table performs an instruction. -/
theorem checksInOrder : Obligations.ChecksInOrder := by
  refine ⟨⟨fun i oc x s x1 s1 => prepare_eq_go_iff, fun x i ops oc => Exe.operandStop_eq_none_iff,
    fun x i ops oc => Exe.operandStop_of_link, fun x i ops oc r => Exe.operandStop_of_allot⟩, ?_,
    fun x o k => Exe.latchFault_of_stale⟩
  intro i s x issuer alone words context team lanes mask
  exact (performed_of_perLane lanes s).exec_of_empty issuer alone fun oc => prepare_empty words context team lanes mask

end Sys2Proof.Claims
end

section
/-! Taking a trap and returning from it (R158 to R161, R242): the team that enters the handler, the fields of tstat, and the
team that resumes from its frame. -/

namespace Sys2Proof.Machine

open Sys2Proof

/-! ### tstat (R161) -/

/-- The cause that tstat gives: that of the lowest lane of the mask, where the trap records one, else the trap's. -/
def Trap.statCause (tr : Trap) : Cause := (((tr.mask.lanes 1024).head?).bind fun l => tr.causes.get? l).getD tr.cause

theorem Trap.statCause_of_no_causes {tr : Trap} (none : tr.causes = []) : tr.statCause = tr.cause := by
  rw [Trap.statCause, none]
  cases (tr.mask.lanes 1024).head? <;> rfl

theorem Trap.tstat_eq (tr : Trap) : tr.tstat = tr.statCause.cls.code ++ (tr.statCause.code ++ (BitVec.ofNat 4 tr.pos ++
    (BitVec.ofNat 2 tr.origin ++ (BitVec.ofBool tr.retry ++ (0 : BitVec 9))))) := by
  rw [Trap.tstat, Trap.statCause]
  cases (tr.mask.lanes 1024).head?.bind fun l => tr.causes.get? l <;> rfl

section
variable (tr : Trap)

theorem Trap.tstat_class : tr.tstat.extractLsb' 24 8 = tr.statCause.cls.code := by
  rw [tr.tstat_eq]
  exact append_here _ _

theorem Trap.tstat_code : tr.tstat.extractLsb' 16 8 = tr.statCause.code := by
  rw [tr.tstat_eq]
  exact (append_skip _ _ (by decide)).trans (append_here _ _)

theorem Trap.tstat_pos : tr.tstat.extractLsb' 12 4 = BitVec.ofNat 4 tr.pos := by
  rw [tr.tstat_eq, append_skip _ _ (by decide), append_skip _ _ (by decide)]
  exact append_here _ _

theorem Trap.tstat_origin : tr.tstat.extractLsb' 10 2 = BitVec.ofNat 2 tr.origin := by
  rw [tr.tstat_eq, append_skip _ _ (by decide), append_skip _ _ (by decide), append_skip _ _ (by decide)]
  exact append_here _ _

theorem Trap.tstat_retry : tr.tstat.getLsbD 9 = tr.retry := by
  rw [tr.tstat_eq, append_skip_bit _ _ (by decide), append_skip_bit _ _ (by decide), append_skip_bit _ _ (by decide),
    append_skip_bit _ _ (by decide)]
  exact append_here_bit _ _

theorem Trap.tstat_rsv : tr.tstat.extractLsb' 0 9 = 0 := by
  rw [tr.tstat_eq, append_skip _ _ (by decide), append_skip _ _ (by decide), append_skip _ _ (by decide),
    append_skip _ _ (by decide), append_skip _ _ (by decide)]
  exact extract_self _

end

/-! ### Entering the handler (R158) -/

theorem team?_unview (s : State) (die : Nat) (sel : Nat → Bool) (p : Party) : (s.unview die sel).team? p = s.team? p :=
  team?_of_muster (State.muster_unview ..) p

theorem team?_trigger (s : State) (src : SnapSource) (p : Party) : (s.trigger src).team? p = s.team? p := by
  unfold State.trigger
  split <;> rfl

/-- A team whose clause in progress a trap or a stop interrupts. -/
def Team.parked (t : Team) : Team :=
  { t with th := { t.th with later := t.th.issue.toList ++ t.th.later, issue := none, latches := [] } }

theorem team?_parkClause {s : State} {p : Party} {t : Team} (team : p.kind = .team) (there : s.team? p = some t) :
    (s.parkClause p).team? p = some t.parked := by
  have later := team?_updThread (fun th => { th with later := th.issue.toList ++ th.later }) there
  rw [State.parkClause, State.dropClause, later]
  dsimp only
  rw [team] at later ⊢
  exact (team?_setTeam _ later).trans rfl

/-- A team that takes a trap on a path, and goes on in the handler at its entry. -/
def Team.enterHandler (t : Team) (w : Word) (tr : Trap) (q : Path) (entry : DWord) : Team :=
  { t.parked.updPath w fun q => { q with mask := tr.mask, pc := entry, handler := true, seq := false } with
    frame := tr.frame t q, handler := true, th := { t.parked.th with again := [] } }

/-- Outside the handler, with a handler to enter, and with no debug session that takes the event in its place, a team that takes
a trap goes on in the handler. -/
theorem team?_takeTrap {s : State} {p : Party} {w : Word} {tr : Trap} {c : Crew} {t : Team} {q : Path} {k : Context}
    (team : p.kind = .team) (crew : s.crews.get? p.crew = some c) (there : c.teams.get? p.team = some t)
    (path : t.path? w = some q) (context : s.contexts.get? c.ctx = some k) (entry : k.handler ≠ 0)
    (outside : t.handler = false) (taken : ¬(tr.cause.cls.debug = true ∧ t.stepctl.getLsbD 1 = true)) :
    (takeTrap p w tr s).team? p = some (t.enterHandler w tr q k.handler) := by
  have teams : s.team? p = some t := by rw [team?_of_kind (by simp [team]), crew]; exact there
  have undebugged : ¬(tr.cause.cls.debug && t.stepctl.getLsbD 1) = true := by simpa using taken
  rw [takeTrap, crew, teams]
  simp only [team, path, context, outside, undebugged, entry]
  refine (team?_updTeam _ (team?_parkClause team ?_)).trans rfl
  rw [team?_trigger]
  split
  · rw [team?_unview, teams]
  · exact teams

section
variable (t : Team) (w : Word) (tr : Trap) (q : Path) (entry : DWord)

theorem path?_enterHandler (path : t.path? w = some q) : (t.enterHandler w tr q entry).path? w =
    some { q with mask := tr.mask, pc := entry, handler := true, seq := false } :=
  path?_updPath (t := t.parked) (by intro; rfl) path

end

/-! ### Resuming from the frame (R159, R163) -/

section
variable {t : Team} {w : Word} {q : Path}

theorem path?_resumeFrame (path : t.path? w = some q) : (t.resumeFrame w).path? w = some { q with
    mask := t.frame.exec &&& ~~~t.exited, pc := t.frame.tpc, handler := false, seq := false } :=
  path?_updPath (by intro; rfl) path

/-- SKIP is set after a breakpoint or a watchpoint, and stays where it was set. -/
theorem resumeFrame_skip (t : Team) (w : Word) : (t.resumeFrame w).stepctl.getLsbD 2 = true ↔
    (t.stepctl.getLsbD 2 = true ∨ t.frame.tstat.extractLsb' 24 8 = 0x0B ∨ t.frame.tstat.extractLsb' 24 8 = 0x0C) := by
  show (if (t.frame.tstat.extractLsb' 24 8 == 0x0B || t.frame.tstat.extractLsb' 24 8 == 0x0C) = true then t.stepctl ||| 4
    else t.stepctl).getLsbD 2 = true ↔ _
  simp only [Bool.or_eq_true, beq_iff_eq]
  split
  next event => exact iff_of_true (by simp) (.inr event)
  next event => exact (or_iff_left event).symm

end

/-- With more than one handler path a return halts the team. -/
theorem returnFromTrap_of_paths {s : State} {p : Party} {t : Team} (w : Word) (team : s.team? p = some t)
    (paths : 1 < (t.paths.filter (·.handler)).length) : returnFromTrap p w s = s.haltFor .doubleTrap p := by
  rw [returnFromTrap, team]
  exact if_pos paths

end Sys2Proof.Machine

namespace Sys2Proof.Claims

open Sys2Proof Sys2Proof.Machine

/-- Settles O42: the team that enters the handler, field by field, and tstat as the fields it is put together from. -/
theorem trapEntries : Obligations.TrapEntries := by
  constructor
  · intro s p w tr c t q k team crew there path context entry outside taken
    refine ⟨_, team?_takeTrap team crew there path context entry outside taken, rfl, rfl, rfl, rfl, rfl, rfl, rfl, rfl, rfl, rfl,
      rfl, path?_enterHandler t w tr q k.handler path, rfl, rfl, rfl, rfl, rfl⟩
  · intro tr none
    rw [← Trap.statCause_of_no_causes none]
    exact ⟨tr.tstat_class, tr.tstat_code, tr.tstat_pos, tr.tstat_origin, tr.tstat_retry, tr.tstat_rsv⟩

/-- Settles O44: a return by the resumed team's fields; a trap and its return by the team that entered the handler, whose frame
holds what the return brings back. -/
theorem trapAndReturn : Obligations.TrapAndReturn := by
  refine ⟨⟨fun s p w t => returnFromTrap_of_paths w, fun t w q path => ?_⟩, ?_⟩
  · exact ⟨rfl, rfl, rfl, rfl, path?_resumeFrame path, rfl, rfl, rfl, rfl, rfl, resumeFrame_skip t w⟩
  · intro s p w tr c t t' q k team crew there path context entry outside lane taken pos after
    rw [team?_takeTrap team crew there path context entry outside taken, Option.some.injEq] at after
    subst after
    have resumed := path?_resumeFrame (path?_enterHandler t w tr q k.handler path)
    have posField : (tr.tstat.extractLsb' 12 4).toNat = tr.pos := by
      rw [tr.tstat_pos, BitVec.toNat_ofNat, Nat.mod_eq_of_lt pos]
    refine ⟨resumed.trans ?_, rfl, rfl, rfl, rfl, ?_, rfl, rfl, rfl, rfl, rfl, fun e mem other => ?_⟩
    · rw [← lane]; rfl
    · rw [← posField, ← tr.tstat_retry]
      rfl
    · exact mem_updPath_other _ (mem_updPath_other _ mem other) other

end Sys2Proof.Claims
end

section
/-! Debug sessions and their requests (R164), the device snapshot (R170), and ingots (R172). -/

namespace Sys2Proof.Machine

open Sys2Proof

/-! ### Serving an operation on a team (R164) -/

section
variable {s : State} {r : Request} {op : Nat} {p : Party} {t : Team} {act : Party → Team → State → Option (List Byte × State)}
  {status : Party → Team → State → Nat} (debugs : Claims.Debugs s r op p t)
include debugs

/-- An operation that its team's state allows is performed, and triggers its session's snapshot. -/
theorem State.serveDebug_done {bs : List Byte} {v : State} (allowed : status p t s = 0) (done : act p t s = some (bs, v)) :
    s.serveDebug op r act status = .next (Claims.debugDone r bs v) := by
  obtain ⟨c, served, good, session, there⟩ := debugs
  obtain ⟨x, session⟩ := Option.isSome_iff_exists.mp session
  rw [State.serveDebug, State.serve_served served good]
  simp only [session, there, allowed, done]
  rfl

/-- One that its team's state does not allow is answered with the status that says so. -/
theorem State.serveDebug_refused (refused : status p t s ≠ 0) :
    s.serveDebug op r act status = .next (s.respond r 0xA (status p t s) []) := by
  obtain ⟨c, served, good, session, there⟩ := debugs
  obtain ⟨x, session⟩ := Option.isSome_iff_exists.mp session
  rw [State.serveDebug, State.serve_served served good]
  simp only [session, there]
  rw [if_pos refused]

omit debugs in
theorem stoppedTeam_of_stopped (stopped : t.debugStopped = true) : stoppedTeam p t s = 0 := by
  rw [stoppedTeam, if_pos stopped]

/-- A READ or a WRITE of a team that is not in DEBUG_STOP is answered BUSY. -/
theorem State.serveDebug_running (running : t.debugStopped = false) :
    s.serveDebug op r act stoppedTeam = .next (s.respond r 0xA 4 []) := by
  have busy : stoppedTeam p t s = 4 := if_neg (by simp [running])
  rw [State.serveDebug_refused debugs (by simp [busy]), busy]

end

/-! ### The snapshot (R170) -/

section
variable {s : State} {src : SnapSource}

/-- A frozen snapshot stays until it is read or released. -/
theorem State.trigger_of_frozen (frozen : s.snapshot.isSome = true) : s.trigger src = s := by
  obtain ⟨x, frozen⟩ := Option.isSome_iff_exists.mp frozen
  rw [State.trigger, frozen]

theorem State.trigger_of_unarmed (unarmed : s.armed src = none) : s.trigger src = s := by
  rw [State.trigger, unarmed]
  cases s.snapshot <;> rfl

theorem State.trigger_freezes {k : Nat} (free : s.snapshot = none) (armed : s.armed src = some k) : s.trigger src =
    { s with snapshot := some (s.capture k), freeCount := s.freeCount + 2 * memChannels } := by
  rw [State.trigger, free, armed]

end

/-! ### Ingots (R172) -/

@[simp] theorem State.ingots_writeBytes (bs : List Byte) : ∀ (s : State) (a : Nat), (s.writeBytes a bs).ingots = s.ingots := by
  induction bs with
  | nil => intro s a; rfl
  | cons b bs ih => intro s a; exact ih (s.writeByte a b) (a + 1)

/-- A run of bytes leaves a number that stands before it alone. -/
theorem State.readNat_writeBytes_below (s : State) {a b n : Nat} (bs : List Byte) (below : a + n ≤ b) :
    (s.writeBytes b bs).readNat a n = s.readNat a n := by
  unfold State.readNat State.readBytes
  congr 1
  refine List.map_congr_left fun i mem => ?_
  rw [State.readByte_writeBytes_other bs s (.inl _)]
  have := List.mem_range.mp mem
  omega

end Sys2Proof.Machine

namespace Sys2Proof.Claims

open Sys2Proof Sys2Proof.Machine

section
variable {s : State} {r : Request} {c : Context}

/-- ATTACH_DEBUG opens the lowest session that is free. -/
theorem attachDebug_ok {k : Nat} (served : Served s r 0 c) (body : r.body = []) (free : s.freeSession = some k) :
    exec (.attachDebug r) s = .next ({ s with sessions := s.sessions.put k { ctx := r.ctx.toNat } }.respond r 0xA 0
      (bytesOf 8 k)) := by
  refine (if_neg (by simp [body])).trans ((State.serve_served served (by simp [body])).trans ?_)
  simp only [free]

theorem armSnap_ok {x : Session} (served : Served s r 48 c) (good : debugBad r 6 = false) (session : s.session? r = some x) :
    exec (.armSnap r) s = .next ({ s.trigger (.debug (debugHandle r)) with
      sessions := s.sessions.put (debugHandle r) { x with mask := BitVec.ofNat 4 (debugItem r) } }.respond r 0xA 0 []) := by
  refine (execArmSnap.eq_1 r s).trans ((State.serve_served served good).trans ?_)
  simp only [session]

/-- READ_SNAP answers the owner alone. -/
theorem readSnap_eq {x : Session} {y : Snapshot} (served : Served s r 48 c) (good : debugBad r 7 = false)
    (session : s.session? r = some x) (frozen : s.snapshot = some y) :
    exec (.readSnap r) s = .next (if y.owner ≠ debugHandle r then s.respond r 0xA 4 []
      else { s with snapshot := none }.respondLong r 0xA (y.bytes r.ctx.toNat)) := by
  refine (execReadSnap.eq_1 r s).trans ((State.serve_served served good).trans ?_)
  simp only [session, frozen]

theorem becomes_detachDebug {x : Session} (served : Served s r 8 c) (session : s.session? r = some x) :
    Becomes (.detachDebug r) s fun t => t.sessions.get? (debugHandle r) = none ∧ Answered t r 0xB 0 [] := by
  refine becomes_of ((execDetachDebug.eq_1 r s).trans ((State.serve_served served rfl).trans (by rw [session])))
    ⟨?_, State.answered_respond ..⟩
  exact (Tbl.get?_del ..).trans (if_pos rfl)

/-! ### Ingots (R34, R172) -/

/-- The images of a scope whose crews can all be sealed either do not fit the pool or are written there. -/
theorem requestIngot_sealable {rate : Nat} {b : IngotBody} (arrives : Arrives s r) (normal : s.mod.service ≠ .recovery)
    (whole : s.mod.service ≠ .reduced) (body : s.ingotBody r = some b)
    (opened : r.ctx ≠ 0 → ∃ c, s.contexts.get? r.ctx.toNat = some c ∧ c.closing = none)
    (ready : (s.scopeCrews r.ctx.toNat).all (fun c => s.sealable c.1 c.2) = true) :
    let g := s.gatherIngot r.ctx.toNat b.pool
    (b.len < g.1.size ∨ s.persistentAt (b.pool + g.1.size - 1) = false →
      exec (.requestIngot r rate) s = .next (s.respond r 0xD 3 [])) ∧
    (g.1.size ≤ b.len → s.persistentAt (b.pool + g.1.size - 1) = true → Becomes (.requestIngot r rate) s fun t =>
      Answered t r 0xD 0 (bytesOf 8 g.1.gen ++ bytesOf 8 g.1.chunks ++ bytesOf 8 rate) ∧ g.1 ∈ t.ingots) := by
  obtain ⟨on, runs, up, taken⟩ := arrives
  have reaches : ¬(decide (r.ctx.toNat ≠ 0) && (s.contexts.get? r.ctx.toNat).isNone) = true ∧
      ¬(decide (r.ctx.toNat ≠ 0) && ((s.contexts.get? r.ctx.toNat).bind (·.closing)).isSome) = true := by
    by_cases device : r.ctx = 0
    · simp [device]
    · obtain ⟨c, there, closing⟩ := opened device
      simp [there, closing]
  intro g
  have heard : exec (.requestIngot r rate) s = _ :=
    (execRequestIngot.eq_1 r rate s).trans (State.hear_served on runs up taken (.inl normal))
  rw [body] at heard
  dsimp only at heard
  rw [if_neg reaches.1, if_neg reaches.2, if_neg whole, if_neg (by simp [ready])] at heard
  constructor
  · intro small
    exact heard.trans (if_pos (by
      rw [Bool.or_eq_true, decide_eq_true_eq, Bool.not_eq_true']
      exact small))
  · intro fits persistent
    have large : ¬(decide (b.len < g.1.size) || !s.persistentAt (b.pool + g.1.size - 1)) = true := by
      simp [persistent, fits]
    refine becomes_of (heard.trans (if_neg large)) ⟨State.answered_respond .., ?_⟩
    exact List.mem_append_right _ List.mem_cons_self

/-- INGOT_SEAL of an ingot that is flushed and whose cores have all passed an assay since: it stands sealed, and its trailer
holds its generation. -/
theorem becomes_ingotSeal {scope : Nat} {i : Ingot} (first : (s.ingots.find? fun i => i.ctx == scope && !i.sealed) = some i)
    (flushed : i.flushed = true) (passed : ∀ k ∈ i.cores, i.tick.toNat < (s.core k).lastPass.toNat) :
    Becomes (.ingotSeal scope) s fun t =>
      { i with sealed := true } ∈ t.ingots ∧ t.readNat i.trailer 8 = i.gen % 2 ^ 64 := by
  have due : ¬(!i.flushed || !(i.cores.all fun k => i.tick.ult (s.core k).lastPass)) = true := by
    simpa [flushed, BitVec.ult] using passed
  have pruned (u : State) : (i.contexts.foldl (fun u c => u.updContext c i.prune) u).ingots = u.ingots ∧
      (i.contexts.foldl (fun u c => u.updContext c i.prune) u).mem = u.mem :=
    ⟨foldl_keeps State.ingots fun _ _ => rfl, foldl_keeps State.mem fun _ _ => rfl⟩
  refine becomes_of (by
    show execIngotSeal scope s = _
    rw [execIngotSeal, first]
    exact if_neg due) ⟨?_, ?_⟩
  · refine List.mem_map.mpr ⟨i, ?_, if_pos rfl⟩
    rw [(pruned _).1, State.ingots_writeBytes, State.ingots_writeBytes]
    exact List.mem_of_find?_eq_some first
  · refine (State.readNat_of_mem (pruned _).2 ..).trans ?_
    rw [State.readNat_writeBytes_below _ _ le_rfl]
    exact State.readNat_writeBytes_bytesOf ..

end

/-- Settles O54: each request that is served is performed by its lemma above; the snapshot by whether it is frozen and who armed
its source; the ingots by the two lemmas on their request and their seal. -/
theorem debugRequests : Obligations.DebugRequests := by
  refine ⟨fun s r => ⟨fun c k => attachDebug_ok, ?_, ?_, ?_, ?_, ?_, fun c x => armSnap_ok, ?_, fun c x => becomes_detachDebug⟩,
    fun s src => rfl, fun s src k => ⟨State.trigger_of_frozen, State.trigger_of_unarmed, State.trigger_freezes⟩, ?_,
    fun s r rate b => requestIngot_sealable, fun s scope i => becomes_ingotSeal⟩
  · exact fun p t debugs => (execDebugStop.eq_1 r s).trans (State.serveDebug_done debugs rfl rfl)
  · exact fun p t debugs => (execDebugRelease.eq_1 r s).trans (State.serveDebug_done debugs rfl rfl)
  · exact fun p t debugs => (execDebugStep.eq_1 r s).trans (State.serveDebug_done debugs rfl rfl)
  · exact fun p t debugs => ⟨fun running => (execDebugRead.eq_1 r s).trans (State.serveDebug_running debugs running),
      fun bs stopped value => (execDebugRead.eq_1 r s).trans
        (State.serveDebug_done debugs (stoppedTeam_of_stopped stopped) (by rw [value]; rfl))⟩
  · exact fun p t debugs => ⟨fun running => (execDebugWrite.eq_1 r s).trans (State.serveDebug_running debugs running),
      fun v stopped put => (execDebugWrite.eq_1 r s).trans
        (State.serveDebug_done debugs (stoppedTeam_of_stopped stopped) (by rw [put]; rfl))⟩
  · intro c x y served good session frozen
    rw [readSnap_eq served good session frozen]
    exact ⟨fun owner => by rw [if_neg (not_not.mpr owner)], fun other => by rw [if_pos other]⟩
  · intro s x frozen late
    show execSnapshotTimeout s = _
    rw [execSnapshotTimeout, frozen]
    exact if_neg (Nat.not_lt.mpr late)

end Sys2Proof.Claims
end

section
/-! Rounding of a magnitude (R190), and the points at which the special functions are exact (R271). -/

namespace Sys2Proof.Machine

open Sys2Proof

/-! ### Rounding (R190, R192) -/

/-- Whether a mode takes the next integer for a magnitude m / 2^k that is none. -/
def roundsUp (r : Round) (neg : Bool) (m k : Nat) : Bool :=
  match r with
  | .rn => decide (2 ^ k < 2 * (m % 2 ^ k)) || (2 * (m % 2 ^ k) == 2 ^ k && m / 2 ^ k % 2 == 1)
  | .rz => false
  | .ru => !neg
  | .rd => neg
  | .sr w => decide (w.toNat < m % 2 ^ k * 2 ^ 32 / 2 ^ k)

section
variable (r : Round) (neg : Bool) (m k : Nat)

theorem roundShift_eq : roundShift r neg m k =
    if m % 2 ^ k = 0 then m / 2 ^ k else if roundsUp r neg m k then m / 2 ^ k + 1 else m / 2 ^ k := by
  have rem : m - m >>> k <<< k = m % 2 ^ k := by
    rw [Nat.shiftRight_eq_div_pow, Nat.shiftLeft_eq, ← Nat.mod_eq_sub_div_mul]
  simp only [roundShift, rem]
  simp only [Nat.shiftRight_eq_div_pow, Nat.shiftLeft_eq]
  cases r <;> rfl

/-- The magnitude that a mode rounds to: the one below, or the next multiple of 2^k. -/
theorem roundShift_mul : roundShift r neg m k * 2 ^ k =
    if m % 2 ^ k = 0 then m else if roundsUp r neg m k then m - m % 2 ^ k + 2 ^ k else m - m % 2 ^ k := by
  have below : m / 2 ^ k * 2 ^ k = m - m % 2 ^ k := Nat.div_mul_self_eq_mod_sub_self
  rw [roundShift_eq]
  split
  · next integer => rw [below, integer, Nat.sub_zero]
  · split
    · rw [Nat.succ_mul, below]
    · exact below

theorem roundShift_within : m - m % 2 ^ k ≤ roundShift r neg m k * 2 ^ k ∧ roundShift r neg m k * 2 ^ k < m + 2 ^ k := by
  have := Nat.mod_le m (2 ^ k)
  have := Nat.mod_lt m (Nat.two_pow_pos k)
  rw [roundShift_mul]
  split_ifs <;> omega

/-- RNE goes to a nearest multiple. -/
theorem roundShift_rn_nearest : 2 * (roundShift .rn neg m k * 2 ^ k) ≤ 2 * m + 2 ^ k ∧
    2 * m ≤ 2 * (roundShift .rn neg m k * 2 ^ k) + 2 ^ k := by
  have := Nat.mod_le m (2 ^ k)
  have := Nat.mod_lt m (Nat.two_pow_pos k)
  rw [roundShift_mul, roundsUp]
  split_ifs with integer up
  · omega
  · have : 2 ^ k ≤ 2 * (m % 2 ^ k) := by
      simp only [Bool.or_eq_true, Bool.and_eq_true, decide_eq_true_eq, beq_iff_eq] at up
      omega
    omega
  · have : 2 * (m % 2 ^ k) ≤ 2 ^ k := by
      simp only [Bool.or_eq_true, Bool.and_eq_true, decide_eq_true_eq, beq_iff_eq] at up
      omega
    omega

/-- RNE takes the even neighbour at a tie. -/
theorem roundShift_rn_tie (tie : 2 * (m % 2 ^ k) = 2 ^ k) : roundShift .rn neg m k % 2 = 0 := by
  have pos := Nat.two_pow_pos k
  rw [roundShift_eq, if_neg (by omega), roundsUp, tie]
  by_cases odd : m / 2 ^ k % 2 = 1
  · simp only [odd, lt_irrefl, decide_false, beq_self_eq_true, Bool.and_self, Bool.or_true, if_true]
    omega
  · have even : m / 2 ^ k % 2 = 0 := by omega
    simp [even]

/-- A mode that never goes up rounds down, and one that always does rounds up. -/
theorem roundShift_le (down : roundsUp r neg m k = false) : roundShift r neg m k * 2 ^ k ≤ m := by
  rw [roundShift_mul, down, if_neg Bool.false_ne_true]
  split_ifs <;> omega

theorem le_roundShift (up : roundsUp r neg m k = true) : m ≤ roundShift r neg m k * 2 ^ k := by
  have := Nat.mod_le m (2 ^ k)
  have := Nat.mod_lt m (Nat.two_pow_pos k)
  rw [roundShift_mul, if_pos up]
  split_ifs <;> omega

end

/-! ### Square roots -/

theorem isqrtBits_eq_sqrt (n : Nat) : ∀ k r, r * r ≤ n → n < (r + 2 ^ k) * (r + 2 ^ k) → isqrtBits k n r = Nat.sqrt n
  | 0, r, low, high => Nat.eq_sqrt.mpr ⟨low, high⟩
  | k + 1, r, low, high => by
    rw [isqrtBits]
    split
    · exact isqrtBits_eq_sqrt n k _ ‹_› (by rwa [Nat.add_assoc, ← Nat.two_mul, ← pow_succ'])
    · exact isqrtBits_eq_sqrt n k r low (by omega)

theorem isqrt_eq_sqrt (n : Nat) : isqrt n = Nat.sqrt n := by
  refine isqrtBits_eq_sqrt n _ 0 (Nat.zero_le n) ?_
  calc n < 2 ^ (n.log2 + 1) := Nat.lt_log2_self
    _ ≤ 2 ^ (n.log2 / 2 + 1 + (n.log2 / 2 + 1)) := Nat.pow_le_pow_right (by decide) (by omega)
    _ = _ := by rw [pow_add, Nat.zero_add]

/-- The root of a square that FSQRT has shifted for its fraction bits. -/
theorem isqrt_square (r : Nat) : isqrt ((r * r) <<< 240) = r * 2 ^ 120 := by
  rw [isqrt_eq_sqrt, Nat.shiftLeft_eq, show r * r * 2 ^ 240 = r * 2 ^ 120 * (r * 2 ^ 120) by ring, Nat.sqrt_eq]

/-- FSQRT of a square with an even exponent, once its operand is brought to one. -/
theorem sqrt_value_square {r m : Nat} {e e' : Int} (nonzero : m ≠ 0) (square : (if e % 2 = 0 then m else 2 * m) = r * r)
    (even : (if e % 2 = 0 then e else e - 1) = e') :
    SpecialFn.sqrt.value (.fin false m e) = .fin false (r * 2 ^ 121) (e' / 2 - 121) := by
  have exact : r * 2 ^ 120 * (r * 2 ^ 120) = (r * r) <<< 240 := by rw [Nat.shiftLeft_eq]; ring
  have twice : 2 * (r * 2 ^ 120) = r * 2 ^ 121 := by ring
  simp only [SpecialFn.value, if_neg nonzero, square, even, isqrt_square, exact, if_true, Nat.add_zero, twice]
  rfl

/-! ### Powers and logarithms of two -/

theorem log2_mul_two_pow {m : Nat} (nonzero : m ≠ 0) (k : Nat) : Nat.log2 (m * 2 ^ k) = Nat.log2 m + k := by
  have pos := Nat.two_pow_pos k
  rw [Nat.log2_eq_iff (Nat.mul_ne_zero nonzero pos.ne'), pow_add, Nat.add_right_comm, pow_add]
  exact ⟨Nat.mul_le_mul_right _ (Nat.log2_self_le nonzero), Nat.mul_lt_mul_of_pos_right Nat.lt_log2_self pos⟩

/-- FEXP2 of an integer below 2^12 that its exponent shifts up. -/
theorem exp2_value_shifted (s : Bool) {m : Nat} (e : Nat) (nonzero : m ≠ 0) (small : m * 2 ^ e < 4096) :
    SpecialFn.exp2.value (.fin s m e) =
      .fin false 1 (if s then -((m * 2 ^ e : Nat) : Int) else ((m * 2 ^ e : Nat) : Int)) := by
  have low : Nat.log2 m + e < 12 := by
    rw [← log2_mul_two_pow nonzero]
    exact (Nat.log2_lt (Nat.mul_ne_zero nonzero (Nat.two_pow_pos e).ne')).mpr small
  have range : ¬(11 < (Nat.log2 m : Int) + e) := by omega
  rw [← Nat.shiftLeft_eq]
  exact (if_neg nonzero).trans ((if_neg range).trans (if_pos (Int.natCast_nonneg e)))

/-- FEXP2 of an integer below 2^12 whose exponent leaves it `k + 1` fraction bits. -/
theorem exp2_value_fraction (s : Bool) {q : Nat} (k : Nat) (nonzero : q ≠ 0) (small : q < 4096) :
    SpecialFn.exp2.value (.fin s (q * 2 ^ (k + 1)) (-((k + 1 : Nat) : Int))) =
      .fin false 1 (if s then -(q : Int) else q) := by
  have pos := Nat.two_pow_pos (k + 1)
  have range : ¬(11 < (Nat.log2 (q * 2 ^ (k + 1)) : Int) + -((k + 1 : Nat) : Int)) := by
    have : Nat.log2 q < 12 := (Nat.log2_lt nonzero).mpr small
    rw [log2_mul_two_pow nonzero]
    omega
  have fraction : ¬(0 ≤ -((k + 1 : Nat) : Int)) := by omega
  have quotient : (if s then -((q * 2 ^ (k + 1) : Nat) : Int) else ((q * 2 ^ (k + 1) : Nat) : Int)) /
      ((2 ^ (k + 1) : Nat) : Int) = if s then -(q : Int) else q := by
    have unit : ((2 ^ (k + 1) : Nat) : Int) ≠ 0 := by exact_mod_cast pos.ne'
    rw [Nat.cast_mul]
    cases s
    · exact Int.mul_ediv_cancel _ unit
    · exact (congrArg (· / _) (Int.neg_mul ..).symm).trans (Int.mul_ediv_cancel _ unit)
  rw [SpecialFn.value, if_neg (Nat.mul_ne_zero nonzero pos.ne'), exp2Val, if_neg range, if_neg fraction]
  simp only [Int.neg_neg, Int.toNat_natCast, Nat.mul_mod_left, if_true, quotient]

/-- FLOG2 of a power of two is its exponent. -/
theorem log2_value_two_pow (n : Nat) (e : Int) : SpecialFn.log2.value (.fin false (2 ^ n) e) = ofInt (n + e) := by
  rw [SpecialFn.value, if_neg (Nat.two_pow_pos n).ne']
  simp [log2Val, ofInt]

/-! ### Zeros, infinities and negative operands -/

/-- The functions that have no value for a negative operand. -/
theorem value_of_negative {g : SpecialFn} (domain : g ∈ [SpecialFn.rsq, .sqrt, .log2]) :
    g.value (.inf true) = .nan ∧ ∀ m e, m ≠ 0 → g.value (.fin true m e) = .nan := by
  simp only [List.mem_cons, List.not_mem_nil, or_false] at domain
  rcases domain with rfl | rfl | rfl <;> exact ⟨rfl, fun m e nonzero => if_neg nonzero⟩

end Sys2Proof.Machine

namespace Sys2Proof.Claims

open Sys2Proof Sys2Proof.Machine

/-- FSQRT of a square with an even exponent. -/
theorem sqrt_value_even {r : Nat} (k : Int) (nonzero : r ≠ 0) : ∃ n c : Nat,
    SpecialFn.sqrt.value (.fin false (r * r) (2 * k)) = .fin false n (k - c) ∧ n = r * 2 ^ c := by
  have even : 2 * k % 2 = 0 := Int.mul_emod_right ..
  refine ⟨r * 2 ^ 121, 121, ?_, rfl⟩
  rw [sqrt_value_square (Nat.mul_ne_zero nonzero nonzero) (if_pos even) (if_pos even), Int.mul_ediv_cancel_left k (by decide)]
  rfl

/-- FSQRT of twice a square with an odd exponent. -/
theorem sqrt_value_odd {r : Nat} (k : Int) (nonzero : r ≠ 0) : ∃ n c : Nat,
    SpecialFn.sqrt.value (.fin false (2 * (r * r)) (2 * k - 1)) = .fin false n (k - c) ∧ n = r * 2 ^ c := by
  have odd : ¬((2 * k - 1) % 2 = 0) := by omega
  have square : 2 * (2 * (r * r)) = 2 * r * (2 * r) := by ring
  refine ⟨2 * r * 2 ^ 121, 122, ?_, by ring⟩
  rw [sqrt_value_square (Nat.mul_ne_zero (by decide) (Nat.mul_ne_zero nonzero nonzero)) ((if_neg odd).trans square) (if_neg odd)]
  congr 1
  omega

/-- FEXP2 of an integer with fraction bits, none of them set. -/
theorem exp2_value_integer (s : Bool) (q k : Nat) (nonzero : q ≠ 0) (small : q < 4096) :
    SpecialFn.exp2.value (.fin s (q * 2 ^ k) (-(k : Int))) = .fin false 1 (if s then -(q : Int) else q) := by
  cases k with
  | zero => simpa using exp2_value_shifted s 0 nonzero (by simpa using small)
  | succ k => exact exp2_value_fraction s k nonzero small

/-- What each mode of R190 does to a magnitude m / 2^k. -/
theorem rounding (neg : Bool) (m k : Nat) :
    let up (r : Round) : Nat := roundShift r neg m k * 2 ^ k
    (∀ r, m % 2 ^ k = 0 → up r = m) ∧
    (∀ r, m - m % 2 ^ k ≤ up r ∧ up r < m + 2 ^ k) ∧
    (2 * (up .rn) ≤ 2 * m + 2 ^ k ∧ 2 * m ≤ 2 * (up .rn) + 2 ^ k) ∧
    (2 * (m % 2 ^ k) = 2 ^ k → roundShift .rn neg m k % 2 = 0) ∧
    up .rz ≤ m ∧ (neg = false → m ≤ up .ru ∧ up .rd ≤ m) ∧ (neg = true → up .ru ≤ m ∧ m ≤ up .rd) := by
  refine ⟨fun r integer => (roundShift_mul r neg m k).trans (if_pos integer), fun r => roundShift_within r neg m k,
    roundShift_rn_nearest neg m k, roundShift_rn_tie neg m k, roundShift_le .rz neg m k rfl, ?_, ?_⟩
  · rintro rfl
    exact ⟨le_roundShift .ru false m k rfl, roundShift_le .rd false m k rfl⟩
  · rintro rfl
    exact ⟨roundShift_le .ru true m k rfl, le_roundShift .rd true m k rfl⟩

/-- Settles O11: rounding by the multiple of 2^k that a mode takes; the special functions by the branch of their definition that
each operand takes, with the integer root of a square. -/
theorem roundingAndSpecials : Obligations.RoundingAndSpecials :=
  ⟨rounding, fun g => by cases g <;> rfl, fun s => ⟨rfl, rfl, rfl, rfl, rfl⟩, fun g => value_of_negative, ⟨rfl, rfl, rfl⟩,
    fun s e => ⟨rfl, rfl, rfl, rfl, rfl, rfl, rfl, rfl, rfl, rfl, rfl⟩, log2_value_two_pow,
    fun r k nonzero => ⟨sqrt_value_even k nonzero, sqrt_value_odd k nonzero⟩,
    fun s m e => exp2_value_shifted s e, exp2_value_integer⟩

end Sys2Proof.Claims
end

section
/-! Encodings of floating values (R180, R190, R191): the fields of a finite encoding, the encoding of a value that a format
holds, however its magnitude is written, and the bits that an encoding takes. -/

namespace Sys2Proof.Machine

open Sys2Proof

/-! ### The formats of R180 -/

/-- What the encodings of a format need: its largest finite value lies below the encodings of the infinities and NaNs, which take
the top exponent or the fractions above the largest, and every exponent is in the range that an overflow is tested by. -/
structure FFmt.Regular (f : FFmt) : Prop where
  two_le : 2 ≤ f.topE
  topE_le : f.topE ≤ 2 * f.bias + 1
  topE_lt : f.topE < 2 ^ f.eb
  topF_lt : f.topF < 2 ^ f.fb
  infinities : f.hasInf = true → f.topE + 2 = 2 ^ f.eb ∧ f.topF + 1 = 2 ^ f.fb
  last : f.hasInf = false → f.topE + 1 = 2 ^ f.eb
  full : f.hasInf = false → f.cnan = none → f.topF + 1 = 2 ^ f.fb
  nan_lt : f.nanBits < 2 ^ f.width

theorem regular_of_mem {f : FFmt} (mem : f ∈ [f64, f32, f16, bf16, e4m3, e5m2, e2m1]) : f.Regular := by
  simp only [List.mem_cons, List.not_mem_nil, or_false] at mem
  rcases mem with rfl | rfl | rfl | rfl | rfl | rfl | rfl <;> constructor <;> decide

/-- A sign, an exponent field and a fraction field in their places. -/
def FFmt.bits (f : FFmt) (s : Bool) (ef fr : Nat) : Nat := f.sign s + ef * 2 ^ f.fb + fr

/-- The fields of the finite encodings. -/
def FFmt.Finite (f : FFmt) (ef fr : Nat) : Prop := fr < 2 ^ f.fb ∧ (ef < f.topE ∨ ef = f.topE ∧ fr ≤ f.topF)

/-- The magnitude of a finite encoding is `significand` × 2^`unit`. -/
def FFmt.significand (f : FFmt) (ef fr : Nat) : Nat := if ef = 0 then fr else fr + 2 ^ f.fb
def FFmt.unit (f : FFmt) (ef : Nat) : Int := ((max ef 1 : Nat) : Int) - f.bias - f.fb

section
variable {f : FFmt} {s : Bool} {ef fr : Nat}

theorem FFmt.sign_eq (f : FFmt) (s : Bool) : f.sign s = s.toNat * 2 ^ f.eb * 2 ^ f.fb := by
  cases s <;> simp [FFmt.sign, pow_add]

theorem FFmt.bits_eq : f.bits s ef fr = fr + (s.toNat * 2 ^ f.eb + ef) * 2 ^ f.fb := by
  rw [FFmt.bits, FFmt.sign_eq]
  ring

theorem FFmt.bits_lt (exp : ef < 2 ^ f.eb) (frac : fr < 2 ^ f.fb) : f.bits s ef fr < 2 ^ f.width := by
  have sign : s.toNat ≤ 1 := Bool.toNat_le s
  have high : s.toNat * 2 ^ f.eb + ef + 1 ≤ 2 * 2 ^ f.eb := by
    have := Nat.mul_le_mul_right (2 ^ f.eb) sign
    omega
  calc f.bits s ef fr = fr + (s.toNat * 2 ^ f.eb + ef) * 2 ^ f.fb := FFmt.bits_eq
    _ < (s.toNat * 2 ^ f.eb + ef + 1) * 2 ^ f.fb := by rw [Nat.succ_mul]; omega
    _ ≤ 2 * 2 ^ f.eb * 2 ^ f.fb := Nat.mul_le_mul_right _ high
    _ = 2 ^ f.width := by rw [FFmt.width, pow_add, pow_add, pow_one]

/-! ### Decoding -/

theorem FFmt.fraction_bits (frac : fr < 2 ^ f.fb) : field (f.bits s ef fr) 0 f.fb = fr := by
  rw [field, Nat.shiftRight_zero, FFmt.bits_eq, Nat.add_mul_mod_self_right, Nat.mod_eq_of_lt frac]

theorem FFmt.high_bits (frac : fr < 2 ^ f.fb) : f.bits s ef fr / 2 ^ f.fb = s.toNat * 2 ^ f.eb + ef := by
  rw [FFmt.bits_eq, Nat.add_mul_div_right _ _ (Nat.two_pow_pos _), Nat.div_eq_of_lt frac, Nat.zero_add]

theorem FFmt.exponent_bits (exp : ef < 2 ^ f.eb) (frac : fr < 2 ^ f.fb) : field (f.bits s ef fr) f.fb f.eb = ef := by
  rw [field, Nat.shiftRight_eq_div_pow, FFmt.high_bits frac, Nat.mul_add_mod_self_right, Nat.mod_eq_of_lt exp]

theorem FFmt.sign_bit (exp : ef < 2 ^ f.eb) (frac : fr < 2 ^ f.fb) : (f.bits s ef fr).testBit (f.eb + f.fb) = s := by
  have quotient : f.bits s ef fr / 2 ^ (f.eb + f.fb) = s.toNat := by
    rw [Nat.add_comm, pow_add, ← Nat.div_div_eq_div_mul, FFmt.high_bits frac, Nat.add_comm,
      Nat.add_mul_div_right _ _ (Nat.two_pow_pos _), Nat.div_eq_of_lt exp, Nat.zero_add]
  rw [Nat.testBit_eq_decide_div_mod_eq, quotient]
  cases s <;> rfl

/-- Every encoding has its fields. -/
theorem FFmt.bits_of_fields (f : FFmt) {a : Nat} (bound : a < 2 ^ f.width) :
    f.bits (a.testBit (f.eb + f.fb)) (field a f.fb f.eb) (field a 0 f.fb) = a := by
  have quotient : a / 2 ^ f.fb / 2 ^ f.eb < 2 := by
    rw [Nat.div_div_eq_div_mul, ← pow_add, Nat.div_lt_iff_lt_mul (Nat.two_pow_pos _)]
    exact bound.trans_eq (by rw [FFmt.width]; ring)
  have sign : (a.testBit (f.eb + f.fb)).toNat = a / 2 ^ f.fb / 2 ^ f.eb := by
    rw [Nat.toNat_testBit, Nat.add_comm, pow_add, ← Nat.div_div_eq_div_mul, Nat.mod_eq_of_lt quotient]
  rw [FFmt.bits_eq, sign, field, field, Nat.shiftRight_zero, Nat.shiftRight_eq_div_pow, Nat.div_add_mod', Nat.mod_add_div']

theorem FFmt.decode_bits (regular : f.Regular) (finite : f.Finite ef fr) :
    f.decode (f.bits s ef fr) = .fin s (f.significand ef fr) (f.unit ef) := by
  obtain ⟨frac, below⟩ := finite
  have exp : ef < 2 ^ f.eb := by have := regular.topE_lt; omega
  have notInf : ¬(f.hasInf = true ∧ ef = 2 ^ f.eb - 1) := fun ⟨has, top⟩ => by
    have := (regular.infinities has).1
    omega
  have notNan : ¬(f.cnan.isSome = true ∧ (!f.hasInf) = true ∧ ef = f.topE ∧ f.topF < fr) := fun ⟨_, _, top, above⟩ => by
    omega
  simp only [FFmt.decode, FFmt.exponent_bits exp frac, FFmt.fraction_bits frac, FFmt.sign_bit exp frac, if_neg notInf,
    if_neg notNan, FFmt.significand, FFmt.unit]
  by_cases sub : ef = 0
  · simp [sub]
  · rw [if_neg sub, if_neg sub, Nat.max_eq_left (Nat.one_le_iff_ne_zero.mpr sub)]

/-- The fields of an encoding whose value is finite. -/
theorem FFmt.exists_fields (regular : f.Regular) {a : Nat} (bound : a < 2 ^ f.width) (finite : (f.decode a).finite = true) :
    ∃ s ef fr, f.Finite ef fr ∧ a = f.bits s ef fr := by
  have exp : field a f.fb f.eb < 2 ^ f.eb := Nat.mod_lt _ (Nat.two_pow_pos _)
  have frac : field a 0 f.fb < 2 ^ f.fb := Nat.mod_lt _ (Nat.two_pow_pos _)
  refine ⟨_, _, _, ⟨frac, ?_⟩, (f.bits_of_fields bound).symm⟩
  unfold FFmt.decode at finite
  generalize field a f.fb f.eb = ef at *
  generalize field a 0 f.fb = fr at *
  cases has : f.hasInf with
  | true =>
    have range := regular.infinities has
    have notTop : ef ≠ 2 ^ f.eb - 1 := fun top => by
      simp only [has, top, and_self, if_true] at finite
      split at finite <;> cases finite
    omega
  | false =>
    have range := regular.last has
    cases nan : f.cnan with
    | none =>
      have := regular.full has nan
      omega
    | some c =>
      have notNan : ¬(ef = f.topE ∧ f.topF < fr) := fun nans => by
        simp [has, nan, nans, FVal.finite] at finite
      omega

/-! ### Encoding a value that the format holds -/

/-- One magnitude over two units, `q` the finer: m × 2^e = n × 2^q. -/
def Refines (n : Nat) (q : Int) (m : Nat) (e : Int) : Prop := ∃ i : Nat, n = m * 2 ^ i ∧ q + i = e

/-- A magnitude that is a multiple of 2^q is rounded to no other. -/
theorem roundTo_of_refines {r : Round} {neg : Bool} {m n : Nat} {e q : Int}
    (same : Refines n q m e ∨ Refines m e n q) : roundTo r neg m e q = n := by
  unfold roundTo
  rcases same with ⟨i, rfl, rfl⟩ | ⟨i, rfl, rfl⟩
  · rw [if_pos (by omega), Nat.shiftLeft_eq, show (q + i - q).toNat = i by omega]
  · have shift : (e + i - e).toNat = i := by omega
    split
    · next le =>
      obtain rfl : i = 0 := by omega
      simp
    · rw [shift, roundShift_eq, if_pos (Nat.mul_mod_left ..), Nat.mul_div_cancel _ (Nat.two_pow_pos i)]

theorem log2_of_refines {m n : Nat} {e q : Int} (nonzero : n ≠ 0) (same : Refines n q m e ∨ Refines m e n q) :
    m ≠ 0 ∧ (Nat.log2 m : Int) + e = Nat.log2 n + q := by
  rcases same with ⟨i, rfl, rfl⟩ | ⟨i, rfl, rfl⟩
  · have left : m ≠ 0 := Nat.ne_zero_of_mul_ne_zero_left nonzero
    refine ⟨left, ?_⟩
    rw [log2_mul_two_pow left]
    omega
  · refine ⟨Nat.mul_ne_zero nonzero (Nat.two_pow_pos i).ne', ?_⟩
    rw [log2_mul_two_pow nonzero]
    omega

theorem eq_zero_of_refines {m : Nat} {e q : Int} (same : Refines 0 q m e ∨ Refines m e 0 q) : m = 0 := by
  rcases same with ⟨i, zero, -⟩ | ⟨i, rfl, -⟩
  · exact (Nat.mul_eq_zero.mp zero.symm).resolve_right (Nat.two_pow_pos i).ne'
  · exact Nat.zero_mul _

theorem FFmt.significand_lt (frac : fr < 2 ^ f.fb) : f.significand ef fr < 2 ^ (f.fb + 1) := by
  rw [FFmt.significand, pow_succ]
  split <;> omega

/-- The unit of a finite encoding is the one to which its magnitude is rounded. -/
theorem FFmt.unit_eq (frac : fr < 2 ^ f.fb) (nonzero : f.significand ef fr ≠ 0) :
    max ((Nat.log2 (f.significand ef fr) : Int) + f.unit ef) (1 - f.bias) - f.fb = f.unit ef := by
  by_cases sub : ef = 0
  · have low : Nat.log2 (f.significand ef fr) < f.fb := by
      rw [Nat.log2_lt nonzero, FFmt.significand, if_pos sub]
      exact frac
    have least : f.unit ef = 1 - f.bias - f.fb := by rw [FFmt.unit, sub]; rfl
    omega
  · have leading : Nat.log2 (f.significand ef fr) = f.fb := by
      rw [Nat.log2_eq_iff nonzero, pow_succ, FFmt.significand, if_neg sub]
      omega
    rw [leading, FFmt.unit]
    omega

/-- A value that a format holds is encoded as itself, in every mode. -/
theorem FFmt.encode_eq_bits (regular : f.Regular) (finite : f.Finite ef fr) (r : Round) (sat : Bool) {m : Nat} {e : Int}
    (same : Refines (f.significand ef fr) (f.unit ef) m e ∨ Refines m e (f.significand ef fr) (f.unit ef)) :
    f.encode r sat (.fin s m e) = f.bits s ef fr := by
  obtain ⟨frac, below⟩ := finite
  have two_le := regular.two_le
  have topE_le := regular.topE_le
  by_cases zero : f.significand ef fr = 0
  · rw [zero] at same
    have := Nat.two_pow_pos f.fb
    have fields : ef = 0 ∧ fr = 0 := by
      unfold FFmt.significand at zero
      split at zero <;> omega
    rw [fields.1, fields.2, FFmt.bits, Nat.zero_mul]
    exact if_pos (eq_zero_of_refines same)
  obtain ⟨nonzero, top⟩ := log2_of_refines zero same
  have unit := f.unit_eq frac zero
  have lt := f.significand_lt (ef := ef) frac
  have noCarry : ¬(2 ^ (f.fb + 1) ≤ f.significand ef fr) := by omega
  have inRange : ¬((f.bias : Int) + 1 < Nat.log2 (f.significand ef fr) + f.unit ef) := by
    have : Nat.log2 (f.significand ef fr) ≤ f.fb := Nat.lt_succ_iff.mp ((Nat.log2_lt zero).mpr lt)
    rw [FFmt.unit]
    omega
  have notOver : ¬((f.topE : Int) - f.bias - f.fb < f.unit ef ∨
      (f.unit ef = (f.topE : Int) - f.bias - f.fb ∧ 2 ^ f.fb + f.topF < f.significand ef fr)) := by
    rw [FFmt.unit, FFmt.significand]
    split <;> omega
  simp only [FFmt.encode, if_neg nonzero, top, if_neg inRange, unit, roundTo_of_refines same, noCarry, decide_false,
    Bool.false_eq_true, if_false, if_neg notOver]
  by_cases sub : ef = 0
  · rw [FFmt.significand, if_pos sub, if_pos frac, FFmt.bits, sub, Nat.zero_mul, Nat.add_zero]
  · rw [FFmt.significand, if_neg sub, if_neg (by omega), Nat.add_sub_cancel, FFmt.unit, FFmt.bits]
    congr 3
    omega

/-! ### The bits of an encoding -/

theorem roundShift_le_of_lt {r : Round} {neg : Bool} {m k n : Nat} (bound : m < n * 2 ^ k) : roundShift r neg m k ≤ n := by
  have : m / 2 ^ k < n := (Nat.div_lt_iff_lt_mul (Nat.two_pow_pos k)).mpr bound
  rw [roundShift_eq]
  split_ifs <;> omega

/-- A magnitude rounded to a unit `b` bits below its leading bit, or higher, keeps `b + 1` bits, or rounds up to 2^(b + 1). -/
theorem roundTo_le {r : Round} {neg : Bool} {m b : Nat} {e q : Int} (high : (Nat.log2 m : Int) + e - b ≤ q) :
    roundTo r neg m e q ≤ 2 ^ (b + 1) := by
  have lt : m < 2 ^ (Nat.log2 m + 1) := Nat.lt_log2_self
  unfold roundTo
  split
  · rw [Nat.shiftLeft_eq]
    calc m * 2 ^ (e - q).toNat ≤ 2 ^ (Nat.log2 m + 1) * 2 ^ (e - q).toNat := Nat.mul_le_mul_right _ lt.le
      _ = 2 ^ (Nat.log2 m + 1 + (e - q).toNat) := (pow_add ..).symm
      _ ≤ 2 ^ (b + 1) := Nat.pow_le_pow_right (by decide) (by omega)
  · refine roundShift_le_of_lt (lt.trans_le ?_)
    rw [← pow_add]
    exact Nat.pow_le_pow_right (by decide) (by omega)

theorem FFmt.sign_lt (s : Bool) : f.sign s < 2 ^ f.width := by
  simpa [FFmt.bits] using FFmt.bits_lt (f := f) (s := s) (Nat.two_pow_pos f.eb) (Nat.two_pow_pos f.fb)

theorem FFmt.big_lt (regular : f.Regular) (s : Bool) : f.big s < 2 ^ f.width :=
  FFmt.bits_lt regular.topE_lt regular.topF_lt

theorem FFmt.infBits_lt (s : Bool) : f.infBits s < 2 ^ f.width :=
  FFmt.bits_lt (f := f) (s := s) (Nat.sub_one_lt (Nat.two_pow_pos f.eb).ne') (Nat.two_pow_pos f.fb)

theorem FFmt.overflow_lt (regular : f.Regular) (r : Round) (sat neg : Bool) : f.overflow r sat neg < 2 ^ f.width := by
  unfold FFmt.overflow
  dsimp only
  split_ifs
  · exact f.big_lt regular neg
  · exact f.infBits_lt neg
  · exact regular.nan_lt

/-- What the encoding of a finite value can be: a zero, what an overflow gives, or the encoding of a multiple `n` of 2^`q`, with a
bit above the fraction or below it. -/
theorem FFmt.encode_fin_cases (f : FFmt) (r : Round) (sat s : Bool) (m : Nat) (e : Int) :
    f.encode r sat (.fin s m e) = f.sign s ∨ f.encode r sat (.fin s m e) = f.overflow r sat s ∨
    ∃ (n : Nat) (q : Int), n < 2 ^ (f.fb + 1) ∧ q ≤ (f.topE : Int) - f.bias - f.fb ∧
      f.encode r sat (.fin s m e) =
        if n < 2 ^ f.fb then f.sign s + n else f.sign s + (q + f.fb + f.bias).toNat * 2 ^ f.fb + (n - 2 ^ f.fb) := by
  have rounded := roundTo_le (r := r) (neg := s) (m := m) (b := f.fb) (e := e)
    (q := max ((Nat.log2 m : Int) + e) (1 - f.bias) - f.fb) (by omega)
  have pos := Nat.two_pow_pos f.fb
  unfold FFmt.encode
  dsimp only
  generalize roundTo r s m e (max ((Nat.log2 m : Int) + e) (1 - f.bias) - f.fb) = n0 at *
  generalize max ((Nat.log2 m : Int) + e) (1 - f.bias) - (f.fb : Int) = q0 at *
  have lt : (if decide (2 ^ (f.fb + 1) ≤ n0) = true then n0 / 2 else n0) < 2 ^ (f.fb + 1) := by
    simp only [decide_eq_true_eq]
    split <;> omega
  generalize (if decide (2 ^ (f.fb + 1) ≤ n0) = true then n0 / 2 else n0) = n at *
  generalize (if decide (2 ^ (f.fb + 1) ≤ n0) = true then q0 + 1 else q0) = q
  split
  · exact .inl rfl
  split
  · exact .inr (.inl rfl)
  split
  · exact .inr (.inl rfl)
  · exact .inr (.inr ⟨n, q, lt, by omega, rfl⟩)

theorem FFmt.encode_lt (regular : f.Regular) (r : Round) (sat : Bool) (v : FVal) : f.encode r sat v < 2 ^ f.width := by
  match v with
  | .nan => exact regular.nan_lt
  | .inf s =>
    unfold FFmt.encode
    split_ifs
    · exact f.big_lt regular s
    · exact f.infBits_lt s
    · exact regular.nan_lt
  | .fin s m e =>
    rcases f.encode_fin_cases r sat s m e with zero | overflows | ⟨n, q, lt, top, eq⟩
    · exact zero ▸ f.sign_lt s
    · exact overflows ▸ f.overflow_lt regular r sat s
    · rw [pow_succ] at lt
      rw [eq]
      split
      · next sub => simpa [FFmt.bits] using FFmt.bits_lt (s := s) (Nat.two_pow_pos f.eb) sub
      · have := regular.topE_lt
        exact FFmt.bits_lt (by omega) (by omega)

end

end Sys2Proof.Machine

namespace Sys2Proof.Claims

open Sys2Proof Sys2Proof.Machine

/-- Settles O10: a finite encoding is its fields, and their value is encoded as them. -/
theorem floatRoundTrip : Obligations.FloatRoundTrip := by
  intro f mem r sat a bound finite
  have regular := regular_of_mem mem
  obtain ⟨s, ef, fr, fields, rfl⟩ := FFmt.exists_fields regular bound finite
  rw [FFmt.decode_bits regular fields]
  exact FFmt.encode_eq_bits regular fields r sat (.inl ⟨0, (Nat.mul_one _).symm, Int.add_zero _⟩)

end Sys2Proof.Claims
end

section
/-! Conversions (R195, R272, R273): integers as words, the narrow formats as values of FP32, and the slots of a narrow result. -/

namespace Sys2Proof.Machine

open Sys2Proof

/-! ### Integers (R178, R195) -/

theorem wrap_eq_ofInt (n : Nat) (v : Int) : wrap n v = (BitVec.ofInt n v).toNat := by
  rw [wrap, BitVec.toNat_ofInt]
  norm_cast

theorem wrap_lt (n : Nat) (v : Int) : wrap n v < 2 ^ n := wrap_eq_ofInt n v ▸ BitVec.isLt _

theorem clamp_eq_max_min {lo hi : Int} (range : lo ≤ hi) (v : Int) : clamp lo hi v = max lo (min hi v) := by
  unfold clamp
  split_ifs <;> omega

theorem signed_toNat (v : Word) : Machine.signed 32 v.toNat = v.toInt := by
  have := v.isLt
  rw [Machine.signed, BitVec.toInt_eq_toNat_cond, Nat.mod_eq_of_lt v.isLt]
  split_ifs <;> omega

/-! ### The element types (R228) -/

theorem floatType_regular {t : Nat} {f : FFmt} (float : floatType t = some f) : f.Regular := by
  unfold floatType at float
  split at float <;> cases float <;> exact regular_of_mem (by decide)

theorem FVal.toInt_lt (r : Round) (sg : Bool) (w : Nat) (v : FVal) : v.toInt r sg w < 2 ^ w := by
  cases v with
  | nan => exact Nat.two_pow_pos w
  | inf s => exact wrap_lt ..
  | fin s m e => exact wrap_lt ..

/-- The width of an element of a type that is an integer or a float. -/
theorem typeWidth_of_int {t w : Nat} {sg : Bool} (int : intType t = some (sg, w)) : typeWidth t = w := by
  rw [typeWidth, int]

theorem typeWidth_of_float {t : Nat} {f : FFmt} (int : intType t = none) (float : floatType t = some f) :
    typeWidth t = f.width := by
  rw [typeWidth, int, float]

theorem typeWidth_of_none {t : Nat} (int : intType t = none) (float : floatType t = none) : typeWidth t = 32 := by
  rw [typeWidth, int, float]

/-- A conversion gives an element of its type, a number that fits its width. -/
theorem convert_lt {ts td : Nat} (source : intType ts = none → floatType ts ≠ none)
    (target : intType td = none → floatType td ≠ none) (r : Round) (sat : Bool) (bits : Nat) :
    convert ts td r sat bits < 2 ^ typeWidth td := by
  by_cases same : ts = td
  · subst same
    exact (if_pos rfl).trans_lt (Nat.mod_lt _ (Nat.two_pow_pos _))
  rw [convert, if_neg same]
  cases toInt : intType td with
  | some int =>
    rw [typeWidth_of_int toInt]
    cases fromInt : intType ts with
    | some int' => exact wrap_lt ..
    | none =>
      cases fromFloat : floatType ts with
      | some f => exact FVal.toInt_lt ..
      | none => exact absurd fromFloat (source fromInt)
  | none =>
    cases toFloat : floatType td with
    | none => exact absurd toFloat (target toInt)
    | some g =>
      rw [typeWidth_of_float toInt toFloat]
      cases fromInt : intType ts with
      | some int' => exact FFmt.encode_lt (floatType_regular toFloat) ..
      | none =>
        cases fromFloat : floatType ts with
        | some f => exact FFmt.encode_lt (floatType_regular toFloat) ..
        | none => exact absurd fromFloat (source fromInt)

/-! ### The slots of a narrow result (R273) -/

/-- A number put at a slot has no bits outside the slot. -/
theorem getLsbD_outside_slot {v n k i : Nat} (bound : v < 2 ^ n) (outside : i < k ∨ k + n ≤ i) :
    (BitVec.ofNat 32 (v <<< k)).getLsbD i = false := by
  rw [BitVec.getLsbD_ofNat, Nat.testBit_shiftLeft]
  rcases outside with below | above
  · simp [Nat.not_le.mpr below]
  · have high : v.testBit (i - k) = false :=
      Nat.testBit_lt_two_pow (bound.trans_le (Nat.pow_le_pow_right (by decide) (by omega)))
    simp [high]

/-- CVTN keeps the bits of the other slots, where its source and its target are element types. -/
theorem Parts.narrowPack_outside {p : Parts} (source : intType p.ts = none → floatType p.ts ≠ none)
    (target : intType p.td = none → floatType p.td ≠ none) (d a b : Word) {i : Nat}
    (outside : i < 2 * typeWidth p.td * p.fx ∨ 2 * typeWidth p.td * (p.fx + 1) ≤ i) :
    (p.narrowPack d a b).getLsbD i = d.getLsbD i := by
  rw [Nat.mul_succ] at outside
  have elem (v : Word) := convert_lt source target p.round p.sat v.toNat
  have pair : convert p.ts p.td p.round p.sat a.toNat + convert p.ts p.td p.round p.sat b.toNat * 2 ^ typeWidth p.td <
      2 ^ (2 * typeWidth p.td) := by
    have low := elem a
    have high := Nat.mul_le_mul_right (2 ^ typeWidth p.td) (Nat.succ_le_of_lt (elem b))
    rw [Nat.succ_mul] at high
    rw [Nat.two_mul, pow_add]
    omega
  have mask : 2 ^ (2 * typeWidth p.td) - 1 < 2 ^ (2 * typeWidth p.td) := Nat.sub_one_lt (Nat.two_pow_pos _).ne'
  simp only [Parts.narrowPack, BitVec.getLsbD_or, BitVec.getLsbD_and, BitVec.getLsbD_not,
    getLsbD_outside_slot pair outside, getLsbD_outside_slot mask outside]
  by_cases inside : i < 32
  · simp [inside]
  · simp [inside, BitVec.getLsbD_of_ge d i (Nat.le_of_not_lt inside)]

/-! ### Narrow floats in FP32 (R195) -/

/-- A magnitude of at most 24 bits, of a unit and a leading bit in the range of FP32, is a finite encoding of FP32. -/
theorem f32_holds {m : Nat} {e : Int} (short : m < 2 ^ 24) (low : -149 ≤ e) (high : (Nat.log2 m : Int) + e ≤ 127) :
    ∃ ef fr, f32.Finite ef fr ∧ Refines (f32.significand ef fr) (f32.unit ef) m e := by
  by_cases zero : m = 0
  · exact ⟨0, 0, by unfold FFmt.Finite; decide, (e + 149).toNat, by simp [zero, FFmt.significand],
      by rw [show f32.unit 0 = -149 by decide]; omega⟩
  have leading : Nat.log2 m < 24 := (Nat.log2_lt zero).mpr short
  by_cases sub : (Nat.log2 m : Int) + e < -126
  · obtain ⟨i, rfl⟩ : ∃ i : Nat, e = i - 149 := ⟨(e + 149).toNat, by omega⟩
    have lt : m * 2 ^ i < 2 ^ 23 := by
      rw [← Nat.log2_lt (Nat.mul_ne_zero zero (Nat.two_pow_pos i).ne'), log2_mul_two_pow zero]
      omega
    refine ⟨0, m * 2 ^ i, ⟨lt, .inl (by decide)⟩, i, rfl, ?_⟩
    rw [show f32.unit 0 = -149 by decide]
    omega
  · have norm : Nat.log2 (m * 2 ^ (23 - Nat.log2 m)) = 23 := by rw [log2_mul_two_pow zero]; omega
    obtain ⟨least, most⟩ := (Nat.log2_eq_iff (Nat.mul_ne_zero zero (Nat.two_pow_pos _).ne')).mp norm
    obtain ⟨ef, exp⟩ : ∃ ef : Nat, (ef : Int) = Nat.log2 m + e + 127 := ⟨(Nat.log2 m + e + 127).toNat, by omega⟩
    refine ⟨ef, m * 2 ^ (23 - Nat.log2 m) - 2 ^ 23, ⟨?_, ?_⟩, 23 - Nat.log2 m, ?_, ?_⟩
    · show _ < 2 ^ 23
      omega
    · show ef < 254 ∨ ef = 254 ∧ _ ≤ 2 ^ 23 - 1
      omega
    · rw [FFmt.significand, if_neg (by omega)]
      show _ - 2 ^ 23 + 2 ^ 23 = _
      omega
    · show ((max ef 1 : Nat) : Int) - 127 - 23 + _ = e
      omega

/-- A format whose finite values are values of FP32. -/
structure FFmt.Narrow (f : FFmt) : Prop where
  regular : f.Regular
  fraction : f.fb < 24
  least : f.bias + f.fb ≤ 150
  most : f.topE ≤ f.bias + 127

theorem narrow_of_mem {f : FFmt} (mem : f ∈ [f16, bf16, e4m3, e5m2, e2m1]) : f.Narrow := by
  have regular : f.Regular := regular_of_mem (List.mem_cons_of_mem _ (List.mem_cons_of_mem _ mem))
  simp only [List.mem_cons, List.not_mem_nil, or_false] at mem
  rcases mem with rfl | rfl | rfl | rfl | rfl <;> exact ⟨regular, by decide, by decide, by decide⟩

/-- FP32 holds every finite value of a narrow format. -/
theorem f32_holds_narrow {f : FFmt} (narrow : f.Narrow) {ef fr : Nat} (fields : f.Finite ef fr) :
    ∃ ef' fr', f32.Finite ef' fr' ∧
      Refines (f32.significand ef' fr') (f32.unit ef') (f.significand ef fr) (f.unit ef) := by
  have lt := f.significand_lt (ef := ef) fields.1
  have := narrow.fraction
  have := narrow.least
  have := narrow.most
  have := narrow.regular.two_le
  have := fields.2
  have leading : Nat.log2 (f.significand ef fr) ≤ f.fb := by
    by_cases zero : f.significand ef fr = 0
    · rw [zero]
      exact Nat.zero_le _
    · exact Nat.lt_succ_iff.mp ((Nat.log2_lt zero).mpr lt)
  refine f32_holds (lt.trans_le (Nat.pow_le_pow_right (by decide) (by omega))) ?_ ?_ <;> rw [FFmt.unit] <;> omega

/-- A finite value of a narrow format that is widened to FP32 narrows to its own encoding. -/
theorem encode_widened {f : FFmt} (narrow : f.Narrow) (r : Round) (sat : Bool) {a : Nat} (bound : a < 2 ^ f.width)
    (finite : (f.decode a).finite = true) : f.encode r sat (f32.decode (f32.encode r sat (f.decode a))) = a := by
  have wide : f32.Regular := regular_of_mem (by decide)
  obtain ⟨s, ef, fr, fields, rfl⟩ := FFmt.exists_fields narrow.regular bound finite
  obtain ⟨ef', fr', fields', same⟩ := f32_holds_narrow narrow fields
  rw [FFmt.decode_bits narrow.regular fields, FFmt.encode_eq_bits wide fields' r sat (.inl same),
    FFmt.decode_bits wide fields', FFmt.encode_eq_bits narrow.regular fields r sat (.inr same)]

end Sys2Proof.Machine

namespace Sys2Proof.Claims

open Sys2Proof Sys2Proof.Machine

/-- A signed word to a byte, clamped (R195). -/
theorem convert_s32_s8_sat (r : Round) (v : Word) :
    convert 5 1 r true v.toNat = (BitVec.ofInt 8 (max (-128) (min 127 v.toInt))).toNat := by
  have word : v.toNat % 2 ^ 32 = v.toNat := Nat.mod_eq_of_lt v.isLt
  show wrap 8 (clamp (-128) 127 (Machine.signed 32 (v.toNat % 2 ^ 32))) = _
  rw [word, signed_toNat, clamp_eq_max_min (by decide), wrap_eq_ofInt]

/-- A signed word to a byte, its low bits. -/
theorem convert_s32_s8 (r : Round) (v : Word) : convert 5 1 r false v.toNat = v.toNat % 256 := by
  have word : v.toNat % 2 ^ 32 = v.toNat := Nat.mod_eq_of_lt v.isLt
  show wrap 8 (Machine.signed 32 (v.toNat % 2 ^ 32)) = _
  rw [word, signed_toNat, wrap, BitVec.toInt_eq_toNat_cond]
  split_ifs <;> omega

/-- An unsigned word to a byte, clamped. -/
theorem convert_u32_u8_sat (r : Round) (v : Word) : convert 6 2 r true v.toNat = min 255 v.toNat := by
  have word : v.toNat % 2 ^ 32 = v.toNat := Nat.mod_eq_of_lt v.isLt
  show wrap 8 (clamp 0 255 ((v.toNat % 2 ^ 32 : Nat) : Int)) = _
  rw [word, clamp_eq_max_min (by decide), wrap]
  omega

/-- The words that CVTN converts from and the elements that it packs are of element types. -/
theorem elements_of_narrowPack {p : Parts} (source : p.ts ∈ [5, 6, 10]) (slots : typeWidth p.td * 2 * (p.fx + 1) ≤ 32) :
    (intType p.ts = none → floatType p.ts ≠ none) ∧ (intType p.td = none → floatType p.td ≠ none) := by
  constructor
  · simp only [List.mem_cons, List.not_mem_nil, or_false] at source
    rcases source with h | h | h <;> rw [h] <;> decide
  · intro int float
    rw [typeWidth_of_none int float] at slots
    omega

/-- Settles O13: integers by their values as words, narrow floats by their encodings in FP32, and the slots by the bits that a
packed pair takes. -/
theorem conversionValues : Obligations.ConversionValues := by
  refine ⟨fun ts r sat a => if_pos rfl, fun r sat v => ⟨convert_s32_s8_sat r v, convert_s32_s8 r v, convert_u32_u8_sat r v,
    rfl, rfl, rfl, rfl⟩, fun f mem r sat a => encode_widened (narrow_of_mem mem) r sat, ?_⟩
  intro p d a b i source slots outside
  obtain ⟨known, target⟩ := elements_of_narrowPack source slots
  exact Parts.narrowPack_outside known target d a b outside

end Sys2Proof.Claims
end

section
/-! Cross-lane instructions (R276 to R281): the lanes of a tile, the source of a shuffle, BALLOT's bits, and the reduction tree of
R197 as the operation over the active lanes in order. -/

namespace Sys2Proof.Machine

open Sys2Proof

/-! ### The reduction tree (R197) -/

/-- The operation over a list of values, from the left; none for no value. -/
def foldVals (g : Word → Word → Word) : List Word → Option Word
  | [] => none
  | k :: ks => some (ks.foldl g k)

/-- A level halves the number of positions. -/
theorem length_treeLevel (g : Word → Word → Word) (l : List (Option Word)) :
    (treeLevel g l).length = (l.length + 1) / 2 := by
  fun_induction treeLevel g l with
  | case1 a b t ih => simp only [List.length_cons, ih]; omega
  | case2 b t ih => simp only [List.length_cons, ih]; omega
  | case3 a t _ ih => simp only [List.length_cons, ih]; omega
  | case4 a => simp
  | case5 => rfl

section
variable {g : Word → Word → Word} [Std.Associative g]

theorem foldVals_cons (a : Word) (l : List Word) : foldVals g (a :: l) = some ((foldVals g l).elim a (g a)) := by
  cases l with
  | nil => rfl
  | cons b l => exact congrArg some (List.foldl_assoc (op := g))

/-- A level of the tree combines neighbours, so the operation over its values stays. -/
theorem foldVals_treeLevel (l : List (Option Word)) : foldVals g (treeLevel g l).reduceOption = foldVals g l.reduceOption := by
  fun_induction treeLevel g l with
  | case1 a b t ih =>
    simp only [List.reduceOption_cons_of_some, foldVals_cons, ih]
    cases foldVals g t.reduceOption with
    | none => rfl
    | some y => exact congrArg some (Std.Associative.assoc (op := g) a b y)
  | case2 b t ih => cases b <;> simp [foldVals_cons, ih]
  | case3 a t _ ih => cases a <;> simp [foldVals_cons, ih]
  | case4 a => rfl
  | case5 => rfl

/-- As many levels as the list needs leave the operation over its values. -/
theorem treeReduce_eq_foldVals : ∀ (n : Nat) (l : List (Option Word)), l.length ≤ 2 ^ n →
    treeReduce g n l = foldVals g l.reduceOption
  | 0, [], _ => rfl
  | 0, [some a], _ => rfl
  | 0, [none], _ => rfl
  | n + 1, l, short => by
    have level : (treeLevel g l).length ≤ 2 ^ n := by rw [length_treeLevel]; omega
    rw [treeReduce, treeReduce_eq_foldVals n _ level, foldVals_treeLevel]

end

/-- Of two values the one with the lesser key, the first on a tie: in any grouping. -/
theorem lesser_assoc (key : Word → Int) : Std.Associative fun a b => if key b < key a then b else a := by
  refine ⟨fun a b c => ?_⟩
  by_cases ab : key b < key a
  · by_cases bc : key c < key b
    · have ac : key c < key a := bc.trans ab
      simp [ab, bc, ac]
    · simp [ab, bc]
  · by_cases bc : key c < key b
    · simp [ab, bc]
    · have ac : ¬key c < key a := by omega
      simp [ab, bc, ac]

/-- The integer operations of a reduction are associative (R197). -/
theorem Parts.combine_assoc {p : Parts} (integer : p.td ≠ 10) : Std.Associative p.combine := by
  unfold Parts.combine
  simp only [if_neg integer]
  match p.fx with
  | 0 => exact ⟨BitVec.add_assoc⟩
  | 1 => exact lesser_assoc (asInt p.signed)
  | 2 =>
    have greater := lesser_assoc fun a => -asInt p.signed a
    simp only [Int.neg_lt_neg_iff] at greater
    exact greater
  | 3 => exact ⟨BitVec.and_assoc⟩
  | 4 => exact ⟨BitVec.or_assoc⟩
  | _ + 5 => exact ⟨BitVec.xor_assoc⟩

/-! ### The lanes of a tile -/

section
variable (x : Exe) (l : Nat)

theorem Exe.tileBase_eq_mul : x.tileBase l = l / x.team.part * x.team.part := (Nat.div_mul_self_eq_mod_sub_self).symm

/-- Two lanes are of one tile when their tiles have the same number. -/
theorem Exe.tileLanes_eq : x.tileLanes l = x.lanes.filter fun k => decide (k / x.team.part = l / x.team.part) := by
  refine List.filter_congr fun k _ => ?_
  rw [beq_eq_decide, x.tileBase_eq_mul, x.tileBase_eq_mul]
  rcases Nat.eq_zero_or_pos x.team.part with zero | pos
  · simp [zero]
  · simp [Nat.mul_left_inj pos.ne']

end

/-- The lanes below `n` of the tile of lane `l` are a run, where the tile ends by `n`. -/
theorem filter_tile_range {p l n : Nat} (pos : 0 < p) (ends : l / p * p + p ≤ n) :
    ((List.range n).filter fun k => decide (k / p = l / p)) = List.range' (l / p * p) p := by
  have cut : List.range n = List.range' 0 (l / p * p) ++ (List.range' (l / p * p) p ++
      List.range' (l / p * p + p) (n - (l / p * p + p))) := by
    rw [List.range'_append_1, List.range_eq_range']
    have := List.range'_append_1 (s := 0) (m := l / p * p) (n := p + (n - (l / p * p + p)))
    rw [Nat.zero_add] at this
    rw [this]
    congr 1
    omega
  have same (k : Nat) : k / p = l / p ↔ l / p * p ≤ k ∧ k < l / p * p + p := by
    rw [Nat.div_eq_iff pos]
    omega
  simp only [cut, List.filter_append, same]
  rw [List.filter_eq_nil_iff.mpr, List.filter_eq_self.mpr, List.filter_eq_nil_iff.mpr, List.nil_append, List.append_nil]
  all_goals
    intro k mem
    have := List.mem_range'_1.mp mem
    simp only [decide_eq_true_eq]
    omega

/-- What a test leaves of the values of a list of lanes. -/
theorem reduceOption_map_ite (c : Nat → Bool) (h : Nat → Word) (ks : List Nat) :
    (ks.map fun k => if c k then some (h k) else none).reduceOption = (ks.filter c).map h := by
  induction ks with
  | nil => rfl
  | cons k ks ih => cases e : c k <;> simp [e, ih]

end Sys2Proof.Machine

namespace Sys2Proof.Claims

open Sys2Proof Sys2Proof.Machine

/-! ### Bits of a word -/

/-- The bits of a number that is written as a sum of powers of two. -/
theorem sum_powers_bits (f : Nat → Bool) : ∀ n, ((List.range n).map fun i => if f i then 2 ^ i else 0).sum < 2 ^ n ∧
    ∀ j, ((List.range n).map fun i => if f i then 2 ^ i else 0).sum.testBit j = (decide (j < n) && f j)
  | 0 => by simp
  | n + 1 => by
    obtain ⟨bound, bits⟩ := sum_powers_bits f n
    rw [List.range_succ, List.map_append, List.sum_append, List.map_singleton, List.sum_singleton]
    generalize ((List.range n).map fun i => if f i then 2 ^ i else 0).sum = low at bound bits
    have next (j : Nat) : (decide (j < n + 1) && f j) = (decide (j < n) && f j || decide (n = j) && f n) := by
      by_cases top : n = j
      · simp [top]
      · simp [top, show j < n + 1 ↔ j < n by omega]
    rw [pow_succ]
    cases set : f n with
    | false => exact ⟨by rw [if_neg Bool.false_ne_true]; omega, fun j => by rw [next, set]; simpa using bits j⟩
    | true =>
      refine ⟨by rw [if_pos rfl]; omega, fun j => ?_⟩
      rw [if_pos rfl, Nat.add_comm, ← Nat.mul_one (2 ^ n), Nat.two_pow_add_eq_or_of_lt bound, Nat.mul_one,
        Nat.testBit_or, Nat.testBit_two_pow, bits, next, set, Bool.and_true, Bool.or_comm]

theorem ofBits_getLsbD (f : Nat → Bool) {j : Nat} (h : j < 32) : (ofBits f).getLsbD j = f j := by
  rw [ofBits, BitVec.getLsbD_ofNat, (sum_powers_bits f 32).2]
  simp [h]

/-- The bits of a word that is the union of single bits. -/
theorem foldl_or_bits (bitOf : Nat → Nat) {j : Nat} (h : j < 32) : ∀ (ks : List Nat) (w : Word),
    (ks.foldl (fun w k => w ||| 1#32 <<< bitOf k) w).getLsbD j = (w.getLsbD j || ks.any fun k => decide (bitOf k = j))
  | [], w => by simp
  | k :: ks, w => by
    have one : (1#32 <<< bitOf k).getLsbD j = decide (bitOf k = j) := by
      rw [← BitVec.twoPow_eq, BitVec.getLsbD_twoPow]
      simpa using fun same => same ▸ h
    rw [List.foldl_cons, foldl_or_bits bitOf h ks, BitVec.getLsbD_or, one, List.any_cons, Bool.or_assoc]

/-! ### Each instruction -/

/-- An instruction that gives each active lane one word completes with those words. -/
theorem does_of_vectorOp {i : Instr} {g h : Exe → Nat → Word} (run : State → Host.Outcome State Fault Refusal)
    (runs : ∀ s, exec i s = run s) (each : ∀ s, run s = vectorOp i g s) (same : ∀ x l, g x l = h x l) :
    Does i noCheck (fun x u => writeEach x x.parts.d (h x) u) := by
  obtain rfl : g = h := funext₂ same
  exact does_of_performPure run runs each

section
variable (x : Exe) (l : Nat)

theorem tileLanes_eq_tileActive : x.tileLanes l = tileActive x l := x.tileLanes_eq l

theorem tileBase_eq_tileStart : x.tileBase l = tileStart x l := x.tileBase_eq_mul l

/-- A shuffle by its source lane (R277). -/
theorem shuffled_eq_fromLane {src : Exe → Nat → Option Nat} {i : Instr} (same : src x l = sourceLane x l i) :
    x.shuffled src l = fromLane x i l := by
  rw [Exe.shuffled, fromLane, same]
  cases sourceLane x l i <;> rfl

theorem vote_eq_votes : x.vote l = votes x l := by
  unfold Exe.vote votes
  rw [tileLanes_eq_tileActive]
  match x.parts.s with
  | 0 => rfl
  | 1 => rfl
  | _ + 2 => simp [List.not_any_eq_all_not]

theorem ballot_eq_balloted : x.ballot l = balloted x l := by
  unfold Exe.ballot balloted
  rw [tileLanes_eq_tileActive]
  refine if_congr Iff.rfl rfl (BitVec.eq_of_getLsbD_eq fun j h => ?_)
  rw [ofBits_getLsbD _ h, foldl_or_bits _ h]
  simp

end

section
variable (f : RRR) (rs : RRS)

theorem does_shflu : Does (.shflu f) noCheck (fun x u => writeEach x x.parts.d (fromLane x (.shflu f)) u) := by
  refine does_of_vectorOp (execShflu f) (fun _ => rfl) (fun _ => rfl) fun x l => shuffled_eq_fromLane x l ?_
  have lane : x.tileBase l + l % x.team.part = l := Nat.sub_add_cancel (Nat.mod_le ..)
  simp only [sourceLane, lane]

theorem does_shfld : Does (.shfld f) noCheck (fun x u => writeEach x x.parts.d (fromLane x (.shfld f)) u) := by
  refine does_of_vectorOp (execShfld f) (fun _ => rfl) (fun _ => rfl) fun x l => shuffled_eq_fromLane x l ?_
  have lane : x.tileBase l + l % x.team.part = l := Nat.sub_add_cancel (Nat.mod_le ..)
  simp only [sourceLane, ← Nat.add_assoc, lane]

theorem does_shflx : Does (.shflx f) noCheck (fun x u => writeEach x x.parts.d (fromLane x (.shflx f)) u) := by
  refine does_of_vectorOp (execShflx f) (fun _ => rfl) (fun _ => rfl) fun x l => shuffled_eq_fromLane x l ?_
  rw [tileBase_eq_tileStart, sourceLane]

/-- SHFL, and SHFL.CK where every index lies in its tile. -/
theorem shfl_complete {s u : State} {x : Exe} (goes : Goes (.shfl f) noCheck s x u)
    (inside : x.parts.fx = 0 ∨ ∀ l ∈ x.lanes, (x.vB l).toNat < x.team.part) :
    exec (.shfl f) s = .next (advance x (writeEach x x.parts.d (fromLane x (.shfl f)) u)) := by
  refine goes.exec_ok (execShfl.eq_1 f s) ((if_neg ?_).trans ?_)
  · rcases inside with plain | inside
    · simp [plain]
    · simpa using fun _ l mem => inside l mem
  · have same : x.shuffled (fun x l => some (x.tileBase l + (x.vB l).toNat % x.team.part)) = fromLane x (.shfl f) :=
      funext fun l => shuffled_eq_fromLane x l (by rw [tileBase_eq_tileStart, sourceLane])
    rw [same]

/-- SHFL.CK where an index lies outside its tile. -/
theorem shfl_trap {s u : State} {x : Exe} (goes : Goes (.shfl f) noCheck s x u) (checked : x.parts.fx = 1)
    (outside : ∃ l ∈ x.lanes, x.team.part ≤ (x.vB l).toNat) :
    ∃ s1, u = setResult x .none s1 ∧
      exec (.shfl f) s = .next (takeTrap x.p x.cl.path (x.trapOf .shflIndex) s1) :=
  goes.exec_trap (execShfl.eq_1 f s) (if_pos (by simpa [checked] using outside))

theorem does_vote : Does (.vote rs) noCheck (fun x u => markLanes x (votes x) u) :=
  does_of_performPure (execVote rs) (fun _ => rfl) fun s =>
    congrArg (performPure _ _ · s) (funext₂ fun x u => by rw [markLanes, funext (vote_eq_votes x)])

theorem does_ballot : Does (.ballot rs) noCheck (fun x u => writeEach x x.parts.d (balloted x) u) :=
  does_of_vectorOp (execBallot rs) (fun _ => rfl) (fun _ => rfl) ballot_eq_balloted

theorem does_bcast : Does (.bcast f)
    (fun x _ => if x.known x.parts.b = true ∧ 32 * x.launch.strands ≤ x.sB.toNat then some .general else none)
    (fun x u => writeEach x x.parts.d (fun _ => x.vA x.sB.toNat) u) :=
  does_of_performPure (execBcast f) (fun _ => rfl) fun s =>
    congrArg (performPure _ · _ s)
      (funext₂ fun x _ => if_congr (by rw [Bool.and_eq_true, decide_eq_true_eq, Exe.nlanes]) rfl rfl)

theorem does_compact : Does (.compact f) noCheck (fun x u => writeVector x x.parts.d
    ((List.range (32 * x.launch.strands / x.team.part)).flatMap fun t =>
      (List.range (tileActive x (t * x.team.part)).length).map fun j =>
        (t * x.team.part + j, x.vA ((tileActive x (t * x.team.part)).getD j 0))) u) := by
  simp only [← tileLanes_eq_tileActive]
  exact does_of_performPure (execCompact f) (fun _ => rfl) fun _ => rfl

theorem does_vred : Does (.vred f) noCheck (fun x u => writeEach x x.parts.d (fun l =>
    (treeReduce x.parts.combine 5 (x.laneVals (tileStart x l) x.team.part)).getD 0) u) :=
  does_of_vectorOp (execVred f) (fun _ => rfl) (fun _ => rfl) fun x l => by rw [tileBase_eq_tileStart]

theorem does_vscan : Does (.vscan f) noCheck (fun x u => writeEach x x.parts.d (fun l =>
    match (tileActive x l).filter fun k => decide (k ≤ l) with
    | [] => 0
    | k :: ks => ks.foldl (fun a j => x.parts.combine a (x.vA j)) (x.parts.single (x.vA k))) u) :=
  does_of_vectorOp (execVscan f) (fun _ => rfl) (fun _ => rfl) fun x l => by
    rw [← tileLanes_eq_tileActive]
    exact Exe.scan.eq_1 x l

theorem does_tred : Does (.tred f) noCheck (fun x u => writeScalar x x.parts.d
    ((treeReduce x.parts.combine 5 ((List.range x.launch.strands).map fun g =>
      treeReduce x.parts.combine 5 (x.laneVals (32 * g) 32))).getD 0) u) :=
  does_of_performPure (execTred f) (fun _ => rfl) fun s => execTred.eq_1 f s

end

/-! ### Integer reductions -/

/-- The values that a reduction takes from a tile are those of its active lanes, in order (R197). -/
theorem reduceOption_laneVals {x : Exe} {l : Nat} (integer : x.parts.td ≠ 10) (part : x.team.part ∈ [2, 4, 8, 16, 32])
    (lane : l < 32 * x.launch.strands) :
    (x.laneVals (tileStart x l) x.team.part).reduceOption = (tileActive x l).map x.vA := by
  have pos : 0 < x.team.part := by simp only [List.mem_cons, List.not_mem_nil, or_false] at part; omega
  have divides : x.team.part ∣ x.nlanes := by
    refine Dvd.dvd.mul_right ?_ _
    simp only [List.mem_cons, List.not_mem_nil, or_false] at part
    rcases part with h | h | h | h | h <;> rw [h] <;> decide
  have ends : l / x.team.part * x.team.part + x.team.part ≤ x.nlanes := by
    rw [← Nat.succ_mul]
    exact (Nat.mul_le_mul_right _ (Nat.div_lt_div_of_lt_of_dvd divides lane)).trans_eq (Nat.div_mul_cancel divides)
  have single (a : Word) : x.parts.single a = a := if_neg fun h => integer h.1
  have vals : x.laneVals (tileStart x l) x.team.part = (List.range' (tileStart x l) x.team.part).map fun k =>
      if x.eff.lane k then some (x.vA k) else none := by
    simp only [Exe.laneVals, single, List.range'_eq_map_range, List.map_map, Function.comp_def]
  rw [vals, reduceOption_map_ite, tileStart, ← filter_tile_range pos ends, tileActive, Exe.lanes, Mask.lanes,
    List.filter_comm]

/-- An integer reduction over a tile is the operation over its active lanes (R197). -/
theorem treeReduce_tile {x : Exe} {l : Nat} (integer : x.parts.td ≠ 10) (part : x.team.part ∈ [2, 4, 8, 16, 32])
    (lane : l < 32 * x.launch.strands) :
    treeReduce x.parts.combine 5 (x.laneVals (tileStart x l) x.team.part) =
      foldVals x.parts.combine ((tileActive x l).map x.vA) := by
  have short : (x.laneVals (tileStart x l) x.team.part).length ≤ 2 ^ 5 := by
    rw [Exe.laneVals, List.length_map, List.length_range]
    simp only [List.mem_cons, List.not_mem_nil, or_false] at part
    omega
  have := Parts.combine_assoc integer
  rw [treeReduce_eq_foldVals 5 _ short, reduceOption_laneVals integer part lane]

/-- Settles O14: each instruction completes with its effect, once the tiles and the sources are written alike; an integer
reduction is the tree of R197 over an associative operation. -/
theorem crossLaneResults : Obligations.CrossLaneResults := by
  refine ⟨fun f rs => ⟨?_, fun s x u => shfl_complete f, fun s x u => shfl_trap f, does_vote rs, does_ballot rs, does_bcast f,
    does_compact f⟩, fun f => ⟨does_vred f, does_vscan f, does_tred f⟩, fun x l integer part lane => ?_⟩
  · exact List.forall_mem_cons.mpr ⟨does_shflu f, List.forall_mem_cons.mpr ⟨does_shfld f,
      List.forall_mem_singleton.mpr (does_shflx f)⟩⟩
  · rw [treeReduce_tile integer part lane]
    cases tileActive x l with
    | nil => rfl
    | cons k ks => exact congrArg some List.foldl_map

end Sys2Proof.Claims
end

section
/-! Directions: what keeps the invariant of R188, and the special operands of R290 in their order. -/

namespace Sys2Proof.Machine

open Sys2Proof

@[simp] theorem sumSq_neg (cs : List Int) : sumSq (cs.map (- ·)) = sumSq cs := by
  simp [sumSq, Function.comp_def]

theorem sumSq_replicate_zero (n : Nat) : sumSq (List.replicate n 0) = 0 := by
  induction n with
  | zero => rfl
  | succ n ih => simpa [sumSq, List.replicate_succ] using ih

/-- A group whose components are all 0 renormalises to ZERO (R189). -/
theorem Comps.renorm_zeros (n : Nat) : Comps.renorm { ys := List.replicate n 0 } = Dir.zero n := by
  simp [Comps.renorm, sumSq_replicate_zero]

@[simp] theorem Dir.negate_norm (d : Dir) : d.negate.norm = d.norm := rfl

/-! ### Special operands (R290) -/

section
variable {a b : Dir}

theorem Dir.addSub_of_nan (sub : Bool) (h : a.norm = l16Nan ∨ b.norm = l16Nan) :
    Dir.addSub sub a b = Dir.nan a.comps.length :=
  if_pos (by simpa using h)

theorem Dir.mix_of_nan (t : FVal) (h : a.norm = l16Nan ∨ b.norm = l16Nan) : Dir.mix t a b = Dir.nan a.comps.length :=
  if_pos (by simpa using h)

/-- DMIX gives NAN for a factor that is not finite and for an INF operand. -/
theorem Dir.mix_of_inf (t : FVal) (h : t.finite = false ∨ a.norm = l16Inf ∨ b.norm = l16Inf) :
    Dir.mix t a b = Dir.nan a.comps.length := by
  by_cases nan : a.norm = l16Nan ∨ b.norm = l16Nan
  · exact Dir.mix_of_nan t nan
  · exact (if_neg (by simpa using nan)).trans (if_pos (by simpa [or_assoc] using h))

theorem Dir.addSub_inf_left (sub : Bool) (inf : a.norm = l16Inf) (notInf : b.norm ≠ l16Inf) (notNan : b.norm ≠ l16Nan) :
    Dir.addSub sub a b = a := by
  simp [Dir.addSub, inf, notInf, notNan, show l16Inf ≠ l16Nan by decide]

theorem Dir.addSub_inf_right (sub : Bool) (notInf : a.norm ≠ l16Inf) (notNan : a.norm ≠ l16Nan) (inf : b.norm = l16Inf) :
    Dir.addSub sub a b = if sub then b.negate else b := by
  simp [Dir.addSub, inf, notInf, notNan, show l16Inf ≠ l16Nan by decide]

end

end Sys2Proof.Machine

namespace Sys2Proof.Claims

open Sys2Proof Sys2Proof.Machine

/-! ### The invariant of R188 -/

/-- A direction without components meets the invariant. -/
theorem settled_of_zeros {d : Dir} (special : d.norm = 0x8000 ∨ d.norm = 0x8001) (zeros : ∀ c ∈ d.comps, c = 0) :
    Settled d := by
  rwa [Settled, if_pos special]

/-- The invariant depends on the components by their squares, and on the norm by whether it is ZERO or NAN. -/
theorem Settled.of_sumSq {d e : Dir} (settled : Settled d) (source : ¬(d.norm = 0x8000 ∨ d.norm = 0x8001))
    (result : ¬(e.norm = 0x8000 ∨ e.norm = 0x8001)) (same : sumSq e.comps = sumSq d.comps) : Settled e := by
  rw [Settled, if_neg source] at settled
  rwa [Settled, if_neg result, same]

/-- The components of a direction, or their negatives, with its own norm. -/
theorem Settled.signed {d : Dir} (settled : Settled d) (neg : Bool) :
    Settled { norm := d.norm, comps := if neg then d.comps.map (- ·) else d.comps } := by
  by_cases special : d.norm = 0x8000 ∨ d.norm = 0x8001
  · refine settled_of_zeros special ?_
    rw [Settled, if_pos special] at settled
    cases neg with
    | false => exact settled
    | true => exact List.forall_mem_map.mpr fun c mem => Int.neg_eq_zero.mpr (settled c mem)
  · exact settled.of_sumSq special special (by cases neg <;> simp)

/-- A norm strictly between its limits is the code of neither ZERO nor NAN (R186). -/
theorem ofInt_not_special {n : Int} (low : -32767 < n) (high : n < 32767) :
    ¬(BitVec.ofInt 16 n = 0x8000 ∨ BitVec.ofInt 16 n = 0x8001) := by
  have value : (BitVec.ofInt 16 n).toInt = n := by
    rw [BitVec.toInt_ofInt, Int.bmod_eq_of_le (by omega) (by omega)]
  rintro (code | code) <;> rw [code] at value
  · exact absurd (value.symm.trans (by decide : _ = (-32768 : Int))) (by omega)
  · exact absurd (value.symm.trans (by decide : _ = (-32767 : Int))) (by omega)

theorem Settled.rescaled {d : Dir} (settled : Settled d) (t : Int) (neg : Bool) : Settled (rescaled d t neg) := by
  have squares : sumSq (if neg then d.comps.map (- ·) else d.comps) = sumSq d.comps := by cases neg <;> simp
  have signed := settled.signed neg
  unfold Claims.rescaled
  generalize (if neg then d.comps.map (- ·) else d.comps) = cs at squares signed
  by_cases special : d.norm = 0x8000 ∨ d.norm = 0x8001 ∨ d.norm = 0x7FFF
  · rw [if_pos special]
    exact signed
  have source : ¬(d.norm = 0x8000 ∨ d.norm = 0x8001) := fun h => special (h.imp_right Or.inl)
  rw [if_neg special]
  split
  · exact settled_of_zeros (.inl rfl) (by simp)
  · split
    · exact settled.of_sumSq source (show ¬((0x7FFF : Half) = 0x8000 ∨ (0x7FFF : Half) = 0x8001) by decide) squares
    · exact settled.of_sumSq source (ofInt_not_special (by omega) (by omega)) squares

/-- Settles O17: negation and scaling leave the squares of the components, and the special operands are met in the order in
which DADD, DSUB and DMIX test them. -/
theorem directionInvariant : Obligations.DirectionInvariant :=
  ⟨fun _ t neg settled => settled.rescaled t neg, fun _ settled => settled.signed true,
    fun _ => ⟨settled_of_zeros (.inl rfl) fun _ => List.eq_of_mem_replicate,
      settled_of_zeros (.inr rfl) fun _ => List.eq_of_mem_replicate⟩,
    fun sub t _ _ nan => ⟨Dir.addSub_of_nan sub nan, Dir.mix_of_nan t nan⟩,
    fun t _ _ => Dir.mix_of_inf t,
    fun sub _ _ => Dir.addSub_inf_left sub,
    fun _ _ notInf notNan inf => ⟨Dir.addSub_inf_right false notInf notNan inf, Dir.addSub_inf_right true notInf notNan inf⟩,
    Comps.renorm_zeros⟩

end Sys2Proof.Claims
end

section
/-! Encodings (R220, R226, R227, R229): every instruction with an encoding stands in a row of R229, which gives it a primary
opcode and a format; and every opcode that R229 assigns has such a row. -/

namespace Sys2Proof

open Machine Claims

/-- A format of R226: how it writes its fields into words and reads them back, and the laws that tie the two. -/
structure WordFormat (F : Type) where
  write : Byte → F → List Word
  read : Word → Option Word → Option Mod → F
  lit : F → Option Word
  mod : F → Option Mod
  decode_write : ∀ op f rest (mk : F → Instr), (∀ w l m, decodeOp op w l m = some (mk (read w l m))) →
    decode (write op f ++ rest) = .ok (mk f, rest)
  write_read : ∀ w l m, w.getLsbD 0 = m.isSome → w.getLsbD 1 = l.isSome →
    write (w.extractLsb' 24 8) (read w l m) = w :: encodeSuffix l m
  write_eq : ∀ op f, ∃ w : Word, w.extractLsb' 24 8 = op ∧ write op f = w :: encodeSuffix (lit f) (mod f)

namespace WordFormat

def rrr : WordFormat RRR :=
  ⟨encodeRRR, decodeRRR, RRR.lit, RRR.m, decode_encodeRRR, encodeRRR_decode, fun _ _ => ⟨_, append_here _ _, rfl⟩⟩
def rrs : WordFormat RRS :=
  ⟨encodeRRS, decodeRRS, RRS.lit, RRS.m, decode_encodeRRS, encodeRRS_decode, fun _ _ => ⟨_, append_here _ _, rfl⟩⟩
def ri : WordFormat RI :=
  ⟨encodeRI, decodeRI, RI.lit, RI.m, decode_encodeRI, encodeRI_decode, fun _ _ => ⟨_, append_here _ _, rfl⟩⟩
def mw : WordFormat MW :=
  ⟨encodeMW, decodeMW, MW.lit, MW.m, decode_encodeMW, encodeMW_decode, fun _ _ => ⟨_, append_here _ _, rfl⟩⟩
def z : WordFormat FZ :=
  ⟨encodeZ, decodeZ, FZ.lit, FZ.m, decode_encodeZ, encodeZ_decode, fun _ _ => ⟨_, append_here _ _, rfl⟩⟩
def bo : WordFormat BO :=
  ⟨encodeBO, decodeBO, BO.lit, BO.m, decode_encodeBO, encodeBO_decode, fun _ _ => ⟨_, append_here _ _, rfl⟩⟩
def bc : WordFormat BC :=
  ⟨encodeBC, decodeBC, BC.lit, BC.m, decode_encodeBC, encodeBC_decode, fun _ _ => ⟨_, append_here _ _, rfl⟩⟩

end WordFormat

/-- The row of R229 that an instruction stands in: its primary opcode, its format, and what makes it of its fields. -/
inductive OpcodeRow (op : Byte) : Instr → Prop where
  | intro {F : Type} (fmt : WordFormat F) (mk : F → Instr) (f : F) (enc : ∀ f, encode (mk f) = fmt.write op f)
      (dec : ∀ w l m, decodeOp op w l m = some (mk (fmt.read w l m)))
      (parts : ∀ f, (partsOf (mk f)).map (fun p => (p.lit, p.m)) = some (fmt.lit f, fmt.mod f)) : OpcodeRow op (mk f)

/-- Every instruction with an encoding, format by format. -/
theorem row_of_encode {i : Instr} (encodes : encode i ≠ []) : ∃ op, OpcodeRow op i := by
  cases i with
  | bra f | call f =>
    exact ⟨_, .intro .bo _ f (fun _ => rfl) (fun _ _ _ => rfl) fun _ => rfl⟩
  | brc f | brm f | loop f =>
    exact ⟨_, .intro .bc _ f (fun _ => rfl) (fun _ _ _ => rfl) fun _ => rfl⟩
  | join f | ret f | exit f | yield f | nop f | fence f | fencePt f | gbar f | repack f | chstop f | tret f | snap f
  | tsbegin f | tsend f | halt f =>
    exact ⟨_, .intro .z _ f (fun _ => rfl) (fun _ _ _ => rfl) fun _ => rfl⟩
  | jmpi f | mand f | mor f | mxor f | mnot f | mmov f | mpop f | mfind f | many f | mall f | mexec f | smov f
  | sadd f | ssub f | smul f | smulh f | smad f | sdiv f | srem f | sand f | sor f | sxor f | sshl f | sshr f | ssar f
  | smin f | smax f | scmp f | ssel f | sclz f | spopc f | sbfe f | sbfi f | sadd64 f | vadd f | vsub f | vmul f
  | vmulh f | vmad f | vand f | vor f | vxor f | vnot f | vshl f | vshr f | vsar f | vmin f | vmax f | vabs f | vcmp f
  | vsel f | vclz f | vpopc f | vbfe f | vbfi f | vperm f | vdot4 f | fadd f | fsub f | fmul f | fma f | fnma f
  | fmin f | fmax f | fneg f | fabs f | fcmp f | fclass f | fscale f | frcp f | frsq f | fsqrt f | fexp2 f | flog2 f
  | fsin f | fcos f | ftanh f | cvt f | cvtn f | cvtw f | qnt f | dqnt f | shfl f | shflu f | shfld f | shflx f
  | vred f | vscan f | tred f | bcast f | compact f | vrand f | dcvt f | dexp f | ddot f | ddotf f | dscal f | dadd f
  | dsub f | dmix f | dneg f | dmov f | dnrd f | dnwr f | dzero f | wlins f | vtopk f | wlmerge f | wlrd f | wlst f
  | wlld f | ssect f | pksi f | unpksi f | gwnorm f | smxacc f | smxfin f | ldg f | stg f | ldp f | stp f | kvld f
  | wmap f | cwb f | cinv f | ipref f | ipin f | iunpin f | acq f | rel f | bind f | shoot f | xcopy f | xred f
  | wbload f | mloop f | ctopk f | cbin f | cepi f | spawn f | nodefl f | chgo f | trld f | trst f | bpset f | wpset f
  | finj f | tbrd f =>
    exact ⟨_, .intro .rrr _ f (fun _ => rfl) (fun _ _ _ => rfl) fun _ => rfl⟩
  | sleep f | part f | setix f | smovi f | dspan f =>
    exact ⟨_, .intro .ri _ f (fun _ => rfl) (fun _ _ _ => rfl) fun _ => rfl⟩
  | wait f | mset f | srd f | swr f | qpush f | qpop f | vote f | ballot f | wlalloc f | wlfree f | wlclr f | winv f
  | unbind f | bar f | bara f | barw f | qcfg f | qstat f | cstat f | phase f | trap f | step f =>
    exact ⟨_, .intro .rrs _ f (fun _ => rfl) (fun _ _ _ => rfl) fun _ => rfl⟩
  | dld f | dst f | ld f | st f | pref f | atom f | cas f | cas128 f =>
    exact ⟨_, .intro .mw _ f (fun _ => rfl) (fun _ _ _ => rfl) fun _ => rfl⟩
  | _ => exact absurd rfl encodes

variable {op : Byte} {i : Instr}

theorem OpcodeRow.decode_encode (row : OpcodeRow op i) (rest : List Word) : decode (encode i ++ rest) = .ok (i, rest) := by
  obtain ⟨fmt, mk, f, enc, dec, -⟩ := row
  rw [enc]
  exact fmt.decode_write op f rest mk dec

/-- The words of a row's instruction: one with its opcode, and its suffix words (R220). -/
theorem OpcodeRow.encode_eq (row : OpcodeRow op i) : ∃ (w : Word) (l : Option Word) (m : Option Mod),
    w.extractLsb' 24 8 = op ∧ encode i = w :: encodeSuffix l m ∧ (partsOf i).map (fun p => (p.lit, p.m)) = some (l, m) := by
  obtain ⟨fmt, mk, f, enc, -, parts⟩ := row
  obtain ⟨w, here, eq⟩ := fmt.write_eq op f
  exact ⟨w, fmt.lit f, fmt.mod f, here, (enc f).trans eq, parts f⟩

/-- Every word with a row's opcode decodes, and what it decodes to is encoded as that word. -/
theorem OpcodeRow.encode_decode (row : OpcodeRow op i) (w : Word) (l : Option Word) (m : Option Mod) :
    ∃ j, decodeOp op w l m = some j ∧ (w.extractLsb' 24 8 = op → w.getLsbD 0 = m.isSome → w.getLsbD 1 = l.isSome →
      encode j = w :: encodeSuffix l m) := by
  obtain ⟨fmt, mk, -, enc, dec, -⟩ := row
  refine ⟨mk (fmt.read w l m), dec w l m, fun here hasMod hasLit => ?_⟩
  subst here
  rw [enc]
  exact fmt.write_read w l m hasMod hasLit

/-- The opcode of an instruction's first word. -/
def opcodeOf (i : Instr) : Option Byte := (encode i).head?.map (·.extractLsb' 24 8)

theorem OpcodeRow.opcode_eq (row : OpcodeRow op i) : opcodeOf i = some op := by
  obtain ⟨w, l, m, here, eq, -⟩ := row.encode_eq
  simp [opcodeOf, eq, here]

/-- R229, its assigned opcodes: the word of each that is 0 but for the opcode decodes to an instruction of that opcode. -/
theorem assigned_opcodes : ∀ op : Byte, op.toNat ∉ unassigned →
    ((decodeOp op 0 none none).bind opcodeOf) = some op := by
  decide

theorem row_of_assigned (assigned : op.toNat ∉ unassigned) : ∃ i, OpcodeRow op i := by
  obtain ⟨i, -, opcode⟩ := Option.bind_eq_some_iff.mp (assigned_opcodes op assigned)
  have encodes : encode i ≠ [] := fun empty => by simp [opcodeOf, empty] at opcode
  obtain ⟨op', row⟩ := row_of_encode encodes
  have same : op' = op := Option.some.inj (row.opcode_eq.symm.trans opcode)
  exact ⟨i, same ▸ row⟩

/-- R229, its unassigned opcodes: no word of one of them is an instruction. -/
theorem decodeOp_of_unassigned (w : Word) (l : Option Word) (m : Option Mod) (un : op.toNat ∈ unassigned) :
    decodeOp op w l m = none := by
  have nones : unassigned.all (fun n => (decodeOp (BitVec.ofNat 8 n) w l m).isNone) = true := rfl
  simpa using List.all_eq_true.mp nones _ un

/-- The opcode of a word, as R229 numbers it. -/
theorem opcode_toNat (w : Word) : (w.extractLsb' 24 8).toNat = w.toNat / 2 ^ 24 := by
  rw [BitVec.extractLsb'_toNat, Nat.shiftRight_eq_div_pow]
  exact Nat.mod_eq_of_lt (by have := w.isLt; omega)

/-! ### Decoding -/

/-- What decoding says of the words it read. -/
theorem decode_ok {w : Word} {ws rest : List Word} (ok : decode (w :: ws) = .ok (i, rest)) :
    ∃ l m, takeSuffix w ws = some (m, l, rest) ∧ decodeOp (w.extractLsb' 24 8) w l m = some i := by
  simp only [decode] at ok
  split at ok
  case h_1 => split at ok <;> simp at ok
  case h_2 m l r suffix =>
    split at ok
    case h_1 => simp at ok
    case h_2 j decoded =>
      obtain ⟨rfl, rfl⟩ : j = i ∧ r = rest := by simpa using ok
      exact ⟨l, m, suffix, decoded⟩

/-- Two more words are enough for the suffix words of any instruction (R220). -/
theorem takeSuffix_of_two (w a b : Word) (rest : List Word) :
    ∃ l m r, takeSuffix w (a :: b :: rest) = some (m, l, r) ∧ r.length + wordCount w = rest.length + 3 := by
  unfold takeSuffix wordCount
  cases w.getLsbD 0 <;> cases w.getLsbD 1 <;> exact ⟨_, _, _, rfl, rfl⟩

theorem decode_of_unassigned (w : Word) (rest : List Word) (un : w.toNat / 2 ^ 24 ∈ unassigned) :
    decode (w :: rest) = .error (.opcode (w.extractLsb' 24 8)) := by
  have none l m := decodeOp_of_unassigned w l m (opcode_toNat w ▸ un)
  simp only [decode, none]
  split <;> rfl

theorem decode_of_assigned (w a b : Word) (rest : List Word) (assigned : w.toNat / 2 ^ 24 ∉ unassigned) :
    ∃ i r, decode (w :: a :: b :: rest) = .ok (i, r) ∧ r.length + wordCount w = rest.length + 3 := by
  obtain ⟨l, m, r, suffix, count⟩ := takeSuffix_of_two w a b rest
  obtain ⟨_, row⟩ := row_of_assigned (opcode_toNat w ▸ assigned)
  obtain ⟨i, decoded, -⟩ := row.encode_decode w l m
  exact ⟨i, r, by simp [decode, suffix, decoded], count⟩

/-- An instruction takes one word, one more for its modifier and one more for its literal (R220). -/
theorem OpcodeRow.length_encode (row : OpcodeRow op i) {p : Parts} (parts : partsOf i = some p) :
    (encode i).length = p.words := by
  obtain ⟨w, l, m, -, eq, shared⟩ := row.encode_eq
  obtain ⟨rfl, rfl⟩ : p.lit = l ∧ p.m = m := by simpa [parts] using shared
  rw [eq, Parts.words]
  cases p.lit <;> cases p.m <;> rfl

theorem Machine.Parts.words_le (p : Parts) : p.words ≤ 3 := by
  have := Bool.toNat_le p.m.isSome
  have := Bool.toNat_le p.lit.isSome
  unfold Parts.words
  omega

/-- Settles O34: every instruction with an encoding stands in a row of R229, whose format reads back what it writes. -/
theorem decodeEncode : Obligations.DecodeEncode := fun _ rest encodes =>
  have ⟨_, row⟩ := row_of_encode encodes
  row.decode_encode rest

/-- Settles O35: the opcode of a word that decodes is assigned, so it has a row, whose format writes the word again. -/
theorem encodeDecode : Obligations.EncodeDecode := by
  rintro (_ | ⟨w, ws⟩) i rest ok
  · simp [decode] at ok
  obtain ⟨l, m, suffix, decoded⟩ := decode_ok ok
  have assigned : (w.extractLsb' 24 8).toNat ∉ unassigned := fun un => by
    simp [decodeOp_of_unassigned w l m un] at decoded
  obtain ⟨_, row⟩ := row_of_assigned assigned
  obtain ⟨j, decoded', encoded⟩ := row.encode_decode w l m
  obtain rfl : j = i := Option.some.inj (decoded'.symm.trans decoded)
  obtain ⟨words, hasMod, hasLit⟩ := encodeSuffix_take suffix
  rw [encoded rfl hasMod hasLit, List.cons_append, words]

/-- Settles O36: the listed words are decoded; the opcodes by the rows that R229 assigns and those it leaves out; the
length by the suffix words of an encoding. -/
theorem decodingFacts : Obligations.DecodingFacts :=
  ⟨by decide, ⟨decode_of_unassigned, decode_of_assigned⟩, fun _ p encodes parts =>
    have ⟨_, row⟩ := row_of_encode encodes
    ⟨row.length_encode parts, p.words_le⟩⟩

end Sys2Proof
end

section
/-! Loads, stores and waits of a thread (R106, R108, R109, R129, R166, R167, R222, R223, R247, R248, R312): how each event
that completes or ends one is answered in a state in which it can occur. -/

namespace Sys2Proof.Claims

open Machine

section
variable {s u : State} {p : Party} {t : Team}

/-! ### Waits of a thread (R129, R247, R248) -/

/-- A wait that is over ends, with the others that are; the thread keeps the rest. -/
theorem endWait_of_mem {w : Wait} {done : Wait → Bool} (team : s.team? p = some t) (mem : w ∈ (t.thread p.kind).waits)
    (ended : done w = true) : ∃ u, endWait p done s = .next u ∧
      threadOf u p = some { t.thread p.kind with waits := (t.thread p.kind).waits.filter (!done ·) } := by
  have any : (t.thread p.kind).waits.any done = true := List.any_eq_true.mpr ⟨w, mem, ended⟩
  refine ⟨_, by simp only [endWait, team, any, if_true]; rfl, ?_⟩
  rw [threadOf, team?_updThread _ team, Option.map_some, setThread_thread]

theorem not_mem_of_ended {w : Wait} {ws : List Wait} {done : Wait → Bool} (ended : done w = true) :
    w ∉ ws.filter (!done ·) := by simp [ended]

/-- A sleep to a tick that has come (R247). -/
def sleptBy (now : DWord) : Wait → Bool
  | .sleep d => !now.ult d
  | _ => false

/-- A WAIT whose word, as the party reads it, meets its condition (R248). -/
def metFor (s : State) (p : Party) : Wait → Bool
  | .word c a cmp _ _ _ _ => waitCond c (s.wordFor p a) cmp
  | _ => false

theorem exec_sleepExpiry (s : State) (p : Party) : exec (.sleepExpiry p) s = endWait p (sleptBy s.now) s := rfl

theorem exec_waitConditionMet {r : Crew} (team : s.team? p = some t) (crew : s.crews.get? p.crew = some r)
    (resident : r.state = .resident) (runs : t.debugStopped = false) :
    exec (.waitConditionMet p) s = endWait p (metFor s p) s := by
  have issues : (((s.crews.get? p.crew).any fun c => c.state == .resident) &&
      ((s.team? p).any fun t => !t.debugStopped)) = true := by simp [team, crew, resident, runs]
  exact if_pos issues

theorem sleepExpiry_becomes {d : DWord} (team : s.team? p = some t) (asleep : .sleep d ∈ (t.thread p.kind).waits)
    (due : d.toNat ≤ s.now.toNat) : Becomes (.sleepExpiry p) s fun u => ∃ th, threadOf u p = some th ∧ .sleep d ∉ th.waits ∧
      (∀ w ∈ (t.thread p.kind).waits, (∀ e, w ≠ .sleep e) → w ∈ th.waits) ∧ th.s = (t.thread p.kind).s := by
  have ended : sleptBy s.now (.sleep d) = true := by simp [sleptBy, BitVec.ult, due]
  obtain ⟨u, next, thread⟩ := endWait_of_mem team asleep ended
  refine ⟨u, (exec_sleepExpiry s p).trans next, _, thread, not_mem_of_ended ended, fun w mem other => ?_, rfl⟩
  refine List.mem_filter.mpr ⟨mem, ?_⟩
  cases w with
  | sleep e => exact absurd rfl (other e)
  | _ => rfl

theorem waitConditionMet_becomes {r : Crew} {c a : Nat} {cmp : DWord} {w : Word} {h : DWord} {k : Nat}
    {ws : List Word} (team : s.team? p = some t) (crew : s.crews.get? p.crew = some r) (resident : r.state = .resident)
    (runs : t.debugStopped = false) (mem : .word c a cmp w h k ws ∈ (t.thread p.kind).waits)
    (met : waitCond c (s.wordFor p a) cmp = true) :
    Becomes (.waitConditionMet p) s fun u => ∃ th, threadOf u p = some th ∧ .word c a cmp w h k ws ∉ th.waits := by
  have ended : metFor s p (.word c a cmp w h k ws) = true := met
  obtain ⟨u, next, thread⟩ := endWait_of_mem team mem ended
  exact ⟨u, (exec_waitConditionMet team crew resident runs).trans next, _, thread, not_mem_of_ended ended⟩

/-- SHOOT_COMPLETE once no engine works on the pages (R129, R132). -/
theorem exec_shootComplete {ctx page n sc : Nat} (team : s.team? p = some t)
    (first : (t.th.waits.find? fun w => match w with | .shoot .. => true | _ => false) = some (.shoot ctx page n sc))
    (free : s.engineHolds ctx page n (inScope sc (coreOfCluster t.cluster)) = false) :
    exec (.shootComplete p) s =
      .next ((s.shootPages ctx page n (inScope sc (coreOfCluster t.cluster))).updThread p fun th =>
        { th with waits := th.waits.filter (· ≠ .shoot ctx page n sc) }) := by
  show execShootComplete p s = _
  simp only [execShootComplete, team]
  split
  case h_1 found =>
    obtain ⟨rfl, rfl, rfl, rfl⟩ := Wait.shoot.inj (Option.some.inj (found.symm.trans first))
    exact if_neg (by simp [free])
  case h_2 other => exact absurd first (other ctx page n sc)

/-! ### Loads and stores (R222, R312) -/

theorem exec_loadComplete {ld : PendingLoad} {rest : List PendingLoad} (team : s.team? p = some t)
    (loads : (t.thread p.kind).loads = ld :: rest) : exec (.loadComplete p) s =
      .next ((s.deliver p ld).updThread p fun th => { th with loads := th.loads.drop 1 }) := by
  show execLoadComplete p s = _
  simp only [execLoadComplete, team, loads]

theorem exec_storePerformed {st : PendingStore} {rest : List PendingStore} (team : s.team? p = some t)
    (stores : (t.thread p.kind).stores = st :: rest) : exec (.storePerformed p) s =
      .next ((s.performStore t.cluster st).updThread p fun th => { th with stores := th.stores.drop 1 }) := by
  show execStorePerformed p s = _
  simp only [execStorePerformed, team, stores]

/-! ### Window fills (R106) -/

theorem exec_windowFillComplete {k : Nat} (fill : s.finishFill p k = some u) : exec (.windowFillComplete p k) s = .next u := by
  show execWindowFillComplete p k s = _
  simp only [execWindowFillComplete, fill]

/-- The fill of a pending window ends or waits on; one that faults leaves a valid window of limit 0. The window's `let` is
passed by terms: a step of `simp` on it has the kernel evaluate the limits of `overdue`. -/
theorem finishFill_of_pending {k : Nat} {c : Crew} (crew : s.crews.get? p.crew = some c) (team : s.team? p = some t)
    (pending : (t.window k).state = .pending) : ∃ u, s.finishFill p k = some u ∧
      ∀ x g, s.fillWindow (c.agent t p.kind) (t.window k) = .error (.cause x g) →
        u = s.updTeam p fun t' => t'.setWindow k { t.window k with state := .valid, limit := 0, since := none } := by
  unfold State.finishFill
  rw [crew, team]
  by_cases late : overdue (t.window k).since (t.window k).remote s.now = true
  · exact ⟨_, (if_neg (not_not.mpr pending)).trans (if_pos late), fun _ _ _ => rfl⟩
  suffices ended : ∃ u, _ = some u ∧ _ from
    have ⟨u, fill, faults⟩ := ended
    ⟨u, (if_neg (not_not.mpr pending)).trans ((if_neg late).trans fill), faults⟩
  split
  case h_1 fill => exact ⟨_, rfl, fun x g fault => nomatch fill.symm.trans fault⟩
  case h_2 fill => exact ⟨_, rfl, fun x g fault => nomatch fill.symm.trans fault⟩
  case h_3 => exact ⟨_, rfl, fun _ _ _ => rfl⟩
  case h_4 fill => exact ⟨_, rfl, fun x g fault => nomatch fill.symm.trans fault⟩

/-! ### Pushes and pops that hold the slot (R89, R223) -/

/-- What a push or pop that starves leaves: the passes it has moved are moved back (log 34). -/
def starvedAfter (x : Exe) (s : State) : Instr → State
  | .qpush _ => noteStarved x (unmove x true x.pushField s)
  | _ => noteStarved x (unmove x false x.popField s)

section
variable {i : Instr} {x : Exe} {f : RRS} {since : DWord}

theorem exec_queueStarvedTimeout (held : s.queueHold p = some (i, x, since)) (late : 131072 ≤ (s.now - since).toNat) :
    exec (.queueStarvedTimeout p) s =
      .next (takeTrap p x.cl.path (x.trapOf .queueStarved) (starvedAfter x s i)) := by
  show execQueueStarvedTimeout p s = _
  simp only [execQueueStarvedTimeout, held, if_neg (Nat.not_lt.mpr late)]
  unfold starvedAfter
  split <;> simp

theorem exec_queueUnblock_pop (held : s.queueHold p = some (.qpop f, x, since))
    (moves : exec (.qpop f) { s with turn := some p } = .next u) (free : u.queueHold p = none) :
    exec (.queueUnblock p) s = .next u := by
  have moves : execQpop f { s with turn := some p } = .next u := moves
  show execQueueUnblock p s = _
  simp only [execQueueUnblock, held, moves, free]

theorem exec_queueUnblock_push (held : s.queueHold p = some (.qpush f, x, since))
    (moves : exec (.qpush f) { s with turn := some p } = .next u) (free : u.queueHold p = none) :
    exec (.queueUnblock p) s = .next u := by
  have moves : execQpush f { s with turn := some p } = .next u := moves
  show execQueueUnblock p s = _
  simp only [execQueueUnblock, held, moves, free]

end

/-! ### Missed promises and errors (R166, R167) -/

theorem team?_updCopies {f : Team → Team} (kind : p.kind ≠ .trail) (team : s.team? p = some t) :
    (s.updCopies p f).team? p = some (f t) := by
  rw [← team?_updTeam f team, team?_of_kind kind, team?_of_kind kind]
  rfl

/-- The record of a missed operation, in the team and in its copies (R166). -/
def missing (e : EngRec) (t : Team) : Team :=
  { t with engines := t.engines.map fun o => if o.op = e.op then { o with missed := true } else o }

theorem promiseMissed_becomes {c : Crew} {q : Nat} {e : EngRec} (team : s.team? p = some t) (kind : p.kind = .team)
    (runs : t.retired = false) (crew : s.crews.get? p.crew = some c) (resident : c.state = .resident)
    (missed : (t.engines.find? fun e => e.quad == q && !e.done && !e.missed && e.promise.ult (s.promiseNow p e.op)) = some e)
    (free : ∀ o ∈ (s.core c.core).cupel, o.opId = e.op → o.held = false) :
    Becomes (.promiseMissed p q) s fun u => (u.team? p).map (·.pending) =
      some (t.pending ++ [{ cause := .promise, info := BitVec.ofNat 32 q, tpc := e.promise }]) := by
  have unheld : ((s.core c.core).cupel.any fun o => o.opId == e.op && o.held) = false := by
    simpa using free
  have next : exec (.promiseMissed p q) s = .next ((s.updCopies p (missing e)).updTeam p fun t =>
      { t with pending := t.pending ++ [{ cause := .promise, info := BitVec.ofNat 32 q, tpc := e.promise }] }) := by
    show execPromiseMissed p q s = _
    simp only [execPromiseMissed, team, missed, crew, kind, runs, resident, unheld, Option.any_some]
    rfl
  refine ⟨_, next, ?_⟩
  beta_reduce
  rw [team?_updTeam _ (team?_updCopies (by simp [kind]) team), Option.map_some]
  rfl

/-- An error stays, with those before it, until what it strikes is written afresh (log 25). -/
theorem uncorrectableError_becomes (s : State) (e : ErrorTarget) : ∃ u, exec (.uncorrectableError e) s = .next u ∧
    poisonOf e ∈ u.poison ∧ (∀ o ∈ s.poison, o ∈ u.poison) ∧ { u with poison := s.poison } = s := by
  refine ⟨_, rfl, ?_⟩
  by_cases known : s.poison.contains (poisonOf e) = true
  · simp only [if_pos known]
    exact ⟨List.contains_iff_mem.mp known, fun _ mem => mem, trivial⟩
  · simp only [if_neg known]
    exact ⟨List.mem_append_right _ (List.mem_singleton_self _), fun _ mem => List.mem_append_left _ mem, trivial⟩

/-! ### Waits on a leaf or an owner (R108, R109) -/

theorem exec_of_ranOut {w : Waiter} {x : Waiting} (waits : s.waiting w = some x) (late : RanOut s w x) :
    exec (if x.remote then .remoteUnreachable w else .migratingTimeout w) s = .next x.late := by
  cases remote : x.remote with
  | true =>
    show execRemoteUnreachable w s = _
    simp only [RanOut, remote, if_true] at late
    simp only [execRemoteUnreachable, waits, remote]
    generalize (s.now - x.since).toNat = n at late
    obtain ⟨ticks, unanswered⟩ := late
    exact if_neg (by simp [unanswered, ticks])
  | false =>
    show execMigratingTimeout w s = _
    simp only [RanOut, remote] at late
    simp only [execMigratingTimeout, waits, remote]
    generalize (s.now - x.since).toNat = n at late
    obtain ⟨ticks, unclear⟩ : 34000 ≤ n ∧ (n = 34000 → s.resumed false w = none) := by simpa using late
    exact if_neg (by simp +contextual [unclear, ticks])

theorem exec_migratingLeafCleared {w : Waiter} {x : Waiting} (waits : s.waiting w = some x) (here : x.remote = false)
    (early : (s.now - x.since).toNat ≤ 34000) (clear : s.resumed false w = some u) :
    exec (.migratingLeafCleared w) s = .next u := by
  show execMigratingLeafCleared w s = _
  simp only [execMigratingLeafCleared, waits, clear, here]
  exact if_neg (by simpa using early)

/-- An access whose leaf has cleared lets go of the slot, and its instruction is executed again. -/
theorem resumedAccess_of_clear {c : Crew} {cl : Clause} {tr : Trap} {since : DWord} (crew : s.crews.get? p.crew = some c)
    (team : s.team? p = some t) (issue : (t.thread p.kind).issue = some cl) (hold : cl.hold = some (.migrating tr, since))
    (clear : s.stillHeld c.ctx false tr = false) :
    s.resumed false (.access p) = some (s.updClause p fun k => { k with hold := none }) := by
  show s.resumedAccess false p = _
  simp [State.resumedAccess, crew, team, issue, hold, clear]

end

/-- Settles O58: each event by its lemma above. -/
theorem accessEvents : Obligations.AccessEvents := by
  refine ⟨?loads, ?stores, ?sleeps, ?words, ?fills, ?pending, ?shoots, ?starves, ?pops, ?pushes, ?promises, ?errors,
    ?late, ?cleared, ?goesOn⟩
  case loads => exact fun _ _ _ _ _ team loads => exec_loadComplete team loads
  case stores => exact fun _ _ _ _ _ team stores => exec_storePerformed team stores
  case sleeps => exact fun _ _ _ _ team asleep due => sleepExpiry_becomes team asleep due
  case words =>
    exact fun _ _ _ _ _ _ _ _ _ _ _ team crew resident runs mem met =>
      waitConditionMet_becomes team crew resident runs mem met
  case fills => exact fun _ _ _ _ fill => exec_windowFillComplete fill
  case pending =>
    intro s p k c t crew team pending
    obtain ⟨u, fill, faults⟩ := finishFill_of_pending crew team pending
    exact ⟨u, exec_windowFillComplete fill, faults⟩
  case shoots => exact fun _ _ _ _ _ _ _ team first free => exec_shootComplete team first free
  case starves => exact fun _ _ _ _ _ held late => exec_queueStarvedTimeout held late
  case pops => exact fun _ _ _ _ _ _ held moves free => exec_queueUnblock_pop held moves free
  case pushes => exact fun _ _ _ _ _ _ held moves free => exec_queueUnblock_push held moves free
  case promises =>
    exact fun _ _ _ _ _ _ team kind runs crew resident missed free =>
      promiseMissed_becomes team kind runs crew resident missed free
  case errors => exact uncorrectableError_becomes
  case late => exact fun _ _ _ waits late => exec_of_ranOut waits late
  case cleared => exact fun _ _ _ _ waits here early clear => exec_migratingLeafCleared waits here early clear
  case goesOn =>
    exact fun _ _ _ _ _ _ _ _ waits here early crew team issue hold clear =>
      exec_migratingLeafCleared waits here early (resumedAccess_of_clear crew team issue hold clear)

end Sys2Proof.Claims
end

section
/-! Integer operations (R256 to R259, R265): what the model computes on words, as the statements write it on integers, and the
scalar and vector instructions that give one word. -/

namespace Sys2Proof.Machine

open Sys2Proof

/-- An integer as a word: its low 32 bits, or clamped first (R178). -/
theorem ofNat_intoInt (sg sat : Bool) (v : Int) : BitVec.ofNat 32 (intoInt sg 32 sat v) =
    BitVec.ofInt 32 (if sat then max (intRange sg 32).1 (min (intRange sg 32).2 v) else v) := by
  unfold intoInt
  dsimp only
  rw [wrap_eq_ofInt, BitVec.ofNat_toNat, BitVec.setWidth_eq]
  cases sat with
  | false => rfl
  | true => exact congrArg (BitVec.ofInt 32) (clamp_eq_max_min (by cases sg <;> decide) v)

/-- Some bits of a number. -/
theorem field_eq_div_mod (x lo n : Nat) : field x lo n = x / 2 ^ lo % 2 ^ n := by
  rw [field, Nat.shiftRight_eq_div_pow]

/-- Some bits of a number, bit by bit. -/
theorem testBit_field (x lo n i : Nat) : (field x lo n).testBit i = (decide (i < n) && x.testBit (lo + i)) := by
  rw [field, Nat.testBit_mod_two_pow, Nat.testBit_shiftRight]

end Sys2Proof.Machine

namespace Sys2Proof.Claims

open Sys2Proof Sys2Proof.Machine

section
variable (p : Parts) (a b c : Word)

/-! ### Words as integers (R256) -/

/-- A word is read signed unless the type is .U32. -/
theorem asInt_eq_intOf : asInt p.signed a = intOf p a := by
  by_cases unsigned : p.td = 6 <;> simp [asInt, Parts.signed, intOf, unsigned]

theorem intOf_of_signed {p : Parts} (signed : p.td ≠ 6) : intOf p a = a.toInt := if_neg signed
theorem intOf_of_unsigned {p : Parts} (unsigned : p.td = 6) : intOf p a = a.toNat := if_pos unsigned

theorem intOf_inj {p : Parts} {a b : Word} (same : intOf p a = intOf p b) : a = b := by
  unfold intOf at same
  split at same
  · exact BitVec.eq_of_toNat_eq (by exact_mod_cast same)
  · exact BitVec.eq_of_toInt_eq same

/-- A word is the low 32 bits of its integer. -/
theorem ofInt_intOf : BitVec.ofInt 32 (intOf p a) = a := by
  unfold intOf
  split <;> simp

/-- An exact result becomes a word as R256 says. -/
theorem narrow_eq_wrapOrClamp (v : Int) : p.narrow v = wrapOrClamp p v := by
  rw [Parts.narrow, ofNat_intoInt]
  by_cases unsigned : p.td = 6 <;> cases sat : p.sat <;> simp [wrapOrClamp, Parts.signed, unsigned, sat, intRange]

/-! ### Sums, products, minima and conditions (R228, R257) -/

theorem addW_eq : p.addW a b = wrapOrClamp p (intOf p a + intOf p b) := by
  rw [Parts.addW, narrow_eq_wrapOrClamp, asInt_eq_intOf, asInt_eq_intOf]

theorem subW_eq : p.subW a b = wrapOrClamp p (intOf p a - intOf p b) := by
  rw [Parts.subW, narrow_eq_wrapOrClamp, asInt_eq_intOf, asInt_eq_intOf]

theorem mulW_eq : p.mulW a b = wrapOrClamp p (intOf p a * intOf p b) := by
  rw [Parts.mulW, narrow_eq_wrapOrClamp, asInt_eq_intOf, asInt_eq_intOf]

theorem madW_eq : p.madW a b c = wrapOrClamp p (intOf p a * intOf p b + intOf p c) := by
  rw [Parts.madW, narrow_eq_wrapOrClamp, asInt_eq_intOf, asInt_eq_intOf, asInt_eq_intOf]

theorem mulhW_eq : p.mulhW a b = BitVec.ofInt 32 (intOf p a * intOf p b / 4294967296) := by
  rw [Parts.mulhW, asInt_eq_intOf, asInt_eq_intOf]
  refine congrArg (BitVec.ofInt 32) ((Int.shiftRight_natCast_right _ 32).trans ?_)
  exact Int.shiftRight_eq_div_pow _ 32

theorem minW_eq : p.minW a b = if intOf p a ≤ intOf p b then a else b := by
  rw [Parts.minW, asInt_eq_intOf, asInt_eq_intOf, ← ite_not]
  exact if_congr Int.not_lt rfl rfl

theorem maxW_eq : p.maxW a b = if intOf p a ≤ intOf p b then b else a := by
  rw [Parts.maxW, asInt_eq_intOf, asInt_eq_intOf]
  rcases lt_trichotomy (intOf p a) (intOf p b) with less | same | more
  · rw [if_pos less, if_pos less.le]
  · rw [intOf_inj same, ite_self, ite_self]
  · rw [if_neg more.not_gt, if_neg more.not_ge]

/-- Less-than of words is that of their integers. -/
theorem lt_eq_decide : (if p.signed then a.slt b else a.ult b) = decide (intOf p a < intOf p b) := by
  by_cases unsigned : p.td = 6 <;> simp [Parts.signed, intOf, unsigned, BitVec.slt, BitVec.ult]

theorem intCond_eq_holds (fx : Nat) : intCond fx p.signed a b = holds fx (intOf p a) (intOf p b) := by
  have equal : (a == b) = decide (intOf p a = intOf p b) := by
    rw [beq_eq_decide]
    exact decide_eq_decide.mpr ⟨congrArg _, intOf_inj⟩
  unfold intCond holds
  simp only [lt_eq_decide, bne, equal]
  split <;> simp only [← decide_not, ← Bool.decide_or, decide_eq_decide] <;> omega

theorem absW_eq : p.absW a = wrapOrClamp p (intOf p a).natAbs := by
  unfold Parts.absW
  by_cases unsigned : p.td = 6
  · have bound : max (0 : Int) (min 4294967295 a.toNat) = a.toNat := by have := a.isLt; omega
    rw [if_neg (by simp [Parts.signed, unsigned]), intOf_of_unsigned a unsigned, Int.natAbs_natCast, wrapOrClamp,
      if_pos unsigned, bound, BitVec.ofInt_natCast, BitVec.ofNat_toNat, BitVec.setWidth_eq, ite_self]
  · rw [if_pos (by simp [Parts.signed, unsigned]), intOf_of_signed a unsigned, narrow_eq_wrapOrClamp]

/-! ### Division (R258) -/

theorem divW_eq : p.divW a b = quotient p a b := by
  refine if_congr Iff.rfl rfl ?_
  by_cases unsigned : p.td = 6
  · rw [if_neg (by simp [Parts.signed, unsigned]), intOf_of_unsigned a unsigned, intOf_of_unsigned b unsigned,
      ← Int.ofNat_tdiv, BitVec.ofInt_natCast, ← BitVec.toNat_udiv, BitVec.ofNat_toNat, BitVec.setWidth_eq]
    rfl
  · rw [if_pos (by simp [Parts.signed, unsigned]), intOf_of_signed a unsigned, intOf_of_signed b unsigned]
    exact BitVec.eq_of_toInt_eq (by rw [BitVec.toInt_sdiv, BitVec.toInt_ofInt])

/-- The remainder as an integer takes the sign of the dividend. -/
theorem intOf_remW {b : Word} (divides : b ≠ 0) : intOf p (p.remW a b) = (intOf p a).tmod (intOf p b) := by
  rw [Parts.remW, if_neg divides]
  by_cases unsigned : p.td = 6
  · rw [if_neg (by simp [Parts.signed, unsigned])]
    simp only [intOf_of_unsigned _ unsigned]
    exact congrArg Int.ofNat BitVec.toNat_umod
  · rw [if_pos (by simp [Parts.signed, unsigned])]
    simp only [intOf_of_signed _ unsigned]
    exact BitVec.toInt_srem a b

theorem remW_eq : p.remW a b = remainder p a b := by
  by_cases zero : b = 0
  · rw [remainder, if_pos zero, Parts.remW, if_pos zero]
  · rw [remainder, if_neg zero, ← intOf_remW p a zero, ofInt_intOf]

/-! ### Shifts and bit counts (R257, R259) -/

theorem not_eq_xor : ~~~a = a ^^^ 0xFFFFFFFF := BitVec.xor_allOnes.symm

theorem shlW_eq : shlW a b = if 32 ≤ b.toNat then 0 else BitVec.ofNat 32 (a.toNat * 2 ^ b.toNat) := by
  refine if_congr Iff.rfl rfl (BitVec.eq_of_toNat_eq ?_)
  rw [BitVec.toNat_shiftLeft, BitVec.toNat_ofNat, Nat.shiftLeft_eq]

theorem shrW_eq : shrW a b = if 32 ≤ b.toNat then 0 else BitVec.ofNat 32 (a.toNat / 2 ^ b.toNat) := by
  refine if_congr Iff.rfl rfl (BitVec.eq_of_toNat_eq ?_)
  rw [BitVec.toNat_ushiftRight, BitVec.toNat_ofNat, Nat.shiftRight_eq_div_pow, Nat.mod_eq_of_lt]
  exact (Nat.div_le_self ..).trans_lt a.isLt

/-- A shift to the right beyond the word leaves copies of its sign. -/
theorem sarW_eq : sarW a b = if 32 ≤ b.toNat then (if a.getLsbD 31 then 0xFFFFFFFF else 0)
    else BitVec.ofInt 32 (a.toInt / 2 ^ b.toNat) := by
  unfold sarW
  by_cases far : 32 ≤ b.toNat
  · rw [if_pos far, Nat.min_eq_left (by omega)]
    have every {j : Nat} (h : j < 32) : (a.sshiftRight 31).getLsbD j = a.getLsbD 31 := by
      rw [BitVec.getLsbD_sshiftRight, BitVec.msb_eq_getLsbD_last]
      obtain rfl | pos := Nat.eq_zero_or_pos j
      · simp
      · simp [Nat.not_le.mpr h, show ¬31 + j < 32 by omega]
    refine BitVec.eq_of_getLsbD_eq fun j h => ?_
    rw [every h]
    cases a.getLsbD 31 with
    | false => simp
    | true => exact ((BitVec.getLsbD_allOnes (v := 32)).trans (decide_eq_true h)).symm
  · rw [if_neg far, Nat.min_eq_right (by omega), BitVec.sshiftRight_eq, Int.shiftRight_eq_div_pow]
    norm_cast

/-- The leading zeros of a word end at its highest set bit. -/
theorem clzW_eq : clzW a = BitVec.ofNat 32 (((List.range 32).find? fun i => a.getLsbD (31 - i)).getD 32) := by
  unfold clzW
  by_cases zero : a = 0
  · subst zero
    decide
  · have pos : a.toNat ≠ 0 := fun h => zero (BitVec.eq_of_toNat_eq h)
    have top : a.toNat.log2 < 32 := (Nat.log2_lt pos).mpr a.isLt
    have first : ((List.range 32).find? fun i => a.getLsbD (31 - i)) = some (31 - a.toNat.log2) := by
      rw [List.find?_range_eq_some]
      refine ⟨?_, List.mem_range.mpr (by omega), fun j below => ?_⟩
      · rw [Nat.sub_sub_self (by omega)]
        exact Nat.testBit_log2 pos
      · have high : a.toNat < 2 ^ (31 - j) := (Nat.log2_lt pos).mp (by omega)
        exact congrArg not (Nat.testBit_lt_two_pow high)
    rw [if_neg zero, first, Option.getD_some]

theorem popcW_eq : popcW a = BitVec.ofNat 32 ((List.range 32).filter fun i => a.getLsbD i).length := by
  rw [popcW, List.countP_eq_length_filter]

/-! ### Fields (R259) -/

theorem fieldLo_eq : fieldLo b = controlLo b := by
  rw [fieldLo, BitVec.extractLsb'_toNat, Nat.shiftRight_zero, controlLo]

theorem fieldWidth_eq : fieldWidth b = controlWidth b := by
  rw [fieldWidth, controlWidth, fieldLo_eq, BitVec.extractLsb'_toNat, Nat.shiftRight_eq_div_pow]

/-- A field, zero-extended or sign-extended, bit by bit. -/
theorem bfeW_eq : p.bfeW a b = fieldOut p a b := by
  unfold Parts.bfeW fieldOut
  rw [fieldLo_eq, fieldWidth_eq]
  generalize controlWidth b = w
  generalize controlLo b = lo
  refine BitVec.eq_of_getLsbD_eq fun j h => ?_
  rw [ofBits_getLsbD _ h]
  by_cases empty : w = 0
  · simp [empty]
  have bits (i : Nat) : (BitVec.ofNat w (field a.toNat lo w)).getLsbD i = (decide (i < w) && a.getLsbD (lo + i)) := by
    rw [BitVec.getLsbD_ofNat, testBit_field]
    simp [BitVec.getLsbD]
  rw [if_neg empty]
  by_cases signed : p.td = 5
  · have top : w - 1 < w := by omega
    have sign : (BitVec.ofNat w (field a.toNat lo w)).msb = a.getLsbD (lo + w - 1) := by
      rw [BitVec.msb_eq_getLsbD_last, bits, decide_eq_true top, Bool.true_and, Nat.add_sub_assoc (by omega)]
    rw [if_pos signed, signed_eq_toInt, ← BitVec.signExtend, BitVec.getLsbD_signExtend, sign, bits]
    by_cases inside : j < w <;> simp [h, inside, signed, empty]
  · rw [if_neg signed, BitVec.getLsbD_ofNat, testBit_field]
    by_cases inside : j < w <;> simp [h, inside, signed, BitVec.getLsbD]

theorem bfiW_eq : bfiW a b c = fieldIn a b c := by
  unfold bfiW fieldIn
  rw [fieldLo_eq, fieldWidth_eq]
  generalize controlWidth b = w
  generalize controlLo b = lo
  refine BitVec.eq_of_getLsbD_eq fun j h => ?_
  have mask : (BitVec.ofNat 32 ((2 ^ w - 1) <<< lo)).getLsbD j = decide (lo ≤ j ∧ j < lo + w) := by
    rw [BitVec.getLsbD_ofNat, Nat.testBit_shiftLeft, Nat.testBit_two_pow_sub_one, decide_eq_true h, Bool.true_and,
      ← Bool.decide_and]
    exact decide_eq_decide.mpr (by omega)
  rw [ofBits_getLsbD _ h]
  simp only [BitVec.getLsbD_or, BitVec.getLsbD_and, BitVec.getLsbD_not, BitVec.getLsbD_shiftLeft, mask]
  by_cases inside : lo ≤ j ∧ j < lo + w
  · simp [inside, h]
  · simp [inside, h]

end

/-! ### Instructions that give one word -/

section
variable {i : Instr} {s u : State} {x : Exe}

/-- A scalar instruction that computes the result of the statements completes with it. -/
theorem scalar_complete {g : Exe → Word} {r : Word} (run : exec i s = scalarOp i g s) (goes : Goes i noCheck s x u)
    (computes : g x = r) : exec i s = .next (advance x (writeScalar x x.parts.d r u)) :=
  computes ▸ goes.exec_ok (run.trans (scalarOp.eq_1 i g s)) rfl

/-- So does a vector instruction, in each active lane. -/
theorem vector_complete {g : Exe → Nat → Word} {r : Nat → Word} (run : exec i s = vectorOp i g s)
    (goes : Goes i noCheck s x u) (computes : ∀ l, g x l = r l) :
    exec i s = .next (advance x (writeEach x x.parts.d r u)) :=
  funext computes ▸ goes.exec_ok (run.trans (vectorOp.eq_1 i g s)) rfl

/-- R257 to R259: every scalar instruction of one word computes its result. -/
theorem scalarInteger_complete {r : Word} (scalar : isScalarInteger i = true) (goes : Goes i noCheck s x u)
    (result : integerResult x.parts x.sA x.sB x.sC i = some r) :
    exec i s = .next (advance x (writeScalar x x.parts.d r u)) := by
  cases i
  all_goals try exact absurd scalar Bool.false_ne_true
  all_goals obtain rfl := Option.some.inj result
  case smov | sand | sor | sxor => exact scalar_complete rfl goes rfl
  case sadd => exact scalar_complete rfl goes (addW_eq ..)
  case ssub => exact scalar_complete rfl goes (subW_eq ..)
  case smul => exact scalar_complete rfl goes (mulW_eq ..)
  case smulh => exact scalar_complete rfl goes (mulhW_eq ..)
  case smad => exact scalar_complete rfl goes (madW_eq ..)
  case sdiv => exact scalar_complete rfl goes (divW_eq ..)
  case srem => exact scalar_complete rfl goes (remW_eq ..)
  case sshl => exact scalar_complete rfl goes (shlW_eq ..)
  case sshr => exact scalar_complete rfl goes (shrW_eq ..)
  case ssar => exact scalar_complete rfl goes (sarW_eq ..)
  case smin => exact scalar_complete rfl goes (minW_eq ..)
  case smax => exact scalar_complete rfl goes (maxW_eq ..)
  case scmp => exact scalar_complete rfl goes (if_congr (by rw [intCond_eq_holds]) rfl rfl)
  case ssel => exact scalar_complete rfl goes (ite_not ..).symm
  case sclz => exact scalar_complete rfl goes (clzW_eq _)
  case spopc => exact scalar_complete rfl goes (popcW_eq _)
  case sbfe => exact scalar_complete rfl goes (bfeW_eq ..)
  case sbfi => exact scalar_complete rfl goes (bfiW_eq ..)

/-- R265: every vector instruction of one word computes its result in each lane. -/
theorem vectorInteger_complete {r : Nat → Word} (vector : isVectorInteger i = true) (goes : Goes i noCheck s x u)
    (result : ∀ l, integerResult x.parts (x.vA l) (x.vB l) (x.vC l) i = some (r l)) :
    exec i s = .next (advance x (writeEach x x.parts.d r u)) := by
  cases i
  all_goals try exact absurd vector Bool.false_ne_true
  all_goals obtain rfl := funext fun l => Option.some.inj (result l)
  case vand | vor | vxor => exact vector_complete rfl goes fun _ => rfl
  case vadd => exact vector_complete rfl goes fun _ => addW_eq ..
  case vsub => exact vector_complete rfl goes fun _ => subW_eq ..
  case vmul => exact vector_complete rfl goes fun _ => mulW_eq ..
  case vmulh => exact vector_complete rfl goes fun _ => mulhW_eq ..
  case vmad => exact vector_complete rfl goes fun _ => madW_eq ..
  case vnot => exact vector_complete rfl goes fun _ => not_eq_xor _
  case vshl => exact vector_complete rfl goes fun _ => shlW_eq ..
  case vshr => exact vector_complete rfl goes fun _ => shrW_eq ..
  case vsar => exact vector_complete rfl goes fun _ => sarW_eq ..
  case vmin => exact vector_complete rfl goes fun _ => minW_eq ..
  case vmax => exact vector_complete rfl goes fun _ => maxW_eq ..
  case vabs => exact vector_complete rfl goes fun _ => absW_eq ..
  case vsel => exact vector_complete rfl goes fun _ => (ite_not ..).symm
  case vclz => exact vector_complete rfl goes fun _ => clzW_eq _
  case vpopc => exact vector_complete rfl goes fun _ => popcW_eq _
  case vbfe => exact vector_complete rfl goes fun _ => bfeW_eq ..
  case vbfi => exact vector_complete rfl goes fun _ => bfiW_eq ..

end

/-! ### SMOVI and SADD64 (R260, R261) -/

/-- The low word of an integer's 64 bits holds its low 32 bits. -/
theorem lo_ofInt (v : Int) : DWord.lo (BitVec.ofInt 64 v) = BitVec.ofInt 32 v := by
  refine BitVec.eq_of_toNat_eq ?_
  rw [DWord.lo, BitVec.toNat_setWidth, BitVec.toNat_ofInt, BitVec.toNat_ofInt]
  omega

theorem setWidth_eq_ofInt {n : Nat} (m : Nat) (w : BitVec n) : w.setWidth m = BitVec.ofInt m w.toNat := by
  rw [BitVec.ofInt_natCast, BitVec.ofNat_toNat]

section
variable (x : Exe)

theorem moviValue_eq : x.moviValue = BitVec.ofInt 64 (moviInt x) := by
  unfold Exe.moviValue moviInt
  cases x.parts.lit with
  | none => rfl
  | some w => exact (if_congr Iff.rfl (setWidth_eq_ofInt 64 w) rfl).trans (apply_ite (BitVec.ofInt 64) ..).symm

theorem addend64_eq : x.addend64 = BitVec.ofInt 64 (addend x) := by
  unfold Exe.addend64 addend Exe.sB
  cases x.parts.lit with
  | none =>
    match x.parts.fx with
    | 0 => exact (BitVec.setWidth_eq _).symm.trans (setWidth_eq_ofInt 64 _)
    | 1 => rfl
    | _ + 2 => exact setWidth_eq_ofInt 64 _
  | some w =>
    match x.parts.fx with
    | 0 => exact (if_congr Iff.rfl rfl (setWidth_eq_ofInt 64 w)).trans (apply_ite (BitVec.ofInt 64) ..).symm
    | 1 => rfl
    | _ + 2 => exact setWidth_eq_ofInt 64 _

/-- SADD64 adds modulo 2^64. -/
theorem sum64_eq : x.pair x.parts.a + x.addend64 = BitVec.ofInt 64 (((x.pair x.parts.a).toNat : Int) + addend x) := by
  rw [addend64_eq, BitVec.ofInt_add, ← setWidth_eq_ofInt, BitVec.setWidth_eq]

end

theorem does_smovi (g : RI) : Does (.smovi g) noCheck fun x u =>
    if x.parts.td = 7 ∨ x.parts.td = 8 then storePair x (BitVec.ofInt 64 (moviInt x)) u
    else writeScalar x x.parts.d (BitVec.ofInt 32 (moviInt x)) u := by
  simp only [← lo_ofInt, ← moviValue_eq]
  refine does_of_performPure (execSmovi g) (fun _ => rfl) fun s => congrArg (performPure _ _ · s) (funext₂ fun x u => ?_)
  exact if_congr (by simp) rfl rfl

theorem does_sadd64 (f : RRR) : Does (.sadd64 f) noCheck fun x u =>
    storePair x (BitVec.ofInt 64 (((x.pair x.parts.a).toNat : Int) + addend x)) u := by
  simp only [← sum64_eq]
  exact does_of_performPure (execSadd64 f) (fun _ => rfl) fun _ => rfl

/-! ### The identity of R258 -/

section
variable (p : Parts) (a : Word) {b : Word} (divides : b ≠ 0)
include divides

theorem quotient_remainder : a = b * quotient p a b + remainder p a b := by
  rw [quotient, if_neg divides, remainder, if_neg divides]
  calc a = BitVec.ofInt 32 (intOf p b * (intOf p a).tdiv (intOf p b) + (intOf p a).tmod (intOf p b)) := by
        rw [Int.mul_tdiv_add_tmod, ofInt_intOf]
    _ = _ := by rw [BitVec.ofInt_add, BitVec.ofInt_mul, ofInt_intOf]

/-- The remainder is smaller than the divisor, and is 0 or has the sign of the dividend. -/
theorem remainder_bound : (intOf p (remainder p a b)).natAbs < (intOf p b).natAbs ∧
    (intOf p (remainder p a b) = 0 ∨ (intOf p (remainder p a b) < 0 ↔ intOf p a < 0)) := by
  have pos : 0 < (intOf p b).natAbs := Int.natAbs_pos.mpr fun zero => divides (by rw [← ofInt_intOf p b, zero]; rfl)
  rw [← remW_eq, intOf_remW p a divides]
  refine ⟨by rw [Int.natAbs_tmod]; exact Nat.mod_lt _ pos, ?_⟩
  by_cases whole : intOf p b ∣ intOf p a
  · exact .inl (Int.tmod_eq_zero_of_dvd whole)
  · right
    rw [← Int.sign_eq_neg_one_iff_neg, Int.sign_tmod, if_neg whole, Int.sign_eq_neg_one_iff_neg]

end

/-- Settles O2: each operation of the model is the statement's, whose quotient and remainder are those of `Int`. -/
theorem divideAndRemainder : Obligations.DivideAndRemainder :=
  ⟨fun _ _ _ _ goes => scalar_complete rfl goes (divW_eq ..), fun _ _ _ _ goes => scalar_complete rfl goes (remW_eq ..),
    fun p a _ => quotient_remainder p a, fun p a _ => remainder_bound p a,
    fun _ _ => ⟨if_pos rfl, if_pos rfl⟩, fun p signed => by
      simp only [quotient, remainder, intOf_of_signed _ signed]
      decide⟩

/-- Settles O3, by the operation of each instruction on words, and by the integers of SMOVI and SADD64. -/
theorem scalarResults : Obligations.ScalarResults :=
  ⟨fun _ _ _ _ _ => scalarInteger_complete, fun g f s x u => ⟨does_smovi g s x u, does_sadd64 f s x u⟩⟩

/-- Settles O1, by the operation of each instruction on words. -/
theorem vectorIntegerResults : Obligations.VectorIntegerResults := fun _ _ _ _ _ => vectorInteger_complete

end Sys2Proof.Claims
end

section
/-! Control (R78, R221, R238 to R247): the pointers of relative branches, the lanes that a branch takes, and what the instructions
that act at their clause's end ask for. -/

namespace Sys2Proof.Machine

open Sys2Proof

/-! ### Pointers (R97, R238) -/

/-- The high bits of a pointer with other low bits. -/
theorem high_or_low (w : DWord) {k n : Nat} (low : n < 2 ^ k) :
    (w &&& BitVec.allOnes 64 <<< k) ||| BitVec.ofNat 64 n = BitVec.ofNat 64 (w.toNat / 2 ^ k * 2 ^ k + n) := by
  refine BitVec.eq_of_getLsbD_eq fun j h => ?_
  rw [Nat.mul_comm, BitVec.getLsbD_ofNat, Nat.testBit_two_pow_mul_add _ low, BitVec.getLsbD_or, BitVec.getLsbD_and,
    BitVec.getLsbD_shiftLeft, BitVec.getLsbD_allOnes, BitVec.getLsbD_ofNat]
  by_cases below : j < k
  · simp [h, below]
  · have none : n.testBit j = false :=
      Nat.testBit_lt_two_pow (low.trans_le (Nat.pow_le_pow_right (by decide) (Nat.le_of_not_lt below)))
    simp [h, below, none, Nat.testBit_div_two_pow, BitVec.getLsbD, Nat.sub_add_cancel (Nat.le_of_not_lt below),
      show j - k < 64 by omega]

theorem va_eq (p : DWord) : va p = p.toNat % 2 ^ 48 := by
  rw [va, BitVec.extractLsb'_toNat, Nat.shiftRight_zero]

/-! ### What the loads that an instruction awaits leave of a team (R223) -/

section
variable {β : Type} (π : Team → β) (thread : ∀ t k th, π (Team.setThread t k th) = π t)
  (written : ∀ t k w, π (Team.applyWrite t k w) = π t)
include thread written

/-- Loads that complete keep what neither a thread nor the write of a register changes. -/
theorem State.map_team?_drainLoads (s : State) (p q : Party) :
    ((s.drainLoads p).team? q).map π = (s.team? q).map π := by
  have deliver (u : State) (ld : PendingLoad) : ((u.deliver p ld).team? q).map π = (u.team? q).map π := by
    have writes := map_team?_updTeam π (f := fun t => ld.writes.foldl (fun u w => u.applyWrite p.kind w) t)
      (fun t => foldl_keeps π fun u w => written u p.kind w) u p q
    unfold State.deliver
    dsimp only
    split
    · exact writes
    · refine (congrArg (Option.map π) ?_).trans writes
      split
      · exact team?_updPairs (by intro; rfl) q
      · exact team?_updCrew (by intro; rfl) q
  unfold State.drainLoads
  split
  · rfl
  · refine (map_team?_updTeam π (fun t => thread t p.kind _) _ p q).trans ?_
    exact foldl_keeps (fun s : State => (s.team? q).map π) fun u ld => deliver u ld

theorem Exe.map_team?_settleLoads (x : Exe) (ops : List Opnd) (s : State) (q : Party) :
    ((x.settleLoads ops s).team? q).map π = (s.team? q).map π := by
  unfold Exe.settleLoads
  refine (foldl_keeps (fun s : State => (s.team? q).map π) fun u p => u.map_team?_drainLoads π thread written p q).trans ?_
  split
  · exact s.map_team?_drainLoads π thread written x.p q
  · rfl

/-- An instruction goes with a team that agrees with its issuer's in what loads keep. -/
theorem prepare_go_team {i : Instr} {oc : Exe → State → Option Cause} {x0 x : Exe} {s s1 : State}
    (issuer : s.issuer? i = some x0) (ready : prepare i oc x0 s = .go x s1) : π x.team = π x0.team := by
  obtain ⟨-, -, team, -⟩ := issuer_cases issuer
  obtain ⟨rfl, rfl⟩ := prepare_go_view ready
  have kept := Exe.map_team?_settleLoads π thread written x0 (x0.loadOps i) s x0.p
  rw [team] at kept
  unfold State.refresh
  split
  · next c t _ there =>
    rw [there] at kept
    exact Option.some.inj kept
  · rfl

end

theorem Team.m_applyWrite (t : Team) (k : PartyKind) (w : RegWrite) : (t.applyWrite k w).m = t.m := by
  cases w with
  | lane r l v =>
    show (t.writeLanes r _).m = _
    unfold Team.writeLanes
    dsimp only
    split
    · exact foldl_keeps Team.m fun u lv => by split <;> rfl
    · rfl
  | scalar r v => exact setThread_m ..
  | norm r g v => rfl

end Sys2Proof.Machine

namespace Sys2Proof.Claims

open Sys2Proof Sys2Proof.Machine

/-! ### Where control goes (R238 to R240, R243) -/

section
variable (x : Exe)

/-- T of R238. -/
theorem target_eq_relative (off : Int) : x.target off = relative x off := by
  have low : wrap 48 (((va x.cl.hdr + 4 * x.cl.pos : Nat) : Int) + 4 * off) < 2 ^ 56 :=
    (wrap_lt 48 _).trans (by decide)
  have sum : ((va x.cl.hdr + 4 * x.cl.pos : Nat) : Int) = ((x.cl.hdr.toNat % 2 ^ 48 : Nat) : Int) + 4 * x.cl.pos := by
    rw [va_eq]
    push_cast
    rfl
  refine (high_or_low x.cl.hdr low).trans ?_
  rw [sum]
  rfl

/-- N of R238. -/
theorem nextPc_eq_following : x.nextPc = following x := by
  have low : (x.cl.hdr + 4 * BitVec.ofNat 64 (x.cl.words.length + 1)) &&& 0xFFFFFFFFFFFF =
      BitVec.ofNat 64 ((x.cl.hdr.toNat + 4 * (x.cl.words.length + 1)) % 2 ^ 48) := by
    refine BitVec.eq_of_toNat_eq ?_
    rw [BitVec.toNat_and, show (0xFFFFFFFFFFFF : DWord).toNat = 2 ^ 48 - 1 from rfl, Nat.and_two_pow_sub_one_eq_mod,
      BitVec.toNat_add, BitVec.toNat_mul, BitVec.toNat_ofNat, BitVec.toNat_ofNat]
    show (_ + 4 * _ % _) % _ % _ = _
    omega
  unfold Exe.nextPc nextHeader
  rw [low]
  exact high_or_low x.cl.hdr (Nat.mod_lt _ (Nat.two_pow_pos 48))

theorem zeroCond_eq_againstZero (c3 : Nat) (v : Word) : zeroCond c3 v = againstZero c3 v.toInt := by
  have zero : (v == 0) = decide (v.toInt = 0) := by
    rw [beq_eq_decide]
    exact decide_eq_decide.mpr ⟨fun h => h ▸ rfl, fun h => BitVec.eq_of_toInt_eq h⟩
  have negative : v.slt 0 = decide (v.toInt < 0) := rfl
  unfold zeroCond againstZero
  simp only [zero, negative, bne]
  split <;> simp only [← decide_not, ← Bool.decide_or, ← Bool.decide_and, decide_eq_decide] <;> omega

/-- The link pair of R243. -/
theorem linkReg_eq_linkBase : x.linkReg = linkBase x := by
  unfold Exe.linkReg linkBase Exe.allot
  dsimp only
  generalize (if x.ch then 32 else x.launch.sregs) = n
  split <;> omega

theorem setLink_eq_linkTo (v : DWord) (u : State) : setLink x v u = linkTo x v u := by
  rw [setLink, linkReg_eq_linkBase, linkTo]

end

/-- BRM goes with some lane in its effective mask, and takes the lanes of that mask (R78, R240). -/
theorem branchLanes_of_goes {f : BC} {oc : Exe → State → Option Cause} {s u : State} {x : Exe}
    (goes : Goes (.brm f) oc s x u) : branchLanes x = x.eff ∧ x.eff ≠ 0 := by
  obtain ⟨x0, s1, issuer, ready, -⟩ := goes
  have masks := prepare_go_team Team.m (fun t k th => setThread_m t k th) (fun t k w => t.m_applyWrite k w) issuer ready
  obtain ⟨-, context, active, -⟩ := prepare_eq_go_iff.mp ready
  obtain ⟨view, -⟩ := prepare_go_view ready
  have team : x0.ch = false := by
    by_contra chaser
    rw [Bool.not_eq_false] at chaser
    simp [contextFault, chaserMay, chaser] at context
  obtain ⟨-, -, -, -, -, -, -, -, -, -, eff⟩ := issuer_cases issuer
  have named (m : BitVec 3) : base (m.setWidth 7) = m.toNat := by
    rw [base, BitVec.extractLsb'_toNat, BitVec.toNat_setWidth]
    omega
  have same : x.eff = x0.eff ∧ x.exec = x0.exec ∧ x.parts = x0.parts := by simp [view]
  obtain ⟨effs, execs, parts⟩ := same
  have read (k : Nat) : x.team.readM k = x0.team.readM k := by rw [Team.readM, masks, Team.readM]
  refine ⟨?_, fun empty => active ⟨team, rfl, effs ▸ empty⟩⟩
  rw [effs, eff, team]
  unfold branchLanes effMask Exe.m
  simp only [execs, parts, named, read, perLane]
  cases x0.parts.md.pe <;> cases x0.parts.md.pn <;> rfl

/-! ### Each transfer -/

section
variable (bo : BO) (bc : BC) (z : FZ) (r : RRR)

theorem does_bra : Does (.bra bo) noCheck fun x u => continueAt x (relative x (offsetBO x)) u := by
  simp only [← target_eq_relative]
  exact does_of_performPure (execBra bo) (fun _ => rfl) fun _ => rfl

theorem does_brc : Does (.brc bc) noCheck fun x u =>
    if againstZero x.parts.c3.toNat (x.s x.parts.a).toInt then continueAt x (relative x (offsetBC x)) u else u := by
  simp only [← target_eq_relative, ← zeroCond_eq_againstZero]
  exact does_of_performPure (execBrc bc) (fun _ => rfl) fun _ => rfl

theorem does_brm : Does (.brm bc) (fun x _ => if joinOffset x = 0 then some .general else none) fun x u =>
    if branchLanes x = 0 then u
    else if x.exec &&& ~~~(branchLanes x) = 0 then continueAt x (relative x (offsetBC x)) u
    else u.updTeam x.p fun t =>
      t.split x.cl.path (relative x (joinOffset x)) (relative x (offsetBC x)) (branchLanes x) := by
  intro s x u goes
  obtain ⟨taken, active⟩ := branchLanes_of_goes goes
  dsimp only
  rw [taken, if_neg active, ← target_eq_relative, ← target_eq_relative]
  exact does_of_performPure (execBrm bc) (fun _ => rfl) (fun _ => rfl) s x u goes

theorem does_call : Does (.call bo) noCheck fun x u =>
    continueAt x (relative x (offsetBO x)) (linkTo x (following x) u) := by
  simp only [← target_eq_relative, ← nextPc_eq_following, ← setLink_eq_linkTo]
  exact does_of_performPure (execCall bo) (fun _ => rfl) fun _ => rfl

theorem does_ret : Does (.ret z) noCheck fun x u =>
    continueAt x (Word.pair (x.th.readS (linkBase x)) (x.th.readS (linkBase x + 1))) u := by
  simp only [← linkReg_eq_linkBase]
  exact does_of_performPure (execRet z) (fun _ => rfl) fun _ => rfl

theorem does_jmpi : Does (.jmpi r) noCheck fun x u => continueAt x (x.pair x.parts.a)
    (if x.parts.fx = 1 then linkTo x (following x) u else u) := by
  simp only [← nextPc_eq_following, ← setLink_eq_linkTo]
  exact does_of_performPure (execJmpi r) (fun _ => rfl) fun _ => rfl

theorem does_loop : Does (.loop bc) noCheck fun x u =>
    let v := x.s x.parts.a - BitVec.ofNat 32 (x.parts.c3.toNat + 1)
    let u' := writeScalar x x.parts.a v u
    if 0 < v.toInt then continueAt x (relative x (offsetBC x)) u' else u' := by
  have positive (v : Word) : 0 < v.toInt ↔ zeroCond 4 v = true := by
    rw [zeroCond_eq_againstZero, againstZero, decide_eq_true_eq]
  simp only [← target_eq_relative, positive]
  exact does_of_performPure (execLoop bc) (fun _ => rfl) fun _ => rfl

end

/-- Settles O4: the model's pointers, conditions and link pair are those of the statements, and a BRM that goes takes the lanes
of its effective mask, of which there are some. -/
theorem controlTransfers : Obligations.ControlTransfers := fun bo bc z r =>
  ⟨does_bra bo, does_brc bc, does_brm bc, does_of_performPure (execJoin z) (fun _ => rfl) fun _ => rfl, does_call bo,
    does_ret z, does_jmpi r, does_loop bc⟩

/-! ### The end of a clause (R245 to R247) -/

section
variable {z : FZ} {s s1 : State} {x0 x : Exe}

/-- The model tests whether EXIT retires its team as the statements do. -/
theorem retires_iff : (x.launch.strands ≠ 0 && (x.team.launched &&& ~~~(x.team.exited ||| x.eff)) = 0 &&
    !x.team.handler) = true ↔ retires x := by
  simp only [Bool.and_eq_true, decide_eq_true_eq, Bool.not_eq_true', retires, and_assoc]

/-- EXIT outside a pair, or by which its team does not retire. -/
theorem exit_complete (issuer : s.issuer? (.exit z) = some x0) (ready : prepare (.exit z) noCheck x0 s = .go x s1)
    (alone : x0.paired s = false ∨ ¬retires x0) :
    exec (.exit z) s = .next (advance x (exitEffect x (setResult x .none s1))) := by
  show execExit z s = _
  rw [execExit]
  dsimp only
  rw [issuer]
  dsimp only
  split
  · next last =>
    have unpaired : x0.paired s = false := alone.resolve_right fun stays => stays (retires_iff.mp last)
    exact (performMeet_alone issuer unpaired).trans (perform_go issuer ready rfl)
  · exact performPure_go issuer ready

/-- The EXIT by which a copy retires, performed once for both copies (log 14). -/
theorem exit_complete_both (issuer : s.issuer? (.exit z) = some x0) (ready : prepare (.exit z) noCheck x0 s = .go x s1)
    (paired : x0.paired s = true) (last : retires x0) (free : released x0) : exec (.exit z) s =
      .next (advanceBoth x (ruleOf false (.exit z) x.parts).ops s1 (exitEffect x (setResult x .none s1))) := by
  show execExit z s = _
  rw [execExit]
  dsimp only
  rw [issuer]
  dsimp only
  rw [if_pos (retires_iff.mpr last), performMeet_released issuer paired free, performReleased, ready]
  rfl

end

/-- When SLEEP waits, and until which tick (R247). -/
theorem deadline_eq (x : Exe) : x.deadline =
    if x.parts.fx = 1 then (if x.now.toNat < (x.pair x.parts.d).toNat then some (x.pair x.parts.d) else none)
    else
      let n : Int := match x.parts.lit with | some w => (w.toNat : Int) | none => (x.parts.imm.setWidth 14).toInt
      if 0 < n then some (BitVec.ofInt 64 ((x.now.toNat : Int) + n)) else none := by
  have later (v : Int) : BitVec.ofInt 64 ((x.now.toNat : Int) + v) = x.now + BitVec.ofInt 64 v := by
    rw [BitVec.ofInt_add, ← setWidth_eq_ofInt, BitVec.setWidth_eq]
  unfold Exe.deadline
  refine if_congr Iff.rfl (if_congr BitVec.ult_iff_lt rfl rfl) ?_
  cases x.parts.lit with
  | none =>
    dsimp only
    rw [later, ← ite_not]
    exact if_congr Int.not_le rfl rfl
  | some w =>
    dsimp only
    rw [later, ← setWidth_eq_ofInt, ← ite_not]
    refine if_congr ?_ rfl rfl
    rw [Int.natCast_pos, Nat.pos_iff_ne_zero]
    exact BitVec.toNat_ne

theorem does_sleep (ri : RI) : Does (.sleep ri) noCheck fun x u =>
    if x.parts.fx = 1 then
      (if x.now.toNat < (x.pair x.parts.d).toNat then waitFrom x (.sleep (x.pair x.parts.d)) u else u)
    else
      let n : Int := match x.parts.lit with | some w => (w.toNat : Int) | none => (x.parts.imm.setWidth 14).toInt
      if 0 < n then waitFrom x (.sleep (BitVec.ofInt 64 ((x.now.toNat : Int) + n))) u else u := by
  refine does_of_performPure (execSleep ri) (fun _ => rfl) fun s => congrArg (performPure _ _ · s) (funext₂ fun x u => ?_)
  rw [deadline_eq]
  dsimp only
  split_ifs <;> rfl

/-- Settles O6: EXIT by whether it retires its team and whether that is a pair; the others ask for what happens when their
clause ends. -/
theorem clauseEndEffects : Obligations.ClauseEndEffects := fun z ri =>
  ⟨fun _ _ _ _ issuer ready => ⟨exit_complete issuer ready, exit_complete_both issuer ready⟩,
    does_of_performPure (execYield z) (fun _ => rfl) fun _ => rfl,
    does_of_performPure (execNop z) (fun _ => rfl) fun _ => rfl,
    does_of_performPure (execHalt z) (fun _ => rfl) fun _ => rfl,
    does_sleep ri⟩

end Sys2Proof.Claims
end

section
/-! Floating-point instructions, compares and tests, and conversions (R194, R195, R266 to R275, R282): the model's operation on
the elements of a lane, as the statements write it. -/

namespace Sys2Proof.Claims

open Sys2Proof Sys2Proof.Machine

/-! ### The decode check of a sub-opcode (R230) -/

/-- An instruction that passes R230 has assigned values in its sub-opcode fields. -/
theorem sub_of_checkInstr {ch : Bool} {i : Instr} {p : Parts} (fields : partsOf i = some p) (passes : checkInstr ch i = none) :
    (ruleOf ch i p).sub = true := by
  by_contra unassigned
  rw [checkInstr, fields] at passes
  simp [subopFails, unassigned] at passes

theorem Goes.sub {i : Instr} {oc : Exe → State → Option Cause} {s u : State} {x : Exe} {p : Parts}
    (fields : partsOf i = some p) (goes : Goes i oc s x u) : ∃ ch, (ruleOf ch i x.parts).sub = true := by
  have own := goes.parts
  obtain ⟨x0, s1, issuer, ready, -⟩ := goes
  obtain ⟨passes, -⟩ := prepare_eq_go_iff.mp ready
  rw [own, fields, Option.getD_some]
  exact ⟨x0.ch, sub_of_checkInstr fields passes⟩

/-! ### Minima, maxima, conditions and classes (R199, R270) -/

section
variable (f : FFmt) (a b : Nat)

theorem isNan_iff (v : FVal) : v.isNan = true ↔ v = .nan := by cases v <;> simp [FVal.isNan]

/-- The order of minima and maxima, with -0 below +0. -/
theorem below_eq (v w : FVal) :
    v.below w = (v.cmp w == some .lt || (v.cmp w == some .eq && v.isNeg && !w.isNeg)) := by
  unfold FVal.below
  rcases v.cmp w with _ | _ | _ | _ <;> rfl

theorem minmax_eq_chosen (greater : Bool) : f.minmax greater a b = chosen f greater a b := by
  unfold FFmt.minmax chosen
  simp only [isNan_iff, below_eq]
  by_cases left : f.decode a = .nan <;> by_cases right : f.decode b = .nan <;> simp [left, right]

theorem cond_eq_floatHolds (fx : Nat) : f.cond fx a b = floatHolds f fx a b := by
  unfold FFmt.cond floatHolds
  rcases (f.decode a).cmp (f.decode b) with _ | _ | _ | _
  · rfl
  all_goals match fx with
    | 0 | 1 | 2 | 3 | 4 | 5 | 6 => rfl
    | _ + 7 => simp

theorem classBits_eq_classOfValue : f.classBits a = classOfValue f a := by
  unfold FFmt.classBits classOfValue
  simp only [field_eq_div_mod]
  match f.decode a with
  | .nan => rfl
  | .inf s => cases s <;> rfl
  | .fin s 0 _ => cases s <;> rfl
  | .fin s (_ + 1) _ => cases s <;> simp

end

/-! ### Floating instructions (R269 to R271) -/

/-- A special function on an element, rounded once (R271). -/
def specialOp (g : SpecialFn) (p : Parts) (a _ _ : Nat) : Nat := p.ffmt.special g p.round p.sat a

/-- Every floating instruction is performed on elements, by the operation of the statements. -/
theorem floatInstr_of_isFloat {i : Instr} (float : isFloat i = true) : ∃ g : Parts → Nat → Nat → Nat → Nat,
    (∀ s, exec i s = floatInstr i g s) ∧ ∀ p a b c, floatResult p a b c i = some (g p a b c) := by
  cases i
  all_goals try exact absurd float Bool.false_ne_true
  case fadd => exact ⟨fun p a b _ => p.ffmt.addBits p.round p.sat a b, fun _ => rfl, fun _ _ _ _ => rfl⟩
  case fsub => exact ⟨fun p a b _ => p.ffmt.subBits p.round p.sat a b, fun _ => rfl, fun _ _ _ _ => rfl⟩
  case fmul => exact ⟨fun p a b _ => p.ffmt.mulBits p.round p.sat a b, fun _ => rfl, fun _ _ _ _ => rfl⟩
  case fma => exact ⟨fun p a b c => p.ffmt.fmaBits p.round p.sat false a b c, fun _ => rfl, fun _ _ _ _ => rfl⟩
  case fnma => exact ⟨fun p a b c => p.ffmt.fmaBits p.round p.sat true a b c, fun _ => rfl, fun _ _ _ _ => rfl⟩
  case fmin => exact ⟨fun p a b _ => p.ffmt.minmax false a b, fun _ => rfl,
    fun _ _ _ _ => congrArg some (minmax_eq_chosen ..).symm⟩
  case fmax => exact ⟨fun p a b _ => p.ffmt.minmax true a b, fun _ => rfl,
    fun _ _ _ _ => congrArg some (minmax_eq_chosen ..).symm⟩
  case fneg => exact ⟨fun p a _ _ => a ^^^ p.ffmt.sign true, fun _ => rfl, fun _ _ _ _ => rfl⟩
  case fabs => exact ⟨fun p a _ _ => a % 2 ^ (p.ffmt.eb + p.ffmt.fb), fun _ => rfl, fun _ _ _ _ => rfl⟩
  case frcp => exact ⟨specialOp .rcp, fun _ => rfl, fun _ _ _ _ => rfl⟩
  case frsq => exact ⟨specialOp .rsq, fun _ => rfl, fun _ _ _ _ => rfl⟩
  case fsqrt => exact ⟨specialOp .sqrt, fun _ => rfl, fun _ _ _ _ => rfl⟩
  case fexp2 => exact ⟨specialOp .exp2, fun _ => rfl, fun _ _ _ _ => rfl⟩
  case flog2 => exact ⟨specialOp .log2, fun _ => rfl, fun _ _ _ _ => rfl⟩
  case fsin => exact ⟨specialOp .sin, fun _ => rfl, fun _ _ _ _ => rfl⟩
  case fcos => exact ⟨specialOp .cos, fun _ => rfl, fun _ _ _ _ => rfl⟩
  case ftanh => exact ⟨specialOp .tanh, fun _ => rfl, fun _ _ _ _ => rfl⟩

/-- Settles O8, by the operation of each instruction on elements. -/
theorem floatResults : Obligations.FloatResults := by
  intro i s x u float goes
  obtain ⟨g, run, computes⟩ := floatInstr_of_isFloat float
  simp only [computes, Option.getD_some]
  exact goes.exec_ok ((run s).trans (floatInstr.eq_1 i g s)) rfl

/-! ### Bytes of words (R267, R268) -/

/-- Four bytes as a word. -/
theorem ofBytes_eq (f : Nat → Nat) :
    BitVec.ofNat 32 (natOf ((List.range 4).map fun k => BitVec.ofNat 8 (f k))) = ofBytes f := by
  refine congrArg (BitVec.ofNat 32) ?_
  show f 0 % 256 + 256 * (f 1 % 256 + 256 * (f 2 % 256 + 256 * (f 3 % 256 + 256 * 0))) = _
  omega

/-- A nibble sign-extended to a byte (R267). -/
theorem signed_nibble {n : Nat} (nibble : n < 16) : wrap 8 (Machine.signed 4 n) = if 8 ≤ n then n + 240 else n := by
  unfold wrap Machine.signed
  simp only [Nat.reducePow, Nat.mod_eq_of_lt nibble]
  split_ifs <;> omega

/-- The sign bit of a byte. -/
theorem testBit_seven {n : Nat} (byte : n < 256) : n.testBit 7 = decide (128 ≤ n) := by
  rw [Nat.testBit_eq_decide_div_mod_eq, decide_eq_decide]
  omega

/-- Byte `sel` of VPERM's choice from the eight bytes `t` (R267), as the model reads it. -/
theorem chosenByte_eq (t sel : Nat) :
    (if sel < 8 then field t (8 * (sel % 8)) 8 else if (field t (8 * (sel % 8)) 8).testBit 7 then 255 else 0) =
      if sel < 8 then t / 2 ^ (8 * (sel % 8)) % 256 else if 128 ≤ t / 2 ^ (8 * (sel % 8)) % 256 then 255 else 0 := by
  have reads : field t (8 * (sel % 8)) 8 = t / 2 ^ (8 * (sel % 8)) % 256 := field_eq_div_mod _ _ 8
  rw [reads, testBit_seven (Nat.mod_lt _ (by decide))]
  simp only [decide_eq_true_eq]

/-- A byte that VPERM chooses, from the eight bytes `t` of its sources by the selector `sel` (R267). -/
theorem permByte_eq {a b c : Word} {t sel k : Nat} (sources : a.toNat + b.toNat * 2 ^ 32 = t)
    (selector : c.toNat / 2 ^ (4 * k) % 16 = sel) (fx : Nat) :
    permByte fx a b c k = match fx with
      | 0 =>
        let byte := t / 2 ^ (8 * (sel % 8)) % 256
        if sel < 8 then byte else if 128 ≤ byte then 255 else 0
      | 1 => if 8 ≤ t / 2 ^ (4 * sel) % 16 then t / 2 ^ (4 * sel) % 16 + 240 else t / 2 ^ (4 * sel) % 16
      | _ => t / 2 ^ (4 * sel) % 16 := by
  have selects : field c.toNat (4 * k) 4 = sel := (field_eq_div_mod _ _ 4).trans selector
  have nibble : field t (4 * sel) 4 = t / 2 ^ (4 * sel) % 16 := field_eq_div_mod _ _ 4
  unfold permByte
  simp only [selects, sources]
  match fx with
  | 0 => exact chosenByte_eq t sel
  | 1 =>
    rw [nibble]
    exact signed_nibble (Nat.mod_lt _ (by decide))
  | _ + 2 => exact nibble

theorem permW_eq_permuted (fx : Nat) (a b c : Word) : permW fx a b c = permuted fx a b c := by
  unfold permW permuted
  rw [ofBytes_eq]
  exact congrArg ofBytes (funext fun k => permByte_eq rfl rfl fx)

/-- A byte of a word, read signed or unsigned (R268). -/
theorem byte_eq (sg : Bool) {n : Nat} (byte : n < 256) :
    (if sg then Machine.signed 8 n else (n : Int)) = if sg = true ∧ 128 ≤ n then (n : Int) - 256 else n := by
  cases sg with
  | false => simp
  | true =>
    unfold Machine.signed
    simp only [if_true, true_and, Nat.reducePow, Nat.mod_eq_of_lt byte]
    split_ifs <;> omega

theorem dot4W_eq_dotted {p : Parts} (assigned : p.fx ≤ 3) (a b c : Word) : p.dot4W a b c = dotted p a b c := by
  have readsA : decide (p.fx < 2) = (p.fx == 0 || p.fx == 1) := by
    rw [Bool.eq_iff_iff]
    simp
    omega
  have readsB : (p.fx % 2 == 0) = (p.fx == 0 || p.fx == 2) := by
    rw [Bool.eq_iff_iff]
    simp
    omega
  have reads (v : Word) (i : Nat) : field v.toNat (8 * i) 8 = v.toNat / 2 ^ (8 * i) % 256 := field_eq_div_mod _ _ 8
  unfold Parts.dot4W dotted
  simp only [reads, byte_eq _ (Nat.mod_lt _ (show 0 < 256 by decide)), readsA, readsB, ofNat_intoInt, apply_ite (BitVec.ofInt 32)]
  rfl

/-! ### Compares and tests (R266 to R270) -/

theorem does_vdot4 (f : RRR) : Does (.vdot4 f) noCheck fun x u =>
    writeEach x x.parts.d (fun l => dotted x.parts (x.vA l) (x.vB l) (x.vC l)) u := by
  intro s x u goes
  obtain ⟨ch, assigned⟩ := goes.sub (p := Parts.ofRRR f) rfl
  have assigned : x.parts.fx ≤ 3 := of_decide_eq_true assigned
  simp only [← dot4W_eq_dotted assigned]
  exact goes.exec_ok ((execVdot4.eq_1 f s).trans (vectorOp.eq_1 _ _ s)) rfl

/-- Settles O9, by the operation of each instruction on words or elements. -/
theorem comparesAndTests : Obligations.ComparesAndTests := by
  refine ⟨fun f => ⟨?_, does_of_vectorOp (execVperm f) (fun _ => rfl) (fun _ => rfl) fun _ _ => permW_eq_permuted ..,
    does_vdot4 f⟩, fun f => ⟨?_, ?_, ?_⟩⟩
  · simp only [markLanes, ← intCond_eq_holds]
    exact does_of_performPure (execVcmp f) (fun _ => rfl) fun _ => rfl
  · simp only [markLanes, ← cond_eq_floatHolds]
    exact does_of_performPure (execFcmp f) (fun _ => rfl) fun _ => rfl
  · simp only [← classBits_eq_classOfValue]
    exact does_of_performPure (execFclass f) (fun _ => rfl) fun _ => rfl
  · simp only [← signed_eq_toInt]
    exact does_of_performPure (execFscale f) (fun _ => rfl) fun _ => rfl

/-! ### Conversions (R272 to R275, R282) -/

theorem wide_iff (t : Nat) : wide t = true ↔ t = 7 ∨ t = 8 ∨ t = 9 := by
  unfold wide
  simp only [Bool.or_eq_true, beq_iff_eq, or_assoc]

theorem does_cvt (f : RRR) :
    Does (.cvt f) (fun x u => if x.parts.md.rmode = 4 then counterApart x u else none) (fun x u =>
      let done := if x.parts.td = 7 ∨ x.parts.td = 8 ∨ x.parts.td = 9
        then writeEachPair x x.parts.d (fun l => BitVec.ofNat 64 (converted x l)) u
        else writeEach x x.parts.d (fun l => BitVec.ofNat 32 (converted x l)) u
      if x.parts.md.rmode = 4 then countUp x done else done) := by
  unfold converted
  simp only [← wide_iff]
  refine does_of_performPure (execCvt f) (fun _ => rfl) fun s => ?_
  unfold execCvt
  simp only [beq_iff_eq]
  rfl

theorem does_cvtw (f : RRR) : Does (.cvtw f) noCheck fun x u => writeEach x x.parts.d (fun l =>
    BitVec.ofNat 32 (convert x.parts.ts x.parts.td x.parts.round x.parts.sat
      ((x.vA l).toNat / 2 ^ (typeWidth x.parts.ts * x.parts.fx) % 2 ^ typeWidth x.parts.ts))) u := by
  simp only [← field_eq_div_mod]
  exact does_of_vectorOp (execCvtw f) (fun _ => rfl) (fun _ => rfl) fun _ _ => rfl

theorem does_vrand (f : RRR) : Does (.vrand f) counterApart fun x u => countUp x (writeEach x x.parts.d (fun l =>
    if x.parts.fx = 0 then laneDraw x x.parts.a l
    else fp32Bits (.fin false ((laneDraw x x.parts.a l).toNat / 256) (-24))) u) := by
  have top (w : Word) : w.toNat / 256 = (w >>> 8).toNat := by
    rw [BitVec.toNat_ushiftRight, Nat.shiftRight_eq_div_pow]
  simp only [top]
  exact does_of_performPure (execVrand f) (fun _ => rfl) fun _ => rfl

/-- Settles O12, by the operation of each instruction on the elements of a lane. -/
theorem conversions : Obligations.Conversions := fun f =>
  ⟨does_cvt f, does_of_performPure (execCvtn f) (fun _ => rfl) (fun _ => rfl), does_cvtw f,
    does_of_performPure (execQnt f) (fun _ => rfl) (fun _ => rfl),
    does_of_vectorOp (execDqnt f) (fun _ => rfl) (fun _ => rfl) (fun _ _ => rfl), does_vrand f⟩

end Sys2Proof.Claims
end

section
/-! Direction instructions (R283 to R291): the model's norms and components, as the statements write them. -/

namespace Sys2Proof.Claims

open Sys2Proof Sys2Proof.Machine

/-! ### DSCAL (R289) -/

/-- DSCAL on a direction: both write the three special norms and the two limits of a norm (R189). -/
theorem scale_eq_rescaled (d : Dir) (t : Int) (neg : Bool) : d.scale t neg = rescaled d t neg := by
  have negated : (if neg then d.negate else d) = { d with comps := if neg then d.comps.map (fun c => -c) else d.comps } := by
    cases neg <;> rfl
  unfold Dir.scale rescaled
  simp only [negated, Bool.or_eq_true, decide_eq_true_eq, or_assoc]
  refine if_congr Iff.rfl rfl ?_
  by_cases low : d.norm.toInt + t ≤ -32767
  · rw [if_pos low, if_pos low, List.map_const']
    rfl
  · rw [if_neg low, if_neg low, l16Of, if_neg low]
    exact apply_ite (fun n => Dir.mk n _) _ _ _

/-- An instruction that writes a direction in each active group. -/
theorem does_of_dirInstr {i : Instr} {oc : Exe → State → Option Cause} {g h : Exe → Nat → Dir}
    (run : State → Host.Outcome State Fault Refusal) (runs : ∀ s, exec i s = run s) (each : ∀ s, run s = dirInstr i oc g s)
    (same : ∀ x k, g x k = h x k) : Does i oc (fun x u => dirsOf x (h x) u) := by
  obtain rfl : g = h := funext₂ same
  exact does_of_performPure run runs each

/-- Settles O15, by the cases of the source norm. -/
theorem scaleDirection : Obligations.ScaleDirection := fun f =>
  does_of_dirInstr (execDscal f) (fun _ => rfl) (fun _ => rfl) fun _ _ => scale_eq_rescaled ..

/-! ### Values of directions (R287, R288) -/

theorem dotOf_eq_dotValue (full : Bool) (a b : Dir) : dotOf full a b = dotValue full a b := by
  unfold dotOf dotValue
  simp only [Bool.or_eq_true, decide_eq_true_eq, Bool.not_eq_true']
  rfl

/-- An infinity is rounded without .SAT (R287). -/
theorem encodeDir_eq (x : Exe) (fm : FFmt) (v : FVal) : x.encodeDir fm v = encodeDirVal x.parts fm v := by
  cases v with
  | inf s => exact congrArg (fun sat => fm.encode x.parts.round sat (.inf s)) (Bool.and_false _)
  | nan => exact congrArg (fun sat => fm.encode x.parts.round sat .nan) (Bool.and_true _)
  | fin s m e => exact congrArg (fun sat => fm.encode x.parts.round sat (.fin s m e)) (Bool.and_true _)

theorem needsMod_eq_modRequired : needsMod = modRequired := by
  funext x _
  exact if_congr Option.isNone_iff_eq_none rfl rfl

/-- DDOT and DDOTF (R288). -/
theorem ddot_eq (x : Exe) (full : Bool) :
    x.ddot full = fun g => BitVec.ofNat 32 (encodeDirVal x.parts f32 (dotValue full (dirA x g) (dirB x g))) := by
  funext g
  rw [Exe.ddot, encodeDir_eq, dotOf_eq_dotValue]
  rfl

theorem does_ddot (f : RRR) : Does (.ddot f) noCheck (fun x u => writeGroups x (fun g => BitVec.ofNat 32
    (encodeDirVal x.parts f32 (dotValue false (dirA x g) (dirB x g)))) u) := by
  simp only [← ddot_eq]
  exact does_of_performPure (execDdot f) (fun _ => rfl) fun _ => rfl

theorem does_ddotf (f : RRR) : Does (.ddotf f) noCheck (fun x u => writeGroups x (fun g => BitVec.ofNat 32
    (encodeDirVal x.parts f32 (dotValue true (dirA x g) (dirB x g)))) u) := by
  simp only [← ddot_eq]
  exact does_of_performPure (execDdotf f) (fun _ => rfl) fun _ => rfl

theorem does_dexp (f : RRR) : Does (.dexp f) noCheck (fun x u => writeVector x x.parts.d
    (x.groups.flatMap fun g => (x.groupLanes g).map fun l =>
      let d := dirA x g
      let j := l - 32 * x.team.span * g
      let val (fm : FFmt) (i : Nat) : Nat := encodeDirVal x.parts fm (dirValue d.norm (d.comps.getD i 0))
      (l, BitVec.ofNat 32 (match x.parts.td with
        | 13 => val f16 (2 * j) + val f16 (2 * j + 1) * 65536
        | 14 => val bf16 (2 * j) + val bf16 (2 * j + 1) * 65536
        | _ => val f32 (2 * j + x.parts.fx)))) u) := by
  simp only [← encodeDir_eq]
  exact does_of_performPure (execDexp f) (fun _ => rfl) fun _ => rfl

/-- Settles O16, by the operation of each instruction on the active groups. -/
theorem directionResults : Obligations.DirectionResults := fun f ri =>
  ⟨does_of_dirInstr (execDcvt f) (fun _ => rfl) (fun _ => rfl) fun _ _ => rfl,
    does_of_dirInstr (execDneg f) (fun _ => rfl) (fun _ => rfl) fun _ _ => rfl,
    does_of_dirInstr (execDmov f) (fun _ => rfl) (fun _ => rfl) fun _ _ => rfl,
    does_of_dirInstr (execDzero f) (fun _ => rfl) (fun _ => rfl) fun _ _ => rfl,
    does_of_dirInstr (execDadd f) (fun _ => rfl) (fun _ => rfl) fun _ _ => rfl,
    does_of_dirInstr (execDsub f) (fun _ => rfl) (fun _ => rfl) fun _ _ => rfl,
    needsMod_eq_modRequired ▸ does_of_dirInstr (execDmix f) (fun _ => rfl) (fun _ => rfl) fun _ _ => rfl,
    does_ddot f, does_ddotf f, does_dexp f,
    does_of_performPure (execDnrd f) (fun _ => rfl) fun _ => rfl,
    does_of_performPure (execDnwr f) (fun _ => rfl) fun _ => rfl,
    does_of_performPure (execDspan ri) (fun _ => rfl) fun _ => rfl⟩

end Sys2Proof.Claims
end

section
/-! Winner lists (R293 to R298) and selection (R300 to R304): the model's rows and words, as the statements write them. -/

namespace Sys2Proof.Claims

open Sys2Proof Sys2Proof.Machine

/-! ### Winner lists (R296 to R298) -/

theorem insK_eq_mod (x : Exe) : x.insK = x.sC.toNat % 32 := rfl

theorem does_wlins (f : RRR) : Does (.wlins f) insCheck (fun x u => x.lanes.foldl (fun v l =>
    let r := (x.row v (wlOf x.parts.d) (x.insRow l)).open
    setRow x (wlOf x.parts.d) (x.insRow l)
      ((if r.entries = [] then { r with k := x.sC.toNat % 32 } else r).offer
        (Word.pair (x.vA l) (x.v x.parts.b l))).close v) u) := by
  simp only [← insK_eq_mod, ← List.isEmpty_iff]
  exact does_of_performPure (execWlins f) (fun _ => rfl) fun _ => rfl

/-- The value that WLRD reads: an entry, the empty entry beyond the count, or the status (R298). -/
theorem wlrd_eq (x : Exe) (u : State) (l : Nat) : x.wlrd u l =
    let r := x.row u (wlOf x.parts.a) ((x.vB l).toNat / 16 % 64)
    let n := (x.vB l).toNat % 16
    let e := if n < statCount r.stat then r.entry n else 0xFFFFFFFFFF800000
    if x.parts.fx = 0 then e.lo else if x.parts.fx = 1 then e.hi else r.stat := by
  have row (b : Nat) : field b 4 6 = b / 16 % 64 := field_eq_div_mod b 4 6
  unfold Exe.wlrd
  simp only [row]
  match x.parts.fx with
  | 0 => rfl
  | 1 => rfl
  | _ + 2 => rfl

/-- Settles O18, by the rows and entries that each instruction reads. -/
theorem winnerListResults : Obligations.WinnerListResults := by
  refine fun rs f => ⟨does_of_performPure (execWlalloc rs) (fun _ => rfl) fun _ => rfl,
    does_of_performPure (execWlfree rs) (fun _ => rfl) fun _ => rfl,
    does_of_performPure (execWlclr rs) (fun _ => rfl) fun _ => rfl, does_wlins f,
    does_of_performPure (execVtopk f) (fun _ => rfl) fun _ => rfl, ?_⟩
  simp only [← wlrd_eq]
  exact does_of_performPure (execWlrd f) (fun _ => rfl) fun _ => rfl

/-! ### SSECT (R300) -/

/-- The largest of some words, by their numbers. -/
theorem toNat_maxU (ws : List Word) : (maxU ws).toNat = (ws.map BitVec.toNat).foldl max 0 := by
  have step (a b : Word) : (if a.ult b then b else a).toNat = max a.toNat b.toNat := by
    rw [apply_ite BitVec.toNat, max_def_lt]
    exact if_congr BitVec.ult_iff_lt rfl rfl
  unfold maxU
  rw [List.foldl_map]
  exact (List.foldl_hom (f := BitVec.toNat) (init := (0 : Word)) (H := fun a b => (step a b).symm)).symm

/-- The values of some lanes at most the largest value of others. -/
theorem length_filter_not_ult (ls : List Nat) (f g : Nat → Word) :
    ((ls.map f).filter fun v => !(maxU (ls.map g)).ult v).length =
      (ls.filter fun k => decide ((f k).toNat ≤ (ls.map fun k => (g k).toNat).foldl max 0)).length := by
  have below (v : Word) : (!(maxU (ls.map g)).ult v) = decide (v.toNat ≤ (ls.map fun k => (g k).toNat).foldl max 0) := by
    rw [BitVec.ult, toNat_maxU, List.map_map, ← decide_not, decide_eq_decide, Nat.not_lt]
    rfl
  simp only [below]
  rw [List.filter_map, List.length_map]
  rfl

theorem ssect_eq_intersection (x : Exe) (l : Nat) : x.ssect l = intersection x l := by
  unfold Exe.ssect intersection
  simp only [length_filter_not_ult, tileLanes_eq_tileActive, beq_eq_decide]
  have place (hit : Option Nat) :
      (match hit with | some k => k % x.team.part | none => 0) = hit.elim 0 fun k => k % x.team.part := by
    cases hit <;> rfl
  rw [← place]
  rfl

/-! ### Selection -/

/-- Settles O19, by the words that each instruction gives its lanes. -/
theorem selectionResults : Obligations.SelectionResults := fun f =>
  ⟨does_of_vectorOp (execSsect f) (fun _ => rfl) (fun _ => rfl) ssect_eq_intersection,
    does_of_performPure (execPksi f) (fun _ => rfl) fun _ => rfl,
    does_of_vectorOp (execUnpksi f) (fun _ => rfl) (fun _ => rfl) fun _ _ => rfl,
    does_of_performPure (execGwnorm f) (fun _ => rfl) fun _ => rfl,
    needsMod_eq_modRequired ▸ does_of_performPure (execSmxacc f) (fun _ => rfl) fun _ => rfl,
    does_of_vectorOp (execSmxfin f) (fun _ => rfl) (fun _ => rfl) fun _ _ => rfl⟩

end Sys2Proof.Claims
end

section
/-! Crew barriers and the barrier tree (R326 to R328, R348): the instructions by the record that A names, and the rule of an
arrival on the record of a crew. -/

namespace Sys2Proof.Claims

open Sys2Proof Sys2Proof.Machine

/-! ### The instructions -/

/-- The barrier that A names is the model's (R327). -/
theorem barrierNo_eq : barrierNo = Exe.barNo := by
  funext x
  simp [barrierNo, Exe.barNo, base, BitVec.extractLsb'_toNat]

theorem abandoned_barrierRec (x : Exe) : (barrierRec x).abandoned = x.barGone := by
  rw [barrierRec, barrierNo_eq, Exe.barGone]

theorem arrived_eq (x : Exe) : arrived x = x.barHere := by
  rw [arrived, barrierRec, barrierNo_eq, Exe.barHere]

theorem arriveAt_eq (x : Exe) (u : State) : arriveAt x u = arrive x u := by
  rw [arriveAt, barrierNo_eq, arrive]

section
variable (f : RRS)

theorem doesMeet_bar : DoesMeet (.bar f) secondArrival (fun x u =>
    if (barrierRec x).abandoned then writeScalar x x.parts.d 1 u
    else arriveAt x (waitFrom x (.bar (barrierNo x) (statusReg? x)) u)) := by
  simp only [abandoned_barrierRec, arriveAt_eq, barrierNo_eq, ← arriveCheck_eq]
  exact doesMeet_of_performMeet fun _ => rfl

theorem doesMeet_bara : DoesMeet (.bara f) secondArrival (fun x u =>
    if (barrierRec x).abandoned then writeScalar x x.parts.d 1 u else writeScalar x x.parts.d 0 (arriveAt x u)) := by
  simp only [abandoned_barrierRec, arriveAt_eq, ← arriveCheck_eq]
  exact doesMeet_of_performMeet fun _ => rfl

theorem doesMeet_barw : DoesMeet (.barw f) noCheck (fun x u =>
    if (barrierRec x).abandoned then writeScalar x x.parts.d 1 u
    else if arrived x then waitFrom x (.bar (barrierNo x) (statusReg? x)) u
    else writeScalar x x.parts.d 0 (u.acquireBar x.crew x.team (barrierNo x))) := by
  simp only [abandoned_barrierRec, arrived_eq, barrierNo_eq]
  exact doesMeet_of_performMeet fun _ => rfl

end

/-! ### The rule of an arrival (R326) -/

/-- Every team of the crew has retired or arrived, by the bitmap of a round. -/
def everyArrived (c : Crew) (bitmap : BitVec 16) : Bool := c.teams.all fun t => t.2.retired || bitmap.getLsbD t.1

/-- The record of a round that is full: the phase inverts, and the count and the bitmap return to 0. -/
def roundDone (b : Bar) : Bar := { b with count := 0, bitmap := 0, phase := !b.phase }

/-- The record with one more arrival. -/
def withArrival (b : Bar) (team : Nat) : Bar := { b with count := b.count + 1, bitmap := b.bitmap ||| 1#16 <<< team }

/-- The barrier records of a crew. -/
def barsOf (s : State) (crew : Nat) : Option (Tbl Bar) := (s.crews.get? crew).map Crew.bars

section
variable (s : State) {crew : Nat}

@[simp] theorem bar_setBar (c : Crew) (k : Nat) (b : Bar) : (c.setBar k b).bar k = b := Tbl.read_write_same ..

theorem barsOf_updTeam (p : Party) (f : Team → Team) : barsOf (s.updTeam p f) crew = barsOf s crew := by
  have kept (u : State) (t : Team) : barsOf (u.setTeam p t) crew = barsOf u crew := by
    unfold State.setTeam
    split
    · rfl
    · exact Tbl.map_get?_upd Crew.bars (f := fun c => { c with teams := c.teams.upd p.team fun _ => t }) (fun _ _ => rfl) crew
  unfold State.updTeam
  split
  · rfl
  · exact kept ..

theorem barsOf_updCopies (p : Party) (f : Team → Team) : barsOf (s.updCopies p f) crew = barsOf s crew :=
  barsOf_updTeam s p f

theorem muster_invalidateAt (scope cl : Nat) (sel : Nat → Bool) : (s.invalidateAt scope cl sel).muster = s.muster := by
  unfold State.invalidateAt
  split
  · exact s.muster_invalidate cl sel
  · exact s.muster_renew cl sel

theorem barsOf_acquireBar (c : Crew) (t : Team) (k : Nat) : barsOf (s.acquireBar c t k) crew = barsOf s crew := by
  have muster : (s.acquireBar c t k).muster = s.muster := muster_invalidateAt ..
  rw [barsOf, State.crews_of_muster muster, barsOf]

/-- The record at barrier `k` after a completion: a round that is full is done. -/
theorem barsOf_barComplete {c : Crew} {k : Nat} (crewIs : s.crews.get? crew = some c) (counted : (c.bar k).count ≠ 0)
    (present : (c.bar k).abandoned = false) : barsOf (s.barComplete crew k) crew =
      some (if everyArrived c (c.bar k).bitmap then (c.setBar k (roundDone (c.bar k))).bars else c.bars) := by
  unfold State.barComplete
  rw [crewIs]
  dsimp only
  by_cases full : everyArrived c (c.bar k).bitmap = true
  · rw [if_neg (by simp [counted, present, show c.barFull k = true from full]), if_pos full]
    refine (foldl_keeps (fun u => barsOf u crew) fun u e => ?_).trans
      (congrArg (Option.map Crew.bars) (State.crew_updCrew_same _ crewIs))
    split
    · exact (barsOf_acquireBar ..).trans (barsOf_updCopies ..)
    · rfl
  · rw [if_pos (by simp [show c.barFull k = false from Bool.eq_false_iff.mpr full]), if_neg full, barsOf, crewIs]
    rfl

/-- An arrival (R326). -/
theorem bar_barArrive {c : Crew} {k : Nat} (crewIs : s.crews.get? crew = some c) (present : (c.bar k).abandoned = false)
    (team : Nat) : ∃ c', (s.barArrive crew team k).crews.get? crew = some c' ∧
      c'.bar k = if everyArrived c ((c.bar k).bitmap ||| 1#16 <<< team) then roundDone (c.bar k)
        else withArrival (c.bar k) team := by
  have arrives : (s.updCrew crew fun c => c.setBar k (withArrival (c.bar k) team)).crews.get? crew =
      some (c.setBar k (withArrival (c.bar k) team)) := State.crew_updCrew_same _ crewIs
  have completes := barsOf_barComplete _ (k := k) arrives (by simp [withArrival]) (by simp [withArrival, present])
  obtain ⟨c', crewIs', bars⟩ := Option.map_eq_some_iff.mp completes
  refine ⟨c', crewIs', ?_⟩
  rw [Crew.bar, bars, bar_setBar]
  by_cases full : everyArrived c ((c.bar k).bitmap ||| 1#16 <<< team) = true
  · rw [if_pos full, if_pos (show everyArrived (c.setBar k _) (withArrival (c.bar k) team).bitmap = true from full)]
    exact bar_setBar ..
  · rw [if_neg full, if_neg (show ¬everyArrived (c.setBar k _) (withArrival (c.bar k) team).bitmap = true from full)]
    exact bar_setBar ..

end

/-- Settles O28: the instructions act on the record that A names, and an arrival completes a round that it fills. -/
theorem barriers : Obligations.Barriers :=
  ⟨fun rs _ => ⟨doesMeet_bar rs, doesMeet_bara rs, doesMeet_barw rs, doesMeet_of_performMeet fun _ => rfl,
    doesMeet_of_performMeet fun _ => rfl⟩, fun s _ team _ _ crewIs present => bar_barArrive s crewIs present team⟩

end Sys2Proof.Claims
end

section
/-! The trap, debug and touchstone instructions (R350 to R356, R177): the items, registers and records that they read and write,
as the statements write them. -/

namespace Sys2Proof.Claims

open Sys2Proof Sys2Proof.Machine

/-! ### TRLD and TRST (R351, R352) -/

theorem item_eq_itemOf (x : Exe) : x.item = itemOf x := by
  unfold Exe.item itemOf
  rw [← ite_not]
  exact if_congr Nat.not_le rfl rfl

/-! ### Watchpoints (R353) -/

/-- The place of a watched address in its block of 64 bytes. -/
theorem va_mod_eq_wpSkew (x : Exe) : va (x.pair x.parts.a) % 64 = x.wpSkew := by
  rw [va_eq]
  exact Nat.mod_mod_of_dvd _ (by decide)

theorem does_wpset (f : RRR) : Does (.wpset f) wpsetCheck (fun x u => u.updTeam x.p fun t =>
    let old := t.wpReg (base x.parts.d)
    let start := (x.pair x.parts.a).toNat % 2 ^ 48
    let blocks := (start % 64 + (x.s x.parts.c).toNat + 63) / 64
    let r : DebugReg := if x.parts.fx = 0 then { old with val := old.val &&& ~~~1 }
      else { val := BitVec.ofNat 64 (start / 64 * 2 ^ 22 + (blocks - 1) * 2 ^ 10 + x.parts.fx * 2 ^ 7 + 1),
             mask := x.m x.parts.b }
    { t with wp := t.wp.write {} (base x.parts.d) r }) := by
  simp only [← va_eq, va_mod_eq_wpSkew]
  exact does_of_performPure (execWpset f) (fun _ => rfl) fun _ => rfl

/-! ### FINJ (R177, R354) -/

/-- One bit of a word, or of a half-word, by its place. -/
theorem ofNat_two_pow (w k : Nat) : BitVec.ofNat w (2 ^ k) = 1#w <<< k := by
  refine BitVec.eq_of_toNat_eq ?_
  rw [BitVec.toNat_shiftLeft, Nat.shiftLeft_eq, BitVec.toNat_ofNat, BitVec.toNat_ofNat, Nat.mod_mul_mod, Nat.one_mul]

theorem does_finj (f : RRR) : Does (.finj f) finjCheck (fun x u => u.updTeam x.p (injected x)) := by
  unfold injected
  simp only [BitVec.setWidth_ofNat_of_le (show 16 ≤ 32 by decide)]
  simp only [ofNat_two_pow]
  exact does_of_performPure (execFinj f) (fun _ => rfl) fun _ => rfl

/-! ### TBRD, TSBEGIN and TSEND (R176, R355, R356) -/

theorem does_tbrd (f : RRR) : Does (.tbrd f) noCheck (fun x u => storePair x
    (if x.parts.fx = 0 then x.now
      else ((x.team.engines.find? fun e => !e.done && e.quad == x.regNum .s x.parts.a).map (·.promise)).getD 0) u) := by
  have promise (o : Option EngRec) : (o.map (·.promise)).getD 0 = o.elim 0 (·.promise) := by cases o <;> rfl
  simp only [promise]
  exact does_of_performPure (execTbrd f) (fun _ => rfl) fun _ => rfl

/-- Settles O30, by the effect of each instruction. -/
theorem systemResults : Obligations.SystemResults := fun z f rs =>
  ⟨does_of_performPure (execTrap rs) (fun _ => rfl) fun _ => rfl,
    does_of_performPure (execTret z) (fun _ => rfl) fun _ => rfl,
    does_of_performPure (execSnap z) (fun _ => rfl) fun _ => rfl,
    by
      simp only [← item_eq_itemOf]
      exact does_of_performPure (execTrld f) (fun _ => rfl) fun _ => rfl,
    by
      simp only [← item_eq_itemOf]
      exact does_of_performPure (execTrst f) (fun _ => rfl) fun _ => rfl,
    does_of_performPure (execBpset f) (fun _ => rfl) fun _ => rfl, does_wpset f,
    does_of_performPure (execStep rs) (fun _ => rfl) fun _ => rfl, does_finj f, does_tbrd f,
    does_of_performPure (execTsbegin z) (fun _ => rfl) fun _ => rfl, doesMeet_of_performMeet fun _ => rfl⟩

end Sys2Proof.Claims
end

section
/-! REPACK, the chaser and the queries (R332, R333, R343, R346, R347): the effects as the statements write them, and that a stop
reaches a running chaser. -/

namespace Sys2Proof.Machine

open Sys2Proof

/-! ### What a chaser that comes to rest leaves there (R91, R114) -/

section
variable (s : State) (p q : Party)

theorem State.muster_spread (sel : Replica → Bool) : (s.spread sel).muster = s.muster :=
  foldl_keeps State.muster fun _ _ => foldl_keeps State.muster fun _ _ => rfl

theorem State.muster_performStore (cl : Nat) (st : PendingStore) : (s.performStore cl st).muster = s.muster := by
  have cleaned : (st.cached.foldl (fun u a => u.cleanLine cl (a / 128) (· == a)) s).muster = s.muster :=
    foldl_keeps State.muster fun _ _ => State.muster_cleanLine ..
  unfold State.performStore
  split
  · exact cleaned
  · exact (State.muster_spread ..).trans cleaned

/-- Whether a party has a team. -/
def State.present : Bool := (s.team? q).isSome

/-- A change of a team leaves every team there. -/
theorem State.present_updTeam (f : Team → Team) : (s.updTeam p f).present q = s.present q := by
  have kept := congrArg Option.isSome (map_team?_updTeam (fun _ => ()) (f := f) (fun _ => rfl) s p q)
  simpa only [State.present, Option.isSome_map] using kept

theorem State.present_drainLoads : (s.drainLoads p).present q = s.present q := by
  have kept := congrArg Option.isSome
    (State.map_team?_drainLoads (fun _ => ()) (fun _ _ _ => rfl) (fun _ _ _ => rfl) s p q)
  simpa only [State.present, Option.isSome_map] using kept

theorem State.present_drainStores : (s.drainStores p).present q = s.present q := by
  unfold State.drainStores
  split
  · rfl
  · refine (State.present_updTeam ..).trans (congrArg Option.isSome (team?_of_muster ?_ q))
    exact foldl_keeps State.muster fun _ _ => State.muster_performStore ..

theorem State.present_settleParty : (s.settleParty p).present q = s.present q :=
  (State.present_drainStores ..).trans (State.present_drainLoads ..)

theorem State.present_dropClause : (s.dropClause p).present q = s.present q := by
  unfold State.dropClause
  split
  · rfl
  · next t there =>
    have set := s.present_updTeam p q fun t => t.setThread p.kind { t.thread p.kind with issue := none, latches := [] }
    rw [updTeam_of_some _ there] at set
    dsimp only
    split <;> exact set

theorem State.present_parkClause : (s.parkClause p).present q = s.present q :=
  (State.present_dropClause ..).trans (State.present_updTeam ..)

theorem State.present_restChaser : (s.restChaser p).present q = s.present q := by
  unfold State.restChaser
  split
  · rfl
  · split
    · exact s.present_settleParty p q
    · have parked := (State.present_parkClause (s.settleParty p) p q).trans (s.present_settleParty p q)
      dsimp only
      split <;> exact (State.present_updTeam ..).trans parked

end

end Sys2Proof.Machine

namespace Sys2Proof.Claims

open Sys2Proof Sys2Proof.Machine

/-! ### REPACK and CHSTOP (R346, R347) -/

/-- REPACK with no epilogue to registers in the team's engine (R346). -/
theorem exec_repack {z : FZ} {s u : State} {x : Exe} (goes : Goes (.repack z) repackCheck s x u)
    (idle : ((u.core x.crew.core).cupel.any fun o => o.crew == x.p.crew && o.team == x.p.team &&
      (match o.kind with | .epiReg _ _ => true | _ => false)) = false) :
    exec (.repack z) s = .next (advance x (((u.drainLoads x.p).moveLanePoison x.p x.order).updTeam x.p fun t =>
      t.repack x.order x.cl.path (min 32 x.launch.vregs))) :=
  goes.exec_ok (execRepack.eq_1 z s) (if_neg (Bool.eq_false_iff.mp idle))

/-- A stop reaches a running chaser (R347). -/
theorem stopChaser_stops {s : State} {p : Party} {t : Team} (there : s.team? { p with kind := .chaser } = some t)
    (running : t.chaser.run = .running) :
    ∃ t', (s.stopChaser p).team? { p with kind := .chaser } = some t' ∧ t'.chaser.run = .stopped := by
  have rests := s.present_restChaser { p with kind := .chaser } { p with kind := .chaser }
  rw [State.present, State.present, there] at rests
  obtain ⟨t', rested⟩ := Option.isSome_iff_exists.mp rests
  rw [State.stopChaser]
  dsimp only
  rw [there]
  dsimp only
  rw [if_neg (not_not_intro running)]
  exact ⟨_, team?_updTeam _ rested, rfl⟩

/-! ### CSTAT (R333) -/

/-- What CSTAT reads (R333). -/
theorem cstat_eq (x : Exe) (u : State) :
    (match x.parts.s with
      | 0 => BitVec.ofNat 32 (x.team.outstanding false)
      | 1 => if (u.core x.crew.core).tileOwner = some (x.p.crew, x.p.team) || (x.crew.tile.any fun t => t.1 == x.p.team)
          then 1 else 0
      | _ => BitVec.ofNat 32 (x.team.outstanding true)) =
    (if x.parts.s = 0 then BitVec.ofNat 32 (x.team.outstanding false)
      else if x.parts.s = 1 then
        (if (u.core x.crew.core).tileOwner = some (x.p.crew, x.p.team) ∨ x.crew.tile.map (·.1) = some x.p.team then 1 else 0)
      else BitVec.ofNat 32 (x.team.outstanding true)) := by
  have holds : (x.crew.tile.any fun t => t.1 == x.p.team) = true ↔ x.crew.tile.map (·.1) = some x.p.team := by
    cases x.crew.tile <;> simp
  match x.parts.s with
  | 0 => rfl
  | 1 =>
    rw [if_neg one_ne_zero, if_pos rfl]
    exact if_congr (by rw [Bool.or_eq_true, decide_eq_true_eq, holds]) rfl rfl
  | _ + 2 => rfl

theorem does_cstat (f : RRS) : Does (.cstat f) noCheck (fun x u => writeScalar x x.parts.d
    (if x.parts.s = 0 then BitVec.ofNat 32 (x.team.outstanding false)
      else if x.parts.s = 1 then
        (if (u.core x.crew.core).tileOwner = some (x.p.crew, x.p.team) ∨ x.crew.tile.map (·.1) = some x.p.team then 1 else 0)
      else BitVec.ofNat 32 (x.team.outstanding true)) u) := by
  simp only [← cstat_eq]
  exact does_of_performPure (execCstat f) (fun _ => rfl) fun _ => rfl

/-- Settles O31, by the effect of each instruction. -/
theorem chaserAndQueries : Obligations.ChaserAndQueries :=
  ⟨fun z f => ⟨fun _ _ _ => exec_repack, does_of_performPure (execChgo f) (fun _ => rfl) fun _ => rfl,
      does_of_performPure (execChstop z) (fun _ => rfl) fun _ => rfl, fun _ _ _ => stopChaser_stops⟩,
    fun rs => ⟨does_of_performPure (execQcfg rs) (fun _ => rfl) fun _ => rfl,
      does_of_performPure (execQstat rs) (fun _ => rfl) fun _ => rfl, does_cstat rs⟩⟩

end Sys2Proof.Claims
end

section
/-! Copies and records (R331, R334 to R337, R344, R345): with room, XCOPY and XRED are accepted with their promises, SPAWN appends
its records or waits for room, and NODEFL flushes its node. -/

namespace Sys2Proof.Machine

open Sys2Proof

/-- A meeting point whose body succeeds completes, with what its result is known to be. -/
theorem GoesMeet.exec_ok_with {i : Instr} {oc : Exe → State → Option Cause} {body : Exe → State → Res State} {s u : State}
    {x : Exe} {fin : State → State} {stop : Trap → State → State} {P : State → Prop}
    (run : exec i s = performMeet i oc body s) (goes : Claims.GoesMeet i oc s x u fin stop)
    (ok : ∃ v, body x u = .ok v ∧ P v) : ∃ v, exec i s = .next (fin v) ∧ P v := by
  obtain ⟨v, ok, holds⟩ := ok
  exact ⟨v, goes.exec_ok run ok, holds⟩

end Sys2Proof.Machine

namespace Sys2Proof.Claims

open Sys2Proof Sys2Proof.Machine

section
variable {f : RRR} {s u : State} {x : Exe} {fin : State → State} {stop : Trap → State → State}

/-! ### XCOPY and XRED (R331, R334 to R337) -/

/-- The upper half of a word. -/
theorem field_upper (w : Word) : field w.toNat 16 16 = w.toNat / 65536 := by
  rw [field_eq_div_mod]
  exact Nat.mod_eq_of_lt (Nat.div_lt_of_lt_mul w.isLt)

theorem copyMask_eq (x : Exe) : x.copyMask = x.sB.toNat % 65536 := rfl

/-- A mask of one team has one member. -/
theorem members_of_one : ∀ t < 16, ((List.range 16).filter (2 ^ t).testBit).length = 1 := by decide

/-- The team of a mask of 16 bits that names it alone. -/
theorem lt_of_mask {n t : Nat} (alone : n % 65536 = 2 ^ t) : t < 16 :=
  (Nat.pow_lt_pow_iff_right (by decide : 1 < 2)).mp (alone ▸ Nat.mod_lt n (by decide))

/-- XCOPY is accepted; that of one team as its block says (R331, R335). -/
theorem xcopy_accepted (goes : GoesMeet (.xcopy f) xcopyCheck s x u fin stop) (ends : x.copyEnds u (copySlice x u) = none)
    (room : EngineRoom x u 3 (((copySlice x u).len + 255) / 256)) : ∃ v, exec (.xcopy f) s = .next (fin v) ∧
      (x.copyMask = 2 ^ x.p.team → v = copyIssued x (copySlice x u) none u) := by
  refine GoesMeet.exec_ok_with (execXcopy.eq_1 f s) goes ?_
  have fits : x.storesFull u (units (blockWord (x.block 6) 4)) = false := room.storesFit
  unfold copyIssued
  unfold copySlice at ends ⊢
  simp only [State.takeOp, blockWord, field_upper, ← copyMask_eq, blockOf_eq_block] at ends fits ⊢
  rw [ends]
  dsimp only
  rw [room.notFull, fits]
  by_cases solo : x.copyMask = 2 ^ x.p.team
  · refine ⟨_, (if_neg Bool.false_ne_true).trans (if_pos solo), fun _ => ?_⟩
    rw [if_pos solo, solo, members_of_one x.p.team (lt_of_mask solo), Nat.mul_one]
    rfl
  · exact ⟨_, (if_neg Bool.false_ne_true).trans (if_neg solo), fun alone => absurd alone solo⟩

/-- XRED is accepted (R336, R337). -/
theorem xred_accepted (goes : GoesMeet (.xred f) xredCheck s x u fin stop)
    (reaches : (reduceSlice x u).sp = false ∨ u.planeFault x.crew x.launch.scratch (reduceSlice x u).src.lo.toNat
      (reduceSlice x u).len = none)
    (room : EngineRoom x u 3 (((reduceSlice x u).len + 255) / 256)) :
    exec (.xred f) s = .next (fin (copyIssued x (reduceSlice x u)
      (some (BitVec.ofNat 3 x.parts.fx, BitVec.ofNat 5 x.parts.td, x.sB == 1, x.sAt x.parts.a 5)) u)) := by
  refine goes.exec_ok (execXred.eq_1 f s) ?_
  have fits : x.storesFull u (units (blockWord (x.block 7) 4)) = false := room.storesFit
  unfold copyIssued
  unfold reduceSlice at reaches ⊢
  simp only [State.takeOp, blockWord, field_upper, blockOf_eq_block] at reaches fits ⊢
  have ends : (if ((x.block 7).getD 6 0).getLsbD 0 then u.planeFault x.crew x.launch.scratch
      (Word.pair ((x.block 7).getD 0 0) ((x.block 7).getD 1 0)).lo.toNat ((x.block 7).getD 4 0).toNat else none) = none := by
    obtain memory | plane := reaches
    · rw [if_neg (Bool.eq_false_iff.mp memory)]
    · rw [plane, ite_self]
  rw [ends]
  dsimp only
  rw [room.notFull, fits]
  rfl

/-! ### SPAWN and NODEFL (R344, R345) -/

/-- SPAWN with registers and store counts that hold its records (R344). -/
theorem exec_spawn {k : Nat} {n : Node} (goes : GoesMeet (.spawn f) nodeCheck s x u fin stop) (names : x.node u = some k)
    (node : u.nodes.get? k = some n) (allotted : x.regNum .v x.parts.b + (n.recSize + 3) / 4 ≤ x.launch.vregs)
    (fits : x.storesFull u x.lanes.length = false) :
    let u1 := (u.settleTeam x.p).writeBack x.team.cluster (inSpans (x.ringPieces u n))
    let y := u1.refresh x
    let rs := y.lanes.map (y.record n.recSize)
    let u2 := u1.addStores (ownCore x) x.crew.launch rs.length
    exec (.spawn f) s = .next (fin (if rs.length ≤ n.room then (u2.append k (ownCore x) x.crew.launch rs).serveSpawns k
      else waitFrom x (.spawn k) (u2.updNode k fun n =>
        { n with backlog := n.backlog ++ [⟨x.p.crew, x.p.team, ownCore x, x.crew.launch, rs⟩] }))) := by
  refine goes.exec_ok (execSpawn.eq_1 f s) ?_
  dsimp only
  rw [names]
  dsimp only
  rw [node]
  dsimp only
  rw [if_neg (Nat.not_lt.mpr allotted), fits]
  rfl

/-- NODEFL of a party that is no trailing copy (R345). -/
theorem exec_nodefl {k : Nat} (goes : Goes (.nodefl f) nodeCheck s x u) (names : x.node u = some k)
    (leads : x.p.kind ≠ .trail) : exec (.nodefl f) s = .next (advance x ((u.flushNode k).serveSpawns k)) := by
  refine goes.exec_ok ((execNodefl.eq_1 f s).trans (performPure.eq_1 ..)) ?_
  rw [names]
  exact congrArg Except.ok (if_neg leads)

end

/-- Settles O33, by the acceptance of each operation for which there is room. -/
theorem copyAndSpawn : Obligations.CopyAndSpawn := by
  refine ⟨fun f s x u fin stop => ⟨fun goes ends room => ?_, xred_accepted⟩, fun _ _ _ _ _ _ _ _ => exec_spawn,
    fun _ _ _ _ _ => exec_nodefl⟩
  obtain ⟨v, done, alone⟩ := xcopy_accepted goes ends room
  exact ⟨fun solo => alone solo ▸ done, v, done⟩

end Sys2Proof.Claims
end

section
/-! Splits and joins (R81, R241): what a split with room leaves of the paths and the records, and a JOIN at its record. -/

namespace Sys2Proof.Machine

open Sys2Proof

/-! ### Paths and records -/

/-- With fewer records than identifiers, one that no record has is free. -/
theorem Team.freeJoinId_unused {t : Team} (few : t.joins.length < 2048) : ∀ r ∈ t.joins, r.id ≠ t.freeJoinId := by
  obtain ⟨free, mem, unused⟩ : ∃ id ∈ (List.range 2048).map fun k => (t.nextJoin + k) % 2048, id ∉ t.joins.map (·.id) := by
    by_contra none
    push Not at none
    have distinct : ((List.range 2048).map fun k => (t.nextJoin + k) % 2048).Nodup :=
      List.nodup_range.map_on fun i hi j hj same => by simp only [List.mem_range] at hi hj; omega
    have bound := (distinct.subperm none).length_le
    simp only [List.length_map, List.length_range] at bound
    omega
  have found := List.find?_isSome (p := fun id => !t.joins.any fun j => j.id == id).mpr ⟨free, mem, by simpa using unused⟩
  obtain ⟨id, eq⟩ := Option.isSome_iff_exists.mp found
  have unusedId := List.find?_some eq
  rw [Team.freeJoinId, eq]
  intro r mem same
  simp only [Bool.not_eq_true', List.any_eq_false, beq_iff_eq] at unusedId
  exact unusedId r mem same

theorem Team.pathRoom_of_room {t : Team} (w : Word) (room : t.tablePaths.length < 8) : t.pathRoom w = t := if_pos room

theorem Team.joinRoom_of_room {t : Team} (keep : Option Nat) (room : (t.joins.filter fun r => !r.folded).length < 8) :
    t.joinRoom keep = t := if_pos room

theorem Team.fetchJoin_of_unfolded {t : Team} {r : JoinRec} (record : (t.joins.find? fun k => k.id == r.id) = some r)
    (unfolded : r.folded = false) : t.fetchJoin r.id = t := by
  rw [Team.fetchJoin, record]
  exact if_neg (by simp [unfolded])

/-- The record of an identifier after it is changed. -/
theorem find?_updJoin {t : Team} {id : Nat} {r : JoinRec} {f : JoinRec → JoinRec} (keeps : ∀ k, (f k).id = k.id)
    (record : (t.joins.find? fun k => k.id == id) = some r) : ((t.updJoin id f).joins.find? fun k => k.id == id) = some (f r) := by
  have named : r.id = id := by simpa using List.find?_some record
  have same : ((fun k : JoinRec => k.id == id) ∘ fun k => if k.id = id then f k else k) = fun k => k.id == id := by
    funext k
    by_cases h : k.id = id <;> simp [h, keeps]
  rw [Team.updJoin, List.find?_map, same, record, Option.map_some, if_pos named]

/-! ### A split (R81) -/

section
variable {t : Team} {p : Path} {j target : DWord} {taken : Mask}

/-- A split for which the table has room. -/
theorem Team.split_of_room (path : t.path? p.creation = some p) (paths : t.tablePaths.length < 8)
    (records : (t.joins.filter fun r => !r.folded).length < 8) : t.split p.creation j target taken =
    { t.updPath p.creation fun q => { q with mask := p.mask &&& ~~~taken, join := some t.freeJoinId, age := 0 } with
      joins := t.joins ++ [{ id := t.freeJoinId, j := j, pending := 2, mask := p.mask, outer := p.join }],
      nextJoin := (t.freeJoinId + 1) % 2048,
      paths := (t.updPath p.creation fun q =>
          { q with mask := p.mask &&& ~~~taken, join := some t.freeJoinId, age := 0 }).paths ++
        [{ pc := target, mask := taken, creation := t.nextCreation, join := some t.freeJoinId, handler := p.handler }],
      nextCreation := t.nextCreation + 1 } := by
  rw [Team.split, path]
  dsimp only
  rw [Team.pathRoom_of_room _ paths, Team.joinRoom_of_room _ records]
  rfl

theorem path?_split (path : t.path? p.creation = some p) (paths : t.tablePaths.length < 8)
    (records : (t.joins.filter fun r => !r.folded).length < 8) : (t.split p.creation j target taken).path? p.creation =
    some { p with mask := p.mask &&& ~~~taken, join := some t.freeJoinId, age := 0 } := by
  have kept := path?_updPath (f := fun q => { q with mask := p.mask &&& ~~~taken, join := some t.freeJoinId, age := 0 })
    (fun _ => rfl) path
  rw [Team.split_of_room path paths records, Team.path?, List.find?_append]
  exact Option.or_eq_some_iff.mpr (.inl kept)

theorem mem_split_of_other {q : Path} (path : t.path? p.creation = some p) (paths : t.tablePaths.length < 8)
    (records : (t.joins.filter fun r => !r.folded).length < 8) (mem : q ∈ t.paths) (other : q.creation ≠ p.creation) :
    q ∈ (t.split p.creation j target taken).paths := by
  rw [Team.split_of_room path paths records]
  exact List.mem_append_left _ (mem_updPath_other _ mem other)

end

/-! ### A JOIN (R241) -/

section
variable {t : Team} {p : Path} {r : JoinRec} {a : DWord}

theorem Team.join_of_no_record (path : t.path? p.creation = some p) (none : p.join = none) : t.join p.creation a = t := by
  rw [Team.join, path]
  dsimp only
  rw [none]

theorem Team.join_elsewhere (path : t.path? p.creation = some p) (names : p.join = some r.id)
    (record : (t.joins.find? fun k => k.id == r.id) = some r) (away : r.j ≠ a) : t.join p.creation a = t := by
  rw [Team.join, path]
  dsimp only
  rw [names]
  dsimp only
  rw [record]
  exact if_pos away

/-- An arrival at its record that others have still to follow: the path ends there. -/
theorem Team.join_of_pending (path : t.path? p.creation = some p) (names : p.join = some r.id)
    (record : (t.joins.find? fun k => k.id == r.id) = some r) (unfolded : r.folded = false) (more : 1 < r.pending) :
    t.join p.creation r.j = { t.updJoin r.id fun k => { k with pending := k.pending - 1 } with
      paths := t.paths.filter fun q => q.creation != p.creation } := by
  rw [Team.join, path]
  dsimp only
  rw [names]
  dsimp only
  rw [record]
  dsimp only
  rw [if_neg (not_not.mpr rfl), if_pos more, Team.fetchJoin_of_unfolded record unfolded]

/-- The last arrival at its record: the path goes on for the lanes that the record keeps. -/
theorem Team.join_of_last (path : t.path? p.creation = some p) (names : p.join = some r.id)
    (record : (t.joins.find? fun k => k.id == r.id) = some r) (unfolded : r.folded = false) (last : r.pending ≤ 1) :
    t.join p.creation r.j =
      { t.updPath p.creation fun q => { q with mask := r.mask &&& ~~~t.exited, join := r.outer, age := 0 } with
        joins := t.joins.filter fun k => k.id != r.id } := by
  rw [Team.join, path]
  dsimp only
  rw [names]
  dsimp only
  rw [record]
  dsimp only
  rw [if_neg (not_not.mpr rfl), if_neg (Nat.not_lt.mpr last), Team.fetchJoin_of_unfolded record unfolded]

end

end Sys2Proof.Machine

namespace Sys2Proof.Claims

open Sys2Proof Sys2Proof.Machine

/-- Settles O5: a split by what it makes of a table with room, and a JOIN by whether its record waits for others. -/
theorem splitAndJoin : Obligations.SplitAndJoin := by
  refine ⟨fun t p j target taken path paths records few => ⟨t.freeJoinId, Team.freeJoinId_unused few,
      path?_split path paths records, ?_, ?_, ?_, fun q => mem_split_of_other path paths records⟩,
    fun t p a => Team.join_of_no_record,
    fun t p r a path names record unfolded => ⟨Team.join_elsewhere path names record, ?_, ?_⟩⟩
  · rw [Team.split_of_room path paths records, List.getLast?_concat]
  · rw [Team.split_of_room path paths records]
  · rw [Team.split_of_room path paths records]
  · rintro rfl more
    rw [Team.join_of_pending path names record unfolded more]
    exact ⟨by simp [Team.path?], find?_updJoin (t := t) (fun _ => rfl) record⟩
  · rintro rfl last
    rw [Team.join_of_last path names record unfolded last]
    exact ⟨path?_updPath (fun _ => rfl) path, by simp⟩

end Sys2Proof.Claims
end

section
/-! Traps that stop (R130, R158, R167): a team that takes a translation trap in its handler halts, and its die has first come
to see memory as it is. -/

namespace Sys2Proof.Claims

open Sys2Proof Sys2Proof.Machine

/-- A team of one lane in its handler, on die 0, which still sees what byte 0 held before its last write (R123, log 37). -/
def handlerOnLaggingDie : State :=
  { State.reset with
    crews := [(1, { ctx := 1, launch := 1, lin := 0, teams := [(0, { handler := true, paths := [{ pc := 0, mask := 1 }] })] })],
    views := [(0, [(0, 1)])] }

set_option maxRecDepth 20000 in
/-- A translation trap lets the die see memory as it is (R130). -/
theorem views_takeTrap_of_handlerOnLaggingDie :
    (takeTrap ⟨1, 0, .team⟩ 0 { cause := .notMapped } handlerOnLaggingDie).views = [] := rfl

set_option maxRecDepth 20000 in
/-- A halt leaves the view of the die as it was. -/
theorem views_haltFor_of_handlerOnLaggingDie :
    ((handlerOnLaggingDie.trigger (.trap 1)).haltFor .doubleTrap ⟨1, 0, .team⟩).views = [(0, [(0, 1)])] := rfl

/-- Refutes O43: in the handler a translation trap first lets the die see memory as it is, which the halt of the statement
leaves out. The trap is NOT_MAPPED, on a die that still sees an older byte. -/
theorem not_trapsThatStop : ¬ Obligations.TrapsThatStop := by
  rintro ⟨halts, -⟩
  have same := (halts handlerOnLaggingDie ⟨1, 0, .team⟩ 0 { cause := .notMapped } _ _ _ rfl rfl rfl rfl).1 rfl
  have views := congrArg State.views same
  rw [views_takeTrap_of_handlerOnLaggingDie, views_haltFor_of_handlerOnLaggingDie] at views
  exact List.cons_ne_nil _ _ views.symm

end Sys2Proof.Claims
end

section
/-! Frames of the scalar and vector integer instructions (R75, R78, R225, R237, R263): an instruction that is not the last of its
clause is one change of its thread, or of its team. -/

namespace Sys2Proof.Machine

open Sys2Proof

/-! ### Two changes at one place are one -/

theorem Tbl.put_put {α : Type} (t : Tbl α) (k : Nat) (v w : α) : (t.put k v).put k w = t.put k w := by
  induction t with
  | nil => simp [Tbl.put]
  | cons e t ih =>
    obtain ⟨j, u⟩ := e
    rcases Nat.lt_trichotomy k j with less | rfl | more
    · simp [Tbl.put, less]
    · simp [Tbl.put]
    · simp [Tbl.put, Nat.lt_asymm more, Nat.ne_of_gt more, ih]

theorem Tbl.upd_upd {α : Type} (t : Tbl α) (k : Nat) (f g : α → α) : (t.upd k f).upd k g = t.upd k fun v => g (f v) := by
  cases there : t.get? k with
  | none => simp only [Tbl.upd, there]
  | some v => simp only [Tbl.upd, there, Tbl.get?_put_same, Tbl.put_put]

theorem setTeam_setTeam (s : State) (p : Party) (t u : Team) : (s.setTeam p t).setTeam p u = s.setTeam p u := by
  unfold State.setTeam
  cases p.kind <;> simp only [State.updCrew, Tbl.upd_upd]

theorem updTeam_updTeam (s : State) (p : Party) (f g : Team → Team) :
    (s.updTeam p f).updTeam p g = s.updTeam p fun t => g (f t) := by
  cases there : s.team? p with
  | none => rw [updTeam_of_none f there, updTeam_of_none g there, updTeam_of_none _ there]
  | some t =>
    rw [updTeam_of_some f there, updTeam_of_some _ (team?_setTeam _ there), setTeam_setTeam, updTeam_of_some _ there]

theorem setThread_setThread (t : Team) (k : PartyKind) (a b : Thread) : (t.setThread k a).setThread k b = t.setThread k b := by
  cases k <;> rfl

theorem updThread_updThread (s : State) (p : Party) (f g : Thread → Thread) :
    (s.updThread p f).updThread p g = s.updThread p fun th => g (f th) := by
  simp only [State.updThread, updTeam_updTeam, setThread_thread, setThread_setThread]

/-- The errors that a state records do not enter a change of a team. -/
theorem updTeam_withPoison (s : State) (ps : List Poison) (p : Party) (f : Team → Team) :
    ({ s with poison := ps } : State).updTeam p f = { s.updTeam p f with poison := ps } := by
  cases there : s.team? p with
  | none => rw [updTeam_of_none f there, updTeam_of_none f (s := { s with poison := ps }) there]
  | some t =>
    rw [updTeam_of_some f there, updTeam_of_some f (s := { s with poison := ps }) there]
    unfold State.setTeam
    split <;> rfl

/-! ### The next position (R167, R225) -/

theorem Exe.cleansed_subset (x : Exe) (s : State) : (x.cleansed s).poison ⊆ s.poison := by
  unfold Exe.cleansed
  split
  · exact List.Subset.refl _
  · exact List.Subset.refl _
  · split
    · exact List.Subset.refl _
    · exact List.filter_subset_self _

/-- The clause in progress at its next position. -/
def Exe.toNext (x : Exe) (c : Clause) : Clause :=
  { c with pos := x.cl.pos + x.parts.words, hold := none, meet := none, moved := 0, taken := [] }

/-- An instruction that is not the last of its clause moves to the next position, and what it wrote afresh loses its errors. -/
theorem advance_eq_updClause {x : Exe} {s : State} {m : Team} (team : s.team? x.p = some m)
    (issue : (m.thread x.p.kind).issue = some x.cl) (unpaired : x.team.role = .off) (notLast : Claims.NotLast x) :
    ∃ ps ⊆ s.poison, advance x s = { s.updClause x.p x.toNext with poison := ps } := by
  obtain ⟨ps, fewer, clean⟩ : ∃ ps ⊆ s.poison, (if s.poison.isEmpty then s else x.cleansed s) = { s with poison := ps } := by
    split
    · exact ⟨s.poison, List.Subset.refl _, rfl⟩
    · obtain ⟨ps, clean⟩ := x.cleansed_eq s
      exact ⟨ps, by simpa only [clean] using x.cleansed_subset s, clean⟩
  refine ⟨ps, fewer, Eq.trans ?_ (updTeam_withPoison ..)⟩
  have uncounted (w : State) : w.countRetired x.p x.team = w := by simp [State.countRetired, unpaired]
  have there : ({ s with poison := ps } : State).team? x.p = some m := team
  unfold advance
  dsimp only
  rw [clean, uncounted, there]
  dsimp only
  rw [issue]
  exact if_neg (Nat.not_lt.mpr notLast)

theorem advance_updThread {x : Exe} {s : State} {m : Team} {g : Thread → Thread} (team : s.team? x.p = some m)
    (issue : (m.thread x.p.kind).issue = some x.cl) (unpaired : x.team.role = .off) (notLast : Claims.NotLast x)
    (keeps : ∀ th, (g th).issue = th.issue) : ∃ ps ⊆ s.poison, advance x (s.updThread x.p g) =
      { s.updThread x.p (fun th => { g th with issue := th.issue.map x.toNext }) with poison := ps } := by
  obtain ⟨ps, fewer, after⟩ := advance_eq_updClause (team?_updThread g team) (by rw [setThread_thread, keeps, issue]) unpaired
    notLast
  rw [State.updThread_poison] at fewer
  refine ⟨ps, fewer, ?_⟩
  rw [after, State.updClause, updThread_updThread]
  simp only [keeps]

theorem advance_updTeam {x : Exe} {s : State} {m : Team} {g : Team → Team} (kind : x.p.kind = .team) (team : s.team? x.p = some m)
    (issue : (m.thread x.p.kind).issue = some x.cl) (unpaired : x.team.role = .off) (notLast : Claims.NotLast x)
    (keeps : ∀ t, (g t).th.issue = t.th.issue) : ∃ ps ⊆ s.poison, advance x (s.updTeam x.p g) =
      { s.updTeam x.p (fun t => { g t with th := { (g t).th with issue := t.th.issue.map x.toNext } }) with poison := ps } := by
  have ofTeam (t : Team) : t.thread x.p.kind = t.th := by rw [kind]; rfl
  have setTh (t : Team) (th : Thread) : t.setThread x.p.kind th = { t with th := th } := by rw [kind]; rfl
  rw [ofTeam] at issue
  obtain ⟨ps, fewer, after⟩ := advance_eq_updClause (team?_updTeam g team) (by rw [ofTeam, keeps, issue]) unpaired notLast
  rw [State.updTeam_poison] at fewer
  refine ⟨ps, fewer, ?_⟩
  rw [after, State.updClause, State.updThread, updTeam_updTeam]
  simp only [setTh, ofTeam, keeps]

/-! ### What one change of a team leaves -/

section
variable {s : State} {p : Party} {m : Team} {ps : List Poison}

theorem onlyTeam_updTeam {R : Team → Team → Prop} (kind : p.kind ≠ .trail) (team : s.team? p = some m) (f : Team → Team)
    (fewer : ps ⊆ s.poison) (kept : R m (f m)) : Claims.OnlyTeam p s { s.updTeam p f with poison := ps } R := by
  obtain ⟨c, crew, member⟩ : ∃ c, s.crews.get? p.crew = some c ∧ c.teams.get? p.team = some m := by
    rwa [team?_of_kind kind, Option.bind_eq_some_iff] at team
  have crews : (s.updTeam p f) = s.updCrew p.crew fun c => { c with teams := c.teams.upd p.team fun _ => f m } := by
    rw [updTeam_of_some f team, setTeam_of_kind _ kind]
  rw [crews]
  refine ⟨rfl, fun e mem => fewer mem, fun k other => Tbl.get?_upd_other _ _ other, c,
    { c with teams := c.teams.upd p.team fun _ => f m }, m, f m, crew, ?_, rfl, fun j other => Tbl.get?_upd_other _ _ other,
    member, ?_, kept⟩
  · exact (Tbl.get?_upd_same ..).trans (congrArg (Option.map _) crew)
  · exact (Tbl.get?_upd_same ..).trans (congrArg (Option.map _) member)

theorem onlyThread_updThread {R : Thread → Thread → Prop} (kind : p.kind ≠ .trail) (team : s.team? p = some m)
    (f : Thread → Thread) (fewer : ps ⊆ s.poison) (kept : R (m.thread p.kind) (f (m.thread p.kind))) :
    Claims.OnlyThread p s { s.updThread p f with poison := ps } R :=
  onlyTeam_updTeam kind team _ fewer (R := fun a b => b = a.setThread p.kind (b.thread p.kind) ∧
    R (a.thread p.kind) (b.thread p.kind)) ⟨by rw [setThread_thread], by rwa [setThread_thread]⟩

theorem readByte_updTeam (s : State) (p : Party) (f : Team → Team) (ps : List Poison) (a : Nat) :
    ({ s.updTeam p f with poison := ps } : State).readByte a = s.readByte a :=
  State.readByte_of_mem (updTeam_mem s p f) a

end

/-! ### Registers of a team (R75) -/

section
variable {α β : Type} [DecidableEq α] {d c : α} {key : β → Nat} {val : β → α} {k : Nat}

/-- Writes at other keys. -/
theorem Tbl.read_foldl_write_other (es : List β) (t : Tbl α) (other : ∀ e ∈ es, k ≠ key e) :
    (es.foldl (fun t e => t.write d (key e) (val e)) t).read d k = t.read d k :=
  List.foldlRecOn es _ (motive := fun u => Tbl.read d u k = t.read d k) rfl fun _ kept e mem =>
    (Tbl.read_write_other _ _ _ (other e mem)).trans kept

/-- Writes of which one or more are at a key, and those all of one value. -/
theorem Tbl.read_foldl_write (es : List β) (t : Tbl α) (some_here : ∃ e ∈ es, key e = k) (alike : ∀ e ∈ es, key e = k → val e = c) :
    (es.foldl (fun t e => t.write d (key e) (val e)) t).read d k = c := by
  induction es generalizing t with
  | nil => simp at some_here
  | cons e es ih =>
    have rest := fun f mem => alike f (List.mem_cons_of_mem e mem)
    rw [List.foldl_cons]
    by_cases more : ∃ f ∈ es, key f = k
    · exact ih _ more rest
    · push Not at more
      have here : key e = k := by
        obtain ⟨f, mem, same⟩ := some_here
        exact (List.mem_cons.mp mem).elim (· ▸ same) fun mem => absurd same (more f mem)
      rw [Tbl.read_foldl_write_other es _ fun f mem => (more f mem).symm, ← here, Tbl.read_write_same]
      exact alike e List.mem_cons_self here

end

section
variable {t : Team} {r : Nat} {vals : List (Nat × Word)}

theorem vkey_inj {r r' l l' : Nat} (hl : l < 1024) (hl' : l' < 1024) : vkey r l = vkey r' l' ↔ r = r' ∧ l = l' := by
  unfold vkey
  omega

theorem nkey_inj {r r' g g' : Nat} (hg : g < 32) (hg' : g' < 32) : nkey r g = nkey r' g' ↔ r = r' ∧ g = g' := by
  unfold nkey
  omega

theorem readV_setLanes_other {q l : Nat} (lanes : ∀ e ∈ vals, e.1 < 1024) (lane : l < 1024)
    (other : q ≠ r ∨ l ∉ vals.map (·.1)) : (t.setLanes r vals).readV q l = t.readV q l :=
  Tbl.read_foldl_write_other vals t.v fun e mem same => by
    obtain ⟨rfl, rfl⟩ := (vkey_inj lane (lanes e mem)).mp same
    exact other.elim (absurd rfl) (absurd (List.mem_map_of_mem mem))

theorem readV_setLanes_map {ls : List Nat} (f : Nat → Word) (lanes : ∀ l ∈ ls, l < 1024) {l : Nat} (mem : l ∈ ls) :
    (t.setLanes r (ls.map fun l => (l, f l))).readV r l = f l := by
  refine Tbl.read_foldl_write (ls.map fun l => (l, f l)) t.v ⟨(l, f l), List.mem_map_of_mem mem, rfl⟩ fun e writes same => ?_
  obtain ⟨k, there, rfl⟩ := List.mem_map.mp writes
  rw [((vkey_inj (lanes l mem) (lanes k there)).mp same.symm).2]

/-- Written as a v register, a register may mark norms of its own (R75), and nothing else beside its lanes changes. -/
theorem writeLanes_eq (t : Team) (r : Nat) (vals : List (Nat × Word)) :
    ∃ n : Tbl Half, t.writeLanes r vals = { t.setLanes r vals with n := n } ∧
    ∀ q g, g < 32 → q ≠ r → n.read 0x8000 (nkey q g) = t.readN q g := by
  unfold Team.writeLanes
  dsimp only
  split
  · refine List.foldlRecOn vals _ (motive := fun u => ∃ n : Tbl Half, u = { t.setLanes r vals with n := n } ∧
      ∀ q g, g < 32 → q ≠ r → n.read 0x8000 (nkey q g) = t.readN q g) ⟨t.n, rfl, fun _ _ _ _ => rfl⟩ ?_
    rintro _ ⟨n, rfl, kept⟩ e -
    split
    · exact ⟨n, rfl, kept⟩
    · refine ⟨_, rfl, fun q g strand other => ?_⟩
      refine (Tbl.read_foldl_write_other (key := nkey r) (val := fun _ => 0x8001) _ n fun h mem same => ?_).trans
        (kept q g strand other)
      have small : h < 32 := by simpa using (List.mem_filter.mp mem).2
      exact other ((nkey_inj strand small).mp same).1
  · exact ⟨t.n, rfl, fun _ _ _ _ => rfl⟩

end

end Sys2Proof.Machine

namespace Sys2Proof.Claims

open Sys2Proof Sys2Proof.Machine

/-! ### The frames -/

section
variable {s u : State} {x : Exe} {i : Instr}

/-- The scalar registers of a thread with a scalar result in its destination. -/
def scalarsWith (x : Exe) (v : Word) (th : Thread) : Tbl Word :=
  if x.parts.w then th.s else th.s.write 0 (x.regNum .s x.parts.d) v

/-- A thread with a scalar result in its destination and its latch. -/
def scalarResult (x : Exe) (v : Word) (th : Thread) : Thread := { th.setLatch x.cl.pos (.scalar v) with s := scalarsWith x v th }

theorem writeScalar_eq (x : Exe) (v : Word) (u : State) : writeScalar x x.parts.d v u = u.updThread x.p (scalarResult x v) := by
  unfold writeScalar setResult scalarResult scalarsWith
  split
  · rfl
  · rw [updThread_updThread]
    rfl

/-- What a scalar instruction that is not the last of its clause makes of a thread. -/
def scalarThread (x : Exe) (v : Word) (th : Thread) : Thread := { scalarResult x v th with issue := th.issue.map x.toNext }

theorem scalarKept (v : Word) {th : Thread} (issue : th.issue = some x.cl) : ScalarKept x th (scalarThread x v th) := by
  refine ⟨fun r other => ?_, fun w => if_pos w, rfl, rfl, rfl, rfl, ?_⟩
  · show (scalarsWith x v th).read 0 r = th.s.read 0 r
    unfold scalarsWith
    split
    · rfl
    · exact Tbl.read_write_other _ _ _ other
  · rw [scalarThread, nextPos, issue]
    rfl

theorem scalar_frame {v : Word} (goes : Goes i noCheck s x u) (run : exec i s = .next (advance x (writeScalar x x.parts.d v u)))
    (notLast : NotLast x) (kind : x.p.kind ≠ .trail) (unpaired : x.team.role = .off) :
    ∃ t, exec i s = .next t ∧ OnlyThread x.p u t (ScalarKept x) ∧ (∀ a, t.readByte a = u.readByte a) ∧
      (x.parts.w = false → State.sreg t x.p (x.regNum .s x.parts.d) = v) := by
  obtain ⟨m, team, issue⟩ := goes.issue
  obtain ⟨ps, fewer, after⟩ := advance_updThread (g := scalarResult x v) team issue unpaired notLast fun _ => rfl
  refine ⟨{ u.updThread x.p (scalarThread x v) with poison := ps }, ?_, onlyThread_updThread kind team (scalarThread x v) fewer
    (scalarKept v issue), fun a => readByte_updTeam u x.p _ ps a, fun writes => ?_⟩
  · rw [run, writeScalar_eq, after]
    rfl
  have there : ({ u.updThread x.p (scalarThread x v) with poison := ps } : State).team? x.p = _ :=
    team?_updThread (scalarThread x v) team
  rw [State.sreg, there]
  dsimp only
  rw [setThread_thread]
  show (scalarsWith x v _).read 0 _ = v
  rw [scalarsWith, writes]
  exact Tbl.read_write_same ..

/-- The vector registers of a team with a vector result in its destination. -/
def vectorsWith (x : Exe) (r : Nat → Word) (t : Team) : Team :=
  if x.parts.w then t else t.writeLanes (x.regNum .v x.parts.d) (x.lanes.map fun l => (l, r l))

/-- A team with a vector result in its destination and its latch. -/
def vectorResult (x : Exe) (r : Nat → Word) (t : Team) : Team :=
  { vectorsWith x r t with
    th := t.th.setLatch x.cl.pos (vectorLatch x (x.regNum .v x.parts.d) (x.lanes.map fun l => (l, r l))) }

/-- What a vector instruction that is not the last of its clause makes of a team. -/
def vectorTeam (x : Exe) (r : Nat → Word) (t : Team) : Team :=
  { vectorResult x r t with th := { (vectorResult x r t).th with issue := t.th.issue.map x.toNext } }

theorem vectorsWith_eq (x : Exe) (r : Nat → Word) (t : Team) : ∃ v n, vectorsWith x r t = { t with v := v, n := n } := by
  unfold vectorsWith
  split
  · exact ⟨t.v, t.n, rfl⟩
  · obtain ⟨n, eq, -⟩ := writeLanes_eq t (x.regNum .v x.parts.d) (x.lanes.map fun l => (l, r l))
    exact ⟨_, n, eq⟩

theorem vectorsWith_readV_other (r : Nat → Word) (t : Team) {q l : Nat} (lane : l < 1024)
    (other : q ≠ x.regNum .v x.parts.d ∨ l ∉ x.lanes) : (vectorsWith x r t).readV q l = t.readV q l := by
  unfold vectorsWith
  split
  · rfl
  · obtain ⟨n, eq, -⟩ := writeLanes_eq t (x.regNum .v x.parts.d) (x.lanes.map fun l => (l, r l))
    rw [eq]
    refine readV_setLanes_other (t := t) (fun e mem => ?_) lane (other.imp_right fun out => ?_)
    · obtain ⟨k, active, rfl⟩ := List.mem_map.mp mem
      exact Exe.lt_of_mem_lanes active
    · simpa using out

theorem vectorsWith_readN_other (r : Nat → Word) (t : Team) {q g : Nat} (strand : g < 32) (other : q ≠ x.regNum .v x.parts.d) :
    (vectorsWith x r t).readN q g = t.readN q g := by
  unfold vectorsWith
  split
  · rfl
  · obtain ⟨n, eq, kept⟩ := writeLanes_eq t (x.regNum .v x.parts.d) (x.lanes.map fun l => (l, r l))
    rw [eq]
    exact kept q g strand other

theorem vectorKept (r : Nat → Word) {t : Team} (issue : t.th.issue = some x.cl) : VectorKept x t (vectorTeam x r t) := by
  obtain ⟨v, n, eq⟩ := vectorsWith_eq x r t
  refine ⟨fun q l lane other => vectorsWith_readV_other r t lane other, fun w => ?_,
    fun q g strand other => vectorsWith_readN_other r t strand other, rfl, ?_, ?_⟩
  · unfold vectorTeam vectorResult vectorsWith
    rw [w]
    exact ⟨rfl, rfl⟩
  · show t.th.issue.map x.toNext = nextPos x t.th
    rw [nextPos, issue]
    rfl
  · unfold vectorTeam vectorResult
    rw [eq]
    rfl

theorem vectorsWith_th (x : Exe) (r : Nat → Word) (t : Team) : (vectorsWith x r t).th = t.th := by
  obtain ⟨v, n, eq⟩ := vectorsWith_eq x r t
  rw [eq]

theorem writeEach_eq (x : Exe) (r : Nat → Word) (u : State) (kind : x.p.kind = .team) :
    writeEach x x.parts.d r u = u.updTeam x.p (vectorResult x r) := by
  have written (t : Team) : vectorResult x r t = (vectorsWith x r t).setThread .team ((vectorsWith x r t).th.setLatch x.cl.pos
      (vectorLatch x (x.regNum .v x.parts.d) (x.lanes.map fun l => (l, r l)))) := by rw [vectorsWith_th]; rfl
  rw [funext written]
  unfold writeEach writeVector setResult State.updThread vectorsWith
  rw [kind]
  split
  · rfl
  · exact updTeam_updTeam ..

theorem vector_frame {r : Nat → Word} (goes : Goes i noCheck s x u)
    (run : exec i s = .next (advance x (writeEach x x.parts.d r u))) (notLast : NotLast x) (kind : x.p.kind = .team)
    (unpaired : x.team.role = .off) :
    ∃ t, exec i s = .next t ∧ OnlyTeam x.p u t (VectorKept x) ∧ (∀ a, t.readByte a = u.readByte a) ∧
      (x.parts.w = false → ∀ l ∈ x.lanes, State.vreg t x.p (x.regNum .v x.parts.d) l = r l) := by
  obtain ⟨m, team, issue⟩ := goes.issue
  obtain ⟨ps, fewer, after⟩ := advance_updTeam (g := vectorResult x r) kind team issue unpaired notLast fun _ => rfl
  rw [kind] at issue
  refine ⟨{ u.updTeam x.p (vectorTeam x r) with poison := ps }, ?_, onlyTeam_updTeam (by simp [kind]) team (vectorTeam x r) fewer
    (vectorKept r issue), fun a => readByte_updTeam u x.p _ ps a, fun writes l active => ?_⟩
  · rw [run, writeEach_eq x r u kind, after]
    rfl
  have there : ({ u.updTeam x.p (vectorTeam x r) with poison := ps } : State).team? x.p = _ :=
    team?_updTeam (vectorTeam x r) team
  rw [State.vreg, there]
  show (vectorsWith x r m).readV _ l = r l
  obtain ⟨n, eq, -⟩ := writeLanes_eq m (x.regNum .v x.parts.d) (x.lanes.map fun l => (l, r l))
  rw [vectorsWith, writes, if_neg Bool.false_ne_true, eq]
  exact readV_setLanes_map (t := m) r (fun l => Exe.lt_of_mem_lanes) active

end

/-- Settles O45: an instruction that completes with its result changes its thread, or its team, once. -/
theorem registerFrames : Obligations.RegisterFrames :=
  ⟨fun _ _ _ _ _ scalar goes result notLast kind unpaired =>
      scalar_frame goes (scalarInteger_complete scalar goes result) notLast kind unpaired,
    fun _ _ _ _ _ vector goes result notLast kind unpaired =>
      vector_frame goes (vectorInteger_complete vector goes result) notLast kind unpaired⟩

end Sys2Proof.Claims
end

section
/-! Illegal instructions (R73, R87, R230, R325, R348, R349): an instruction whose words or whose issuer fail a check traps before
anything else is looked at. -/

namespace Sys2Proof.Machine

open Sys2Proof

/-! ### Traps before the mask (R157, R230) -/

section
variable {i : Instr} {s : State} {x : Exe}

theorem prepare_of_illegal {c : Cause} (illegal : checkInstr x.ch i = some c) (oc : Exe → State → Option Cause) :
    prepare i oc x s = .stop (.trap (x.trapOf c)) := by
  rw [prepare, illegal]

theorem prepare_of_context {c : Cause} (words : checkInstr x.ch i = none) (context : contextFault x i = some c)
    (oc : Exe → State → Option Cause) : prepare i oc x s = .stop (.trap (x.trapOf c)) := by
  rw [prepare, words, context]

/-- However it is performed, outside a pair an instruction that stops before its effect leaves the machine as its stop does. -/
theorem Performed.exec_of_stop {k : Stop} (performed : Performed i s) (issuer : s.issuer? i = some x)
    (alone : x.paired s = false) (stops : ∀ oc, prepare i oc x s = .stop k) : exec i s = .next (stopWith x k s) := by
  cases performed with
  | alone runs => rw [runs, perform_stop issuer (stops _)]
  | meets runs => rw [runs, performMeet_alone issuer alone, perform_stop issuer (stops _)]
  | passes runs => simp only [runs, performPasses, issuer, stops]

/-- Every instruction with an encoding is performed in one of the three ways. -/
theorem performed_of_encode (encodes : encode i ≠ []) (s : State) : Performed i s := by
  cases lanes : perLane i {} with
  | true => exact performed_of_perLane lanes s
  | false =>
    cases i with
    | qpush f | qpop f => exact .passes rfl
    | acq f | rel f | fence f | fencePt f | bar f | bara f | barw f | gbar f | xcopy f | xred f | wbload f | mloop f
    | ctopk f | cbin f | cepi f | phase f | tsend f => exact .meets rfl
    | bra f | ret f | yield f | mset f | mand f | mor f | mxor f | mnot f | mmov f | mpop f | mfind f | many f
    | mall f | smov f | sadd f | ssub f | smul f | smulh f | smad f | sdiv f | srem f | sand f | sor f | sxor f
    | sshl f | sshr f | ssar f | smin f | smax f | scmp f | ssel f | sclz f | spopc f | sbfe f | sbfi f | sadd64 f
    | wlalloc f | wlfree f | wlclr f | qstat f | trap f | tret f | tsbegin f | tbrd f | halt f => exact .pure rfl
    | wait f => exact .alone (execWait.eq_1 f s)
    | wlmerge f => exact .alone (execWlmerge.eq_1 f s)
    | wlst f => exact .alone (execWlst.eq_1 f s)
    | wlld f => exact .alone (execWlld.eq_1 f s)
    | repack f => exact .alone (execRepack.eq_1 f s)
    | srd f => exact .pure (execSrd.eq_1 f s)
    | brc f => exact .pure (execBrc.eq_1 f s)
    | join f => exact .pure (execJoin.eq_1 f s)
    | call f => exact .pure (execCall.eq_1 f s)
    | jmpi f => exact .pure (execJmpi.eq_1 f s)
    | loop f => exact .pure (execLoop.eq_1 f s)
    | sleep f => exact .pure (execSleep.eq_1 f s)
    | nop f => exact .pure (execNop.eq_1 f s)
    | part f => exact .pure (execPart.eq_1 f s)
    | mexec f => exact .pure (execMexec.eq_1 f s)
    | setix f => exact .pure (execSetix.eq_1 f s)
    | swr f => exact .pure (execSwr.eq_1 f s)
    | smovi f => exact .pure (execSmovi.eq_1 f s)
    | dspan f => exact .pure (execDspan.eq_1 f s)
    | wmap f => exact .pure (execWmap.eq_1 f s)
    | winv f => exact .pure (execWinv.eq_1 f s)
    | cwb f => exact .pure (execCwb.eq_1 f s)
    | cinv f => exact .pure (execCinv.eq_1 f s)
    | ipref f => exact .pure (execIpref.eq_1 f s)
    | ipin f => exact .pure (execIpin.eq_1 f s)
    | iunpin f => exact .pure (execIunpin.eq_1 f s)
    | bind f => exact .pure (execBind.eq_1 f s)
    | unbind f => exact .pure (execUnbind.eq_1 f s)
    | shoot f => exact .pure (execShoot.eq_1 f s)
    | qcfg f => exact .pure (execQcfg.eq_1 f s)
    | cstat f => exact .pure (execCstat.eq_1 f s)
    | nodefl f => exact .pure (execNodefl.eq_1 f s)
    | chgo f => exact .pure (execChgo.eq_1 f s)
    | chstop f => exact .pure (execChstop.eq_1 f s)
    | trld f => exact .pure (execTrld.eq_1 f s)
    | trst f => exact .pure (execTrst.eq_1 f s)
    | bpset f => exact .pure (execBpset.eq_1 f s)
    | wpset f => exact .pure (execWpset.eq_1 f s)
    | step f => exact .pure (execStep.eq_1 f s)
    | snap f => exact .pure (execSnap.eq_1 f s)
    | finj f => exact .pure (execFinj.eq_1 f s)
    | _ => simp [perLane, encode] at lanes encodes

/-- A trap before the mask is looked at carries the effective mask, and no detail. -/
theorem exec_of_words {c : Cause} (encodes : encode i ≠ []) (issuer : s.issuer? i = some x) (alone : x.paired s = false)
    (illegal : checkInstr x.ch i = some c) : exec i s = .next (takeTrap x.p x.cl.path (x.trapOf c) s) :=
  (performed_of_encode encodes s).exec_of_stop issuer alone (prepare_of_illegal illegal)

theorem exec_of_context {c : Cause} (encodes : encode i ≠ []) (issuer : s.issuer? i = some x) (alone : x.paired s = false)
    (words : checkInstr x.ch i = none) (context : contextFault x i = some c) :
    exec i s = .next (takeTrap x.p x.cl.path (x.trapOf c) s) :=
  (performed_of_encode encodes s).exec_of_stop issuer alone (prepare_of_context words context)

end

end Sys2Proof.Machine

namespace Sys2Proof.Claims

open Sys2Proof Sys2Proof.Machine

/-! ### The checks of the issuer (R73, R87, R325, R348, R349) -/

/-- The instruction that belongs to cooperative launches alone (R348). -/
def cooperative : Instr → Bool
  | .phase _ => true
  | _ => false

section
variable {x : Exe} {i : Instr}

/-- The four conditions of an issuer, in their order. -/
theorem contextFault_eq (x : Exe) (i : Instr) : contextFault x i =
    if (special i && decide (0x20 ≤ x.parts.s) && !(x.team.handler && !x.ch)) = true then some .specialReg
    else if (x.ch && !chaserMay i x.parts) = true then some .context
    else if (privileged i && !x.team.handler) = true then some .context
    else if cooperative i = true then (if x.launch.co then none else some .context) else none := by
  cases i <;> rfl

theorem contextFault_of_special (names : special i = true) (high : 0x20 ≤ x.parts.s) (outside : x.team.handler = false) :
    contextFault x i = some .specialReg := by
  simp [contextFault_eq, names, high, outside]

theorem contextFault_of_privileged (plain : special i = false) (needs : privileged i = true) (outside : x.team.handler = false)
    (team : x.ch = false) : contextFault x i = some .context := by
  simp [contextFault_eq, plain, needs, outside, team]

theorem contextFault_phase (rs : RRS) (team : x.ch = false) :
    contextFault x (.phase rs) = if x.launch.co = true then none else some .context := by
  simp [contextFault_eq, special, privileged, cooperative, team]

/-- The model's list of what a chaser may execute is that of R87. -/
theorem chaserMay_eq_chaserRuns (p : Parts) (i : Instr) : chaserMay i p = chaserRuns p i := by
  cases i with
  | ld f | st f | ldg f | stg f => simp [chaserMay, chaserRuns, isScalarInteger, bne, beq_eq_decide]
  | srd f | qpush f | qpop f => simp [chaserMay, chaserRuns, isScalarInteger]
  | _ => rfl

/-- That list holds no instruction of the handler or of cooperative launches. -/
theorem plain_of_chaserMay {p : Parts} (may : chaserMay i p = true) : privileged i = false ∧ cooperative i = false := by
  cases i with
  | shoot f | tret f | trld f | trst f | bpset f | wpset f | step f | finj f | phase f => exact absurd may Bool.false_ne_true
  | _ => exact ⟨rfl, rfl⟩

theorem contextFault_of_chaser (chaser : x.ch = true) : contextFault x i =
    if special i = true ∧ 0x20 ≤ x.parts.s then some .specialReg
    else if chaserRuns x.parts i = true then none else some .context := by
  rw [contextFault_eq, ← chaserMay_eq_chaserRuns, chaser]
  cases may : chaserMay i x.parts with
  | true => simp [plain_of_chaserMay may]
  | false => simp

end

/-- Settles O40: the checks of the words and of the issuer come before the mask, however an instruction is performed; which
issuers fail by the kind of the instruction. -/
theorem illegalInstructionsTrap : Obligations.IllegalInstructionsTrap := by
  refine ⟨fun i s x c => exec_of_words, fun i s x c => exec_of_context, fun x rs outside high =>
    ⟨contextFault_of_special rfl high outside, contextFault_of_special rfl high outside⟩, ?_,
    fun x i => contextFault_of_chaser, fun x rs => contextFault_phase rs⟩
  intro x z f rs outside team i mem
  simp only [List.mem_cons, List.not_mem_nil, or_false] at mem
  rcases mem with rfl | rfl | rfl | rfl | rfl | rfl | rfl | rfl <;> exact contextFault_of_privileged rfl rfl outside team

end Sys2Proof.Claims
end

section
/-! Mask and special registers (R73, R77, R160, R249 to R255): the model's checks, special registers and masks as the statements
write them, and the mask instructions. -/

namespace Sys2Proof.Claims

open Sys2Proof Sys2Proof.Machine

/-! ### Tile widths and index registers (R249) -/

theorem partOk_iff {n : Nat} : partOk n = true ↔ n ∈ [2, 4, 8, 16, 32] := by
  simp [partOk, or_assoc]

theorem partCheck_eq : (fun (x : Exe) (_ : State) => if 0 ≤ x.immInt && partOk x.immInt.toNat then none else some Cause.partValue) =
    fun x _ => if x.immInt ∈ [2, 4, 8, 16, 32] then none else some .partValue := by
  funext x _
  refine if_congr ?_ rfl rfl
  rw [Bool.and_eq_true, decide_eq_true_eq, partOk_iff]
  simp only [List.mem_cons, List.not_mem_nil, or_false]
  omega

theorem does_part (f : RI) : Does (.part f) (fun x _ => if x.immInt ∈ [2, 4, 8, 16, 32] then none else some .partValue)
    fun x u => u.updTeam x.p fun t => { t with part := x.immInt.toNat } := by
  rw [← partCheck_eq]
  exact does_of_performPure (execPart f) (fun _ => rfl) fun _ => rfl

theorem setixCheck_eq : (fun (x : Exe) (_ : State) => if 1 < x.parts.d.toNat then some Cause.general else none) =
    fun x _ => if x.parts.d = 0 ∨ x.parts.d = 1 then none else some .general := by
  funext x _
  rw [← ite_not]
  refine if_congr ?_ rfl rfl
  bv_omega

/-- An index register plus an integer, modulo its width. -/
theorem index_add {n : Nat} (w : BitVec n) (v : Int) (keep : Prop) [Decidable keep] :
    (if keep then w else 0) + BitVec.ofInt n v = BitVec.ofInt n ((if keep then (w.toNat : Int) else 0) + v) := by
  split <;> simp [BitVec.ofInt_add]

theorem does_setix (f : RI) : Does (.setix f) (fun x _ => if x.parts.d = 0 ∨ x.parts.d = 1 then none else some .general)
    fun x u => u.updTeam x.p fun t =>
      if x.parts.d = 0 then { t with xv := BitVec.ofInt 8 ((if x.parts.fx = 1 then (t.xv.toNat : Int) else 0) + x.immInt) }
      else { t with xs := BitVec.ofInt 6 ((if x.parts.fx = 1 then (t.xs.toNat : Int) else 0) + x.immInt) } := by
  rw [← setixCheck_eq]
  simp only [← index_add]
  exact does_of_performPure (execSetix f) (fun _ => rfl) fun _ => rfl

/-! ### Special registers (R73, R160, R250) -/

section
variable {s u : State} {x : Exe} {f : RRS}

/-- The numbers of the uniform registers, but those of timelo and tsstate. -/
def uniformNumbers : List Nat :=
  [0x03, 0x04, 0x05, 0x06, 0x07, 0x08, 0x09, 0x0A, 0x0B, 0x0C, 0x0D, 0x0E, 0x0F, 0x10, 0x11, 0x12, 0x13, 0x15, 0x16, 0x17, 0x18,
   0x19, 0x20, 0x21, 0x22, 0x26, 0x27, 0x38] ++
  (List.range 4).flatMap fun k => [0x28 + 2 * k, 0x29 + 2 * k, 0x30 + 2 * k, 0x31 + 2 * k]

theorem uniformRegs_eq (x : Exe) (u : State) :
    uniformRegs x ++ supervisorRegs x = uniformNumbers.map fun n => (n, x.specialReg u n) := rfl

theorem laneRegs_eq (x : Exe) (l : Nat) :
    laneRegs x l = [0x00, 0x01, 0x02, 0x23, 0x24, 0x25, 0x3A].map fun n => (n, x.specialLane n l) := rfl

theorem uniformNumbers_plain : ∀ n ∈ uniformNumbers, specialPerLane n = false ∧ n ≠ 0x14 := by decide

/-- What SRD does. -/
def srdEffect (x : Exe) (u : State) : State :=
  if specialPerLane x.parts.s then writeEach x x.parts.d (x.specialLane x.parts.s) u
  else writeScalar x x.parts.d (x.specialReg u x.parts.s)
    (if x.parts.s = 0x14 then u.updTeam x.p fun t => { t with timehi := x.now.hi } else u)

theorem exec_srd (goes : Goes (.srd f) noCheck s x u) : exec (.srd f) s = .next (advance x (srdEffect x u)) :=
  goes.exec_ok (execSrd.eq_1 f s) rfl

theorem srd_uniform (goes : Goes (.srd f) noCheck s x u) {v : Word} (mem : (x.parts.s, v) ∈ uniformRegs x ++ supervisorRegs x) :
    exec (.srd f) s = .next (advance x (writeScalar x x.parts.d v u)) := by
  rw [uniformRegs_eq x u] at mem
  obtain ⟨n, listed, same⟩ := List.mem_map.mp mem
  obtain ⟨rfl, rfl⟩ := Prod.mk.inj same
  obtain ⟨uniform, plain⟩ := uniformNumbers_plain _ listed
  rw [exec_srd goes, srdEffect, if_neg (Bool.eq_false_iff.mp uniform), if_neg plain]

theorem srd_timelo (goes : Goes (.srd f) noCheck s x u) (timelo : x.parts.s = 0x14) : exec (.srd f) s = .next (advance x
    (writeScalar x x.parts.d x.now.lo (u.updTeam x.p fun t => { t with timehi := x.now.hi }))) := by
  rw [exec_srd goes, srdEffect, timelo]
  rfl

theorem srd_tsstate (goes : Goes (.srd f) noCheck s x u) (tsstate : x.parts.s = 0x39) :
    exec (.srd f) s = .next (advance x (writeScalar x x.parts.d (x.tsstate u) u)) := by
  rw [exec_srd goes, srdEffect, tsstate]
  rfl

theorem srd_lanes (goes : Goes (.srd f) noCheck s x u) {v : Nat → Word} (mem : ∀ l, (x.parts.s, v l) ∈ laneRegs x l) :
    exec (.srd f) s = .next (advance x (writeEach x x.parts.d v u)) := by
  have numbers : ∀ n ∈ [0x00, 0x01, 0x02, 0x23, 0x24, 0x25, 0x3A], specialPerLane n = true := by decide
  have lane (l : Nat) : specialPerLane x.parts.s = true ∧ x.specialLane x.parts.s l = v l := by
    obtain ⟨n, listed, same⟩ := List.mem_map.mp (laneRegs_eq x l ▸ mem l)
    obtain ⟨rfl, value⟩ := Prod.mk.inj same
    exact ⟨numbers _ listed, value⟩
  rw [exec_srd goes, srdEffect, if_pos (lane 0).1, funext fun l => (lane l).2]

end

theorem swrCheck_eq : (fun (x : Exe) (_ : State) => if !specialWritable x.parts.s then some Cause.roSpecial
    else if x.parts.s = 0x10 && x.known x.parts.a && !partOk (x.s x.parts.a).toNat then some .partValue else none) = swrCheck := by
  funext x _
  refine if_congr ?_ rfl (if_congr ?_ rfl rfl)
  · simp only [specialWritable, Bool.not_eq_true', Bool.or_eq_false_iff, Bool.and_eq_false_iff, beq_eq_false_iff_ne,
      decide_eq_false_iff_not, List.mem_cons, List.not_mem_nil, or_false]
    omega
  · rw [← partOk_iff]
    simp [and_assoc]

theorem does_swr (f : RRS) : Does (.swr f) swrCheck
    fun x u => u.updTeam x.p fun t => t.writeSpecial x.parts.s (x.s x.parts.a) := by
  rw [← swrCheck_eq]
  exact does_of_performPure (execSwr f) (fun _ => rfl) fun _ => rfl

/-! ### Mask registers (R251 to R254) -/

theorem msetMask_eq_setForm (x : Exe) : x.msetMask = setForm x := by
  unfold Exe.msetMask setForm
  split <;> rfl

theorem does_mset (f : RRS) : Does (.mset f) noCheck fun x u => writeMask x x.parts.d (setForm x) u := by
  simp only [← msetMask_eq_setForm]
  exact does_of_performPure (execMset f) (fun _ => rfl) fun _ => rfl

theorem does_mnot (f : RRR) : Does (.mnot f) noCheck fun x u =>
    writeMask x x.parts.d (x.team.launched &&& ~~~(x.m x.parts.a)) u := by
  have swap (x : Exe) : x.team.launched &&& ~~~(x.m x.parts.a) = ~~~(x.m x.parts.a) &&& x.team.launched := BitVec.and_comm ..
  simp only [swap]
  exact does_of_performPure (execMnot f) (fun _ => rfl) fun _ => rfl

theorem maskFind_eq (m : Mask) (n start : Nat) :
    maskFind m n start = (List.range n).find? fun l => decide (start ≤ l) && m.lane l := by
  simp only [maskFind, Mask.lanes, List.find?_filter, Bool.decide_and, Bool.decide_eq_true, Bool.and_comm]

theorem does_mfind (f : RRR) : Does (.mfind f) noCheck fun x u => writeScalar x x.parts.d
    (match (List.range (32 * x.launch.strands)).find? fun l => decide (x.sB.toNat ≤ l) && (x.m x.parts.a).lane l with
     | some l => BitVec.ofNat 32 l
     | none => 0xFFFFFFFF) u := by
  simp only [← maskFind_eq]
  exact does_of_performPure (execMfind f) (fun _ => rfl) fun _ => rfl

theorem does_many (f : RRR) : Does (.many f) noCheck fun x u =>
    writeScalar x x.parts.d (if x.m x.parts.a &&& x.exec ≠ 0 then 1 else 0) u := by
  simp only [ite_not]
  exact does_of_performPure (execMany f) (fun _ => rfl) fun _ => rfl

theorem Mask.lane_upTo (n l : Nat) : (Mask.upTo n).lane l = (decide (l < 1024) && decide (l < n)) := by
  simp only [Mask.lane, Mask.upTo, BitVec.getLsbD_not, BitVec.getLsbD_shiftLeft, BitVec.getLsbD_allOnes]
  by_cases small : l < 1024
  · by_cases low : l < n
    · simp [small, low]
    · have : l - n < 1024 := by omega
      simp [small, low, this]
  · simp [small]

/-- A mask register holds no bit at or above the team's lanes (R251). -/
theorem lane_writeM (t : Team) (n k : Nat) (m : Mask) (l : Nat) :
    ((t.writeM n k m).readM k).lane l = (m.lane l && decide (l < n)) := by
  have read : (t.writeM n k m).readM k = m &&& Mask.upTo n := Tbl.read_write_same ..
  rw [read, Mask.lane, BitVec.getLsbD_and]
  show (m.getLsbD l && (Mask.upTo n).lane l) = (m.getLsbD l && _)
  rw [Mask.lane_upTo]
  by_cases small : l < 1024
  · simp [small]
  · simp [small, BitVec.getLsbD_of_ge m l (Nat.not_lt.mp small)]

/-! ### MEXEC (R77, R80, R255) -/

theorem newExec_eq_nextExec (x : Exe) : x.newExec = nextExec x := by
  unfold Exe.newExec nextExec
  cases x.team.path? x.cl.path <;> rfl

theorem mexecCheck_eq : (fun (x : Exe) (_ : State) => if x.newExec = 0 && !x.joined then some Cause.general else none) =
    mexecCheck := by
  funext x _
  rw [newExec_eq_nextExec]
  refine if_congr ?_ rfl rfl
  simp only [Exe.joined, Bool.and_eq_true, decide_eq_true_eq, Bool.not_eq_true', Option.isSome_eq_false_iff,
    Option.isNone_iff_eq_none]

theorem does_mexec (f : RRR) : Does (.mexec f) mexecCheck fun x u =>
    if nextExec x ≠ 0 then u.updTeam x.p fun t => t.updPath x.cl.path fun q => { q with mask := nextExec x }
    else (u.updTeam x.p fun t => t.removePath (u.afterJoin x.agent t.cluster) x.cl.path).updClause x.p fun c =>
      { c with words := c.words.take (c.pos - 1 + x.parts.words) } := by
  simp only [← mexecCheck_eq, ← newExec_eq_nextExec, ite_not]
  exact does_of_performPure (execMexec f) (fun _ => rfl) fun _ => rfl

/-- Settles O7, by the effect of each instruction. -/
theorem maskAndSpecialRegisters : Obligations.MaskAndSpecialRegisters :=
  ⟨fun ri rs => ⟨does_part ri, does_setix ri,
      fun _ _ _ goes => ⟨fun _ => srd_uniform goes, srd_timelo goes, srd_tsstate goes, fun _ => srd_lanes goes⟩, does_swr rs⟩,
    fun rs f => ⟨does_mset rs, does_of_performPure (execMand f) (fun _ => rfl) fun _ => rfl,
      does_of_performPure (execMor f) (fun _ => rfl) fun _ => rfl, does_of_performPure (execMxor f) (fun _ => rfl) fun _ => rfl,
      does_mnot f, does_of_performPure (execMmov f) (fun _ => rfl) fun _ => rfl,
      does_of_performPure (execMpop f) (fun _ => rfl) fun _ => rfl, does_mfind f, does_many f,
      does_of_performPure (execMall f) (fun _ => rfl) fun _ => rfl, does_mexec f, lane_writeM⟩⟩

end Sys2Proof.Claims
end

section
/-! A party whose clause has ended begins no other by what its team and its crew go through at that end (R78, R82, R167): a push or
pop that completes holds the slot no more (R89). -/

namespace Sys2Proof.Machine

open Sys2Proof

/-! ### No clause begins -/

/-- Every entry of one table stems from the entry of another at its key. -/
def Tbl.From {α : Type} (R : α → α → Prop) (a b : Tbl α) : Prop :=
  ∀ k y, b.get? k = some y → ∃ x, a.get? k = some x ∧ R x y

section
variable {α : Type} {R : α → α → Prop} {a b c : Tbl α}

theorem Tbl.From.refl (refl : ∀ x, R x x) (a : Tbl α) : Tbl.From R a a := fun _ y there => ⟨y, there, refl y⟩

theorem Tbl.From.trans (trans : ∀ {x y z}, R x y → R y z → R x z) (ab : Tbl.From R a b) (bc : Tbl.From R b c) :
    Tbl.From R a c := by
  intro k z there
  obtain ⟨y, middle, yz⟩ := bc k z there
  obtain ⟨x, first, xy⟩ := ab k y middle
  exact ⟨x, first, trans xy yz⟩

theorem Tbl.From.upd (refl : ∀ x, R x x) {f : α → α} {k : Nat} (change : ∀ x, a.get? k = some x → R x (f x)) :
    Tbl.From R a (a.upd k f) := by
  intro j y there
  rw [Tbl.get?_upd] at there
  split at there
  · next same =>
    obtain ⟨x, entry, rfl⟩ := Option.map_eq_some_iff.mp there
    exact ⟨x, same ▸ entry, change x entry⟩
  · exact ⟨y, there, refl y⟩

theorem Tbl.From.map {f : Nat × α → Nat × α} (keys : ∀ e, (f e).1 = e.1) (change : ∀ e, R e.2 (f e).2) (a : Tbl α) :
    Tbl.From R a (a.map f) := by
  intro j y there
  rw [Tbl.get?_map_of_keys keys] at there
  obtain ⟨x, entry, rfl⟩ := Option.map_eq_some_iff.mp there
  exact ⟨x, entry, change (j, x)⟩

theorem Tbl.From.del (refl : ∀ x, R x x) (a : Tbl α) (k : Nat) : Tbl.From R a (a.del k) := by
  intro j y there
  rw [Tbl.get?_del] at there
  split at there
  · cases there
  · exact ⟨y, there, refl y⟩

end

/-- Neither thread of a team begins a clause from one state of it to another. -/
def Team.Rests (t u : Team) : Prop := ∀ k, (t.thread k).issue = none → (u.thread k).issue = none

theorem Team.Rests.refl (t : Team) : t.Rests t := fun _ none => none
theorem Team.Rests.trans {t u v : Team} (tu : t.Rests u) (uv : u.Rests v) : t.Rests v := fun k none => uv k (tu k none)

theorem Team.rests_of_issues {t u : Team} (same : u.issues = t.issues) : t.Rests u := by
  intro k none
  rw [Team.issue_of_issues] at none ⊢
  rwa [same]

theorem Team.rests_setThread (t : Team) (k : PartyKind) {th : Thread} (rests : (t.thread k).issue = none → th.issue = none) :
    t.Rests (t.setThread k th) := by
  intro j none
  cases k with
  | chaser => cases j with
    | chaser => exact rests none
    | team | trail => exact none
  | team | trail => cases j with
    | chaser => exact none
    | team | trail => exact rests none

def Crew.Rests (c d : Crew) : Prop := Tbl.From Team.Rests c.teams d.teams
def Pair.Rests (q r : Pair) : Prop := q.trail.Rests r.trail

theorem Crew.Rests.refl (c : Crew) : c.Rests c := Tbl.From.refl Team.Rests.refl _
theorem Crew.Rests.trans {c d e : Crew} (cd : c.Rests d) (de : d.Rests e) : c.Rests e :=
  Tbl.From.trans Team.Rests.trans cd de
theorem Pair.Rests.refl (q : Pair) : q.Rests q := Team.Rests.refl _

/-- No thread of any team begins a clause from one state to another, and no team comes. -/
structure State.Rests (s t : State) : Prop where
  crews : Tbl.From Crew.Rests s.crews t.crews
  pairs : Tbl.From Pair.Rests s.pairs t.pairs

section
variable {s t u : State} {p : Party}

theorem State.Rests.trans (st : s.Rests t) (tu : t.Rests u) : s.Rests u :=
  ⟨st.crews.trans Crew.Rests.trans tu.crews, st.pairs.trans Team.Rests.trans tu.pairs⟩

theorem State.rests_of_tables (crews : t.crews = s.crews) (pairs : t.pairs = s.pairs) : s.Rests t :=
  ⟨crews ▸ Tbl.From.refl Crew.Rests.refl _, pairs ▸ Tbl.From.refl Pair.Rests.refl _⟩

theorem State.Rests.refl (s : State) : s.Rests s := State.rests_of_tables rfl rfl

theorem State.rests_of_muster (same : t.muster = s.muster) : s.Rests t :=
  State.rests_of_tables (State.crews_of_muster same) (State.pairs_of_muster same)

theorem State.rests_foldl {α : Type} {f : State → α → State} (step : ∀ (u : State) a, u.Rests (f u a)) (l : List α) (s : State) :
    s.Rests (l.foldl f s) :=
  List.foldlRecOn l f (motive := fun u => s.Rests u) (State.Rests.refl s) fun u before a _ => before.trans (step u a)

theorem State.rests_updCrew (s : State) (k : Nat) {f : Crew → Crew} (change : ∀ c : Crew, c.Rests (f c)) :
    s.Rests (s.updCrew k f) :=
  ⟨Tbl.From.upd Crew.Rests.refl fun c _ => change c, Tbl.From.refl Pair.Rests.refl _⟩

/-- A change of a crew that leaves its teams as they are. -/
theorem State.rests_updCrew_of_teams (s : State) (k : Nat) {f : Crew → Crew} (same : ∀ c, (f c).teams = c.teams) :
    s.Rests (s.updCrew k f) :=
  s.rests_updCrew k fun c => by
    unfold Crew.Rests
    rw [same]
    exact Crew.Rests.refl c

theorem State.rests_updPairs (s : State) (k : Nat) {f : Pair → Pair} (change : ∀ q : Pair, q.Rests (f q)) :
    s.Rests { s with pairs := s.pairs.upd k f } :=
  ⟨Tbl.From.refl Crew.Rests.refl _, Tbl.From.upd Pair.Rests.refl fun q _ => change q⟩

theorem State.rests_setTeam {m n : Team} (team : s.team? p = some m) (rests : m.Rests n) : s.Rests (s.setTeam p n) := by
  by_cases trail : p.kind = .trail
  · rw [setTeam_of_trail n trail]
    rw [team?_of_trail trail] at team
    refine ⟨Tbl.From.refl Crew.Rests.refl _, Tbl.From.upd Pair.Rests.refl fun q there => ?_⟩
    rw [there] at team
    obtain rfl := Option.some.inj team
    exact rests
  · rw [setTeam_of_kind n trail]
    rw [team?_of_kind trail] at team
    refine ⟨Tbl.From.upd Crew.Rests.refl fun c there => Tbl.From.upd Team.Rests.refl fun m' member => ?_,
      Tbl.From.refl Pair.Rests.refl _⟩
    rw [there, Option.bind_some, member] at team
    obtain rfl := Option.some.inj team
    exact rests

theorem State.rests_updTeam (s : State) (p : Party) {f : Team → Team} (rests : ∀ t : Team, t.Rests (f t)) :
    s.Rests (s.updTeam p f) := by
  cases team : s.team? p with
  | none => rw [updTeam_of_none f team]; exact State.Rests.refl s
  | some m => rw [updTeam_of_some f team]; exact State.rests_setTeam team (rests m)

theorem State.rests_updThread (s : State) (p : Party) {f : Thread → Thread}
    (rests : ∀ th, th.issue = none → (f th).issue = none) : s.Rests (s.updThread p f) :=
  s.rests_updTeam p fun t => t.rests_setThread p.kind (rests _)

theorem State.rests_updCopies (s : State) (p : Party) {f : Team → Team} (rests : ∀ t : Team, t.Rests (f t)) :
    s.Rests (s.updCopies p f) :=
  ⟨(s.rests_updTeam p rests).crews, Tbl.From.upd Pair.Rests.refl fun q _ => rests q.trail⟩

end

/-! ### What a team does at the end of a clause -/

section
variable (s : State) (p : Party)

theorem Team.rests_writeStatus (t : Team) (sd : Option Nat) (v : Word) : t.Rests (t.writeStatus sd v) := by
  refine Team.rests_of_issues ?_
  unfold Team.writeStatus
  split <;> rfl

theorem Team.rests_dropWaits (t : Team) (f : Wait → Bool) : t.Rests (t.dropWaits f) := by
  intro k none
  cases k with
  | chaser => exact none
  | team | trail => exact Option.map_eq_none_iff.mpr none

theorem Team.rests_foldl {α : Type} {f : Team → α → Team} (step : ∀ (u : Team) a, u.Rests (f u a)) (l : List α) (t : Team) :
    t.Rests (l.foldl f t) :=
  List.foldlRecOn l f (motive := fun u => t.Rests u) (Team.Rests.refl t) fun u before a _ => before.trans (step u a)

theorem Team.rests_releaseBar (t : Team) (k : Nat) (v : Word) : t.Rests (t.releaseBar k v) := by
  refine Team.Rests.trans (Team.rests_foldl (fun u w => ?_) _ _) (Team.rests_dropWaits _ _)
  split
  · split
    · exact u.rests_writeStatus _ v
    · exact Team.Rests.refl u
  · exact Team.Rests.refl u

theorem Team.rests_releaseTree (t : Team) : t.Rests t.releaseTree := by
  refine Team.Rests.trans (Team.rests_foldl (fun u w => ?_) _ _) (Team.rests_dropWaits _ _)
  split
  · exact u.rests_writeStatus _ _
  · exact u.rests_writeStatus _ _
  · exact u.rests_writeStatus _ _
  · exact Team.Rests.refl u

theorem State.rests_deliver (ld : PendingLoad) : s.Rests (s.deliver p ld) := by
  have written : s.Rests (s.updTeam p fun t => ld.writes.foldl (fun u w => u.applyWrite p.kind w) t) :=
    s.rests_updTeam p (Team.rests_foldl (fun u w => Team.rests_of_issues (u.issues_applyWrite p.kind w)) ld.writes)
  unfold State.deliver
  dsimp only
  split
  · exact written
  · split
    · exact written.trans (State.rests_updPairs _ _ fun q => Team.Rests.refl q.trail)
    · exact written.trans (State.rests_updCrew_of_teams _ _ fun _ => rfl)

theorem State.rests_settleParty : s.Rests (s.settleParty p) := by
  have loads (s : State) : s.Rests (s.drainLoads p) := by
    unfold State.drainLoads
    split
    · exact State.Rests.refl s
    · exact (State.rests_foldl (fun u ld => u.rests_deliver p ld) ..).trans (State.rests_updThread _ p fun _ none => none)
  have stores (s : State) : s.Rests (s.drainStores p) := by
    unfold State.drainStores
    split
    · exact State.Rests.refl s
    · refine (State.rests_foldl (fun u st => State.rests_of_muster ?_) ..).trans (State.rests_updThread _ p fun _ none => none)
      exact u.muster_performStore ..
  exact (loads s).trans (stores _)

theorem State.rests_dropClause : s.Rests (s.dropClause p) := by
  unfold State.dropClause
  split
  · exact State.Rests.refl s
  · next t team =>
    refine State.Rests.trans (State.rests_setTeam team (t.rests_setThread p.kind (th :=
      { t.thread p.kind with issue := none, latches := [] }) fun _ => rfl)) (State.rests_of_tables ?_ ?_) <;>
      (dsimp only; split <;> rfl)

theorem State.rests_parkClause : s.Rests (s.parkClause p) :=
  (s.rests_updThread p (f := fun th => { th with later := th.issue.toList ++ th.later }) fun _ none => none).trans
    (State.rests_dropClause _ p)

theorem State.rests_restChaser : s.Rests (s.restChaser p) := by
  unfold State.restChaser
  split
  · exact State.Rests.refl s
  · split
    · exact s.rests_settleParty p
    · have parked := (s.rests_settleParty p).trans (State.rests_parkClause _ p)
      dsimp only
      split
      · exact parked.trans (State.rests_updThread _ p fun _ none => none)
      · exact parked.trans (State.rests_updTeam _ p fun t => Team.rests_of_issues rfl)

theorem State.rests_debugRest : s.Rests (s.debugRest p) := by
  unfold State.debugRest
  split
  · split
    · exact s.rests_restChaser _
    · exact State.Rests.refl s
  · exact State.Rests.refl s

end

/-! ### What the last of a team brings about (R56, R82, R167, R168) -/

section
variable (s : State) (p : Party)

theorem State.rests_barComplete (crew k : Nat) : s.Rests (s.barComplete crew k) := by
  unfold State.barComplete
  split
  · exact State.Rests.refl s
  · dsimp only
    split
    · exact State.Rests.refl s
    · refine State.Rests.trans ?_ (State.rests_foldl (fun u e => ?_) ..)
      · exact s.rests_updCrew_of_teams crew fun _ => rfl
      split
      · exact (u.rests_updCopies _ fun t => t.rests_releaseBar k 0).trans
          (State.rests_of_muster (Claims.muster_invalidateAt ..))
      · exact State.Rests.refl u

theorem State.rests_abandonBars (crew : Nat) : s.Rests (s.abandonBars crew) := by
  have free (t : Team) : t.Rests ((List.range 16).foldl (fun t k => t.releaseBar k 1) t) :=
    Team.rests_foldl (fun u k => u.rests_releaseBar k 1) _ t
  unfold State.abandonBars
  extract_lets each s1
  have crews : s.Rests s1 := s.rests_updCrew crew fun c =>
    Tbl.From.map (f := fun e => (e.1, each e.2)) (fun _ => rfl) (fun e => free e.2) c.teams
  refine ⟨crews.crews, ?_⟩
  · refine Tbl.From.map (fun e => ?_) (fun e => ?_) s.pairs <;> split
    · rfl
    · rfl
    · exact free e.2.trail
    · exact Pair.Rests.refl e.2

theorem State.rests_abandonTree (launch : Nat) : s.Rests (s.abandonTree launch) := by
  unfold State.abandonTree
  split
  · exact State.Rests.refl s
  · refine ⟨Tbl.From.map (fun e => ?_) (fun e => ?_) s.crews, Tbl.From.map (fun e => ?_) (fun e => ?_) s.pairs⟩ <;> split
    · rfl
    · rfl
    · exact Tbl.From.map (f := fun e => (e.1, e.2.releaseTree)) (fun _ => rfl) (fun t => t.2.rests_releaseTree) e.2.teams
    · exact Crew.Rests.refl e.2
    · rfl
    · rfl
    · exact e.2.trail.rests_releaseTree
    · exact Pair.Rests.refl e.2

theorem State.rests_treeArrive (crew : Nat) : s.Rests (s.treeArrive crew) := by
  unfold State.treeArrive
  split
  · exact State.Rests.refl s
  · split
    · exact State.Rests.refl s
    · split
      · exact State.Rests.refl s
      · exact State.Rests.trans (s.rests_updCrew_of_teams crew (f := fun c => { c with tree := [], treeArrived := some .gbar })
          fun _ => rfl) (State.rests_of_tables rfl rfl)

theorem State.rests_acceptCopy (op : CopyOp) : s.Rests (s.acceptCopy op) := by
  unfold State.acceptCopy
  split
  · exact State.Rests.refl s
  · refine State.Rests.trans ?_ (State.rests_foldl (fun u sl => u.rests_updCopies _ fun t => Team.rests_of_issues ?_) ..)
    · exact State.rests_of_tables rfl rfl
    · rfl

theorem State.rests_acceptReady (crew : Nat) : s.Rests (s.acceptReady crew) := by
  unfold State.acceptReady
  split
  · exact State.Rests.refl s
  · refine State.Rests.trans ?_ (State.rests_foldl (fun u op => u.rests_acceptCopy op) ..)
    exact s.rests_updCrew_of_teams crew fun _ => rfl

theorem State.rests_dropPair : s.Rests (s.dropPair p) := by
  unfold State.dropPair
  split
  · exact State.Rests.refl s
  · refine (s.rests_dropClause { p with kind := .trail }).trans ?_
    exact ⟨Tbl.From.refl Crew.Rests.refl _, Tbl.From.del Pair.Rests.refl _ _⟩

theorem State.rests_cancelCupel (crew team : Nat) : s.Rests (s.cancelCupel crew team) := by
  unfold State.cancelCupel
  split
  · exact State.Rests.refl s
  · refine State.Rests.trans ?_ (State.rests_updCrew_of_teams _ crew fun _ => rfl)
    exact State.rests_of_tables rfl rfl

theorem State.rests_keepSources (crew : Nat) : s.Rests (s.keepSources crew) := by
  unfold State.keepSources
  split
  · exact State.Rests.refl s
  · dsimp only
    split
    · exact State.Rests.refl s
    · exact State.rests_of_tables rfl rfl

theorem State.rests_freeCrew (crew : Nat) (st : CrewState) : s.Rests (s.freeCrew crew st) := by
  unfold State.freeCrew
  split
  · exact State.Rests.refl s
  · extract_lets s1 s2 s3 s4
    have marked : s.Rests s1 := s.rests_updCrew_of_teams crew fun _ => rfl
    have disowned : s1.Rests s2 := by refine State.rests_foldl (fun u g => State.rests_of_tables ?_ ?_) .. <;> rfl
    have vacated : s2.Rests s3 := by refine State.rests_foldl (fun u i => State.rests_of_tables ?_ ?_) .. <;> rfl
    have unpinned : s3.Rests s4 := by
      unfold s4
      split
      · exact State.Rests.refl s3
      · exact State.rests_of_tables rfl rfl
    exact marked.trans (disowned.trans (vacated.trans (unpinned.trans (State.rests_of_tables rfl rfl))))

theorem State.rests_freeTrack (core launch : Nat) : s.Rests (s.freeTrack core launch) := by
  unfold State.freeTrack
  split
  · exact State.Rests.refl s
  · split
    · exact State.rests_of_tables rfl rfl
    · exact State.Rests.refl s

theorem State.rests_retireCrew (crew : Nat) : s.Rests (s.retireCrew crew) := by
  unfold State.retireCrew
  split
  · exact State.Rests.refl s
  · split
    · exact State.Rests.refl s
    · exact (s.rests_keepSources crew).trans ((State.rests_freeCrew ..).trans (State.rests_freeTrack ..))

theorem State.rests_retireTeam : s.Rests (s.retireTeam p) := by
  unfold State.retireTeam
  split
  · exact State.Rests.refl s
  · split
    · exact State.Rests.refl s
    · next t _ _ =>
      extract_lets s1 s2 s3 s4 s5 s6
      have settled : s.Rests s1 := (s.rests_dropClause p).trans
        ((State.rests_settleParty _ p).trans (State.rests_settleParty _ { p with kind := .chaser }))
      have written : s1.Rests s2 := State.rests_of_muster (s1.muster_writeBack ..)
      have left : s2.Rests s3 := s2.rests_updTeam p fun t k _ => by cases k <;> rfl
      have passed : s3.Rests s4 := State.rests_foldl (fun u k => u.rests_barComplete p.crew k) ..
      have went : s4.Rests s6 := (s4.rests_treeArrive p.crew).trans
        ((State.rests_acceptReady _ p.crew).trans (State.rests_dropPair _ p))
      have retired := settled.trans (written.trans (left.trans (passed.trans went)))
      split
      · exact retired
      · split
        · exact retired.trans (s6.rests_retireCrew p.crew)
        · exact retired

theorem State.rests_haltTeam : s.Rests (s.haltTeam p) := by
  unfold State.haltTeam
  split
  · exact State.Rests.refl s
  · extract_lets lead s1 s2 s3 s4
    have dropped : s.Rests s2 := (State.rests_of_tables rfl rfl : s.Rests s1).trans
      ((s1.rests_dropClause p).trans (State.rests_dropClause _ lead))
    have halted : s2.Rests s3 := s2.rests_updTeam lead fun t => Team.rests_of_issues rfl
    have unblocked : s3.Rests ((s3.cancelCupel p.crew p.team).unblockCopies p.crew p.team) :=
      (s3.rests_cancelCupel p.crew p.team).trans (State.rests_of_tables rfl rfl)
    have abandoned : s3.Rests s4 := unblocked.trans (State.rests_abandonBars _ p.crew)
    exact dropped.trans (halted.trans (abandoned.trans ((s4.rests_abandonTree _).trans (State.rests_retireTeam _ lead))))

theorem State.rests_haltFor (c : HaltCause) : s.Rests (s.haltFor c p) :=
  State.Rests.trans (s.rests_updTeam { p with kind := .team } (f := fun t => { t with haltCause := t.haltCause.or (some c) })
    fun _ => Team.rests_of_issues rfl) (State.rests_haltTeam _ p)

end

/-! ### A party that has ended its instruction holds the slot no more (R89) -/

section
variable {s t : State} {p : Party}

/-- The clause of a party in progress, if it has one, holds the issue slot for no reason. -/
def State.Unheld (s : State) (p : Party) : Prop := ∀ t c, s.team? p = some t → (t.thread p.kind).issue = some c → c.hold = none

/-- A party of a team has no clause in progress. -/
def State.Idle (s : State) (p : Party) : Prop := ∀ t, s.team? p = some t → (t.thread p.kind).issue = none

theorem State.Idle.unheld (idle : s.Idle p) : s.Unheld p := by
  intro t c team issue
  rw [idle t team] at issue
  cases issue

theorem State.Rests.idle (rests : s.Rests t) (idle : s.Idle p) : t.Idle p := by
  intro u team
  by_cases trail : p.kind = .trail
  · rw [team?_of_trail trail] at team
    obtain ⟨r, there, rfl⟩ := Option.map_eq_some_iff.mp team
    obtain ⟨q, before, qr⟩ := rests.pairs _ r there
    exact qr _ (idle q.trail (by rw [team?_of_trail trail, before]; rfl))
  · rw [team?_of_kind trail] at team
    obtain ⟨d, there, member⟩ := Option.bind_eq_some_iff.mp team
    obtain ⟨c, before, cd⟩ := rests.crews _ d there
    obtain ⟨m, was, mu⟩ := cd _ u member
    exact mu _ (idle m (by rw [team?_of_kind trail, before, Option.bind_some, was]))

theorem State.idle_of_absent (absent : s.team? p = none) : s.Idle p := by
  intro t team
  rw [absent] at team
  cases team

theorem State.idle_of_team {m : Team} (team : s.team? p = some m) (none : (m.thread p.kind).issue = none) : s.Idle p := by
  intro t there
  obtain rfl := Option.some.inj (team.symm.trans there)
  exact none

theorem State.idle_dropClause (s : State) (p : Party) : (s.dropClause p).Idle p := by
  unfold State.dropClause
  split
  · next absent => exact State.idle_of_absent absent
  · next t there =>
    have dropped := team?_setTeam (t.setThread p.kind { t.thread p.kind with issue := none, latches := [] }) there
    refine State.idle_of_team (Eq.trans ?_ dropped) (by rw [setThread_thread])
    dsimp only
    split <;> rfl

theorem State.unheld_endClause (s : State) (p : Party) : (s.endClause p).Unheld p := by
  refine State.Idle.unheld ?_
  unfold State.endClause
  split
  · next absent => exact State.idle_of_absent absent
  · next t there =>
    split
    · next none => exact State.idle_of_team there none
    · extract_lets n pc s1 s2 s3
      have ended : s3.Idle p := s2.idle_dropClause p
      split
      · exact (s3.rests_haltFor p .halted).idle ended
      · split
        · exact ended
        · split
          · exact (s3.rests_retireTeam p).idle ended
          · exact (s3.rests_debugRest p).idle ended

/-- A completed instruction holds the slot no more, whatever it has done before. -/
theorem State.unheld_advance (x : Exe) (s : State) : (advance x s).Unheld x.p := by
  unfold advance
  extract_lets v
  split
  · next absent => exact State.Idle.unheld (State.idle_of_absent absent)
  · next t there =>
    split
    · next none => exact State.Idle.unheld (State.idle_of_team there none)
    · next cl issue =>
      extract_lets pos
      split
      · exact v.unheld_endClause x.p
      · intro u c team now
        obtain rfl := Option.some.inj ((team?_updThread _ there).symm.trans team)
        rw [setThread_thread, issue] at now
        cases now
        rfl

theorem State.Unheld.queueHold (unheld : s.Unheld p) : s.queueHold p = none := by
  refine Option.bind_eq_none_iff.mpr fun ⟨i, x⟩ standing => ?_
  unfold State.standing? at standing
  split at standing
  · cases standing
  · next t team =>
    split at standing
    · cases standing
    · next c issue =>
      split at standing
      · cases standing
      · obtain ⟨y, issuer, same⟩ := Option.map_eq_some_iff.mp standing
        obtain ⟨turn, -, team', -, thread, clause, -⟩ := issuer_cases issuer
        cases same
        cases turn
        dsimp only
        rw [unheld _ _ team' (thread ▸ clause)]

end

end Sys2Proof.Machine
end

section
/-! QPUSH, QPOP and QUEUE_UNBLOCK (R88, R89, R223, R262). -/

namespace Sys2Proof.Machine

open Sys2Proof Sys2Proof.Claims

/-! ### One move (R89, R262) -/

section
variable {x : Exe} {s : State}

theorem pushQ_eq (x : Exe) : pushQ x = x.pushField := by
  simp [pushQ, Exe.pushField, base, BitVec.extractLsb'_toNat]

theorem popQ_eq (x : Exe) : popQ x = x.popField := by
  simp [popQ, Exe.popField, base, BitVec.extractLsb'_toNat]

theorem heldIn_eq (x : Exe) (s : State) (q : Nat) : heldIn s x.p q = x.held s q := by
  unfold heldIn Exe.held
  cases s.team? x.p <;> rfl

theorem pushMove_of_room {vals : List DWord} (lead : x.starvedLead s = false)
    (room : x.held s x.pushField + vals.length ≤ 32) : pushMove x vals s = .ok (pushQueue x x.pushField vals s) := by
  have fits : ¬x.room s x.pushField < vals.length := by
    unfold Exe.room
    split <;> omega
  rw [pushMove, if_neg (Bool.eq_false_iff.mp lead), if_neg fits]

theorem pushMove_of_full {e : DWord} (lead : x.starvedLead s = false) (kind : x.p.kind ≠ .trail)
    (full : x.held s x.pushField = 32) : pushMove x [e] s = .error (.hold .queue) := by
  have leads : ¬x.trails = true := by simpa [Exe.trails] using kind
  rw [pushMove, if_neg (Bool.eq_false_iff.mp lead), Exe.room, if_neg leads, full, if_pos (by simp)]

theorem pushMove_of_starved {vals : List DWord} (lead : x.starvedLead s = true) :
    pushMove x vals s = .error (.trap (x.trapOf .queueStarved)) := if_pos lead

theorem popMove_of_held {n : Nat} (lead : x.starvedLead s = false) (held : n ≤ x.held s x.popField) :
    popMove x n s = .ok (popQueue x x.popField n s) := by
  rw [popMove, if_neg (Bool.eq_false_iff.mp lead), if_pos held]

theorem popMove_of_empty (lead : x.starvedLead s = false) (kind : x.p.kind ≠ .trail) (empty : x.held s x.popField = 0) :
    popMove x 1 s = .error (if x.team.starved (x.team.queue x.popField).role then .trap (x.trapOf .queueStarved)
      else .hold .queue) := by
  have leads : x.trails = false := by simpa [Exe.trails] using kind
  rw [popMove, if_neg (Bool.eq_false_iff.mp lead), empty, if_neg (by decide), leads]
  simp only [Bool.not_false, decide_true, Bool.and_self, Bool.true_and]
  split <;> rfl

theorem popMove_of_starved {n : Nat} (lead : x.starvedLead s = true) :
    popMove x n s = .error (.trap (x.trapOf .queueStarved)) := if_pos lead

end

/-! ### The forms of one entry (R262) -/

/-- What QPUSH and QPOP make of a state in which they go. -/
def pushResult (x : Exe) (u : State) : State × Option Stop :=
  if x.parts.s ≤ 1 then
    match pushMove x [if x.parts.s = 0 then (x.s x.parts.a).setWidth 64 else x.pair x.parts.a] u with
    | .ok v => (setResult x .none v, none)
    | .error (.trap t) => (noteStarved x u, some (.trap t))
    | .error k => (u, some k)
  else
    let r := runPasses x (fun g v => (pushMove x (passVals x g) v).map (noteMoved x (passVals x g))) x.passesLeft u
    match r.2 with
    | none => (setResult x .none r.1, none)
    | some (.trap t) => (noteStarved x r.1, some (.trap t))
    | some k => (r.1, some k)

def popResult (x : Exe) (u : State) : State × Option Stop :=
  if x.parts.s ≤ 1 then
    match popMove x 1 u with
    | .error (.trap t) => (noteStarved x u, some (.trap t))
    | .error k => (u, some k)
    | .ok (es, v) =>
      (if x.parts.s = 0 then writeScalar x x.parts.d (es.getD 0 0).lo v else storePair x (es.getD 0 0) v, none)
  else match runPasses x (popPass x) x.passesLeft u with
    | (v, none) => (popLanes x v, none)
    | (v, some (.trap t)) => (noteStarved x (unmove x false x.popField v), some (.trap t))
    | (v, some k) => (v, some k)

theorem exec_qpush (f : RRS) (s : State) : exec (.qpush f) s = performPasses (.qpush f) pushCheck pushResult s := rfl
theorem exec_qpop (f : RRS) (s : State) : exec (.qpop f) s = performPasses (.qpop f) popCheck popResult s := rfl

section
variable {x : Exe} {u : State}

theorem pushResult_of_room (one : x.parts.s ≤ 1) (lead : x.starvedLead u = false) (room : x.held u x.pushField < 32) :
    pushResult x u = (pushOne x u, none) := by
  rw [pushResult, if_pos one, pushMove_of_room lead (by simpa using room), pushOne, pushQ_eq]

theorem pushResult_of_full (one : x.parts.s ≤ 1) (lead : x.starvedLead u = false) (kind : x.p.kind ≠ .trail)
    (full : x.held u x.pushField = 32) : pushResult x u = (u, some (.hold .queue)) := by
  rw [pushResult, if_pos one, pushMove_of_full lead kind full]

theorem pushResult_of_starved (one : x.parts.s ≤ 1) (lead : x.starvedLead u = true) :
    pushResult x u = (noteStarved x u, some (.trap (x.trapOf .queueStarved))) := by
  rw [pushResult, if_pos one, pushMove_of_starved lead]

theorem popResult_of_held (one : x.parts.s ≤ 1) (lead : x.starvedLead u = false) (held : 1 ≤ x.held u x.popField) :
    popResult x u = (popOne x u, none) := by
  rw [popResult, if_pos one, popMove_of_held lead held, popOne, popQ_eq]

theorem popResult_of_empty (one : x.parts.s ≤ 1) (lead : x.starvedLead u = false) (kind : x.p.kind ≠ .trail)
    (empty : x.held u x.popField = 0) : popResult x u =
      if x.team.starved (x.team.queue x.popField).role then (noteStarved x u, some (.trap (x.trapOf .queueStarved)))
      else (u, some (.hold .queue)) := by
  rw [popResult, if_pos one, popMove_of_empty lead kind empty]
  by_cases starves : x.team.starved (x.team.queue x.popField).role = true <;> simp only [starves] <;> rfl

theorem popResult_of_starved (one : x.parts.s ≤ 1) (lead : x.starvedLead u = true) :
    popResult x u = (noteStarved x u, some (.trap (x.trapOf .queueStarved))) := by
  rw [popResult, if_pos one, popMove_of_starved lead]

end

/-! ### The lane-distributed forms of one pass (R89, R262) -/

section
variable {x : Exe} {u : State} {g : Nat}

/-- A pass notes what it has moved and that it is done: one change of the clause in progress. -/
theorem noteMoved_then_moved (x : Exe) (es : List DWord) (u : State) :
    ((noteMoved x es u).updClause x.p fun c => { c with moved := c.moved + 1 }) = passDone x es u := by
  rw [noteMoved, passDone, State.updClause, State.updClause, updThread_updThread]
  simp only [Option.map_map]
  rfl

theorem passesLeft_of_unmoved (unmoved : x.cl.moved = 0) : x.passesLeft = x.passes := by
  rw [Exe.passesLeft, unmoved, List.drop_zero]

theorem pushResult_of_pass (many : 2 ≤ x.parts.s) (lead : x.starvedLead u = false) (pass : x.passes = [g])
    (unmoved : x.cl.moved = 0) (room : x.held u x.pushField + (passVals x g).length ≤ 32) :
    pushResult x u = (pushPass x g u, none) := by
  rw [pushResult, if_neg (by omega), passesLeft_of_unmoved unmoved, pass, pushPass, pushQ_eq, ← noteMoved_then_moved]
  simp only [runPasses, pushMove_of_room lead room, Except.map]

/-- A change of a pair keeps, in every team, whatever it keeps of the trailing copy. -/
theorem map_team?_updPair {β : Type} (π : Team → β) {f : Pair → Pair} (keeps : ∀ r, π (f r).trail = π r.trail) (s : State)
    (p q : Party) : ((s.updPair p f).team? q).map π = (s.team? q).map π := by
  by_cases trail : q.kind = .trail
  · rw [team?_of_trail trail, team?_of_trail trail, Option.map_map, Option.map_map]
    exact Tbl.map_get?_upd _ (fun r _ => keeps r) _
  · rw [team?_of_kind trail, team?_of_kind trail]
    rfl

theorem Team.issues_feedStatus (t : Team) : t.feedStatus.issues = t.issues := by
  unfold Team.feedStatus
  split <;> rfl

/-- Popping leaves every clause in progress. -/
theorem issues_popQueue (x : Exe) (q n : Nat) (s : State) (p : Party) :
    ((popQueue x q n s).2.team? p).map Team.issues = (s.team? p).map Team.issues := by
  unfold popQueue
  split
  · rfl
  · next t team =>
    extract_lets k es s1
    have popped : (s1.team? p).map Team.issues = (s.team? p).map Team.issues :=
      map_team?_updTeam Team.issues (fun t => by
        dsimp only
        split
        · exact Team.issues_feedStatus _
        · rfl) s x.p p
    dsimp only
    split
    · exact popped
    · exact (map_team?_updPair Team.issues (by intro r; rfl) s1 x.p p).trans popped

/-- The entries that the party's clause in progress has moved. -/
theorem taken_eq (p : Party) (s : State) : ((s.team? p).bind fun t => (t.thread p.kind).issue).map (·.taken) =
    ((s.team? p).map Team.issues).bind fun i => (match p.kind with | .chaser => i.2 | _ => i.1).map Clause.taken := by
  cases s.team? p with
  | none => rfl
  | some t => exact congrArg (Option.map Clause.taken) (t.issue_of_issues p.kind)

theorem nothingMoved_popQueue (fresh : NothingMoved x u) (q n : Nat) : NothingMoved x (popQueue x q n u).2 := by
  refine ⟨fresh.1, ?_⟩
  rw [taken_eq, issues_popQueue, ← taken_eq]
  exact fresh.2

theorem movedSoFar_passDone (fresh : NothingMoved x u) (es : List DWord) : x.movedSoFar (passDone x es u) = es := by
  obtain ⟨c, issue, none⟩ := Option.map_eq_some_iff.mp fresh.2
  obtain ⟨t, team, clause⟩ := Option.bind_eq_some_iff.mp issue
  unfold Exe.movedSoFar passDone State.updClause
  rw [team?_updThread _ team]
  simp [clause, none]

theorem popResult_of_pass (many : 2 ≤ x.parts.s) (lead : x.starvedLead u = false) (pass : x.passes = [g])
    (fresh : NothingMoved x u) (held : (x.passLanesOf g).length ≤ x.held u x.popField) :
    popResult x u = (popPassOf x g u, none) := by
  have moved := movedSoFar_passDone (nothingMoved_popQueue fresh x.popField (x.passLanesOf g).length)
    (popQueue x x.popField (x.passLanesOf g).length u).1
  rw [popResult, if_neg (by omega), passesLeft_of_unmoved fresh.1, pass]
  simp only [runPasses, popPass, popMove_of_held lead held, Except.map, noteMoved_then_moved, popLanes, moved]
  rw [popPassOf, popQ_eq]
  rfl

end

/-! ### A push of several passes (R89, R262) -/

section
variable {x : Exe} {u : State}

/-- Each lane is of one pass. -/
theorem sum_length_filter_strand_le (lanes : List Nat) (gs : List Nat) (distinct : gs.Nodup) :
    (gs.map fun g => (lanes.filter fun l => l / 32 == g).length).sum ≤ lanes.length := by
  induction gs generalizing lanes with
  | nil => exact Nat.zero_le _
  | cons g gs ih =>
    obtain ⟨fresh, distinct⟩ := List.nodup_cons.mp distinct
    have others : (gs.map fun h => (lanes.filter fun l => l / 32 == h).length) =
        gs.map fun h => ((lanes.filter fun l => !(l / 32 == g)).filter fun l => l / 32 == h).length := by
      refine List.map_congr_left fun h mem => congrArg List.length ?_
      rw [List.filter_filter]
      refine List.filter_congr fun l _ => ?_
      have apart : h ≠ g := fun same => fresh (same ▸ mem)
      by_cases here : l / 32 = h <;> simp [here, apart]
    rw [List.map_cons, List.sum_cons, others, List.length_eq_length_filter_add (l := lanes) fun l => l / 32 == g]
    exact Nat.add_le_add_left (ih _ distinct) _

/-- What a change of a team, a trailing copy among them, leaves of the pairs. -/
theorem map_pair_updTeam {β : Type} (π : Pair → β) (keeps : ∀ q t, π { q with trail := t } = π q) (s : State) (p : Party)
    (f : Team → Team) (k : Nat) : ((s.updTeam p f).pairs.get? k).map π = (s.pairs.get? k).map π := by
  cases team : s.team? p with
  | none => rw [updTeam_of_none f team]
  | some t =>
    rw [updTeam_of_some f team]
    unfold State.setTeam
    split
    · exact Tbl.map_get?_upd π (fun q _ => keeps q _) k
    · rfl

/-- Whether a push of some entries goes on: nothing starves, no pair checks it, and there is room. -/
structure PushesOn (x : Exe) (n : Nat) (s : State) : Prop where
  lead : x.starvedLead s = false
  alone : (x.pair? s).isNone
  room : x.held s x.pushField + n ≤ 32

theorem pushQueue_alone {q : Nat} {vals : List DWord} (role : (x.team.queue q).role ≠ 5) (alone : (x.pair? u).isNone) :
    pushQueue x q vals u = if x.trails then u else u.updTeam x.p fun t =>
      t.setQueue q { t.queue q with entries := (t.queue q).entries ++ vals } := by
  unfold pushQueue
  simp only [if_neg role, if_pos alone]

theorem starvedLead_updTeam (x : Exe) (s : State) (p : Party) (f : Team → Team) :
    x.starvedLead (s.updTeam p f) = x.starvedLead s := by
  have same := map_pair_updTeam (fun q => (q.traps.drop q.trapsTaken, q.trailDone)) (fun _ _ => rfl) s p f
    (pairKey x.p.crew x.p.team)
  have view (s : State) : x.starvedLead s =
      (x.trails && ((s.pairs.get? (pairKey x.p.crew x.p.team)).map fun q => (q.traps.drop q.trapsTaken, q.trailDone)).any fun v =>
        v.1.head?.any fun e => e.1 ≤ v.2 && e.2.cause == .queueStarved && e.2.tpc == x.cl.hdr && e.2.pos == x.cl.pos) := by
    unfold Exe.starvedLead State.pair
    cases s.pairs.get? (pairKey x.p.crew x.p.team) <;> rfl
  rw [view, view, same]

theorem isNone_pair?_updTeam (x : Exe) (s : State) (p : Party) (f : Team → Team) :
    (x.pair? (s.updTeam p f)).isNone = (x.pair? s).isNone := by
  have same := congrArg Option.isNone (map_pair_updTeam (fun _ => ()) (fun _ _ => rfl) s p f (pairKey x.p.crew x.p.team))
  unfold Exe.pair?
  split
  · rfl
  · simpa using same

/-- A change of the team that adds at most `k` entries takes at most `k` of the room. -/
theorem PushesOn.updTeam {n k : Nat} (on : PushesOn x (k + n) u) {f : Team → Team}
    (grows : ∀ t, ((f t).queue x.pushField).entries.length ≤ (t.queue x.pushField).entries.length + k) :
    PushesOn x n (u.updTeam x.p f) where
  lead := (starvedLead_updTeam x u x.p f).trans on.lead
  alone := (isNone_pair?_updTeam x u x.p f).trans on.alone
  room := by
    have room := on.room
    unfold Exe.held at room ⊢
    cases team : u.team? x.p with
    | none =>
      rw [updTeam_of_none f team, team]
      show 0 + n ≤ 32
      omega
    | some t =>
      rw [team] at room
      rw [team?_updTeam f team]
      have grown := grows t
      dsimp only at room ⊢
      omega

theorem length_queue_setQueue_le (t : Team) (q : Nat) (k : Queue) :
    ((t.setQueue q k).queue q).entries.length ≤ k.entries.length := by
  unfold Team.setQueue Team.queue
  by_cases inside : q < 16
  · simp [inside]
  · simp [inside]

theorem PushesOn.pass {n : Nat} {es : List DWord} (role : (x.team.queue x.pushField).role ≠ 5)
    (on : PushesOn x (es.length + n) u) : PushesOn x n (passDone x es (pushQueue x x.pushField es u)) := by
  refine PushesOn.updTeam (k := 0) ?_ fun t => by cases x.p.kind <;> exact Nat.le_refl _
  rw [pushQueue_alone role on.alone, Nat.zero_add]
  split
  · exact ⟨on.lead, on.alone, by have := on.room; omega⟩
  · refine PushesOn.updTeam on fun t => (length_queue_setQueue_le ..).trans ?_
    simp

theorem runPasses_push (role : (x.team.queue x.pushField).role ≠ 5) (gs : List Nat)
    (on : PushesOn x (gs.map fun g => (passVals x g).length).sum u) : ∃ v,
      runPasses x (fun g v => (pushMove x (passVals x g) v).map (noteMoved x (passVals x g))) gs u = (v, none) := by
  induction gs generalizing u with
  | nil => exact ⟨u, rfl⟩
  | cons g gs ih =>
    rw [List.map_cons, List.sum_cons] at on
    obtain ⟨v, rest⟩ := ih (on.pass role)
    refine ⟨v, ?_⟩
    rw [runPasses, pushMove_of_room on.lead (by have := on.room; omega)]
    simp only [Except.map, noteMoved_then_moved]
    exact rest

theorem pushResult_of_passes (many : 2 ≤ x.parts.s) (lead : x.starvedLead u = false) (unmoved : x.cl.moved = 0)
    (role : (x.team.queue x.pushField).role ≠ 5) (alone : x.pair? u = none)
    (room : x.held u x.pushField + x.lanes.length ≤ 32) : ∃ v, pushResult x u = (v, none) := by
  have fits : (x.passes.map fun g => (passVals x g).length).sum ≤ x.lanes.length := by
    simpa [passVals] using sum_length_filter_strand_le x.lanes x.passes (List.nodup_range.filter _)
  obtain ⟨v, done⟩ := runPasses_push role x.passes ⟨lead, by rw [alone]; rfl, by omega⟩
  refine ⟨setResult x .none v, ?_⟩
  rw [pushResult, if_neg (by omega), passesLeft_of_unmoved unmoved, done]

end

end Sys2Proof.Machine

namespace Sys2Proof.Claims

open Sys2Proof Sys2Proof.Machine

/-! ### QPUSH, QPOP and QUEUE_UNBLOCK (R89, R223, R262) -/

section
variable {i : Instr} {oc : Exe → State → Option Cause} {body : Exe → State → State × Option Stop} {s u v : State} {x : Exe}

theorem GoesFrom.exec_done (goes : GoesFrom i oc s x u) (run : exec i s = performPasses i oc body s)
    (done : body x u = (v, none)) : exec i s = .next (advance x v) := by
  obtain ⟨x0, issuer, ready⟩ := goes
  exact run.trans (performPasses_go issuer ready done)

theorem GoesFrom.exec_stop {k : Stop} (goes : GoesFrom i oc s x u) (run : exec i s = performPasses i oc body s)
    (stops : body x u = (v, some k)) : exec i s = .next (stopWith x k v) := by
  obtain ⟨x0, issuer, ready⟩ := goes
  exact run.trans (performPasses_stop issuer ready stops)

/-- The party that goes is the one whose turn it is. -/
theorem GoesFrom.turn (goes : GoesFrom i oc s x u) : s.turn = some x.p := by
  obtain ⟨x0, issuer, ready⟩ := goes
  rw [(prepare_go_view ready).1, refresh_p]
  exact (issuer_cases issuer).1

end

section
variable {f : RRS} {s u : State} {x : Exe}

theorem qpush_results (goes : GoesFrom (.qpush f) pushCheck s x u) :
    (x.starvedLead u = false →
      (x.parts.s ≤ 1 → heldIn u x.p (pushQ x) < 32 → exec (.qpush f) s = .next (advance x (pushOne x u))) ∧
      (∀ g, 2 ≤ x.parts.s → x.passes = [g] → x.cl.moved = 0 → heldIn u x.p (pushQ x) + (passVals x g).length ≤ 32 →
        exec (.qpush f) s = .next (advance x (pushPass x g u))) ∧
      (2 ≤ x.parts.s → x.cl.moved = 0 → (x.team.queue (pushQ x)).role ≠ 5 → x.pair? u = none →
        heldIn u x.p (pushQ x) + x.lanes.length ≤ 32 → ∃ v, exec (.qpush f) s = .next (advance x v)) ∧
      (x.parts.s ≤ 1 → heldIn u x.p (pushQ x) = 32 → x.p.kind ≠ .trail → exec (.qpush f) s = .next (heldAtQueue x u))) ∧
    (x.starvedLead u = true → x.parts.s ≤ 1 → exec (.qpush f) s =
      .next (takeTrap x.p x.cl.path (x.trapOf .queueStarved) (noteStarved x u))) := by
  have run := exec_qpush f s
  rw [heldIn_eq, pushQ_eq]
  refine ⟨fun lead => ⟨fun one room => ?_, fun g many pass unmoved room => ?_, fun many unmoved role alone room => ?_,
    fun one full kind => ?_⟩, fun lead one => ?_⟩
  · exact goes.exec_done run (pushResult_of_room one lead room)
  · exact goes.exec_done run (pushResult_of_pass many lead pass unmoved room)
  · obtain ⟨v, done⟩ := pushResult_of_passes many lead unmoved role alone room
    exact ⟨v, goes.exec_done run done⟩
  · exact goes.exec_stop run (pushResult_of_full one lead kind full)
  · exact goes.exec_stop run (pushResult_of_starved one lead)

theorem qpop_results (goes : GoesFrom (.qpop f) popCheck s x u) :
    (x.starvedLead u = false →
      (x.parts.s ≤ 1 → 1 ≤ heldIn u x.p (popQ x) → exec (.qpop f) s = .next (advance x (popOne x u))) ∧
      (∀ g, 2 ≤ x.parts.s → x.passes = [g] → NothingMoved x u →
        (x.lanes.filter fun l => l / 32 == g).length ≤ heldIn u x.p (popQ x) →
        exec (.qpop f) s = .next (advance x (popPassOf x g u))) ∧
      (x.parts.s ≤ 1 → heldIn u x.p (popQ x) = 0 → x.p.kind ≠ .trail → exec (.qpop f) s = .next
        (if x.team.starved (x.team.queue (popQ x)).role
         then takeTrap x.p x.cl.path (x.trapOf .queueStarved) (noteStarved x u) else heldAtQueue x u))) ∧
    (x.starvedLead u = true → x.parts.s ≤ 1 → exec (.qpop f) s =
      .next (takeTrap x.p x.cl.path (x.trapOf .queueStarved) (noteStarved x u))) := by
  have run := exec_qpop f s
  rw [heldIn_eq, popQ_eq]
  refine ⟨fun lead => ⟨fun one held => ?_, fun g many pass fresh held => ?_, fun one empty kind => ?_⟩, fun lead one => ?_⟩
  · exact goes.exec_done run (popResult_of_held one lead held)
  · exact goes.exec_done run (popResult_of_pass many lead pass fresh held)
  · have result := popResult_of_empty one lead kind empty
    by_cases starves : x.team.starved (x.team.queue x.popField).role = true
    · rw [if_pos starves] at result ⊢
      exact goes.exec_stop run result
    · rw [if_neg starves] at result ⊢
      exact goes.exec_stop run result
  · exact goes.exec_stop run (popResult_of_starved one lead)

end

section
variable {p : Party} {f : RRS} {s u : State} {x0 x : Exe} {since : DWord}

theorem unblock_push {v : State} (held : s.queueHold p = some (.qpush f, x0, since))
    (goes : GoesFrom (.qpush f) pushCheck { s with turn := some p } x u)
    (moves : exec (.qpush f) { s with turn := some p } = .next (advance x v)) :
    exec (.queueUnblock p) s = .next (advance x v) := by
  obtain rfl : p = x.p := Option.some.inj goes.turn
  exact exec_queueUnblock_push held moves (State.unheld_advance x v).queueHold

theorem unblock_pop {v : State} (held : s.queueHold p = some (.qpop f, x0, since))
    (goes : GoesFrom (.qpop f) popCheck { s with turn := some p } x u)
    (moves : exec (.qpop f) { s with turn := some p } = .next (advance x v)) :
    exec (.queueUnblock p) s = .next (advance x v) := by
  obtain rfl : p = x.p := Option.some.inj goes.turn
  exact exec_queueUnblock_pop held moves (State.unheld_advance x v).queueHold

end

/-- Settles O29: each form is one run of its moves, and an instruction that completes holds the slot no more, so that
QUEUE_UNBLOCK ends where the push or pop does. -/
theorem queueResults : Obligations.QueueResults := by
  refine ⟨fun f s x u => ⟨qpush_results, qpop_results⟩,
    fun p s f x0 since x u => ⟨fun held goes lead => ?_, fun held goes lead => ?_⟩⟩
  · obtain rfl : p = x.p := Option.some.inj goes.turn
    obtain ⟨one, pass, -⟩ := (qpush_results goes).1 lead
    exact ⟨fun s1 room => unblock_push held goes (one s1 room),
      fun g s2 only unmoved room => unblock_push held goes (pass g s2 only unmoved room)⟩
  · obtain rfl : p = x.p := Option.some.inj goes.turn
    obtain ⟨one, pass, -⟩ := (qpop_results goes).1 lead
    exact ⟨fun s1 entry => unblock_pop held goes (one s1 entry),
      fun g s2 only fresh entries => unblock_pop held goes (pass g s2 only fresh entries)⟩

end Sys2Proof.Claims
end
